-- ==== Sys2Proof/Word.lean ====
section
/-! DEFINITION. The word types of the block and the two plain containers of its state: a byte memory and a sparse table. -/

namespace Sys2Proof

/-- A byte. -/
abbrev Byte := BitVec 8

/-- A 16-bit status or command code (R14, R16). -/
abbrev Code := BitVec 16

/-- A sparse table keyed by a number, in one canonical form: keys strictly rising, and no entry whose value is what an
unlisted key reads as (see `Tab.get`). -/
abbrev Tab (α : Type) := List (Nat × α)

/-- A byte memory: address and byte pairs (`Host.Cell` is this pair type), in the canonical form of `Tab`. -/
abbrev Mem := List (Nat × BitVec 8)

/-- A finite set of numbers, written as a strictly rising list. -/
abbrev NSet := List Nat

end Sys2Proof
end

