-- ==== Sys2Proof/Config.lean ====
section
/-! DEFINITION. What the manual leaves open, as constants without a body: no proof can see their values (each is named in the assumption log). -/

namespace Sys2Proof.Config

/-- A fresh 64-bit value the manual does not state, numbered by the model's own counter (log 11, DESIGN CHOICE): attach credentials, consent
tokens, nonce words, random vectors, undefined bytes. -/
opaque freeValue : Nat → BitVec 64

/-- What a register or tile row that no live map names holds after a restore (R76 to R79: only live state is saved): the draw's
number and the word's place (log 11, DESIGN CHOICE). -/
opaque deadWord : Nat → Nat → BitVec 32

/-- SHAKE256 with a 32-byte output over a byte list (R445 names the function and leaves it to FIPS 202; log 9, DESIGN CHOICE). -/
opaque shake256 : List Byte → BitVec 256

/-- Whether an SLH-DSA signature over a message verifies under a public key (FIPS 205; log 9, DESIGN CHOICE). -/
opaque signatureOk : (publicKey message signature : List Byte) → Bool

/-- The SLH-DSA signature of the device's identity key over a body, byte by byte (log 9, DESIGN CHOICE). -/
opaque identitySignature : List Byte → Nat → Byte

/-- The digest of the identity public key: DEVICE_ID (R445; log 9, DESIGN CHOICE). -/
opaque deviceId : BitVec 256

/-- The bytes of the identity chain of R451 (certificate, then wrapping public key; log 9, DESIGN CHOICE). -/
opaque identityChainByte : Nat → Byte

/-- The length of the identity chain of R451 in bytes (log 9, DESIGN CHOICE). -/
opaque identityChainBytes : Nat

/-- The digest of the wrapping public key (R450; log 9, DESIGN CHOICE). -/
opaque wrappingKeyDigest : BitVec 256

/-- The digest of the vendor root public key, fused at manufacture (R445; log 9, DESIGN CHOICE). -/
opaque vendorRootDigest : BitVec 256

/-- The measurement of the boot ROM (R450; log 9, DESIGN CHOICE). -/
opaque romMeasurement : BitVec 256

/-- Whether an ML-KEM ciphertext with its wrapped key opens to a key, and the key (R453, R463; log 9, DESIGN CHOICE). -/
opaque unwrapKey : List Byte → Option (BitVec 256)

/-- Whether an owner, unlock or token bundle is rightly signed for a purpose over a nonce (R463, R464, R468): the bundle's
inner layout is not in the manual (log 9, DESIGN CHOICE). -/
opaque bundleOk : (purpose : Nat) → (owner : BitVec 256) → (nonce : BitVec 256) → (bundle : List Byte) → Bool

/-- The digest of the owner key that an OWNER_INSTALL bundle carries, its migration key and its minimum SVN (R463; log 9, DESIGN CHOICE). -/
opaque bundleOwner : List Byte → BitVec 256
@[inherit_doc bundleOwner] opaque bundleMigrationKey : List Byte → BitVec 256
@[inherit_doc bundleOwner] opaque bundleMinSvn : List Byte → BitVec 8

/-- A byte of a sealed facet image body (R379, R456: AES-256-GCM over a layout the manual does not give; log 16, DESIGN CHOICE). -/
opaque sealedByte : (image : BitVec 256) → Nat → Byte

/-- Bytes of intake state in a facet image (R379 gives "about 1 MiB" in an example only; log 16, DESIGN CHOICE). -/
opaque imageIntakeBytes : Nat

/-- A token that a model's step kernels generate: it depends only on the descriptor, the model and the shortlist (R287; log 17, DESIGN CHOICE).
Arguments: the model's digest and program, the descriptor bytes, the prompt bytes, the shortlist's area, the position. -/
opaque token : BitVec 256 → (program descriptor prompt shortlist : List Byte) → Nat → BitVec 32

/-- Which of the two bracketing FP32 values VEXP2, VLOG2 and VRSQ give (R107: fixed per input, not stated; log 10, DESIGN CHOICE). -/
opaque exp2Up : BitVec 32 → Bool
@[inherit_doc exp2Up] opaque log2Up : BitVec 32 → Bool
@[inherit_doc exp2Up] opaque rsqUp : BitVec 32 → Bool

/-- The length in bytes that the header of a compiled serving program states (R275: the program format is not in the manual;
log 17, DESIGN CHOICE). -/
opaque programBytes : List Byte → Nat

/-- The efficiency of the
power stages at a modelled load in W, in thousandths (R391: the curve is in module flash; log 18, DESIGN CHOICE). -/
opaque efficiency : Nat → Nat

/-- The leakage term of a die in mW from its fused table (R390): die, rail in mV, temperature (log 18, DESIGN CHOICE). -/
opaque leakage : Nat → Nat → Nat → Nat

/-- Conversion losses of the power stages at a cap in W (R396; log 18, DESIGN CHOICE). -/
opaque conversionLoss : Nat → Nat

/-- A byte of a training-state dump, a scan image or a private test's result, whose layout is the maker's own (R468; log 9, DESIGN CHOICE). -/
opaque debugByte : (object index : Nat) → Nat → Byte
@[inherit_doc debugByte] opaque debugBytes : (object index : Nat) → Nat

/-- The pseudo-channel, 0 to 63, that serves a line of its stack, by its number in the stack (R187, R199: the mapping is not stated; log 12,
DESIGN CHOICE). -/
opaque pseudoChannel : Nat → Nat

/-- The bank of its pseudo-channel and the row there that hold a line of its stack (R199, R201: not stated; log 12, DESIGN CHOICE). -/
opaque bankRow : Nat → Nat × Nat

/-- The messages that one virtual channel of an input holds, which is its credit (R164, R165: not stated; log 66, DESIGN CHOICE). -/
opaque channelDepth : Nat

/-- The KIND code of a trace record of a named kind (R467 gives the fields and no codes; log 19, DESIGN CHOICE). -/
opaque traceKind : Nat → Byte

end Sys2Proof.Config
end

