-- ==== Sys2Proof/Syntax.lean ====
section
/-! DEFINITION. The commands of the block (Instr, one constructor per row of spec/opcode_table.json) and the types of their operands. -/

namespace Sys2Proof

/-- A beam: its launch (the model's number of it, see `Launch.id`), its block's index in the launch, its index in the block (R52). -/
structure BeamRef where
  launch : Nat
  block  : Nat
  beam   : Nat
  deriving DecidableEq, Repr

/-- The fields of an instruction word below CLASS and OP (R51). RC of DIV is bits [43:28], that is `a ++ b` (R55). -/
structure KFields where
  /-- [51:44] DST -/
  dst : BitVec 8
  /-- [43:36] SRC_A -/
  a   : BitVec 8
  /-- [35:28] SRC_B -/
  b   : BitVec 8
  /-- [27:24] MSK -/
  msk : BitVec 4
  /-- [23:20] MOD -/
  mod : BitVec 4
  /-- [19:0] IMM -/
  imm : BitVec 20
  deriving DecidableEq, Repr

/-- What enumeration of a far-tier port finds (R207): the link trained or not, a supported device or not, IDE or not, the rate
code and width code of R213, the device's capacity in bytes, a number for the device's identity (R209), its CDAT aside. -/
structure FarDevice where
  link      : Bool
  supported : Bool
  ide       : Bool
  rate      : BitVec 2
  width     : BitVec 2
  capacity  : Nat
  identity  : Nat
  deriving DecidableEq, Repr

/-- The PCIe AtomicOps of R230. -/
inductive AtomicOp where
  | fetchAdd | swap | cas
  deriving DecidableEq, Repr

/-- The configuration fields whose values the manual states (R298, R300), by the names that the PCIe specification gives them. -/
inductive ConfigField where
  | totalVFs | numVFs | firstVFOffset | vfStride | maxPayload | maxReadRequest | msixVectors | memoryEnable | msixEnable
  deriving DecidableEq, Repr

/-- A PCIe configuration request (R298, R300, R326, R327): a read of a configuration word or of a field that the manual states, a write of NumVFs
(which sets VF Enable with it), of the memory-space and MSI-X enables, or of another word. -/
inductive ConfigReq where
  | read (offset : Nat)
  | setNumVFs (n : Nat)
  | setEnables (memory msix : Bool)
  | write (offset : Nat) (value : BitVec 32)
  | readField (field : ConfigField)
  deriving DecidableEq, Repr

/-- Who issued a non-posted read of host or peer memory (R226, R345, R346): a beam's fence, a DMA channel, or a command's
system barrier flag (function and command serial). -/
inductive ConfirmAgent where
  | beam (b : BeamRef)
  | channel (ch : Nat)
  | command (fn serial : Nat)
  deriving DecidableEq, Repr

/-- A read of BAR0 at an offset: of 32 bits, or of the 64 from that offset (R34). -/
structure RegRead where
  offset : Nat
  wide   : Bool
  deriving DecidableEq, Repr

/-- How a controller's check of a line read from HBM ends: on-die ECC corrected the line first, or its CRC fails (R187, R203). -/
inductive ReadCheck where
  | good | corrected | failed
  deriving DecidableEq, Repr

/-- A far-tier read as the memory device answers it: with poison, after a number of link retries (R208, R214). -/
structure FarAnswer where
  poisoned : Bool
  retries  : Nat
  deriving DecidableEq, Repr

/-- How a retrain attempt ends (R169): whether the lanes train, and the lanes that a spare must replace for that in each direction. -/
structure TrainEnd where
  trained  : Bool
  failedAB : List Nat
  failedBA : List Nat
  deriving DecidableEq, Repr

/-- Who contributes a line to a reduction (R176, R177): its rank, and the core or DMA channel that writes it. -/
structure Contributor where
  rank  : Nat
  agent : Nat
  deriving DecidableEq, Repr

/-- The activity counts of a die over one 4 µs period (R390), in the order of its table: matrix core-beats, MBIN and MBINT
core-beats, vector lane-operations, register-file rows, local-array rows, mesh flits; slice accesses, HBM lines, serial flits. -/
structure Activity where
  matrixBeats : Nat
  binBeats    : Nat
  laneOps     : Nat
  rfRows      : Nat
  laRows      : Nat
  meshFlits   : Nat
  sliceAcc    : Nat
  hbmLines    : Nat
  serialFlits : Nat
  deriving DecidableEq, Repr

/-- What the world reports to the boot step that completes (R478 to R482): for step 3 whether each bank's image is valid (its
interface range, version, SVN); for step 4 the servitors that report ready; for step 5 how each pair port ends (trained at full
width, at half width, or not); for step 6 each stack's declared rate in 0.1 Gb/s and the rates it trains at. -/
structure BootReport where
  servitors : List Bool
  portEnds  : List (BitVec 2)
  stackRates : List (Nat × List Nat)
  deriving DecidableEq, Repr


/-- The commands: one constructor per row of the opcode table, in the table's order. A kernel instruction's command is its
issue by one beam with the word's fields; a mailbox command's is the gaffer's execution of the request in the function's
buffer; a record's is the gaffer's reading of the head record of a window; an event's carries what happens outside the block
(logs 3 and 15, DESIGN CHOICE). -/
inductive Instr where
  /-- ADD (R54). -/
  | add (b : BeamRef) (f : KFields)
  /-- SUB (R54). -/
  | sub (b : BeamRef) (f : KFields)
  /-- MUL (R54). -/
  | mul (b : BeamRef) (f : KFields)
  /-- MULHU (R54). -/
  | mulhu (b : BeamRef) (f : KFields)
  /-- DIVU (R54). -/
  | divu (b : BeamRef) (f : KFields)
  /-- REMU (R54). -/
  | remu (b : BeamRef) (f : KFields)
  /-- AND (R54). -/
  | andS (b : BeamRef) (f : KFields)
  /-- OR (R54). -/
  | orS (b : BeamRef) (f : KFields)
  /-- XOR (R54). -/
  | xorS (b : BeamRef) (f : KFields)
  /-- SHL (R54). -/
  | shl (b : BeamRef) (f : KFields)
  /-- SHR (R54). -/
  | shr (b : BeamRef) (f : KFields)
  /-- SRA (R54). -/
  | sra (b : BeamRef) (f : KFields)
  /-- MIN (R54). -/
  | minS (b : BeamRef) (f : KFields)
  /-- MAX (R54). -/
  | maxS (b : BeamRef) (f : KFields)
  /-- SLT (R54). -/
  | slt (b : BeamRef) (f : KFields)
  /-- SLTU (R54). -/
  | sltu (b : BeamRef) (f : KFields)
  /-- SEQ (R54). -/
  | seq (b : BeamRef) (f : KFields)
  /-- MOVI (R54). -/
  | movi (b : BeamRef) (f : KFields)
  /-- SHOR (R54). -/
  | shor (b : BeamRef) (f : KFields)
  /-- NOP (R55). -/
  | nop (b : BeamRef) (f : KFields)
  /-- BRA (R55). -/
  | bra (b : BeamRef) (f : KFields)
  /-- BRX (R55). -/
  | brx (b : BeamRef) (f : KFields)
  /-- CALL (R55). -/
  | call (b : BeamRef) (f : KFields)
  /-- RET (R55). -/
  | ret (b : BeamRef) (f : KFields)
  /-- DIV (R60). -/
  | divS (b : BeamRef) (f : KFields)
  /-- JOIN (R60). -/
  | join (b : BeamRef) (f : KFields)
  /-- EXIT (R55). -/
  | exit (b : BeamRef) (f : KFields)
  /-- YIELD (R76). -/
  | yield (b : BeamRef) (f : KFields)
  /-- TRAP (R55). -/
  | trap (b : BeamRef) (f : KFields)
  /-- BAR (R62). -/
  | bar (b : BeamRef) (f : KFields)
  /-- CBAR (R69). -/
  | cbar (b : BeamRef) (f : KFields)
  /-- FENCE (R221). -/
  | fence (b : BeamRef) (f : KFields)
  /-- WAITC (R55). -/
  | waitc (b : BeamRef) (f : KFields)
  /-- UNDEFINED_INSTRUCTION (R51). -/
  | undefinedInstruction (b : BeamRef) (word : BitVec 64)
  /-- INSTRUCTION_FETCH_FAULT (R71). -/
  | instructionFetchFault (b : BeamRef)
  /-- WATCHDOG (R64). -/
  | watchdog (launch block : Nat)
  /-- LDL (R56). -/
  | ldl (b : BeamRef) (f : KFields)
  /-- STL (R56). -/
  | stl (b : BeamRef) (f : KFields)
  /-- ATOML (R57). -/
  | atoml (b : BeamRef) (f : KFields)
  /-- LDG (R56). -/
  | ldg (b : BeamRef) (f : KFields)
  /-- STG (R56). -/
  | stg (b : BeamRef) (f : KFields)
  /-- LDV (R224). -/
  | ldv (b : BeamRef) (f : KFields)
  /-- ATOMG (R230). -/
  | atomg (b : BeamRef) (f : KFields)
  /-- LDS (R56). -/
  | lds (b : BeamRef) (f : KFields)
  /-- STS (R56). -/
  | sts (b : BeamRef) (f : KFields)
  /-- CPA (R56). -/
  | cpa (b : BeamRef) (f : KFields)
  /-- CPS (R56). -/
  | cps (b : BeamRef) (f : KFields)
  /-- ASYNC_COPY_COMPLETE (R58). -/
  | asyncCopyComplete (b : BeamRef) (copy : Nat)
  /-- PREF (R56). -/
  | pref (b : BeamRef) (f : KFields)
  /-- CCTL_CULLET (R136). -/
  | cctlCullet (b : BeamRef) (f : KFields)
  /-- CCTL_PIN (R132). -/
  | cctlPin (b : BeamRef) (f : KFields)
  /-- CCTL_UNPIN (R134). -/
  | cctlUnpin (b : BeamRef) (f : KFields)
  /-- CCTL_WRITE_BACK (R131). -/
  | cctlWriteBack (b : BeamRef) (f : KFields)
  /-- CCTL_PIN_RETAIN (R132). -/
  | cctlPinRetain (b : BeamRef) (f : KFields)
  /-- MMA (R92). -/
  | mma (b : BeamRef) (f : KFields)
  /-- MMAS (R94). -/
  | mmas (b : BeamRef) (f : KFields)
  /-- MBIN (R93). -/
  | mbin (b : BeamRef) (f : KFields)
  /-- MBINT (R95). -/
  | mbint (b : BeamRef) (f : KFields)
  /-- MLD (R97). -/
  | mld (b : BeamRef) (f : KFields)
  /-- MST (R97). -/
  | mst (b : BeamRef) (f : KFields)
  /-- MZERO (R90). -/
  | mzero (b : BeamRef) (f : KFields)
  /-- MATRIX_INSTRUCTION_COMPLETE (R115). -/
  | matrixInstructionComplete (core : Nat) (move mismatch : Bool) (fails : List (Nat × Nat))
  /-- VADD_F (R106). -/
  | vaddF (b : BeamRef) (f : KFields)
  /-- VSUB_F (R106). -/
  | vsubF (b : BeamRef) (f : KFields)
  /-- VMUL_F (R106). -/
  | vmulF (b : BeamRef) (f : KFields)
  /-- VFMA_F (R106). -/
  | vfmaF (b : BeamRef) (f : KFields)
  /-- VMIN_F (R107). -/
  | vminF (b : BeamRef) (f : KFields)
  /-- VMAX_F (R107). -/
  | vmaxF (b : BeamRef) (f : KFields)
  /-- VDIV_F (R107). -/
  | vdivF (b : BeamRef) (f : KFields)
  /-- VSQRT_F (R107). -/
  | vsqrtF (b : BeamRef) (f : KFields)
  /-- VEXP2_F (R107). -/
  | vexp2F (b : BeamRef) (f : KFields)
  /-- VLOG2_F (R107). -/
  | vlog2F (b : BeamRef) (f : KFields)
  /-- VRSQ_F (R107). -/
  | vrsqF (b : BeamRef) (f : KFields)
  /-- VADD_D (R106). -/
  | vaddD (b : BeamRef) (f : KFields)
  /-- VSUB_D (R106). -/
  | vsubD (b : BeamRef) (f : KFields)
  /-- VMUL_D (R106). -/
  | vmulD (b : BeamRef) (f : KFields)
  /-- VFMA_D (R106). -/
  | vfmaD (b : BeamRef) (f : KFields)
  /-- VMIN_D (R106). -/
  | vminD (b : BeamRef) (f : KFields)
  /-- VMAX_D (R106). -/
  | vmaxD (b : BeamRef) (f : KFields)
  /-- VDIV_D (R106). -/
  | vdivD (b : BeamRef) (f : KFields)
  /-- VSQRT_D (R106). -/
  | vsqrtD (b : BeamRef) (f : KFields)
  /-- VADD_I (R106). -/
  | vaddI (b : BeamRef) (f : KFields)
  /-- VSUB_I (R106). -/
  | vsubI (b : BeamRef) (f : KFields)
  /-- VMUL_I (R106). -/
  | vmulI (b : BeamRef) (f : KFields)
  /-- VMIN_I (R106). -/
  | vminI (b : BeamRef) (f : KFields)
  /-- VMAX_I (R106). -/
  | vmaxI (b : BeamRef) (f : KFields)
  /-- VMINU (R106). -/
  | vminu (b : BeamRef) (f : KFields)
  /-- VMAXU (R106). -/
  | vmaxu (b : BeamRef) (f : KFields)
  /-- VAND (R106). -/
  | vand (b : BeamRef) (f : KFields)
  /-- VOR (R106). -/
  | vor (b : BeamRef) (f : KFields)
  /-- VXOR (R106). -/
  | vxor (b : BeamRef) (f : KFields)
  /-- VSHL (R106). -/
  | vshl (b : BeamRef) (f : KFields)
  /-- VSHR (R106). -/
  | vshr (b : BeamRef) (f : KFields)
  /-- VSRA (R106). -/
  | vsra (b : BeamRef) (f : KFields)
  /-- VPOPC (R106). -/
  | vpopc (b : BeamRef) (f : KFields)
  /-- VCLZ (R106). -/
  | vclz (b : BeamRef) (f : KFields)
  /-- VDOT4_I (R106). -/
  | vdot4I (b : BeamRef) (f : KFields)
  /-- VMOV (R106). -/
  | vmov (b : BeamRef) (f : KFields)
  /-- VSEL (R106). -/
  | vsel (b : BeamRef) (f : KFields)
  /-- VCVT (R108). -/
  | vcvt (b : BeamRef) (f : KFields)
  /-- VMXSCALE (R85). -/
  | vmxscale (b : BeamRef) (f : KFields)
  /-- VSETVL (R102). -/
  | vsetvl (b : BeamRef) (f : KFields)
  /-- VRED (R114). -/
  | vred (b : BeamRef) (f : KFields)
  /-- VLDL (R109). -/
  | vldl (b : BeamRef) (f : KFields)
  /-- VSTL (R109). -/
  | vstl (b : BeamRef) (f : KFields)
  /-- VCMP_F (R110). -/
  | vcmpF (b : BeamRef) (f : KFields)
  /-- VCMP_D (R110). -/
  | vcmpD (b : BeamRef) (f : KFields)
  /-- VCMP_I (R110). -/
  | vcmpI (b : BeamRef) (f : KFields)
  /-- VCMP_U (R110). -/
  | vcmpU (b : BeamRef) (f : KFields)
  /-- VCMPK_F (R110). -/
  | vcmpkF (b : BeamRef) (f : KFields)
  /-- VCMPK_D (R110). -/
  | vcmpkD (b : BeamRef) (f : KFields)
  /-- VCMPK_I (R110). -/
  | vcmpkI (b : BeamRef) (f : KFields)
  /-- VCMPK_U (R110). -/
  | vcmpkU (b : BeamRef) (f : KFields)
  /-- KAND (R110). -/
  | kand (b : BeamRef) (f : KFields)
  /-- KOR (R110). -/
  | kor (b : BeamRef) (f : KFields)
  /-- KXOR (R110). -/
  | kxor (b : BeamRef) (f : KFields)
  /-- KNOT (R110). -/
  | knot (b : BeamRef) (f : KFields)
  /-- KMOV (R110). -/
  | kmov (b : BeamRef) (f : KFields)
  /-- KTOS (R110). -/
  | ktos (b : BeamRef) (f : KFields)
  /-- KPOPC (R110). -/
  | kpopc (b : BeamRef) (f : KFields)
  /-- SSORT (R112). -/
  | ssort (b : BeamRef) (f : KFields)
  /-- SMERGE (R112). -/
  | smerge (b : BeamRef) (f : KFields)
  /-- SCOMPACT (R112). -/
  | scompact (b : BeamRef) (f : KFields)
  /-- VECTOR_PASS_COMPLETE (R115). -/
  | vectorPassComplete (core : Nat) (sort mismatch : Bool) (fails : List Nat)
  /-- LAUNCH (R42). -/
  | launch (fn w : Nat)
  /-- BLOCK_PLACE (R43). -/
  | blockPlace (launch : Nat) (cores : List Nat)
  /-- REPLAY (R74). -/
  | replay (fn w : Nat)
  /-- ABORT (R75). -/
  | abort (fn w : Nat)
  /-- SWITCH_REQUEST (R77). -/
  | switchRequest (cores : List Nat)
  /-- BLOCK_SAVE (R77). -/
  | blockSave (launch block : Nat)
  /-- SWITCH_TIMEOUT (R77). -/
  | switchTimeout (cores : List Nat)
  /-- BLOCK_RESTORE (R79). -/
  | blockRestore (launch cluster : Nat) (cores : List Nat)
  /-- RD_S (R148). -/
  | rdS (core line : Nat)
  /-- RD_U (R148). -/
  | rdU (core line : Nat)
  /-- OWN (R148). -/
  | own (core line : Nat)
  /-- UPG (R149). -/
  | upg (core line : Nat)
  /-- RD_NC (R148). -/
  | rdNc (agent line : Nat)
  /-- WR_NC (R427). -/
  | wrNc (agent line : Nat) (bytes : List (Nat × Byte)) (poison : Bool)
  /-- ATOM (R148). -/
  | atom (agent addr : Nat) (op : BitVec 4) (x y : BitVec 32)
  /-- CCTL (R148). -/
  | cctl (agent facet line : Nat) (op : BitVec 4)
  /-- PREF_REQUEST (R148). -/
  | prefRequest (agent line : Nat)
  /-- SNP_INV (R147). -/
  | snpInv (core line : Nat)
  /-- SNP_DOWN (R147). -/
  | snpDown (core line : Nat)
  /-- SNP_DROP (R147). -/
  | snpDrop (core line : Nat)
  /-- RSP_ACK (R148). -/
  | rspAck (core line : Nat)
  /-- RSP_DATA (R148). -/
  | rspData (core line : Nat)
  /-- WB (R148). -/
  | wb (core line : Nat)
  /-- EVC (R148). -/
  | evc (core line : Nat)
  /-- CMP_S (R147). -/
  | cmpS (core line : Nat)
  /-- CMP_E (R147). -/
  | cmpE (core line : Nat)
  /-- CMP_M (R147). -/
  | cmpM (core line : Nat)
  /-- CMP_OWN (R147). -/
  | cmpOwn (core line : Nat)
  /-- CMP_NC (R145). -/
  | cmpNc (agent line : Nat)
  /-- CMP_ACK (R145). -/
  | cmpAck (agent line : Nat)
  /-- SLICE_FILL_COMPLETE (R138). -/
  | sliceFillComplete (line : Nat)
  /-- HOME_TIMEOUT (R151). -/
  | homeTimeout (line : Nat)
  /-- SLICE_MODE_CHANGE (R141). -/
  | sliceModeChange (slice : Nat) (missMode : Bool) (cause : BitVec 2)
  /-- SLICE_HOLD_DRAINED (R141). -/
  | sliceHoldDrained (slice : Nat)
  /-- MESH_FLIT (R423). -/
  | meshFlit (msg fails : Nat)
  /-- PAIR_PORT_FLIT (R167). -/
  | pairPortFlit (port : Nat) (ab : Bool) (msg : Option Nat) (fec : List Nat) (crcOk : Bool)
  /-- LANE_SPARE (R168). -/
  | laneSpare (port : Nat) (ab : Bool) (lane : Nat)
  /-- PORT_RETRAIN (R169). -/
  | portRetrain (port : Nat)
  /-- RETRAIN_ATTEMPT_END (R169). -/
  | retrainAttemptEnd (port : Nat) (trained : TrainEnd)
  /-- TAG_ABANDON (R172). -/
  | tagAbandon (port side index : Nat)
  /-- DRAIN_MARKER_RETURN (R172). -/
  | drainMarkerReturn (port side index : Nat)
  /-- REDUCTION_CONTRIBUTION (R177). -/
  | reductionContribution (group : Nat) (rank : Contributor) (line : Nat) (data : List Byte) (poison : Bool)
  /-- COMBINE_HOLD_EXPIRE (R179). -/
  | combineHoldExpire (group line level pos : Nat)
  /-- DONE_WORD_WRITE (R181). -/
  | doneWordWrite (group : Nat)
  /-- RED_GROUP_OPEN (R183). -/
  | redGroupOpen (fn : Nat)
  /-- RED_GROUP_CLOSE (R183). -/
  | redGroupClose (fn : Nat)
  /-- HBM_READ_COMPLETE (R203). -/
  | hbmReadComplete (line : Nat) (first second : ReadCheck)
  /-- HBM_WRITE_BATCH (R199). -/
  | hbmWriteBatch (stack pseudo : Nat)
  /-- WRITE_WAIT_EXPIRE (R199). -/
  | writeWaitExpire (stack pseudo : Nat)
  /-- HBM_REFRESH (R201). -/
  | hbmRefresh (stack : Nat)
  /-- STACK_TEMP_READ (R204). -/
  | stackTempRead (stack temp : Nat)
  /-- FAR_READ_COMPLETE (R208). -/
  | farReadComplete (line : Nat) (answer : FarAnswer)
  /-- FAR_LINK_DOWN (R209). -/
  | farLinkDown (port : Nat)
  /-- FAR_LINK_RECOVER (R209). -/
  | farLinkRecover (port : Nat) (found : FarDevice)
  /-- FAR_ENUMERATE (R207). -/
  | farEnumerate (port : Nat) (found : FarDevice)
  /-- CXL_EVENT (R206). -/
  | cxlEvent (port : Nat) (lo hi : BitVec 64)
  /-- FAR_SCRUB_PROGRESS (R484). -/
  | farScrubProgress (port frames : Nat)
  /-- MEM_ALLOC (R195). -/
  | memAlloc (fn vaChoice : Nat)
  /-- MEM_FREE (R196). -/
  | memFree (fn : Nat)
  /-- MEM_SET_CLASS (R196). -/
  | memSetClass (fn : Nat)
  /-- FAR_RESCAN (R207). -/
  | farRescan (fn : Nat) (found : FarDevice)
  /-- BUS_MAP (R322). -/
  | busMap (fn vaChoice : Nat) (pathOpen : Bool)
  /-- BUS_UNMAP (R322). -/
  | busUnmap (fn : Nat)
  /-- APERTURE_MAP (R324). -/
  | apertureMap (fn offsetChoice : Nat)
  /-- APERTURE_UNMAP (R324). -/
  | apertureUnmap (fn : Nat)
  /-- BAR4_WRITE (R225). -/
  | bar4Write (fn offset : Nat) (data : List Byte) (ep ide : Bool) (rid : BitVec 16)
  /-- BAR4_READ (R302). -/
  | bar4Read (fn offset len : Nat) (ide : Bool) (rid : BitVec 16)
  /-- PCIE_ATOMICOP (R230). -/
  | pcieAtomicop (fn offset : Nat) (op : AtomicOp) (bytes : Nat) (x y : BitVec 128) (ide : Bool) (rid : BitVec 16)
  /-- BAR2_WRITE (R312). -/
  | bar2Write (fn offset : Nat) (data : List Byte) (ide : Bool)
  /-- CONFIG_REQUEST (R326). -/
  | configRequest (fn : Nat) (req : ConfigReq)
  /-- HOST_READ_COMPLETION (R224). -/
  | hostReadCompletion (addr : Nat) (data : List Byte) (ok : Bool)
  /-- PEER_CONFIRM_COMPLETE (R226). -/
  | peerConfirmComplete (agent : ConfirmAgent) (region : Nat) (ok : Bool)
  /-- CORPUS_REGISTER (R243). -/
  | corpusRegister (fn : Nat)
  /-- CORPUS_APPEND (R243). -/
  | corpusAppend (fn : Nat)
  /-- CORPUS_RETIRE (R241). -/
  | corpusRetire (fn : Nat)
  /-- CORPUS_DEREGISTER (R242). -/
  | corpusDeregister (fn : Nat)
  /-- LEHR_START (R244). -/
  | lehrStart (fn : Nat)
  /-- LEHR_STOP (R246). -/
  | lehrStop (fn : Nat)
  /-- LEHR_STATUS (R243). -/
  | lehrStatus (fn : Nat)
  /-- BLOCK_BOUNDARY (R247). -/
  | blockBoundary
  /-- FAR_BLOCK_STAGED (R248). -/
  | farBlockStaged
  /-- CANDIDATE_MERGE (R251). -/
  | candidateMerge (seat die : Nat)
  /-- RIDER_RESULT_MERGED (R258). -/
  | riderResultMerged (rider : Nat)
  /-- RERANK_GATHER_DONE (R260). -/
  | rerankGatherDone (rider : Nat)
  /-- RIDE (R255). -/
  | ride (fn w : Nat)
  /-- RIDE_CANCEL (R259). -/
  | rideCancel (fn w : Nat)
  /-- SESSION_OPEN (R270). -/
  | sessionOpen (fn : Nat)
  /-- SESSION_CLOSE (R273). -/
  | sessionClose (fn : Nat)
  /-- SESSION_STATUS (R272). -/
  | sessionStatus (fn : Nat)
  /-- SESSION_RESTORE (R271). -/
  | sessionRestore
  /-- MODEL_REGISTER (R276). -/
  | modelRegister (fn : Nat)
  /-- MODEL_DEREGISTER (R276). -/
  | modelDeregister (fn : Nat)
  /-- MODEL_PIN (R281). -/
  | modelPin (fn : Nat)
  /-- MODEL_UNPIN (R276). -/
  | modelUnpin (fn : Nat)
  /-- MODEL_STATUS (R276). -/
  | modelStatus (fn : Nat)
  /-- SLOT_ACQUIRE (R280). -/
  | slotAcquire (model : Nat)
  /-- SLOT_LOAD_COMPLETE (R279). -/
  | slotLoadComplete (slot : Nat)
  /-- GENERATE (R283). -/
  | generate (fn w : Nat)
  /-- STEP_BOUNDARY (R285). -/
  | stepBoundary (slot : Nat)
  /-- COMMAND_COMPLETE (R317). -/
  | commandComplete (fn serial : Nat)
  /-- IRQ_MOD_DELAY (R319). -/
  | irqModDelay (fn ring : Nat)
  /-- CMD_NOP (R314). -/
  | cmdNop (fn w : Nat)
  /-- DMA (R338). -/
  | dma (fn w : Nat)
  /-- DMA_COMMAND_START (R339). -/
  | dmaCommandStart (ch : Nat)
  /-- DESCRIPTOR_FETCH (R341). -/
  | descriptorFetch (ch : Nat)
  /-- DMA_LINE_COMPLETE (R341). -/
  | dmaLineComplete (ch : Nat)
  /-- DESCRIPTOR_CONFIRMED (R345). -/
  | descriptorConfirmed (ch : Nat)
  /-- HEAD_PROMOTE (R354). -/
  | headPromote (ch : Nat)
  /-- ACTION_RETRY (R351). -/
  | actionRetry (fn ch : Nat)
  /-- ACTION_SKIP (R351). -/
  | actionSkip (fn ch : Nat)
  /-- ACTION_ABORT (R351). -/
  | actionAbort (fn ch : Nat)
  /-- COMMIT (R357). -/
  | commit (fn ch : Nat)
  /-- MBX_GO (R306). -/
  | mbxGo (fn : Nat) (value : BitVec 32)
  /-- HELLO (R308). -/
  | hello (fn : Nat)
  /-- RING_SET (R310). -/
  | ringSet (fn : Nat)
  /-- RING_CLEAR (R310). -/
  | ringClear (fn : Nat)
  /-- INT_WIN_CFG_WRITE (R329). -/
  | intWinCfgWrite (fn n : Nat) (value : BitVec 32)
  /-- INT_CQ_HEAD_WRITE (R331). -/
  | intCqHeadWrite (fn n : Nat) (value : BitVec 32)
  /-- INT_GQ_HEAD_WRITE (R331). -/
  | intGqHeadWrite (fn : Nat) (value : BitVec 32)
  /-- CNT_CLEAR (R155). -/
  | cntClear (fn : Nat)
  /-- CCH_LA_RETAIN_WRITE (R157). -/
  | cchLaRetainWrite (fn n : Nat) (value : BitVec 32)
  /-- LOW_WORD_READ (R34). -/
  | lowWordRead (fn : Nat) (at_ : RegRead)
  /-- REGISTER_WRITE (R8). -/
  | registerWrite (fn offset : Nat) (wide : Bool) (value : BitVec 64)
  /-- LINK_DOWN (R326). -/
  | linkDown
  /-- LINK_UP (R326). -/
  | linkUp (rate width : Nat)
  /-- LINK_RETRAIN (R325). -/
  | linkRetrain
  /-- LINK_DEGRADED (R299). -/
  | linkDegraded (rate width : Nat)
  /-- BAR4_RESIZE (R302). -/
  | bar4Resize (fn size : Nat)
  /-- FLR (R377). -/
  | flr (fn : Nat)
  /-- FACET_CREATE (R370). -/
  | facetCreate (fn : Nat)
  /-- FACET_DESTROY (R376). -/
  | facetDestroy (fn : Nat)
  /-- FACET_RESIZE (R372). -/
  | facetResize (fn : Nat)
  /-- OVER_CLEARED (R372). -/
  | overCleared (facet : Nat)
  /-- FACET_QUIESCE (R373). -/
  | facetQuiesce (fn : Nat)
  /-- QUIESCE_DONE (R373). -/
  | quiesceDone (facet : Nat)
  /-- QUIESCE_LIMIT (R373). -/
  | quiesceLimit (facet : Nat)
  /-- FACET_RESUME (R381). -/
  | facetResume (fn : Nat)
  /-- FACET_RESET (R376). -/
  | facetReset (fn : Nat)
  /-- FACET_SAVE (R379). -/
  | facetSave (fn : Nat)
  /-- FACET_RESTORE (R380). -/
  | facetRestore (fn : Nat) (pathsOpen : Bool)
  /-- FACET_DIRTY_LOG (R382). -/
  | facetDirtyLog (fn : Nat)
  /-- FACET_QUERY (R368). -/
  | facetQuery (fn : Nat)
  /-- POWER_SET_CAP (R414). -/
  | powerSetCap (fn : Nat)
  /-- POWER_SET_MODE (R414). -/
  | powerSetMode (fn : Nat)
  /-- POWER_STATUS (R414). -/
  | powerStatus (fn : Nat)
  /-- POWER_LAG_REPORT (R414). -/
  | powerLagReport (fn : Nat)
  /-- POWER_ESTIMATE (R393). -/
  | powerEstimate (die : Nat) (activity : Activity)
  /-- CALIBRATE (R391). -/
  | calibrate (decivolts deciamps : Nat)
  /-- BUDGET_DISTRIBUTE (R396). -/
  | budgetDistribute
  /-- RAIL_UPDATE (R394). -/
  | railUpdate (base : Nat)
  /-- AVS_ACK (R399). -/
  | avsAck (rail : Nat)
  /-- AVS_TIMEOUT (R400). -/
  | avsTimeout (rail : Nat)
  /-- DROOP_TRIP (R401). -/
  | droopTrip (row : Nat)
  /-- DROOP_CLEAR (R401). -/
  | droopClear (row : Nat)
  /-- OVERCURRENT_ASSERT (R403). -/
  | overcurrentAssert
  /-- OVERCURRENT_DEASSERT (R403). -/
  | overcurrentDeassert
  /-- DIE_TEMP_READ (R404). -/
  | dieTempRead (die : Nat) (sensors : List Nat)
  /-- THERMAL_THROTTLE_STEP (R404). -/
  | thermalThrottleStep (die : Nat)
  /-- DIM_UPDATE (R405). -/
  | dimUpdate (die issued beats : Nat)
  /-- DIM_EXIT (R405). -/
  | dimExit (die issued beats : Nat)
  /-- CORE_IDLE_GATE (R406). -/
  | coreIdleGate (core : Nat)
  /-- CORE_WAKE (R406). -/
  | coreWake (core : Nat)
  /-- DARK_ENTRY (R410). -/
  | darkEntry (die : Nat)
  /-- DARK_ENTRY_COMPLETE (R410). -/
  | darkEntryComplete (die : Nat)
  /-- DARK_EXIT (R411). -/
  | darkExit (die : Nat)
  /-- DARK_EXIT_COMPLETE (R411). -/
  | darkExitComplete (die : Nat)
  /-- PACKAGE_DARK_ENTRY (R413). -/
  | packageDarkEntry
  /-- PACKAGE_DARK_EXIT (R413). -/
  | packageDarkExit
  /-- PACKAGE_DARK_EXIT_COMPLETE (R413). -/
  | packageDarkExitComplete (ports : List (BitVec 2)) (servitorsMatch : List Bool)
  /-- CE_WINDOW (R432). -/
  | ceWindow
  /-- WEIGHT_DAMAGE (R434). -/
  | weightDamage (model core : Nat)
  /-- WEIGHT_RELOAD_DONE (R434). -/
  | weightReloadDone (model : Nat)
  /-- SCORE_DECAY (R438). -/
  | scoreDecay (core : Nat)
  /-- DEVICE_FATAL (R436). -/
  | deviceFatal (cause : Nat)
  /-- ATTEST_REPORT (R450). -/
  | attestReport (fn : Nat)
  /-- IDENTITY_CHAIN (R451). -/
  | identityChain (fn : Nat)
  /-- DOE_REPORT_REQUEST (R452). -/
  | doeReportRequest (fn : Nat) (nonce : BitVec 256)
  /-- DOE_CHAIN_REQUEST (R452). -/
  | doeChainRequest (fn : Nat)
  /-- SIGNING_COMPLETE (R452). -/
  | signingComplete
  /-- FW_STAGE (R448). -/
  | fwStage (fn : Nat)
  /-- FW_ACTIVATE (R448). -/
  | fwActivate (fn : Nat)
  /-- FW_COMMIT_SVN (R448). -/
  | fwCommitSvn (fn : Nat)
  /-- OWNER_INSTALL (R463). -/
  | ownerInstall (fn : Nat)
  /-- OWNER_RELEASE (R463). -/
  | ownerRelease (fn : Nat)
  /-- RETURN_CHALLENGE (R463). -/
  | returnChallenge (fn : Nat)
  /-- LIFECYCLE_RETURN (R470). -/
  | lifecycleReturn (fn : Nat)
  /-- DEBUG_SET (R464). -/
  | debugSet (fn : Nat)
  /-- DEBUG_CONSENT (R465). -/
  | debugConsent (fn : Nat)
  /-- DEBUG_BEAM (R466). -/
  | debugBeam (fn : Nat)
  /-- DEBUG_TRACE (R467). -/
  | debugTrace (fn : Nat)
  /-- DEBUG_DUMP (R468). -/
  | debugDump (fn : Nat)
  /-- DEBUG_SCAN (R468). -/
  | debugScan (fn : Nat)
  /-- DEBUG_TEST (R468). -/
  | debugTest (fn : Nat)
  /-- AUDIT_READ (R460). -/
  | auditRead (fn : Nat)
  /-- AUDIT_ACK (R460). -/
  | auditAck (fn : Nat)
  /-- AUDIT_CHECKPOINT (R461). -/
  | auditCheckpoint (fn : Nat)
  /-- IDE_KEY_SET (R453). -/
  | ideKeySet (fn : Nat)
  /-- DEVICE_RESET (R487). -/
  | deviceReset (fn : Nat)
  /-- DIE_RESET (R487). -/
  | dieReset (fn : Nat)
  /-- VP_HANDSHAKE_TIMEOUT (R485). -/
  | vpHandshakeTimeout (die : Nat)
  /-- DIE_RESET_STEP_DONE (R485). -/
  | dieResetStepDone (unread : List (Nat × Nat)) (answers : Bool)
  /-- INPUT_GOOD (R504). -/
  | inputGood (slotId : BitVec 3)
  /-- INPUT_GOOD_DEASSERT (R505). -/
  | inputGoodDeassert
  /-- EFUSE_OPEN (R506). -/
  | efuseOpen
  /-- WARM_RST (R512). -/
  | warmRst (lowUs : Nat)
  /-- PERST_ASSERT (R477). -/
  | perstAssert
  /-- PERST_DEASSERT (R479). -/
  | perstDeassert
  /-- BOOT_STEP_COMPLETE (R478). -/
  | bootStepComplete (report : BootReport)
  /-- BOOT_WATCHDOG (R480). -/
  | bootWatchdog
  /-- SET_ENDPOINT_ID (R513). -/
  | setEndpointId (i3c : Bool) (eid : BitVec 8)
  /-- PLDM_SENSOR_READ (R514). -/
  | pldmSensorRead (sensor : Nat)
  /-- PLDM_DEVICE_RESET (R514). -/
  | pldmDeviceReset
  /-- COOLANT_READ (R517). -/
  | coolantRead (inlet outlet : Nat)
  /-- HIGH_WORD_READ (R34). -/
  | highWordRead (fn offset : Nat)
  /-- UNSUPPORTED_RECORD (R314). -/
  | unsupportedRecord (fn w : Nat)
  /-- FAR_WRITE_COMPLETE (R217). -/
  | farWriteComplete (line : Nat)
  /-- COMPLETION_TIMEOUT (R346). -/
  | completionTimeout (agent : ConfirmAgent)
  /-- WARM_RESET (R487). -/
  | warmReset
  /-- TOKEN_BUCKET_REFILL (R357). -/
  | tokenBucketRefill (ch ns : Nat)
  /-- DYNAMIC_ADDRESS (R513). -/
  | dynamicAddress (addr : BitVec 7)
  deriving DecidableEq, Repr

end Sys2Proof
end

