-- ==== Sys2Proof/Decode.lean ====
section
/-! DEFINITION. The decoder of kernel instruction words (R51 to R57, R89, R90, R106, R110, R112) and its encoder. The opcode table gives
no row any bits, so `decodeTableWord` reads none. -/

namespace Sys2Proof

/-- The table gives no row bits, so no word of its numbering spells a command. -/
def decodeTableWord (_nbits _w : Nat) : Option Instr := none

/-! ## The instruction word (R51) -/

/-- CLASS and OP of a word. -/
def wordClass (w : BitVec 64) : BitVec 4 := w.extractLsb' 60 4
def wordOp (w : BitVec 64) : BitVec 8 := w.extractLsb' 52 8

/-- The fields below CLASS and OP. -/
def wordFields (w : BitVec 64) : KFields :=
  { dst := w.extractLsb' 44 8, a := w.extractLsb' 36 8, b := w.extractLsb' 28 8, msk := w.extractLsb' 24 4,
    mod := w.extractLsb' 20 4, imm := w.extractLsb' 0 20 }

/-- The word of a class, an operation and its fields. -/
def wordOf (cls : BitVec 4) (op : BitVec 8) (f : KFields) : BitVec 64 :=
  cls ++ (op ++ (f.dst ++ (f.a ++ (f.b ++ (f.msk ++ (f.mod ++ f.imm))))))

/-- CCTL's five operations by MOD (R131); other MOD values have no meaning. -/
def cctlOf (mod : Nat) : Option (BeamRef → KFields → Instr) :=
  match mod with
  | 0 => some .cctlCullet
  | 1 => some .cctlPin
  | 2 => some .cctlUnpin
  | 3 => some .cctlWriteBack
  | 4 => some .cctlPinRetain
  | _ => none

/-- Scalar instructions (R54). -/
def scalarOf (op : Nat) : Option (BeamRef → KFields → Instr) :=
  match op with
  | 0x00 => some .add
  | 0x01 => some .sub
  | 0x02 => some .mul
  | 0x03 => some .mulhu
  | 0x04 => some .divu
  | 0x05 => some .remu
  | 0x06 => some .andS
  | 0x07 => some .orS
  | 0x08 => some .xorS
  | 0x09 => some .shl
  | 0x0A => some .shr
  | 0x0B => some .sra
  | 0x0C => some .minS
  | 0x0D => some .maxS
  | 0x0E => some .slt
  | 0x0F => some .sltu
  | 0x10 => some .seq
  | 0x11 => some .movi
  | 0x12 => some .shor
  | _ => none

/-- Control instructions (R55). -/
def controlOf (op : Nat) : Option (BeamRef → KFields → Instr) :=
  match op with
  | 0x00 => some .nop
  | 0x01 => some .bra
  | 0x02 => some .brx
  | 0x03 => some .call
  | 0x04 => some .ret
  | 0x08 => some .divS
  | 0x09 => some .join
  | 0x0A => some .exit
  | 0x10 => some .yield
  | 0x11 => some .trap
  | _ => none

/-- Synchronisation instructions (R55). -/
def syncOf (op : Nat) : Option (BeamRef → KFields → Instr) :=
  match op with
  | 0x00 => some .bar
  | 0x01 => some .cbar
  | 0x02 => some .fence
  | 0x03 => some .waitc
  | _ => none

/-- Memory instructions (R56), CCTL apart. -/
def memoryOf (op : Nat) : Option (BeamRef → KFields → Instr) :=
  match op with
  | 0x00 => some .ldl
  | 0x01 => some .stl
  | 0x02 => some .atoml
  | 0x08 => some .ldg
  | 0x09 => some .stg
  | 0x0A => some .ldv
  | 0x0B => some .atomg
  | 0x0C => some .lds
  | 0x0D => some .sts
  | 0x10 => some .cpa
  | 0x11 => some .cps
  | 0x18 => some .pref
  | _ => none

/-- Matrix instructions (R90). -/
def matrixOf (op : Nat) : Option (BeamRef → KFields → Instr) :=
  match op with
  | 0x00 => some .mma
  | 0x01 => some .mmas
  | 0x02 => some .mbin
  | 0x03 => some .mbint
  | 0x08 => some .mld
  | 0x09 => some .mst
  | 0x0A => some .mzero
  | _ => none

/-- Vector arithmetic, conversion and transfer (R106). -/
def vectorOf (op : Nat) : Option (BeamRef → KFields → Instr) :=
  match op with
  | 0x00 => some .vaddF
  | 0x01 => some .vsubF
  | 0x02 => some .vmulF
  | 0x03 => some .vfmaF
  | 0x04 => some .vminF
  | 0x05 => some .vmaxF
  | 0x06 => some .vdivF
  | 0x07 => some .vsqrtF
  | 0x08 => some .vexp2F
  | 0x09 => some .vlog2F
  | 0x0A => some .vrsqF
  | 0x10 => some .vaddD
  | 0x11 => some .vsubD
  | 0x12 => some .vmulD
  | 0x13 => some .vfmaD
  | 0x14 => some .vminD
  | 0x15 => some .vmaxD
  | 0x16 => some .vdivD
  | 0x17 => some .vsqrtD
  | 0x20 => some .vaddI
  | 0x21 => some .vsubI
  | 0x22 => some .vmulI
  | 0x23 => some .vminI
  | 0x24 => some .vmaxI
  | 0x25 => some .vminu
  | 0x26 => some .vmaxu
  | 0x27 => some .vand
  | 0x28 => some .vor
  | 0x29 => some .vxor
  | 0x2A => some .vshl
  | 0x2B => some .vshr
  | 0x2C => some .vsra
  | 0x2D => some .vpopc
  | 0x2E => some .vclz
  | 0x2F => some .vdot4I
  | 0x30 => some .vmov
  | 0x31 => some .vsel
  | 0x38 => some .vcvt
  | 0x39 => some .vmxscale
  | 0x3C => some .vsetvl
  | 0x3D => some .vred
  | 0x3E => some .vldl
  | 0x3F => some .vstl
  | _ => none

/-- Vector compare and mask instructions (R110). -/
def maskOf (op : Nat) : Option (BeamRef → KFields → Instr) :=
  match op with
  | 0x00 => some .vcmpF
  | 0x01 => some .vcmpD
  | 0x02 => some .vcmpI
  | 0x03 => some .vcmpU
  | 0x08 => some .vcmpkF
  | 0x09 => some .vcmpkD
  | 0x0A => some .vcmpkI
  | 0x0B => some .vcmpkU
  | 0x10 => some .kand
  | 0x11 => some .kor
  | 0x12 => some .kxor
  | 0x13 => some .knot
  | 0x14 => some .kmov
  | 0x15 => some .ktos
  | 0x16 => some .kpopc
  | _ => none

/-- Sort and select instructions (R112). -/
def sortOf (op : Nat) : Option (BeamRef → KFields → Instr) :=
  match op with
  | 0x00 => some .ssort
  | 0x01 => some .smerge
  | 0x02 => some .scompact
  | _ => none

/-- The instruction of a class and an operation; none where either is undefined. -/
def issueOf (cls op mod : Nat) : Option (BeamRef → KFields → Instr) :=
  match cls with
  | 0 => scalarOf op
  | 1 => controlOf op
  | 2 => syncOf op
  | 3 => if op = 0x19 then cctlOf mod else memoryOf op
  | 4 => matrixOf op
  | 5 => vectorOf op
  | 6 => maskOf op
  | 7 => sortOf op
  | _ => none

/-- The command that issues a word from a beam; an undefined one is UNDEFINED_INSTRUCTION (R51, R55, R71). -/
def decodeIssue (b : BeamRef) (w : BitVec 64) : Instr :=
  match issueOf (wordClass w).toNat (wordOp w).toNat (wordFields w).mod.toNat with
  | some make => make b (wordFields w)
  | none => .undefinedInstruction b w

/-! ## The encoder -/

/-- The word of a kernel instruction's command, with the beam that issues it; none for the other commands. -/
def encodeIssue : Instr → Option (BeamRef × BitVec 64)
  | .add b f => some (b, wordOf 0 0x00 f)
  | .sub b f => some (b, wordOf 0 0x01 f)
  | .mul b f => some (b, wordOf 0 0x02 f)
  | .mulhu b f => some (b, wordOf 0 0x03 f)
  | .divu b f => some (b, wordOf 0 0x04 f)
  | .remu b f => some (b, wordOf 0 0x05 f)
  | .andS b f => some (b, wordOf 0 0x06 f)
  | .orS b f => some (b, wordOf 0 0x07 f)
  | .xorS b f => some (b, wordOf 0 0x08 f)
  | .shl b f => some (b, wordOf 0 0x09 f)
  | .shr b f => some (b, wordOf 0 0x0A f)
  | .sra b f => some (b, wordOf 0 0x0B f)
  | .minS b f => some (b, wordOf 0 0x0C f)
  | .maxS b f => some (b, wordOf 0 0x0D f)
  | .slt b f => some (b, wordOf 0 0x0E f)
  | .sltu b f => some (b, wordOf 0 0x0F f)
  | .seq b f => some (b, wordOf 0 0x10 f)
  | .movi b f => some (b, wordOf 0 0x11 f)
  | .shor b f => some (b, wordOf 0 0x12 f)
  | .nop b f => some (b, wordOf 1 0x00 f)
  | .bra b f => some (b, wordOf 1 0x01 f)
  | .brx b f => some (b, wordOf 1 0x02 f)
  | .call b f => some (b, wordOf 1 0x03 f)
  | .ret b f => some (b, wordOf 1 0x04 f)
  | .divS b f => some (b, wordOf 1 0x08 f)
  | .join b f => some (b, wordOf 1 0x09 f)
  | .exit b f => some (b, wordOf 1 0x0A f)
  | .yield b f => some (b, wordOf 1 0x10 f)
  | .trap b f => some (b, wordOf 1 0x11 f)
  | .bar b f => some (b, wordOf 2 0x00 f)
  | .cbar b f => some (b, wordOf 2 0x01 f)
  | .fence b f => some (b, wordOf 2 0x02 f)
  | .waitc b f => some (b, wordOf 2 0x03 f)
  | .ldl b f => some (b, wordOf 3 0x00 f)
  | .stl b f => some (b, wordOf 3 0x01 f)
  | .atoml b f => some (b, wordOf 3 0x02 f)
  | .ldg b f => some (b, wordOf 3 0x08 f)
  | .stg b f => some (b, wordOf 3 0x09 f)
  | .ldv b f => some (b, wordOf 3 0x0A f)
  | .atomg b f => some (b, wordOf 3 0x0B f)
  | .lds b f => some (b, wordOf 3 0x0C f)
  | .sts b f => some (b, wordOf 3 0x0D f)
  | .cpa b f => some (b, wordOf 3 0x10 f)
  | .cps b f => some (b, wordOf 3 0x11 f)
  | .pref b f => some (b, wordOf 3 0x18 f)
  | .mma b f => some (b, wordOf 4 0x00 f)
  | .mmas b f => some (b, wordOf 4 0x01 f)
  | .mbin b f => some (b, wordOf 4 0x02 f)
  | .mbint b f => some (b, wordOf 4 0x03 f)
  | .mld b f => some (b, wordOf 4 0x08 f)
  | .mst b f => some (b, wordOf 4 0x09 f)
  | .mzero b f => some (b, wordOf 4 0x0A f)
  | .vaddF b f => some (b, wordOf 5 0x00 f)
  | .vsubF b f => some (b, wordOf 5 0x01 f)
  | .vmulF b f => some (b, wordOf 5 0x02 f)
  | .vfmaF b f => some (b, wordOf 5 0x03 f)
  | .vminF b f => some (b, wordOf 5 0x04 f)
  | .vmaxF b f => some (b, wordOf 5 0x05 f)
  | .vdivF b f => some (b, wordOf 5 0x06 f)
  | .vsqrtF b f => some (b, wordOf 5 0x07 f)
  | .vexp2F b f => some (b, wordOf 5 0x08 f)
  | .vlog2F b f => some (b, wordOf 5 0x09 f)
  | .vrsqF b f => some (b, wordOf 5 0x0A f)
  | .vaddD b f => some (b, wordOf 5 0x10 f)
  | .vsubD b f => some (b, wordOf 5 0x11 f)
  | .vmulD b f => some (b, wordOf 5 0x12 f)
  | .vfmaD b f => some (b, wordOf 5 0x13 f)
  | .vminD b f => some (b, wordOf 5 0x14 f)
  | .vmaxD b f => some (b, wordOf 5 0x15 f)
  | .vdivD b f => some (b, wordOf 5 0x16 f)
  | .vsqrtD b f => some (b, wordOf 5 0x17 f)
  | .vaddI b f => some (b, wordOf 5 0x20 f)
  | .vsubI b f => some (b, wordOf 5 0x21 f)
  | .vmulI b f => some (b, wordOf 5 0x22 f)
  | .vminI b f => some (b, wordOf 5 0x23 f)
  | .vmaxI b f => some (b, wordOf 5 0x24 f)
  | .vminu b f => some (b, wordOf 5 0x25 f)
  | .vmaxu b f => some (b, wordOf 5 0x26 f)
  | .vand b f => some (b, wordOf 5 0x27 f)
  | .vor b f => some (b, wordOf 5 0x28 f)
  | .vxor b f => some (b, wordOf 5 0x29 f)
  | .vshl b f => some (b, wordOf 5 0x2A f)
  | .vshr b f => some (b, wordOf 5 0x2B f)
  | .vsra b f => some (b, wordOf 5 0x2C f)
  | .vpopc b f => some (b, wordOf 5 0x2D f)
  | .vclz b f => some (b, wordOf 5 0x2E f)
  | .vdot4I b f => some (b, wordOf 5 0x2F f)
  | .vmov b f => some (b, wordOf 5 0x30 f)
  | .vsel b f => some (b, wordOf 5 0x31 f)
  | .vcvt b f => some (b, wordOf 5 0x38 f)
  | .vmxscale b f => some (b, wordOf 5 0x39 f)
  | .vsetvl b f => some (b, wordOf 5 0x3C f)
  | .vred b f => some (b, wordOf 5 0x3D f)
  | .vldl b f => some (b, wordOf 5 0x3E f)
  | .vstl b f => some (b, wordOf 5 0x3F f)
  | .vcmpF b f => some (b, wordOf 6 0x00 f)
  | .vcmpD b f => some (b, wordOf 6 0x01 f)
  | .vcmpI b f => some (b, wordOf 6 0x02 f)
  | .vcmpU b f => some (b, wordOf 6 0x03 f)
  | .vcmpkF b f => some (b, wordOf 6 0x08 f)
  | .vcmpkD b f => some (b, wordOf 6 0x09 f)
  | .vcmpkI b f => some (b, wordOf 6 0x0A f)
  | .vcmpkU b f => some (b, wordOf 6 0x0B f)
  | .kand b f => some (b, wordOf 6 0x10 f)
  | .kor b f => some (b, wordOf 6 0x11 f)
  | .kxor b f => some (b, wordOf 6 0x12 f)
  | .knot b f => some (b, wordOf 6 0x13 f)
  | .kmov b f => some (b, wordOf 6 0x14 f)
  | .ktos b f => some (b, wordOf 6 0x15 f)
  | .kpopc b f => some (b, wordOf 6 0x16 f)
  | .ssort b f => some (b, wordOf 7 0x00 f)
  | .smerge b f => some (b, wordOf 7 0x01 f)
  | .scompact b f => some (b, wordOf 7 0x02 f)
  | .cctlCullet b f => some (b, wordOf 3 0x19 f)
  | .cctlPin b f => some (b, wordOf 3 0x19 f)
  | .cctlUnpin b f => some (b, wordOf 3 0x19 f)
  | .cctlWriteBack b f => some (b, wordOf 3 0x19 f)
  | .cctlPinRetain b f => some (b, wordOf 3 0x19 f)
  | .undefinedInstruction b w => some (b, w)
  | .instructionFetchFault _ => none
  | .watchdog _ _ => none
  | .asyncCopyComplete _ _ => none
  | .matrixInstructionComplete _ _ _ _ => none
  | .vectorPassComplete _ _ _ _ => none
  | .launch _ _ => none
  | .blockPlace _ _ => none
  | .replay _ _ => none
  | .abort _ _ => none
  | .switchRequest _ => none
  | .blockSave _ _ => none
  | .switchTimeout _ => none
  | .blockRestore _ _ _ => none
  | .rdS _ _ => none
  | .rdU _ _ => none
  | .own _ _ => none
  | .upg _ _ => none
  | .rdNc _ _ => none
  | .wrNc _ _ _ _ => none
  | .atom _ _ _ _ _ => none
  | .cctl _ _ _ _ => none
  | .prefRequest _ _ => none
  | .snpInv _ _ => none
  | .snpDown _ _ => none
  | .snpDrop _ _ => none
  | .rspAck _ _ => none
  | .rspData _ _ => none
  | .wb _ _ => none
  | .evc _ _ => none
  | .cmpS _ _ => none
  | .cmpE _ _ => none
  | .cmpM _ _ => none
  | .cmpOwn _ _ => none
  | .cmpNc _ _ => none
  | .cmpAck _ _ => none
  | .sliceFillComplete _ => none
  | .homeTimeout _ => none
  | .sliceModeChange _ _ _ => none
  | .sliceHoldDrained _ => none
  | .meshFlit _ _ => none
  | .pairPortFlit _ _ _ _ _ => none
  | .laneSpare _ _ _ => none
  | .portRetrain _ => none
  | .retrainAttemptEnd _ _ => none
  | .tagAbandon _ _ _ => none
  | .drainMarkerReturn _ _ _ => none
  | .reductionContribution _ _ _ _ _ => none
  | .combineHoldExpire _ _ _ _ => none
  | .doneWordWrite _ => none
  | .redGroupOpen _ => none
  | .redGroupClose _ => none
  | .hbmReadComplete _ _ _ => none
  | .hbmWriteBatch _ _ => none
  | .writeWaitExpire _ _ => none
  | .hbmRefresh _ => none
  | .stackTempRead _ _ => none
  | .farReadComplete _ _ => none
  | .farLinkDown _ => none
  | .farLinkRecover _ _ => none
  | .farEnumerate _ _ => none
  | .cxlEvent _ _ _ => none
  | .farScrubProgress _ _ => none
  | .memAlloc _ _ => none
  | .memFree _ => none
  | .memSetClass _ => none
  | .farRescan _ _ => none
  | .busMap _ _ _ => none
  | .busUnmap _ => none
  | .apertureMap _ _ => none
  | .apertureUnmap _ => none
  | .bar4Write _ _ _ _ _ _ => none
  | .bar4Read _ _ _ _ _ => none
  | .pcieAtomicop _ _ _ _ _ _ _ _ => none
  | .bar2Write _ _ _ _ => none
  | .configRequest _ _ => none
  | .hostReadCompletion _ _ _ => none
  | .peerConfirmComplete _ _ _ => none
  | .corpusRegister _ => none
  | .corpusAppend _ => none
  | .corpusRetire _ => none
  | .corpusDeregister _ => none
  | .lehrStart _ => none
  | .lehrStop _ => none
  | .lehrStatus _ => none
  | .blockBoundary => none
  | .farBlockStaged => none
  | .candidateMerge _ _ => none
  | .riderResultMerged _ => none
  | .rerankGatherDone _ => none
  | .ride _ _ => none
  | .rideCancel _ _ => none
  | .sessionOpen _ => none
  | .sessionClose _ => none
  | .sessionStatus _ => none
  | .sessionRestore => none
  | .modelRegister _ => none
  | .modelDeregister _ => none
  | .modelPin _ => none
  | .modelUnpin _ => none
  | .modelStatus _ => none
  | .slotAcquire _ => none
  | .slotLoadComplete _ => none
  | .generate _ _ => none
  | .stepBoundary _ => none
  | .commandComplete _ _ => none
  | .irqModDelay _ _ => none
  | .cmdNop _ _ => none
  | .dma _ _ => none
  | .dmaCommandStart _ => none
  | .descriptorFetch _ => none
  | .dmaLineComplete _ => none
  | .descriptorConfirmed _ => none
  | .headPromote _ => none
  | .actionRetry _ _ => none
  | .actionSkip _ _ => none
  | .actionAbort _ _ => none
  | .commit _ _ => none
  | .mbxGo _ _ => none
  | .hello _ => none
  | .ringSet _ => none
  | .ringClear _ => none
  | .intWinCfgWrite _ _ _ => none
  | .intCqHeadWrite _ _ _ => none
  | .intGqHeadWrite _ _ => none
  | .cntClear _ => none
  | .cchLaRetainWrite _ _ _ => none
  | .lowWordRead _ _ => none
  | .registerWrite _ _ _ _ => none
  | .linkDown => none
  | .linkUp _ _ => none
  | .linkRetrain => none
  | .linkDegraded _ _ => none
  | .bar4Resize _ _ => none
  | .flr _ => none
  | .facetCreate _ => none
  | .facetDestroy _ => none
  | .facetResize _ => none
  | .overCleared _ => none
  | .facetQuiesce _ => none
  | .quiesceDone _ => none
  | .quiesceLimit _ => none
  | .facetResume _ => none
  | .facetReset _ => none
  | .facetSave _ => none
  | .facetRestore _ _ => none
  | .facetDirtyLog _ => none
  | .facetQuery _ => none
  | .powerSetCap _ => none
  | .powerSetMode _ => none
  | .powerStatus _ => none
  | .powerLagReport _ => none
  | .powerEstimate _ _ => none
  | .calibrate _ _ => none
  | .budgetDistribute => none
  | .railUpdate _ => none
  | .avsAck _ => none
  | .avsTimeout _ => none
  | .droopTrip _ => none
  | .droopClear _ => none
  | .overcurrentAssert => none
  | .overcurrentDeassert => none
  | .dieTempRead _ _ => none
  | .thermalThrottleStep _ => none
  | .dimUpdate _ _ _ => none
  | .dimExit _ _ _ => none
  | .coreIdleGate _ => none
  | .coreWake _ => none
  | .darkEntry _ => none
  | .darkEntryComplete _ => none
  | .darkExit _ => none
  | .darkExitComplete _ => none
  | .packageDarkEntry => none
  | .packageDarkExit => none
  | .packageDarkExitComplete _ _ => none
  | .ceWindow => none
  | .weightDamage _ _ => none
  | .weightReloadDone _ => none
  | .scoreDecay _ => none
  | .deviceFatal _ => none
  | .attestReport _ => none
  | .identityChain _ => none
  | .doeReportRequest _ _ => none
  | .doeChainRequest _ => none
  | .signingComplete => none
  | .fwStage _ => none
  | .fwActivate _ => none
  | .fwCommitSvn _ => none
  | .ownerInstall _ => none
  | .ownerRelease _ => none
  | .returnChallenge _ => none
  | .lifecycleReturn _ => none
  | .debugSet _ => none
  | .debugConsent _ => none
  | .debugBeam _ => none
  | .debugTrace _ => none
  | .debugDump _ => none
  | .debugScan _ => none
  | .debugTest _ => none
  | .auditRead _ => none
  | .auditAck _ => none
  | .auditCheckpoint _ => none
  | .ideKeySet _ => none
  | .deviceReset _ => none
  | .dieReset _ => none
  | .vpHandshakeTimeout _ => none
  | .dieResetStepDone _ _ => none
  | .inputGood _ => none
  | .inputGoodDeassert => none
  | .efuseOpen => none
  | .warmRst _ => none
  | .perstAssert => none
  | .perstDeassert => none
  | .bootStepComplete _ => none
  | .bootWatchdog => none
  | .setEndpointId _ _ => none
  | .pldmSensorRead _ => none
  | .pldmDeviceReset => none
  | .coolantRead _ _ => none
  | .highWordRead _ _ => none
  | .unsupportedRecord _ _ => none
  | .farWriteComplete _ => none
  | .completionTimeout _ => none
  | .warmReset => none
  | .tokenBucketRefill _ _ => none
  | .dynamicAddress _ => none

end Sys2Proof
end

