-- ==== Sys2Proof/Machine/Tab.lean ====
section
/-! DEFINITION. The operations on sparse tables, byte memories and finite sets, each keeping the canonical form; little-endian byte lists and bit fields. -/

namespace Sys2Proof

/-! ## Tables -/

/-- What a table holds at a key; an unlisted key reads as `dflt`. Log 5, DESIGN CHOICE. -/
def Tab.get {α : Type} (dflt : α) : Tab α → Nat → α
  | [], _ => dflt
  | (k, v) :: t, a => if k = a then v else Tab.get dflt t a

/-- Puts an entry, keys staying strictly rising. -/
def Tab.put {α : Type} : Tab α → Nat → α → Tab α
  | [], a, v => [(a, v)]
  | (k, w) :: t, a, v =>
    if a < k then (a, v) :: (k, w) :: t else if a = k then (a, v) :: t else (k, w) :: Tab.put t a v

/-- Takes an entry out. -/
def Tab.erase {α : Type} (t : Tab α) (a : Nat) : Tab α := t.filter fun e => decide (e.1 ≠ a)

/-- Writes an entry; a value that an unlisted key reads as removes it. -/
def Tab.set {α : Type} [DecidableEq α] (dflt : α) (t : Tab α) (a : Nat) (v : α) : Tab α :=
  if v = dflt then Tab.erase t a else Tab.put t a v

/-- Applies a function to the value at a key. -/
def Tab.upd {α : Type} [DecidableEq α] (dflt : α) (t : Tab α) (a : Nat) (f : α → α) : Tab α :=
  Tab.set dflt t a (f (Tab.get dflt t a))

/-- The keys rise strictly. -/
def Tab.sorted {α : Type} : Tab α → Bool
  | [] => true
  | [_] => true
  | (a, _) :: (b, w) :: t => decide (a < b) && Tab.sorted ((b, w) :: t)

/-- The canonical form: keys rising, no entry equal to what an unlisted key reads as. -/
def Tab.wf {α : Type} [DecidableEq α] (dflt : α) (t : Tab α) : Bool :=
  Tab.sorted t && t.all fun e => decide (e.2 ≠ dflt)

/-! ## Byte memories: an unlisted address reads as zero -/

/-- The canonical form of a byte memory. -/
def Mem.wf (m : Mem) : Bool := Tab.wf (0 : BitVec 8) m

def Mem.get (m : Mem) (a : Nat) : Byte := Tab.get 0 m a

def Mem.set (m : Mem) (a : Nat) (v : Byte) : Mem := Tab.set 0 m a v

/-- `n` bytes from an address. Log 5, DESIGN CHOICE. -/
def Mem.read (m : Mem) (a n : Nat) : List Byte := (List.range n).map fun i => Mem.get m (a + i)

/-- Stores a byte list from an address upward. -/
def Mem.write (m : Mem) (a : Nat) : List Byte → Mem
  | [] => m
  | b :: bs => Mem.write (Mem.set m a b) (a + 1) bs

/-- Zeroes a region. -/
def Mem.clear (m : Mem) (lo n : Nat) : Mem := m.filter fun e => !(decide (lo ≤ e.1) && decide (e.1 < lo + n))

/-- The cells of a region, moved so that `lo` becomes 0. -/
def Mem.slice (m : Mem) (lo n : Nat) : Mem :=
  (m.filter fun e => decide (lo ≤ e.1) && decide (e.1 < lo + n)).map fun e => (e.1 - lo, e.2)

/-- Stores listed cells at an offset. -/
def Mem.paste (m : Mem) (lo : Nat) (cells : Mem) : Mem := cells.foldl (fun acc e => Mem.set acc (lo + e.1) e.2) m

/-- Bytes at single addresses. -/
def Mem.setAll (m : Mem) (cells : List (Nat × Byte)) : Mem := cells.foldl (fun acc e => Mem.set acc e.1 e.2) m

/-! ## Finite sets of numbers -/

def NSet.has (s : NSet) (a : Nat) : Bool := s.contains a

def NSet.add : NSet → Nat → NSet
  | [], a => [a]
  | k :: t, a => if a < k then a :: k :: t else if a = k then k :: t else k :: NSet.add t a

def NSet.del (s : NSet) (a : Nat) : NSet := s.filter fun k => decide (k ≠ a)

def NSet.put (s : NSet) (a : Nat) (b : Bool) : NSet := if b then NSet.add s a else NSet.del s a

/-- Takes the numbers of a range out. -/
def NSet.clear (s : NSet) (lo n : Nat) : NSet := s.filter fun k => !(decide (lo ≤ k) && decide (k < lo + n))

def NSet.addAll (s : NSet) (l : List Nat) : NSet := l.foldl NSet.add s

/-- The members strictly rise. -/
def NSet.wf : NSet → Bool
  | [] => true
  | [_] => true
  | a :: b :: t => decide (a < b) && NSet.wf (b :: t)

/-! ## Bytes and bits -/

/-- The number a byte list spells, the lowest address least significant (R6). -/
def leNat : List Byte → Nat
  | [] => 0
  | b :: bs => b.toNat + 256 * leNat bs

/-- The `n` bytes of a number, lowest address least significant. -/
def leBytes : Nat → Nat → List Byte
  | 0, _ => []
  | n + 1, v => BitVec.ofNat 8 v :: leBytes n (v / 256)

/-- `w` bits of a number from bit `lo`. -/
def bits (v lo w : Nat) : Nat := v / 2 ^ lo % 2 ^ w

/-- One bit of a number. -/
def bit (v i : Nat) : Bool := v.testBit i

def boolNat (b : Bool) : Nat := if b then 1 else 0

/-- The two's-complement reading of `w` bits. -/
def signed (v w : Nat) : Int := if v % 2 ^ w < 2 ^ (w - 1) then (v % 2 ^ w : Nat) else (v % 2 ^ w : Nat) - (2 ^ w : Nat)

/-- The next lower multiple, and the next higher. -/
def alignDown (v n : Nat) : Nat := v / n * n
def alignUp (v n : Nat) : Nat := (v + n - 1) / n * n

/-- A little-endian field in a byte list. -/
def leAt (bs : List Byte) (off n : Nat) : Nat := leNat ((bs.drop off).take n)

/-- Smallest `n` with `2 ^ n` at least the number. -/
def clog2 (v : Nat) : Nat := Nat.log2 (2 * v - 1)

/-- The first element of a list that meets a test, and the list with it replaced. -/
def updFirst {α : Type} (p : α → Bool) (f : α → α) : List α → List α
  | [] => []
  | x :: xs => if p x then f x :: xs else x :: updFirst p f xs

def updAll {α : Type} (p : α → Bool) (f : α → α) (l : List α) : List α := l.map fun x => if p x then f x else x

/-- Takes the first element that meets a test out. -/
def eraseFirst {α : Type} (p : α → Bool) : List α → List α
  | [] => []
  | x :: xs => if p x then xs else x :: eraseFirst p xs

/-- Replaces the element at a position. -/
def updAt {α : Type} (f : α → α) : Nat → List α → List α
  | _, [] => []
  | 0, x :: xs => f x :: xs
  | i + 1, x :: xs => x :: updAt f i xs

/-- Keeps the first of equal elements apart from order. -/
def countIf {α : Type} (p : α → Bool) (l : List α) : Nat := (l.filter p).length

/-- A stable insertion by a key. -/
def insertBy {α : Type} (le : α → α → Bool) (x : α) : List α → List α
  | [] => [x]
  | y :: ys => if le x y && !le y x then x :: y :: ys else y :: insertBy le x ys

/-- A stable sort. -/
def sortBy {α : Type} (le : α → α → Bool) : List α → List α
  | [] => []
  | x :: xs => (sortBy le xs |> fun t => insertFront le x t)
where
  /-- Before the elements that are not smaller. -/
  insertFront (le : α → α → Bool) (x : α) : List α → List α
    | [] => [x]
    | y :: ys => if le x y then x :: y :: ys else y :: insertFront le x ys

/-- The element with the least key, first on ties. -/
def leastBy {α : Type} (key : α → Nat) : List α → Option α
  | [] => none
  | x :: xs =>
    match leastBy key xs with
    | none => some x
    | some y => if key x ≤ key y then some x else some y

end Sys2Proof
end

