-- ==== Sys2Proof/Machine/Flags.lean ====
section
/-! DEFINITION. Number formats (R80 to R84), exact arithmetic on their values, rounding, comparison and the conditions of compare instructions (R107, R110). No arithmetic of this block sets an exception flag or raises a trap (R81), so there are no flags to compute beside these. -/

namespace Sys2Proof

/-- A floating-point format: exponent and mantissa widths, bias, and its special values: 0 infinities and NaNs (IEEE), 1 one NaN
pattern and no infinity (E4M3), 2 neither (R80). -/
structure FpFormat where
  ebits : Nat
  mbits : Nat
  bias  : Nat
  specials : Nat
  deriving DecidableEq, Repr

def fp64 : FpFormat := { ebits := 11, mbits := 52, bias := 1023, specials := 0 }
def fp32 : FpFormat := { ebits := 8, mbits := 23, bias := 127, specials := 0 }
def bf16 : FpFormat := { ebits := 8, mbits := 7, bias := 127, specials := 0 }
def fp16 : FpFormat := { ebits := 5, mbits := 10, bias := 15, specials := 0 }
def e4m3 : FpFormat := { ebits := 4, mbits := 3, bias := 7, specials := 1 }
def e5m2 : FpFormat := { ebits := 5, mbits := 2, bias := 15, specials := 0 }
def e3m2 : FpFormat := { ebits := 3, mbits := 2, bias := 3, specials := 2 }
def e2m3 : FpFormat := { ebits := 2, mbits := 3, bias := 1, specials := 2 }
def e2m1 : FpFormat := { ebits := 2, mbits := 1, bias := 1, specials := 2 }

/-- An exact value: a finite one is (−1)^neg × m × 2^e. -/
inductive FpVal where
  | nan
  | inf (neg : Bool)
  | fin (neg : Bool) (m : Nat) (e : Int)
  deriving DecidableEq, Repr


def FpFormat.width (f : FpFormat) : Nat := 1 + f.ebits + f.mbits
/-- The exponent of the smallest normal value. -/
def FpFormat.emin (f : FpFormat) : Int := 1 - (f.bias : Int)

/-- The value of a bit pattern (R80). -/
def FpFormat.decode (f : FpFormat) (b : Nat) : FpVal :=
  let m := b % 2 ^ f.mbits
  let e := b / 2 ^ f.mbits % 2 ^ f.ebits
  let neg := b.testBit (f.ebits + f.mbits)
  let top := decide (e = 2 ^ f.ebits - 1)
  if top && decide (f.specials = 0) then (if m = 0 then .inf neg else .nan)
  else if top && decide (f.specials = 1) && decide (m = 2 ^ f.mbits - 1) then .nan
  else if e = 0 then .fin neg m (f.emin - f.mbits)
  else .fin neg (2 ^ f.mbits + m) ((e : Int) - f.bias - f.mbits)

/-- The canonical quiet NaN (R81); formats without a NaN give +0 (R84). -/
def FpFormat.nanBits (f : FpFormat) : Nat :=
  match f.specials with
  | 0 => (2 ^ f.ebits - 1) * 2 ^ f.mbits + 2 ^ (f.mbits - 1)
  | 1 => 2 ^ (f.ebits + f.mbits) - 1
  | _ => 0

/-- The pattern of the largest finite value, sign clear. -/
def FpFormat.maxBits (f : FpFormat) : Nat :=
  match f.specials with
  | 0 => (2 ^ f.ebits - 1) * 2 ^ f.mbits - 1
  | 1 => 2 ^ (f.ebits + f.mbits) - 2
  | _ => 2 ^ (f.ebits + f.mbits) - 1

def FpFormat.infBits (f : FpFormat) : Nat := (2 ^ f.ebits - 1) * 2 ^ f.mbits
def FpFormat.signBits (f : FpFormat) (neg : Bool) : Nat := if neg then 2 ^ (f.ebits + f.mbits) else 0


/-- The rounding modes of R108. -/
inductive Rounding where
  | nearestEven | towardZero | down | up
  deriving DecidableEq, Repr

/-- Whether a magnitude `n + rem / 2^s` rounds up to `n + 1`. -/
def roundsUp (rm : Rounding) (neg : Bool) (n rem s : Nat) : Bool :=
  match rm with
  | .nearestEven => decide (2 ^ s < 2 * rem) || (decide (2 * rem = 2 ^ s) && decide (n % 2 = 1))
  | .towardZero => false
  | .down => neg && decide (rem ≠ 0)
  | .up => !neg && decide (rem ≠ 0)

/-- A magnitude m × 2^e rounded to a multiple of 2^q: the multiplier. -/
def roundAt (rm : Rounding) (neg : Bool) (m : Nat) (e q : Int) : Nat :=
  if q ≤ e then m * 2 ^ (e - q).toNat
  else
    let s := (q - e).toNat
    let n := m / 2 ^ s
    if roundsUp rm neg n (m % 2 ^ s) s then n + 1 else n

/-- What rounding a finite value to a format gives: a pattern, or an overflow (R84). -/
def FpFormat.round (f : FpFormat) (rm : Rounding) (neg : Bool) (m : Nat) (e : Int) : Option Nat :=
  if m = 0 then some (f.signBits neg)
  else
    let top := e + (Nat.log2 m : Int)
    let q := max top f.emin - f.mbits
    let n := roundAt rm neg m e q
    let (n, q) := if 2 ^ (f.mbits + 1) ≤ n then (n / 2, q + 1) else (n, q)
    let pattern := if n < 2 ^ f.mbits then n else (q + f.mbits + f.bias).toNat * 2 ^ f.mbits + (n - 2 ^ f.mbits)
    if pattern ≤ f.maxBits then some (f.signBits neg + pattern) else none

/-- The IEEE 754 result of an overflow in a rounding mode. -/
def FpFormat.overflow (f : FpFormat) (rm : Rounding) (neg : Bool) : Nat :=
  let toInf := match rm with
    | .nearestEven => true
    | .towardZero => false
    | .down => neg
    | .up => !neg
  f.signBits neg + (if toInf then f.infBits else f.maxBits)

/-- An exact value rounded to nearest even in an IEEE format (R107). -/
def FpFormat.pack (f : FpFormat) : FpVal → Nat
  | .nan => f.nanBits
  | .inf neg => f.signBits neg + f.infBits
  | .fin neg m e => (f.round .nearestEven neg m e).getD (f.overflow .nearestEven neg)


def FpVal.neg : FpVal → FpVal
  | .nan => .nan
  | .inf s => .inf (!s)
  | .fin s m e => .fin (!s) m e

def FpVal.isNan : FpVal → Bool
  | .nan => true
  | _ => false

/-- The exact sum; opposite infinities give NaN, and an exact zero of unlike signs is +0 (IEEE 754, round to nearest). -/
def FpVal.add : FpVal → FpVal → FpVal
  | .nan, _ => .nan
  | _, .nan => .nan
  | .inf s, .inf t => if s = t then .inf s else .nan
  | .inf s, .fin .. => .inf s
  | .fin .., .inf t => .inf t
  | .fin s m e, .fin t n g =>
    let q := min e g
    let a : Int := (m * 2 ^ (e - q).toNat : Nat)
    let b : Int := (n * 2 ^ (g - q).toNat : Nat)
    let c := (if s then -a else a) + (if t then -b else b)
    if c = 0 then .fin (s && t) 0 q else .fin (decide (c < 0)) c.natAbs q

/-- The exact product; infinity times zero gives NaN. -/
def FpVal.mul : FpVal → FpVal → FpVal
  | .nan, _ => .nan
  | _, .nan => .nan
  | .inf s, .inf t => .inf (s != t)
  | .inf s, .fin t n _ => if n = 0 then .nan else .inf (s != t)
  | .fin s m _, .inf t => if m = 0 then .nan else .inf (s != t)
  | .fin s m e, .fin t n g => .fin (s != t) (m * n) (e + g)

/-- The value times a power of two. -/
def FpVal.scale (v : FpVal) (k : Int) : FpVal :=
  match v with
  | .fin s m e => .fin s m (e + k)
  | v => v

/-- The quotient with enough bits and a sticky bit below them, so that rounding it rounds the exact quotient. -/
def FpVal.div : FpVal → FpVal → FpVal
  | .nan, _ => .nan
  | _, .nan => .nan
  | .inf _, .inf _ => .nan
  | .inf s, .fin t _ _ => .inf (s != t)
  | .fin s _ _, .inf t => .fin (s != t) 0 0
  | .fin s m e, .fin t n g =>
    if n = 0 then (if m = 0 then .nan else .inf (s != t))
    else
      let k := 128 + Nat.log2 n
      let quo := m * 2 ^ k / n
      let rem := m * 2 ^ k % n
      .fin (s != t) (2 * quo + (if rem = 0 then 0 else 1)) (e - g - k - 1)

/-- The greatest root below `2 ^ b` whose square is at most `n`, bit by bit. -/
def FpVal.rootBits (n : Nat) : Nat → Nat → Nat
  | 0, r => r
  | b + 1, r => if (r + 2 ^ b) * (r + 2 ^ b) ≤ n then FpVal.rootBits n b (r + 2 ^ b) else FpVal.rootBits n b r

/-- The square root with enough bits and a sticky bit below them. -/
def FpVal.sqrt : FpVal → FpVal
  | .nan => .nan
  | .inf s => if s then .nan else .inf false
  | .fin s m e =>
    if m = 0 then .fin s 0 e
    else if s then .nan
    else
      let odd := decide (e % 2 ≠ 0)
      let n := (if odd then 2 * m else m) * 2 ^ 256
      let g := (if odd then e - 1 else e) / 2 - 128
      let r := FpVal.rootBits n (Nat.log2 n / 2 + 1) 0
      .fin false (2 * r + (if r * r = n then 0 else 1)) (g - 1)

/-- Order of two values that are no NaN, as integers over a common exponent. -/
def FpVal.cmp : FpVal → FpVal → Ordering
  | .inf s, .inf t => if s = t then .eq else if s then .lt else .gt
  | .inf s, _ => if s then .lt else .gt
  | _, .inf t => if t then .gt else .lt
  | .fin s m e, .fin t n g =>
    let q := min e g
    let a : Int := (m * 2 ^ (e - q).toNat : Nat)
    let b : Int := (n * 2 ^ (g - q).toNat : Nat)
    compare (if s then -a else a) (if t then -b else b)
  | _, _ => .eq

def FpVal.lt (a b : FpVal) : Bool := !a.isNan && !b.isNan && decide (a.cmp b = .lt)
def FpVal.eq (a b : FpVal) : Bool := !a.isNan && !b.isNan && decide (a.cmp b = .eq)

def FpVal.isNeg : FpVal → Bool
  | .inf s => s
  | .fin s _ _ => s
  | .nan => false

/-- Below, with −0 below +0 (R107). -/
def FpVal.below (a b : FpVal) : Bool := a.lt b || (a.eq b && a.isNeg && !b.isNeg)

/-- Rounded to an integer; none for a NaN or an infinity. -/
def FpVal.toInt (rm : Rounding) : FpVal → Option Int
  | .fin s m e => let n := roundAt rm s m e 0; some (if s then -(n : Int) else n)
  | _ => none

def FpVal.ofInt (v : Int) : FpVal := .fin (decide (v < 0)) v.natAbs 0


/-! ## FP32 and FP64 on bit patterns -/

def f32 (b : BitVec 32) : FpVal := fp32.decode b.toNat
def f64 (b : BitVec 64) : FpVal := fp64.decode b.toNat
def toF32 (v : FpVal) : BitVec 32 := BitVec.ofNat 32 (fp32.pack v)
def toF64 (v : FpVal) : BitVec 64 := BitVec.ofNat 64 (fp64.pack v)

def f32Add (a b : BitVec 32) : BitVec 32 := toF32 ((f32 a).add (f32 b))
def f64Add (a b : BitVec 64) : BitVec 64 := toF64 ((f64 a).add (f64 b))

/-- Smaller and larger, a NaN giving the canonical one (R107). -/
def f32Min (a b : BitVec 32) : BitVec 32 :=
  if (f32 a).isNan || (f32 b).isNan then toF32 .nan else if (f32 b).below (f32 a) then b else a
def f32Max (a b : BitVec 32) : BitVec 32 :=
  if (f32 a).isNan || (f32 b).isNan then toF32 .nan else if (f32 a).below (f32 b) then b else a
def f64Min (a b : BitVec 64) : BitVec 64 :=
  if (f64 a).isNan || (f64 b).isNan then toF64 .nan else if (f64 b).below (f64 a) then b else a
def f64Max (a b : BitVec 64) : BitVec 64 :=
  if (f64 a).isNan || (f64 b).isNan then toF64 .nan else if (f64 a).below (f64 b) then b else a

/-! ## VEXP2, VLOG2, VRSQ: the bracketing values, the choice between them free (R107; log 10, DESIGN CHOICE) -/

/-- FP32 patterns in value order: −max to +max are 0x0080_0000 to 0xFF7F_FFFF. -/
def f32OfKey (k : Nat) : BitVec 32 := BitVec.ofNat 32 (if 0x80000000 ≤ k then k - 0x80000000 else 0xFFFFFFFF - k)

/-- The greatest key below `2 ^ b` above `k` whose finite FP32 value meets a downward-closed test. -/
def keySearch (le : FpVal → Bool) : Nat → Nat → Nat
  | 0, k => k
  | b + 1, k =>
    let c := k + 2 ^ b
    if decide (c < 0x00800000) || (decide (c ≤ 0xFF7FFFFF) && le (f32 (f32OfKey c))) then keySearch le b c else keySearch le b k

/-- The result: exact where the lower bracketing value is, else that value or the next one up. -/
def bracket (le exact : FpVal → Bool) (choice : Bool) : BitVec 32 :=
  let k := keySearch le 32 0
  if exact (f32 (f32OfKey k)) || !choice then f32OfKey k
  else if k = 0xFF7FFFFF then BitVec.ofNat 32 fp32.infBits else f32OfKey (k + 1)

/-- Compares a value w of the open interval from 1 to 2, whose logarithm is irrational, with 2^(r / 2^k), r below 2^k: each squaring of w
gives the next binary digit of log2 w, and the first digit that differs from r's decides. lo and hi bound w × 2^256 through every squaring;
none where they no longer tell a digit. -/
def cmpDigits (r : Nat) : Nat → Nat → Nat → Option Ordering
  | 0, _, _ => some .gt
  | k + 1, lo, hi =>
    let lo := lo * lo / 2 ^ 256
    let hi := hi * hi / 2 ^ 256 + 1
    if 2 ^ 257 ≤ lo then if r.testBit k then cmpDigits r k (lo / 2) (hi / 2 + 1) else some .gt
    else if hi < 2 ^ 257 then if r.testBit k then some .lt else cmpDigits r k lo hi
    else none

/-- Compares v = m × 2^e, m above 0, with 2^(a / 2^k): the whole parts of the logarithms, then their fractions by digits; where the digits do
not tell, m^(2^k) with 2^(a − e × 2^k). -/
def cmpPow2 (m : Nat) (e a : Int) (k : Nat) : Ordering :=
  let whole := a / (2 ^ k : Nat)
  let r := (a % (2 ^ k : Nat)).toNat
  let n := Nat.log2 m
  if (n : Int) + e < whole then .lt
  else if whole < n + e then .gt
  else if m = 2 ^ n then compare 0 r
  else
    let w := m * 2 ^ 256 / 2 ^ n
    match cmpDigits r k w (w + 1) with
    | some o => o
    | none => compare (m ^ 2 ^ k) (2 ^ (a - e * (2 ^ k : Nat)).toNat)

/-- An exponent a / 2^k of a finite value. -/
def asFraction (neg : Bool) (m : Nat) (e : Int) : Int × Nat :=
  let n : Int := if 0 ≤ e then (m * 2 ^ e.toNat : Nat) else m
  (if neg then -n else n, (-e).toNat)

/-- 2^a (R107). -/
def f32Exp2 (x : BitVec 32) : BitVec 32 :=
  match f32 x with
  | .nan => toF32 .nan
  | .inf neg => if neg then 0 else BitVec.ofNat 32 fp32.infBits
  | .fin s m e =>
    let (a, k) := asFraction s m e
    let cmp : FpVal → Ordering := fun
      | .fin false n g => if n = 0 then .lt else cmpPow2 n g a k
      | _ => .lt
    bracket (fun v => decide (cmp v ≠ .gt)) (fun v => decide (cmp v = .eq)) (Config.exp2Up x)

/-- log2 a (R107): the candidate c / 2^k compares with log2 (m × 2^e) as 2^c with (m × 2^e)^(2^k). -/
def f32Log2 (x : BitVec 32) : BitVec 32 :=
  match f32 x with
  | .nan => toF32 .nan
  | .inf neg => if neg then toF32 .nan else x
  | .fin s m e =>
    if m = 0 then toF32 (.inf true)
    else if s then toF32 .nan
    else
      let cmp : FpVal → Ordering := fun
        | .fin t n g => let (c, k) := asFraction t n g; (cmpPow2 m e c k).swap
        | _ => .lt
      bracket (fun v => decide (cmp v ≠ .gt)) (fun v => decide (cmp v = .eq)) (Config.log2Up x)

/-- 1 / √a (R107): a positive candidate v compares with it as v × v × a with 1. -/
def f32Rsq (x : BitVec 32) : BitVec 32 :=
  match f32 x with
  | .nan => toF32 .nan
  | .inf neg => if neg then toF32 .nan else 0
  | .fin s m e =>
    if m = 0 then toF32 (.inf s)
    else if s then toF32 .nan
    else
      let cmp : FpVal → Ordering := fun
        | .fin false n g => (FpVal.fin false (n * n * m) (2 * g + e)).cmp (.fin false 1 0)
        | _ => .lt
      bracket (fun v => decide (cmp v ≠ .gt)) (fun v => decide (cmp v = .eq)) (Config.rsqUp x)

/-! ## Conditions (R110) -/

/-- The condition codes on an ordering, none where a NaN makes the operands unordered; code 7 never reaches here. -/
def condition (code : Nat) (o : Option Ordering) : Bool :=
  match code, o with
  | 0, some r => decide (r = .eq)
  | 1, some r => decide (r ≠ .eq)
  | 2, some r => decide (r = .lt)
  | 3, some r => decide (r ≠ .gt)
  | 4, some r => decide (r = .gt)
  | 5, some r => decide (r ≠ .lt)
  | 6, some _ => false
  | 1, none => true
  | 6, none => true
  | _, _ => false

def fpOrder (a b : FpVal) : Option Ordering := if a.isNan || b.isNan then none else some (a.cmp b)

/-! ## Conversions (R84, R108) -/

/-- The formats of VCVT's codes 0 to 11 (R108); 9 to 11 are integers. -/
def cvtFormat : Nat → FpFormat
  | 0 => fp32 | 1 => fp64 | 2 => bf16 | 3 => fp16 | 4 => e4m3 | 5 => e5m2 | 6 => e3m2 | 7 => e2m3 | _ => e2m1

/-- The width of an element of a code's format, FP6 taking a byte (R82). -/
def cvtWidth : Nat → Nat
  | 0 => 32 | 1 => 64 | 2 => 16 | 3 => 16 | 4 => 8 | 5 => 8 | 6 => 8 | 7 => 8 | 8 => 4 | 9 => 32 | 10 => 8 | _ => 4

def cvtIsInt (code : Nat) : Bool := decide (9 ≤ code)
/-- The five formats that take MX scales (R108). -/
def cvtIsMx (code : Nat) : Bool := decide (4 ≤ code) && decide (code ≤ 8)

/-- A value to a floating-point format (R84). -/
def convertFp (f : FpFormat) (rm : Rounding) (sat : Bool) (v : FpVal) : Nat :=
  let spill (neg : Bool) (ieee : Nat) : Nat :=
    match f.specials with
    | 0 => if sat then f.signBits neg + f.maxBits else ieee
    | 1 => if sat then f.signBits neg + f.maxBits else f.nanBits
    | _ => f.signBits neg + f.maxBits
  match v with
  | .nan => f.nanBits
  | .inf neg => spill neg (f.signBits neg + f.infBits)
  | .fin neg m e => (f.round rm neg m e).getD (spill neg (f.overflow rm neg))

/-- A value to an integer of `w` bits: rounded and clamped, a NaN giving 0 (R84). -/
def convertInt (w : Nat) (rm : Rounding) (v : FpVal) : Nat :=
  let hi : Int := (2 ^ (w - 1) : Nat) - 1
  let lo : Int := -((2 ^ (w - 1) : Nat) : Int)
  let n : Int := match v with
    | .nan => 0
    | .inf neg => if neg then lo else hi
    | v => (v.toInt rm).getD 0
  (max lo (min hi n) % (2 ^ w : Nat)).toNat

/-- An integer to a narrower one: clamped, or its low bits (R84). -/
def narrowInt (w : Nat) (sat : Bool) (n : Int) : Nat :=
  let hi : Int := (2 ^ (w - 1) : Nat) - 1
  let lo : Int := -((2 ^ (w - 1) : Nat) : Int)
  ((if sat then max lo (min hi n) else n) % (2 ^ w : Nat)).toNat

/-- One element from format code `sf` to `df`, its pattern to a pattern; `k` scales the value by 2^k first (MX, R85, R108). -/
def convert (sf df : Nat) (rm : Rounding) (sat : Bool) (k : Int) (x : Nat) : Nat :=
  if cvtIsInt sf && cvtIsInt df then narrowInt (cvtWidth df) sat (signed x (cvtWidth sf))
  else
    let v := if cvtIsInt sf then FpVal.ofInt (signed x (cvtWidth sf)) else ((cvtFormat sf).decode x).scale k
    if cvtIsInt df then convertInt (cvtWidth df) rm v else convertFp (cvtFormat df) rm sat v

/-- The scale byte of a block of FP32 values (R85). -/
def mxEmax : Nat → Int
  | 4 => 8 | 5 => 15 | 6 => 4 | 7 => 2 | _ => 2

/-- floor(log2) of the largest magnitude of a list, none when every value is zero. -/
def mxTop (vs : List FpVal) : Option Int :=
  vs.foldl (fun acc v =>
    match v with
    | .fin _ m e =>
      if m = 0 then acc
      else
        let t := e + (Nat.log2 m : Int)
        some (match acc with
          | none => t
          | some a => max a t)
    | _ => acc) none

def mxScale (code : Nat) (vs : List FpVal) : Nat :=
  if vs.any (fun v => match v with
    | .fin .. => false
    | _ => true) then 0xFF
  else
    match mxTop vs with
    | none => 0x7F
    | some t => (min (max (t - mxEmax code) (-127)) 127 + 127).toNat

end Sys2Proof
end

