-- ==== Sys2Proof/Machine/State.lean ====
section
/-! DEFINITION. The state of the block as plain data (every register, queue, buffer, mode and pin the spec gives it, and the queue of waiting commands), its faults and refusals, and the state after reset. -/

namespace Sys2Proof.Machine

/-! ## Kernel execution (R38 to R117) -/

/-- The launch parameter block (R40), as read at acceptance. -/
structure LaunchParams where
  /-- KIND: 0 matrix-core kernel, 1 vector-core kernel. -/
  vector       : Bool
  cluster      : Nat
  cacheShare   : Nat
  rays         : Nat
  rayRegs      : Nat
  tileRegs     : Nat
  scratchBytes : Nat
  gridBlocks   : Nat
  kernelAddr   : BitVec 64
  argAddr      : BitVec 64
  liveMapAddr  : BitVec 64
  watchdogLog2 : Nat
  abortOnFatal : Bool
  deriving DecidableEq, Repr

/-- A running launch (R38, R43, R76). `id` is the model's own number of it. -/
structure Launch where
  id        : Nat
  facet     : Nat
  /-- The serial of its command in the facet's command list. -/
  cmd       : Nat
  cls       : Nat
  params    : LaunchParams
  /-- Blocks are placed in ascending index: the next one (R43). -/
  nextBlock : Nat
  ended     : Nat
  /-- ENTRIES of the live-map header, read at the first placement (R76); 0 when no index makes a yield point. -/
  liveMaps  : Nat
  headerRead : Bool
  /-- Any write of the launch carried poison (R430). -/
  wrotePoison : Bool
  /-- Acceptance order and the later-accepted entries that passed it (R290). -/
  accepted  : Nat
  passed    : Nat
  deriving DecidableEq, Repr

/-- Which barrier phase a wait entry or a sleeping path waits for (R62, R69): the block's or the cluster's, by phase number. -/
inductive BarrierRef where
  | block (phase : Nat)
  | cluster (phase : Nat)
  deriving DecidableEq, Repr

/-- An entry of the mask stack (R60). -/
inductive StackEntry where
  | reconv (mask : BitVec 32) (rc : BitVec 64)
  | pending (mask : BitVec 32) (start rc : BitVec 64)
  /-- With the live-map index of its barrier instruction, where that is a yield point (R77). -/
  | wait (mask : BitVec 32) (resume rc : BitVec 64) (barrier : BarrierRef) (map : Option Nat)
  deriving DecidableEq, Repr

/-- The trap causes of R71. -/
inductive Cause where
  | illegal | regRange | misaligned | scratchRange | pageFault | protection | poison | maskStackOverflow | callStack
  | barrierMismatch | partialBeamMatrix | software | watchdog | debugHalt
  deriving DecidableEq, Repr

/-- What a beam is doing (R48, R62, R71, R77). -/
inductive BeamStatus where
  | running
  | sleeping (barrier : BarrierRef)
  /-- Stopped at a yield point, or waiting at one that is a barrier, with its live-map index (R77). -/
  | yielded (map : Nat)
  | parked (cause : Cause)
  | ended
  deriving DecidableEq, Repr

/-- An outstanding asynchronous copy (R56, R58): CPA into scratchpad, CPS out of it. -/
structure AsyncCopy where
  toScratch : Bool
  glob      : BitVec 64
  loc       : Nat
  len       : Nat
  deriving DecidableEq, Repr

/-- The last address written in a peer region, and whether a confirmation read has been issued since (R226). -/
structure PeerRec where
  region : Nat
  addr   : Nat
  asked  : Bool
  deriving DecidableEq, Repr

/-- A beam's architectural state (R39, R51 to R60, R102, R116, R226). -/
structure Beam where
  pc       : BitVec 64
  path     : BitVec 32
  exited   : BitVec 32
  stack    : List StackEntry
  calls    : List (BitVec 64)
  /-- Mask registers k1 to k7 by number. -/
  k        : Tab (BitVec 32)
  /-- Scalar registers s0 to s47. -/
  s        : Tab (BitVec 64)
  /-- Ray registers: register g(r) of ray i at 32 r + i. -/
  g        : Tab (BitVec 32)
  /-- Poisoned 128-byte register rows: the numbers of the ray registers (R116). -/
  gPoison  : NSet
  vl       : Nat
  copies   : List AsyncCopy
  status   : BeamStatus
  /-- A barrier at a yield point: the live-map index where the beam waits (R77). -/
  yieldMap : Option Nat
  /-- The barrier on which a parked beam slept (R64). -/
  parkedOn : Option BarrierRef
  /-- A vector or sort/select pass of the beam is in its engine's queue (log 8, DESIGN CHOICE). -/
  passOut  : Bool
  /-- The beam waits for these regions' confirmation reads: a system fence, or a store to a 17th region (R226). -/
  fenceWait : List Nat
  /-- Rays of the STG at the pc whose stores are performed, where a 17th region holds the rest (R226). -/
  stored    : Nat
  /-- A debug step is in force: park again after one issue (R466). -/
  debugStep : Bool
  /-- A debug halt waits for the beam to wake (R466). -/
  haltPending : Bool
  deriving DecidableEq, Repr

/-- A resident block (R41, R47, R62 to R64). -/
structure Block where
  launch    : Nat
  index     : Nat
  facet     : Nat
  /-- The core it is on, as special register CORE names it (R52: bit 10 for a vector core). -/
  core      : Nat
  /-- Its scratchpad region in the local array: a multiple of 4 KiB (R47). -/
  scratch   : Nat
  /-- The resident index on the core of each of its beams (R29). -/
  slots     : List Nat
  beams     : List Beam
  /-- Tile registers: byte o of row r of t(n) at 16384 n + 128 r + o (R86). -/
  tiles     : Mem
  /-- Poisoned tile rows: 128 n + r (R116). -/
  tilePoison : NSet
  /-- The phase: its number, the id its first arrival fixed, the arrived rays of each beam (R62). -/
  phase     : Nat
  barId     : Option Nat
  arrived   : Tab (BitVec 32)
  /-- The watchdog's count of issues (R64). -/
  watchdog  : Nat
  /-- Arrived rays at the cluster barrier (R69). -/
  cArrived  : Tab (BitVec 32)
  /-- All beams have ended; the region stays until the cluster's blocks have (R47). -/
  ended     : Bool
  deriving DecidableEq, Repr

/-- The barrier phase number of a cluster (R69). -/
structure Cluster where
  launch : Nat
  index  : Nat
  phase  : Nat
  deriving DecidableEq, Repr

/-- A block that was switched out: the whole state, its scratchpad bytes and poisoned rows, the bytes that R78 counts, and
whether it lies in a frozen-block store instead of the save pool (R77 to R79, R374). -/
structure SavedBlock where
  block   : Block
  bytes   : Mem
  /-- Length of the scratchpad prefix that was saved. -/
  keep    : Nat
  poison  : NSet
  size    : Nat
  frozen  : Bool
  /-- Its place in the queue of R290: acceptance order of its launch. -/
  accepted : Nat
  deriving DecidableEq, Repr

/-- A matrix or vector instruction in an engine's queue, with the scalar operands it read at issue (R98, R112). -/
structure QEntry where
  instr  : Instr
  beam   : BeamRef
  /-- Its place in the core's issue order, by which tile accesses are ordered (R98). -/
  seq    : Nat
  base   : Nat
  stride : Nat
  deriving DecidableEq, Repr

/-- L1 line states (R143; I is absence). -/
inductive L1State where
  | shared | exclusive | modified
  deriving DecidableEq, Repr

structure L1Line where
  line  : Nat
  state : L1State
  data  : List Byte
  deriving DecidableEq, Repr

/-- The request kinds of R145. -/
inductive ReqKind where
  | rdS | rdU | own | upg | rdNc | wrNc | atom | cctl | pref
  /-- The home's own: it empties the line's directory entry to make room (R144). -/
  | evictDir
  deriving DecidableEq, Repr

/-- A core (R29, R45, R98, R112, R122, R366, R406). -/
structure Core where
  /-- The cache share code in force while a launch has blocks here (R45), and the launch that set it. -/
  split    : Nat
  splitBy  : Option Nat
  /-- The local array by physical address, and its poisoned bank rows (P div 128). -/
  la       : Mem
  laPoison : NSet
  /-- The L1's lines, most recently used first (R119), its write-back buffer (R147) and its outstanding requests (R149). -/
  l1       : List L1Line
  wbuf     : List (Nat × List Byte)
  reqs     : List (Nat × ReqKind)
  /-- Snoops held until the own request's completion (R149): line and the snoop's kind code. -/
  heldSnoops : List (Nat × Nat)
  /-- The compute and move queues of the matrix engine (R98), the vector engine's passes and the sort/select queue (R112). -/
  matQ     : List QEntry
  movQ     : List QEntry
  vecQ     : List QEntry
  sortQ    : List QEntry
  /-- The peer regions written since they were last confirmed, oldest first (R226). -/
  peerRecs : List PeerRec
  /-- The facet whose work the core last held (R366): 0 none, f + 1 a facet's, 100 a hot slot's steps. -/
  lastWork : Nat
  /-- Power-gated (R406). -/
  gated    : Bool
  /-- A switch request stands: beams stop at their next yield point (R77), and its limit has expired. -/
  switchReq : Bool
  switchLate : Bool
  deriving DecidableEq, Repr

/-! ## Cache slices and coherence (R118 to R158) -/

/-- A transaction tag as a message carries it (R171): the pair port, the end that gave it (0 for A), its index and generation. -/
structure TagRef where
  port  : Nat
  side  : Nat
  index : Nat
  gen   : BitVec 2
  deriving DecidableEq, Repr

/-- A request at a home (R145). `bytes` are a write's enabled bytes (offset in the line, value). -/
structure Request where
  kind   : ReqKind
  agent  : Nat
  line   : Nat
  bytes  : List (Nat × Byte)
  poison : Bool
  facet  : Nat
  op     : BitVec 4
  x      : BitVec 32
  y      : BitVec 32
  /-- Traffic class (R153), and that the traffic is always stream (R129). -/
  cls    : Nat
  stream : Bool
  /-- The tag it carries across a pair port (R171). -/
  tag    : Option TagRef
  deriving DecidableEq, Repr

/-- A line in a slice's data ways (R125, R132). -/
structure Way where
  line     : Nat
  data     : List Byte
  dirty    : Bool
  /-- The facet that pinned it. -/
  pin      : Option Nat
  retained : Bool
  /-- The way it stands in, 0 to 15; a retained line stands in way 0 (R132). -/
  way      : Nat
  deriving DecidableEq, Repr

/-- A directory entry (R144): the owner in DO; the sharers in DS, four exact ones or a coarse mask of rows. -/
structure DirEntry where
  line   : Nat
  owner  : Option Nat
  sharers : List Nat
  rows   : List Nat
  deriving DecidableEq, Repr

/-- An open home transaction (R150): the cores whose snoop answers it waits for, whether it waits for a memory fill, and the
requests that joined its fill (R138). -/
structure Txn where
  req    : Request
  /-- PIN_CAP when it opened (R155). -/
  cap    : Nat
  /-- The directory eviction that makes room for its grant, by line (R144). -/
  room   : Option Nat
  snoops : List Nat
  /-- It waits for the requester's own WB or EVC, which is on its way (R149; log 41, DEDUCED). -/
  own    : Bool
  fill   : Bool
  /-- It needs a fill and waits for a miss register (R139). -/
  stalled : Bool
  joined : List Request
  /-- Every snooped core's write-back that crossed, owed a CMP_ACK (R149). -/
  acks   : List Nat
  deriving DecidableEq, Repr

/-- A stream detector entry (R128). -/
structure StreamEntry where
  agent  : Nat
  region : Nat
  count  : Nat
  deriving DecidableEq, Repr

/-- A slice (R125 to R158). Lists stand most recently used first. -/
structure Slice where
  ways    : List Way
  dir     : List DirEntry
  streams : List StreamEntry
  /-- The cullet tracker, newest first (R137). -/
  culls   : List Nat
  txns    : List Txn
  /-- Requests that hold an entry and wait behind their line's transaction, in arrival order (R150). -/
  waiting : List Request
  /-- Requests that wait in the request channel for an entry, a miss register or the end of a hold, in arrival order (R139, R141, R150). -/
  channel : List Request
  /-- Lines whose fill had not come when their transaction timed out (R151). -/
  lateFills : List Nat
  /-- CCH_SL_STATUS (R158). -/
  missMode : Bool
  hold    : Bool
  cause   : BitVec 2
  /-- The mode and cause that the change in progress will write (R141). -/
  nextMode : Bool
  nextCause : BitVec 2
  deriving DecidableEq, Repr

/-- The messages a home and an L1 exchange after a request is taken (R145). -/
inductive MsgKind where
  | request | snpInv | snpDown | snpDrop | rspAck | rspData | wb | evc | cmpS | cmpE | cmpM | cmpOwn | cmpNc | cmpAck
  deriving DecidableEq, Repr

structure Msg where
  /-- The model's own number of it. -/
  id     : Nat
  kind   : MsgKind
  /-- The core or other agent at the L1 or requester end. -/
  agent  : Nat
  line   : Nat
  data   : List Byte
  poison : Bool
  status : Code
  /-- The tag of a request or completion that crosses a pair port (R171, R172). -/
  tag    : Option TagRef
  /-- What a request asks. -/
  req    : Option Request
  /-- The other destinations of a multicast, each with its tag (R173). -/
  also   : List (Nat × Option TagRef)
  /-- Where it stands (R159, R160, R164): the row hub (0 to 95) or router (96 + base die), the input there, and the virtual channel: its
  class, 5 more in the detour set. -/
  node   : Nat
  input  : Nat
  vc     : Nat
  /-- It has made the first crossing of a detour. -/
  second : Bool
  /-- It is in a flit that the far end has not received; it holds its place at the far end's input. -/
  flying : Bool
  /-- It has left the fabric and stands at its destination. -/
  arrived : Bool
  deriving DecidableEq, Repr

/-- The cache registers (R155 to R157). -/
structure CacheRegs where
  pinCap      : BitVec 4
  homeTimeout : BitVec 8
  /-- CCH_CFG_ERR: PIN_CAP_RANGE, TIMEOUT_RANGE, HALTED_WRITE. -/
  cfgErr      : BitVec 3
  /-- The marked matrix cores of CCH_LA_RETAIN. -/
  retain      : NSet
  deriving DecidableEq, Repr

/-! ## Package fabric and reductions (R159 to R186) -/

/-- STATE of a pair port (R185). -/
inductive PortState where
  | up | retrain | degraded | down
  deriving DecidableEq, Repr

/-- A transaction tag of one port end (R171, R172). -/
structure Tag where
  side   : Nat
  index  : Nat
  gen    : BitVec 2
  abandons : Nat
  withheld : Bool
  agent  : Nat
  line   : Nat
  /-- The request expects data back (R163). -/
  wantsData : Bool
  busy   : Bool
  deriving DecidableEq, Repr

/-- A flit in a replay buffer (R166, R167): its HEADER (virtual channel with its set, sequence number, acknowledgement), the message it
carries, and where that stood at the sending router. -/
structure Flit where
  vc     : Nat
  seq    : Nat
  ack    : Nat
  msg    : Nat
  node   : Nat
  input  : Nat
  from_  : Nat
  deriving DecidableEq, Repr

/-- One direction of a pair port (R166 to R169). -/
structure PortDir where
  lanes  : Nat
  spares : Nat
  /-- Lanes that spares have replaced. -/
  retired : NSet
  /-- The sender's next sequence number, and the receiver's expected one. -/
  seq    : Nat
  expect : Nat
  /-- Flits sent and not yet acknowledged, oldest first (at most 512). -/
  replay : List Flit
  /-- A replay is due from this sequence number on. -/
  resend : Option Nat
  /-- Consecutive failed replays of one flit. -/
  fails  : Nat
  /-- Flits received; and for each lane its corrected symbols, and the flits received when its 1 ms window began. -/
  flits  : Nat
  laneErr : Tab (Nat × Nat)
  deriving DecidableEq, Repr

/-- A pair port (R161 to R172, R185). -/
structure PairPort where
  state   : PortState
  ab      : PortDir
  ba      : PortDir
  /-- Its traffic has moved to the detour (R169 step 4). -/
  detour  : Bool
  severed : Bool
  /-- Failed full-width attempts of the retrain in progress, and the half-width attempt's turn (R169). -/
  attempts : Nat
  halfTurn : Bool
  tags    : List Tag
  deriving DecidableEq, Repr

/-- A node of a reduction round (R177): its level and position in the tree, its line of the payload, and the combining point where it
waits: a row hub (0 to 95), a router (96 + base die), or the root's store, which is at its router (R179, R180). -/
structure RedNode where
  line   : Nat
  level  : Nat
  pos    : Nat
  data   : List Byte
  poison : Bool
  place  : Nat
  deriving DecidableEq, Repr

/-- An open reduction group (R174 to R183). -/
structure RedGroup where
  num      : Nat
  facet    : Nat
  op       : BitVec 2
  n        : Nat
  payload  : Nat
  window   : Nat
  dest     : Nat
  done     : Nat
  root     : Nat
  reserved : Nat
  rounds   : BitVec 32
  nodes    : List RedNode
  /-- Slot lines filled in the open round: rank × lines + line (R182). -/
  filled   : NSet
  overrun  : Bool
  /-- The open round completes with POISONED set (R373). -/
  poisoned : Bool
  /-- A round whose destination lines are written and whose done word is owed: its POISONED and OVERRUN, and the compute dies that
  contributed to it (R181, R182, R395). -/
  doneOwed : Option (Bool × Bool × NSet)
  /-- Rounds that were phase points, and the averages of R395 for the group (POWER_LAG_REPORT, R414). -/
  phaseRounds : Nat
  intervals : List Nat
  lags     : Tab Rat
  /-- Compute dies that contributed to the open round (R395). -/
  dies     : NSet
  deriving DecidableEq, Repr

/-! ## Stacks, far tier and mapped memory (R187 to R214, R322 to R324) -/

/-- A read of a fill at a memory controller or far port, and how many later reads have bypassed it (R199). -/
structure MemRead where
  line   : Nat
  passed : Nat
  deriving DecidableEq, Repr

/-- A stack: MEM_STACK_STATUS (R212) and its pseudo-channels (R199, R201). -/
structure Stack where
  state    : BitVec 2
  rate     : BitVec 2
  declared : BitVec 2
  temp     : BitVec 8
  throttle : BitVec 2
  refresh2x : Bool
  /-- Lines in the write queue of each pseudo-channel: pseudo-channel and line, oldest first (R199). -/
  writeQ   : List (Nat × Nat)
  /-- Pseudo-channels whose bus was last turned to writing, and the open row of each bank, by pseudo-channel + 64 × bank, plus 1 (R201). -/
  writing  : NSet
  rows     : Tab Nat
  deriving DecidableEq, Repr

/-- A write at a far memory device, which owes its agent a CMP_ACK (R217). -/
structure FarWrite where
  line   : Nat
  agent  : Nat
  tag    : Option TagRef
  deriving DecidableEq, Repr

/-- A far-tier port (R206 to R213, R484, R510). -/
structure FarPort where
  state    : BitVec 3
  rate     : BitVec 2
  width    : BitVec 2
  ide      : Bool
  /-- CAPACITY in 256 MiB units. -/
  capacity : Nat
  identity : Nat
  /-- Marked frames (R209): 2 MiB frame numbers in the port's window. -/
  marked   : NSet
  /-- Frames below this number are scrubbed (R484). -/
  scrubbed : Nat
  /-- FPn_PERST# is driven low (R510). -/
  perst    : Bool
  /-- Writes sent to the memory device and not yet completed (R217). -/
  writes   : List FarWrite
  deriving DecidableEq, Repr

/-- A device-memory page of a facet (R194): the virtual and physical 2 MiB page numbers, class and read-only flag. -/
structure PageMap where
  va    : Nat
  frame : Nat
  cls   : BitVec 3
  ro    : Bool
  deriving DecidableEq, Repr

/-- A BUS_MAP mapping (R322). -/
structure BusMap where
  va   : Nat
  bus  : Nat
  size : Nat
  peer : Bool
  ro   : Bool
  /-- A peer path that has closed since (R323). -/
  closed : Bool
  deriving DecidableEq, Repr

/-- An APERTURE_MAP mapping (R324): its BAR4 offset, device virtual address and size. -/
structure Aperture where
  offset : Nat
  va     : Nat
  size   : Nat
  keyed  : Bool
  key    : Nat
  read   : Bool
  write  : Bool
  anyRid : Bool
  rid    : BitVec 16
  deriving DecidableEq, Repr

/-- A MEM_ALLOC of far-tier frames that waits for scrubbing (R484): its function, virtual page, and the frames it will map, in order. -/
structure FarWait where
  fn    : Nat
  va    : Nat
  frames : List Nat
  cls   : BitVec 3
  ro    : Bool
  deriving DecidableEq, Repr

/-! ## Intake, rings, commands, mailbox, facets (R298 to R335, R362 to R387) -/

/-- A facet's quota (R364, R369). -/
structure Quota where
  partition : Bool
  maxClass  : Nat
  weight    : Nat
  hbmPages  : Nat
  sessions  : Nat
  riders    : Nat
  dmaMask   : BitVec 64
  share     : Nat
  mCores    : BitVec 768
  vCores    : BitVec 192
  deriving DecidableEq, Repr

/-- An intake window (R311, R329, R330). -/
structure Window where
  enable : Bool
  ring   : Nat
  slot   : Nat
  phase  : Bool
  slots  : Mem
  deriving DecidableEq, Repr

/-- A ring (R310, R317, R319, R320, R331): `written` holds the commands (or glints) written and not yet consumed. -/
structure Ring where
  registered : Bool
  log2     : Nat
  vector   : Nat
  irqEn    : Bool
  modCount : Nat
  modDelay : Nat
  bus      : Nat
  tail     : Nat
  head     : Nat
  seq      : BitVec 32
  phase    : Bool
  unsignalled : Nat
  written  : List Nat
  deriving DecidableEq, Repr

/-- Where a command stands (R313, R315, R317): not started, running, ended and not yet due under its barrier, its completion
held, or written to its ring and not yet consumed. -/
inductive CmdState where
  | waiting | running | ended | held | written
  deriving DecidableEq, Repr

/-- An outstanding command of a facet (R313 to R318). `serial` is its acceptance order in the facet. -/
structure Cmd where
  serial  : Nat
  id      : BitVec 16
  gen     : BitVec 8
  typ     : BitVec 8
  window  : Nat
  ring    : Nat
  barrier : BitVec 2
  user    : BitVec 64
  cls     : Nat
  ordered : Bool
  state   : CmdState
  status  : Code
  result  : BitVec 64
  hostLost : Bool
  /-- False for a record refused by R315: it occupies no identifier. -/
  occupies : Bool
  /-- Completed by HELLO with DISCARD or reset actions: its completion is dropped (R309). -/
  dropped : Bool
  /-- Its argument bytes 16 to 55, for a start that ORDERED defers, and the descriptor of a RIDE or a GENERATE as acceptance copied it, where
  it could be read (R256, R283). -/
  args    : List Byte
  copied  : Option (List Byte)
  /-- Order in which completions became due (R317). -/
  dueOrder : Nat
  /-- Peer regions whose confirmation its system barrier waits for (R226, R232), and whether a confirmation read has failed (R323). -/
  confirms : List Nat
  confirmFailed : Bool
  deriving DecidableEq, Repr

/-- The gaffer mailbox of a function (R303 to R306). -/
structure Mailbox where
  go      : Bool
  irqEn   : Bool
  vector  : BitVec 5
  done    : Bool
  busy    : Bool
  dropped : Bool
  status  : Code
  buf     : Mem
  /-- Accepted by the gaffer: a command is executing (R306 step 3), and an FLR discards its response. -/
  accepted : Bool
  discard : Bool
  deriving DecidableEq, Repr

/-- STATE of a facet (R387). -/
inductive FacetState where
  | absent | running | quiescing | quiesced | frozen | resetting
  deriving DecidableEq, Repr

/-- Dirty-page logging of a facet (R382, R383). -/
structure DirtyLog where
  on      : Bool
  /-- LOG_SIDE: bitmap B is active. -/
  sideB   : Bool
  bitmapA : Nat
  bitmapB : Nat
  base    : Nat
  size    : Nat
  /-- The shadow of the active bitmap: the set pages. -/
  shadow  : NSet
  deriving DecidableEq, Repr

/-- A PCIe function and its facet (R300, R362 to R387). -/
structure Facet where
  state   : FacetState
  quota   : Quota
  /-- OVER bits in the order of R387: cores, HBM, sessions, riders, channels, share. -/
  overBits    : BitVec 6
  aborted : BitVec 16
  mailbox : Mailbox
  /-- A HELLO has succeeded since creation, FLR and reset actions (R307). -/
  hello   : Bool
  attached : Bool
  ringsVoid : Bool
  ifSel   : Code
  credential : Option (BitVec 64)
  /-- Consent token of the facet (R465). -/
  consent : Option (BitVec 64)
  windows : Tab Window
  /-- Rings 0 to 15, and the glint ring 16. -/
  rings   : Tab Ring
  /-- Generation of identifier i: `genBase + gens i` (R315). -/
  genBase : BitVec 8
  gens    : Tab (BitVec 8)
  cmds    : List Cmd
  nextSerial : Nat
  nextDue : Nat
  glintLost : Bool
  /-- The LINK_DOWN glint is held (R320, R326), with the two counts it will report (R321). -/
  linkDownHeld : Bool
  lostCount : Nat
  rewritten : Nat
  /-- INT_CFG_ERR (R333): HALTED_WRITE, NO_RING, HEAD_RANGE. -/
  cfgErr  : BitVec 3
  pages   : List PageMap
  buses   : List BusMap
  apertures : List Aperture
  /-- BAR4 size, its size at link-down, and that its plain mappings await the next HELLO (R302, R328). -/
  bar4    : Nat
  bar4AtDown : Nat
  plainPending : Bool
  log     : DirtyLog
  /-- Frozen-block store pages (R374) and FREEZE of the quiesce in progress (R373). -/
  storePages : Nat
  freezing : Bool
  limitMs : Nat
  /-- Commands ended by the quiesce in progress (R373), and QUIESCE's own mailbox waits on the manager's function. -/
  endedCount : Nat
  quiescer : Option Nat
  /-- The MSI-X table's words (four a vector; the control word's mask bit is 1 at reset) and the PBA bits (R301, R319). -/
  msix    : Tab (BitVec 32)
  pba     : NSet
  deriving DecidableEq, Repr

/-! ## DMA channels (R336 to R361) -/

/-- A fetched descriptor (R340). -/
structure Desc where
  va      : BitVec 64
  bad     : Bool
  op      : BitVec 4
  swap    : BitVec 3
  barrier : BitVec 2
  noAlloc : Bool
  length  : Nat
  src     : BitVec 64
  dst     : BitVec 64
  next    : BitVec 64
  pattern : BitVec 64
  deriving DecidableEq, Repr

/-- STATE of a channel (R358). -/
inductive ChanState where
  | idle | running | halted | confirming
  deriving DecidableEq, Repr

/-- The command a channel runs (R339, R341, R345). -/
structure DmaRun where
  fn      : Nat
  serial  : Nat
  nextVa  : BitVec 64
  maxDesc : Nat
  fetched : Nat
  desc    : List Desc
  /-- Bytes of the descriptor in execution that are done, and its marks. -/
  doneBytes : Nat
  poison  : Bool
  processed : Nat
  bad     : Nat
  poisoned : Nat
  /-- The end of the chain, and a status that ends it early (R349, R351, R345, R373). -/
  chainEnd : Bool
  fault   : Code
  /-- Last host address written, and last address in each peer region (R345). -/
  hostRec : Option Nat
  peerRecs : List PeerRec
  /-- Confirmation reads still out: 0 for host memory, r + 1 for region r. -/
  confirms : List Nat
  confirmFailed : Bool
  /-- A write to a 17th peer region holds the channel until the oldest is confirmed (R226). -/
  held    : Bool
  /-- A freeze stops it after the current descriptor (R373). -/
  freezing : Bool
  deriving DecidableEq, Repr

/-- A queued DMA command (R339). -/
structure DmaQueued where
  fn      : Nat
  serial  : Nat
  cls     : Nat
  accepted : Nat
  passed  : Nat
  chain   : BitVec 64
  maxDesc : Nat
  deriving DecidableEq, Repr

/-- A DMA channel (R336 to R360). -/
structure Channel where
  owner   : Nat
  /-- A removed channel whose running command still completes for its old holder (R372). -/
  leaving : Bool
  state   : ChanState
  compat  : Bool
  rate    : BitVec 7
  burst   : BitVec 13
  /-- Committed RATE and BURST (R9, R357), and tokens in bytes. -/
  actRate : BitVec 7
  actBurst : BitVec 13
  /-- A committed pair that the next grant brings into effect. -/
  commit  : Option (BitVec 7 × BitVec 13)
  tokens  : Nat
  queue   : List DmaQueued
  run     : Option DmaRun
  errAddr : BitVec 64
  errStatus : Code
  errDir  : Bool
  errPos  : BitVec 32
  /-- DMA_CH_CFG_ERR (R360): HALTED_WRITE, NOT_HALTED, LIMIT_RANGE. -/
  cfgErr  : BitVec 3
  /-- Grants that passed the head request, and its promotion order (R354). -/
  passedBy : Nat
  promoted : Option Nat
  deriving DecidableEq, Repr

/-! ## The lehr (R234 to R266) -/

/-- A registered block of a corpus (R239, R241). -/
structure CorpusBlock where
  number : Nat
  code   : Nat
  attr   : Nat
  rerank : Nat
  count  : Nat
  far    : Bool
  added  : Nat
  retired : Option Nat
  deriving DecidableEq, Repr

/-- A registered corpus (R238). -/
structure Corpus where
  num    : Nat
  /-- KIND: 0 BIN512, 1 I8x256. -/
  i8     : Bool
  access : BitVec 64
  /-- The epoch, and the one the next block boundary brings into effect (R241). -/
  epoch  : Nat
  active : Nat
  blocks : List CorpusBlock
  nextBlock : Nat
  /-- A CORPUS_RETIRE that has not completed: its mailbox function and epoch. -/
  retiring : Option (Nat × Nat)
  deriving DecidableEq, Repr

/-- Where a rider stands (R256 to R262). -/
inductive RiderState where
  | waiting | aboard | merging | gathering
  /-- Out of the queue while its facet is frozen (R373, R381). -/
  | frozen
  deriving DecidableEq, Repr

/-- A rider's partial list on a base die (R251): the vector core whose scratchpad holds it, its ascending entries, and the poison of its
lines (R423). -/
structure PartialList where
  die     : Nat
  core    : Nat
  entries : List Nat
  poison  : Bool
  deriving DecidableEq, Repr

/-- A seat's row in the scratchpad tiles of matrix cores (R249): its query code, and its thresholds by die (R250). -/
structure SeatRow where
  seat  : Nat
  query : List Byte
  thresholds : Tab Nat
  deriving DecidableEq, Repr

/-- What a matrix slot of every lehr row holds for a block (R249): a copy of a rider group, with its seats' rows. -/
structure LehrSlot where
  slot  : Nat
  group : Nat
  copy  : Nat
  seats : List SeatRow
  deriving DecidableEq, Repr

/-- A code tile of the block being swept (R248, R249): the position of its first code, its lehr row and copy, the matrix cores that it is
multicast to, one code a tile row (the second tile of an I8x256 pair, else empty), and its unscored rows. -/
structure CodeTile where
  first  : Nat
  count  : Nat
  row    : Nat
  copy   : Nat
  cores  : List Nat
  low    : List Byte
  high   : List Byte
  poison : NSet
  deriving DecidableEq, Repr

/-- A rider (R254 to R260). Entries are the 64-bit top-k entries of R111. -/
structure Rider where
  id      : Nat
  facet   : Nat
  serial  : Nat
  corpus  : Nat
  cls     : Nat
  k       : Nat
  dateIncl : Bool
  cutoff  : BitVec 20
  kindMask : BitVec 16
  classAny : BitVec 32
  classNone : BitVec 32
  rerank  : Bool
  handoff : Bool
  session : BitVec 32
  resultVa : Nat
  rerankVa : Nat
  fullqVa : Nat
  query   : List Byte
  state   : RiderState
  accepted : Nat
  /-- Starts of its corpus's first block since it entered the queue, and its promotion (R256). -/
  starts  : Nat
  promoted : Bool
  seat    : Nat
  epoch   : Nat
  /-- Block numbers it has been scored against. -/
  scored  : NSet
  /-- One partial list on each lehr base die (R251). -/
  lists   : List PartialList
  /-- Thresholds fixed at the last boundary, by die (R250). -/
  thresholds : Tab Nat
  candidates : Nat
  unscored : Nat
  /-- The status with which a rider aboard ends at the next boundary, writing nothing, and the RIDE_CANCEL commands that wait for it (R259). -/
  ending  : Option Code
  cancels : List Nat
  /-- The merged result, whether a line of it is poisoned, and the group of 448 to 495 that merges it (R258). -/
  result  : List Nat
  poisoned : Bool
  group   : Option Nat
  deriving DecidableEq, Repr

/-- A far block in the staging ring (R248): its code bytes and the numbers of its poisoned lines. -/
structure Staged where
  corpus : Nat
  block  : Nat
  bytes  : List Byte
  bad    : NSet
  deriving DecidableEq, Repr

/-- The lehr (R244 to R251). `cands` are candidate entries on their way to a vector core: rider, die, entry (R250). -/
structure Lehr where
  running : Bool
  /-- A LEHR_START whose cores are not yet free: its function (R244). -/
  starting : Option Nat
  dies    : BitVec 4
  corpora : List Corpus
  riders  : List Rider
  nextRider : Nat
  /-- The block being swept: corpus and block number. -/
  current : Option (Nat × Nat)
  cands   : List (Nat × Nat × Nat)
  staged  : List Staged
  /-- Positions of the block being swept whose codes are unscored (R264), and whether the candidate limit sets its time (R253, R266). -/
  lost    : NSet
  stall   : Bool
  /-- Rider groups holding riders at the boundary, and f; the matrix slots of a lehr row, and the code tiles of the block (R248, R249). -/
  groups  : List Nat
  copies  : Nat
  slots   : List LehrSlot
  tiles   : List CodeTile
  /-- Blocks reported poisoned in this circulation (R264): corpus and block. -/
  reported : List (Nat × Nat)
  /-- A LEHR_STOP with FORCE waits for the boundary: its function. -/
  stopping : Option Nat
  /-- Leaving riders that wait for one of the 48 groups (R258), in order. -/
  mergeWait : List Nat
  deriving DecidableEq, Repr

/-! ## Sessions, models, serving (R267 to R297) -/

/-- A sequence of a session (R283 to R286). -/
structure Sequence where
  serial  : Nat
  facet   : Nat
  prompt  : Nat
  maxNew  : Nat
  promptVa : Nat
  outVa   : Nat
  stop    : BitVec 32
  desc    : List Byte
  /-- The shortlist it took when it joined: rerank area and COUNT, and the bytes of that area; the prompt's bytes as far as prefill has
  read them. -/
  shortlist : Option (Nat × Nat)
  shortBytes : List Byte
  promptBytes : List Byte
  /-- Joined the batch, and its place in join order; prefill done in tokens; generated tokens; its KV pages. -/
  joined  : Bool
  joinOrder : Nat
  prefill : Nat
  made    : Nat
  lastToken : BitVec 32
  cancelled : Bool
  poisonedRow : Bool
  kvPages : Nat
  accepted : Nat
  passed  : Nat
  deriving DecidableEq, Repr

/-- An open session (R268, R269). -/
structure Session where
  num     : Nat
  gen     : BitVec 16
  facet   : Nat
  /-- The model entry's number. -/
  model   : Nat
  cls     : Nat
  spilled : Bool
  activity : Nat
  seqs    : List Sequence
  /-- Pending shortlists: rerank area and COUNT (R262, R283). -/
  shortlists : List (Nat × Nat)
  /-- A close waits for the joined sequence's step boundary: its mailbox function. -/
  closing : Option Nat
  deriving DecidableEq, Repr

/-- A golden source (R274): address and tier (0 HBM, 1 far, 2 host), with the facet it belongs to. -/
structure Source where
  facet : Nat
  addr  : Nat
  tier  : Nat
  deriving DecidableEq, Repr

/-- One facet's reference to a model entry (R275). -/
structure ModelRef where
  facet   : Nat
  handle  : BitVec 32
  cold    : Bool
  program : Nat
  maxContext : Nat
  kvBytes : Nat
  order   : Nat
  pinned  : Bool
  pinOrder : Nat
  deriving DecidableEq, Repr

/-- A model entry (R274 to R282, R434, R437). -/
structure Model where
  num     : Nat
  digest  : BitVec 256
  program : List Byte
  sources : List Source
  refs    : List ModelRef
  weightBytes : Nat
  lost    : Bool
  /-- The damage in repair, and cores to reload (R434). -/
  damaged : Bool
  damagedCores : NSet
  partition : Bool
  deriving DecidableEq, Repr

/-- The warm copy that the entries of one digest share (R275, R279): its size, and the HBM frames that hold it. -/
structure WarmCopy where
  digest  : BitVec 256
  bytes   : Nat
  frames  : List Nat
  deriving DecidableEq, Repr

/-- A model that waits for a slot, or for its partition's cores (R280, R282, R290): its acceptance, and the later-accepted entries that have passed it. -/
structure SlotAsk where
  model   : Nat
  accepted : Nat
  passed  : Nat
  deriving DecidableEq, Repr

/-- A hot-set slot (R277, R280), or a partition's resident model at a number from 16 (R282). -/
structure Slot where
  num     : Nat
  model   : Nat
  cores   : NSet
  loaded  : Bool
  loadOrder : Nat
  lastStep : Nat
  /-- A step is running; cores whose banks 2 to 8 must be reloaded (R407). -/
  stepping : Bool
  reload  : NSet
  deriving DecidableEq, Repr

structure Serving where
  sessions : List Session
  gens    : Tab (BitVec 16)
  activity : Nat
  restoreQ : List Nat
  models  : List Model
  nextModel : Nat
  nextOrder : Nat
  warms   : List WarmCopy
  slots   : List Slot
  slotQ   : List SlotAsk
  deriving DecidableEq, Repr

/-- The gaffer's arbitration of intake (R294, R311): the facet whose round it is and the records that its quantum still allows, and the window
of each facet that was read last, plus 1. -/
structure Intake where
  facet   : Nat
  left    : Nat
  windows : Tab Nat
  deriving DecidableEq, Repr

/-! ## Power (R388 to R422) -/

/-- STATE of a compute die (R405). -/
inductive DieState where
  | on | dim | dark | transition
  deriving DecidableEq, Repr

/-- An AVSBus rail (R399, R400): millivolts. -/
structure Rail where
  acked   : Nat
  outstanding : Option Nat
  waiting : Option Nat
  resent  : Bool
  fault   : Bool
  deriving DecidableEq, Repr

/-- A compute die's power control (R393 to R412). -/
structure Die where
  state   : DieState
  temp    : Nat
  /-- C_d, and the value it may rise to once the rail is raised (R394), in beats per second. -/
  ceiling : Rat
  wanted  : Option Rat
  /-- A_d in W, and E_d of the last 250 periods of 4 µs in W, newest first. -/
  alloc   : Rat
  periods : List Rat
  /-- The active step of R404: the die's own, and the one in force with its base die's. -/
  ownThermal : Nat
  thermal : Nat
  /-- C_d has stayed below R_fix since the 1 ms window began (R398). -/
  missed  : Bool
  /-- Rows gated for droop, and rows whose detector cleared while a request is outstanding (R401, R402). -/
  droop   : NSet
  cleared : NSet
  deferred : Bool
  mult    : Rat
  lag     : Rat
  phases  : BitVec 32
  /-- Distributions since the lag was updated; 10 where it is older (R396). -/
  lagAge  : Nat
  wakeLatch : Bool
  /-- In TRANSITION: entering DARK (else leaving it). -/
  entering : Bool
  deriving DecidableEq, Repr

structure BaseDie where
  temp    : Nat
  periods : List Rat
  thermal : Nat
  deriving DecidableEq, Repr

structure Power where
  cap     : Nat
  nextCap : Nat
  fixed   : Bool
  fixedRate : Nat
  gain    : Rat
  calLimit : Bool
  inputW  : Nat
  overWindows : Nat
  pkg     : BitVec 2
  dies    : Tab Die
  bases   : Tab BaseDie
  rails   : Tab Rail
  /-- PWR_CTRL, PWR_IDLE, PWR_CFG_ERR (R416, R417). -/
  dimEn   : Bool
  pkgDarkEn : Bool
  droopMargin : BitVec 4
  idleUs  : BitVec 20
  /-- The LIVE fields as the block acts on them: a written value comes into force at the next 4 µs estimation period (R8, R416). -/
  actDimEn : Bool
  actPkgDarkEn : Bool
  actDroopMargin : BitVec 4
  actIdleUs : BitVec 20
  cfgErr  : BitVec 2
  overcurrent : Bool
  perstWarm : Bool
  /-- PWR_MODULE (R517). -/
  inlet   : BitVec 8
  outlet  : BitVec 8
  inputDv : BitVec 12
  inputDa : BitVec 12
  slotId  : BitVec 3
  coolantWarn : Bool
  deriving DecidableEq, Repr

/-! ## Errors (R423 to R444) -/

structure Errors where
  autoRetire : Bool
  retireScore : BitVec 11
  ceThresh : BitVec 12
  /-- CE_THRESH of the running 1 s window: a written value acts from the next one (R8, R441). -/
  actCeThresh : BitVec 12
  cfgErr  : BitVec 2
  logSource : BitVec 4
  logFacet : BitVec 6
  logCore : BitVec 11
  logValid : Bool
  logAddr : BitVec 52
  scores  : Tab Nat
  /-- Retired cores (R25, R26), by CORE number. -/
  retired : NSet
  /-- Corrected events in the running 1 s window (R432). -/
  corrected : Nat
  fatal   : Bool
  /-- Device-fatal events in module flash, newest first (R436), and retirements that wait for a die reset (R486). -/
  fatalRecords : List Nat
  retireWait : List Nat
  deriving DecidableEq, Repr

/-! ## Security, debug, audit (R445 to R476) -/

structure AuditEntry where
  kind    : BitVec 8
  actor   : BitVec 6
  self    : Bool
  code    : Code
  status  : Code
  seq     : Nat
  subject : BitVec 64
  detail  : BitVec 64
  prev    : BitVec 256
  deriving DecidableEq, Repr

structure Checkpoint where
  first   : Nat
  last    : Nat
  lost    : Nat
  digest  : BitVec 256
  nonce   : BitVec 256
  lifecycle : BitVec 2
  fwVersion : BitVec 32
  deriving DecidableEq, Repr

/-- A signing that is due (R452, R461): an attestation report of a mailbox or a DOE request, or a checkpoint. -/
inductive Signing where
  | report (fn : Nat) (doe : Bool) (nonce : BitVec 256) (dest : Nat)
  | checkpoint (fn : Option Nat) (nonce : BitVec 256) (dest : Nat)
  deriving DecidableEq, Repr

/-- A firmware bank (R446, R447, R520). -/
structure Bank where
  usable  : Bool
  version : BitVec 32
  svn     : BitVec 8
  ifMin   : Code
  ifMax   : Code
  measurement : BitVec 256
  /-- Its image has completed boot step 8 (R480). -/
  proven  : Bool
  deriving DecidableEq, Repr

structure Security where
  lifecycle : BitVec 2
  debug   : BitVec 2
  haltFacet : Nat
  svnFused : BitVec 8
  transitions : Nat
  banks   : Tab Bank
  owner   : Option (BitVec 256)
  migration : Option (BitVec 256)
  /-- Installed PCIe IDE keys by stream × 4 + set × 2 + direction (R453). -/
  ideKeys : Tab (BitVec 256)
  ideLink : Bool
  requireIde : Bool
  nonce   : Option (BitVec 256)
  /-- The trace ring: address, log2 of its entries, next sequence number (R467). -/
  trace   : Option (Nat × Nat)
  traceSeq : Nat
  /-- The journal, newest first, the newest acknowledged SEQ, the last SEQ in a signed checkpoint, LOST (R458 to R462, R475). -/
  journal : List AuditEntry
  seq     : Nat
  lastDigest : BitVec 256
  acked   : Nat
  lost    : Nat
  checkpoints : List Checkpoint
  signings : List Signing
  /-- LAST, LOST and the digest of LAST that the checkpoint being signed covers, fixed when its signing started (R461). -/
  covers  : Option (Nat × Nat × BitVec 256)
  sinceCheckpoint : Nat
  deriving DecidableEq, Repr

/-! ## Reset, boot and the module's pins (R477 to R520) -/

/-- A die reset in progress (R485): its die, the step under way, the launches lost and their facets, and the function of the DIE_RESET
command or none for the gaffer. -/
structure DieReset where
  die   : Nat
  step  : Nat
  lost  : Nat
  facets : NSet
  fn    : Option Nat
  deriving DecidableEq, Repr

structure Boot where
  /-- Input good (R504), the electronic fuse, the step in progress (1 to 8; 9 when ready; 0 when off). -/
  inputGood : Bool
  fuseOpen : Bool
  step    : Nat
  cause   : BitVec 3
  bank    : Nat
  fallback : Bool
  recovery : Bool
  failStep : BitVec 4
  failDies : BitVec 4
  /-- Module flash: the activated bank, the watchdog expiry record, the bank that the last boot tried first, and whether the activated
bank has been tried first after an expiry before it ever completed step 8 (R480). -/
  activated : Nat
  expired : Bool
  triedFirst : Nat
  retried : Bool
  /-- A warm reset 1 ms away, with its cause (R487, R514). -/
  warmDue : Option (BitVec 3)
  dieReset : Option DieReset
  /-- Dies whose vertical ports wait for a reset behind the one in progress (R485). -/
  dieResetQ : List Nat
  deriving DecidableEq, Repr

/-- What the device sends outside the memories (R303, R319, R432, R506, R512): interrupts, AER messages, DOE responses, sideband
responses, in order, oldest first. -/
inductive Sent where
  | msix (fn vector : Nat)
  | aer (fn : Nat) (uncorrectable fatal : Bool)
  | aerPoisonedTlp (fn : Nat)
  | aerAdvisory (fn : Nat)
  | doe (fn : Nat) (bytes : List Byte)
  | pldm (value : Nat)
  | completion (data : List Byte) (ep : Bool)
  | unsupportedRequest
  | retryStatus
  | configValue (value : BitVec 32)
  | readValue (value : BitVec 64)
  /-- A non-posted 4-byte read that confirms the writes to host memory or a peer region (R226). -/
  | confirmRead (addr : Nat)
  deriving DecidableEq, Repr

/-- The link, the pins and the host's memory as the port sees it (R298, R299, R326, R332, R512, R513; log 6, DESIGN CHOICE). -/
structure HostLink where
  linkUp  : Bool
  rate    : BitVec 3
  width   : BitVec 5
  perst   : Bool
  numVFs  : Nat
  /-- Functions with memory space and MSI-X enabled. -/
  memEnable : NSet
  msixEnable : NSet
  mem     : Mem
  /-- Lines of host memory written poisoned (EP), and lines whose reads end in Unsupported Request, Completer Abort or timeout, by
  128-byte number. -/
  memPoison : NSet
  memFail : NSet
  /-- Functions under FLR, whose requests the port answers itself (R377). -/
  flr     : NSet
  eidSmb  : BitVec 8
  eidI3c  : BitVec 8
  dynAddr : BitVec 7
  ocAlert : Bool
  thermTrip : Bool
  deriving DecidableEq, Repr

/-- A sealed facet image that FACET_SAVE made (R379; log 16, DESIGN CHOICE): its digest and the frozen facet it holds, as plain data. -/
structure Image where
  digest  : BitVec 256
  key     : BitVec 256
  ifSel   : Code
  facet   : Facet
  launches : List Launch
  saved   : List SavedBlock
  sessions : List Session
  models  : List Model
  riders  : List Rider
  dma     : List (Nat × DmaRun)
  queued  : List DmaQueued
  clusters : List Cluster
  groups  : List RedGroup
  /-- The contents of its device-memory pages, by virtual address, and their poisoned lines. -/
  bytes   : Mem
  poison  : NSet
  pages   : Nat
  deriving DecidableEq, Repr

/-- Failed checks that stand in a structure and that its next use finds (R423): parity errors of register-file rows (ray
registers by beam, tile rows by launch, block and 128 n + r), local-array bank rows, L1 lines (core and number), slice ways,
directory entries; mismatches of a scalar unit (core and unit), with whether they persist; HBM lines whose next read on-die ECC corrects (1),
fails its CRC once (2) or twice (3), far lines whose next read is answered with poison (R203, R208), and lehr cores
whose next instruction mismatches, with the tile rows whose check its re-execution fails again (R263). No command of the table makes one
(log 21, DESIGN CHOICE). -/
structure Strikes where
  rf     : List (BeamRef × Nat)
  tiles  : List (Nat × Nat × Nat)
  la     : List (Nat × Nat)
  l1     : List (Nat × Nat)
  slice  : NSet
  dir    : NSet
  scalar : List (Nat × Nat × Bool)
  hbm    : Tab Nat
  far    : NSet
  lehr   : List (Nat × List Nat)
  deriving DecidableEq, Repr

/-! ## The whole state -/

/-- The block itself: everything but the queue of commands. -/
structure Dev where
  /-- PART_CODE is 0x1248 rather than 0x1264 (R1, R2). -/
  part48  : Bool
  /-- The spare map by row: M_OFF, V_OFF with their REPAIRED bits, as ID_ROW_MAP's low byte; unlisted rows are unrepaired (R22). -/
  rowMap  : Tab (BitVec 8)
  /-- The latch of each 64-bit register for each function, by 2^24 fn + offset: one more than the latched word, 0 empty (R34). -/
  latches : Tab Nat
  beats   : Tab (BitVec 64)
  /-- Every COUNT counter by BAR0 offset, and the facet-scoped views by 2^24 f + offset (R154). -/
  counters : Tab (BitVec 48)
  facetCounters : Tab (BitVec 48)
  launches : List Launch
  blocks  : List Block
  clusters : List Cluster
  saved   : List SavedBlock
  cores   : Tab Core
  nextLaunch : Nat
  /-- Acceptance order shared by launches, sequences, slot loads (R290). -/
  nextAccept : Nat
  slices  : Tab Slice
  net     : List Msg
  nextMsg : Nat
  /-- The round robin of each output (R165): by 64 × node + output the virtual channel granted last, plus 1; and by
  16 × (64 × node + output) + channel the input granted last, plus 1. -/
  vcTurns : Tab Nat
  inTurns : Tab Nat
  cache   : CacheRegs
  ports   : Tab PairPort
  groups  : List RedGroup
  /-- Device memory by physical address, and the poisoned lines (the POISON bit of R202, home state P of R148). -/
  mem     : Mem
  memPoison : NSet
  /-- Reads at the controllers and far ports, oldest first (R199, R203, R208). -/
  reads   : List MemRead
  stackRegs : Tab Stack
  wbatch  : BitVec 2
  memCfgErr : Bool
  /-- Stripe modes (R193): 0 none, 1 SPREAD, 2 LOCAL; and the holder of each 2 MiB frame: f + 1, 0 free. -/
  stripes : Tab Nat
  frames  : Tab Nat
  farPorts : Tab FarPort
  farWaits : List FarWait
  facets  : Tab Facet
  channels : Tab Channel
  /-- The channel that was granted last, plus 1, by 4 × complex + class (R354). -/
  dmaGrants : Tab Nat
  intake  : Intake
  /-- The function whose mailbox command was accepted last (R307). -/
  mbxTurn : Nat
  lehr    : Lehr
  serving : Serving
  power   : Power
  errors  : Errors
  security : Security
  boot    : Boot
  host    : HostLink
  images  : List Image
  /-- BAR4 requests that the port holds while the package is DARK or leaves it (R413), oldest first. -/
  heldBar4 : List Instr
  sent    : List Sent
  /-- The model's own: how many free values have been drawn (log 11, DESIGN CHOICE). -/
  freeCount : Nat
  /-- POISON_ORIGIN coalescing (R431): source code and page or core, within 1 ms of the first. -/
  origins : List (Nat × Nat)
  strikes : Strikes
  deriving DecidableEq, Repr

/-- The state: the commands that wait, first in, first out, and the block. -/
structure State where
  pending : List Instr
  dev     : Dev
  deriving DecidableEq, Repr

/-- A step of this model never faults (every corner the spec names is a status, a trap or a register flag: log 1, DESIGN CHOICE). The one
constructor stands for a device that is not there. -/
inductive Fault where
  /-- Raised by no meaning. Safe. -/
  | absentDevice
  deriving DecidableEq, Repr

/-- The reasons for which a command has no meaning. -/
inductive Refusal where
  /-- Raised by an arm of `exec` whose command is not modelled yet, with its mnemonic. Safe. -/
  | notModelled (mnemonic : String)
  deriving DecidableEq, Repr

/-! ## Reset values -/

def Core.reset : Core :=
  { split := 0, splitBy := none, la := [], laPoison := [], l1 := [], wbuf := [], reqs := [], heldSnoops := [], matQ := [],
    movQ := [], vecQ := [], sortQ := [], peerRecs := [], lastWork := 0, gated := false, switchReq := false,
    switchLate := false }

def Slice.reset : Slice :=
  { ways := [], dir := [], streams := [], culls := [], txns := [], waiting := [], channel := [], lateFills := [], missMode := true, hold := false, cause := 1,
    nextMode := true, nextCause := 1 }

def PortDir.reset : PortDir :=
  { lanes := 0, spares := 4, retired := [], seq := 0, expect := 0, replay := [], resend := none, fails := 0, flits := 0, laneErr := [] }

def PairPort.reset : PairPort :=
  { state := .down, ab := PortDir.reset, ba := PortDir.reset, detour := false, severed := false, attempts := 0, halfTurn := false,
    tags := [] }

def Stack.reset : Stack :=
  { state := 3, rate := 0, declared := 0, temp := 0, throttle := 0, refresh2x := false, writeQ := [], writing := [], rows := [] }

def FarPort.reset : FarPort :=
  { state := 0, rate := 0, width := 0, ide := false, capacity := 0, identity := 0, marked := [], scrubbed := 0, perst := true,
    writes := [] }

def Window.reset : Window := { enable := false, ring := 0, slot := 0, phase := true, slots := [] }

def Ring.reset : Ring :=
  { registered := false, log2 := 0, vector := 0, irqEn := false, modCount := 0, modDelay := 0, bus := 0, tail := 0, head := 0,
    seq := 0, phase := true, unsignalled := 0, written := [] }

def Mailbox.reset : Mailbox :=
  { go := false, irqEn := false, vector := 0, done := false, busy := false, dropped := false, status := 0, buf := [],
    accepted := false, discard := false }

def Quota.zero : Quota :=
  { partition := false, maxClass := 0, weight := 0, hbmPages := 0, sessions := 0, riders := 0, dmaMask := 0, share := 0,
    mCores := 0, vCores := 0 }

def DirtyLog.off : DirtyLog := { on := false, sideB := false, bitmapA := 0, bitmapB := 0, base := 0, size := 0, shadow := [] }

/-- A function whose facet is absent (R300), with BAR4 at its reset size (R301: 4 GiB on a virtual function). -/
def Facet.reset : Facet :=
  { state := .absent, quota := Quota.zero, overBits := 0, aborted := 0, mailbox := Mailbox.reset, hello := false, attached := false,
    ringsVoid := false, ifSel := 0, credential := none, consent := none, windows := [], rings := [], genBase := 0, gens := [],
    cmds := [], nextSerial := 0, nextDue := 0, glintLost := false, linkDownHeld := false, lostCount := 0, rewritten := 0,
    cfgErr := 0, pages := [], buses := [], apertures := [], bar4 := 4294967296, bar4AtDown := 4294967296,
    plainPending := false, log := DirtyLog.off, storePages := 0, freezing := false, limitMs := 0, endedCount := 0,
    quiescer := none, msix := [], pba := [] }

/-- Facet 0, the manager: RUNNING, MAX_CLASS 0, WEIGHT 64, SESSIONS, RIDERS and SHARE at their maxima (R365), BAR4 at 64 GiB. Its
quota's remainders (pages, channels, cores) are computed where they are used. -/
def Facet.manager : Facet :=
  { Facet.reset with state := .running, bar4 := 68719476736, bar4AtDown := 68719476736,
                     quota := { Quota.zero with weight := 64, sessions := 65536, riders := 5120, share := 768 } }

def Channel.reset : Channel :=
  { owner := 0, leaving := false, state := .idle, compat := false, rate := 0, burst := 0x40, actRate := 0, actBurst := 0x40,
    commit := none, tokens := 65536, queue := [], run := none, errAddr := 0, errStatus := 0, errDir := false, errPos := 0, cfgErr := 0,
    passedBy := 0, promoted := none }

def Lehr.reset : Lehr :=
  { running := false, starting := none, dies := 0, corpora := [], riders := [], nextRider := 0, current := none, cands := [], staged := [], lost := [], stall := false,
    groups := [], copies := 0, slots := [], tiles := [], reported := [], stopping := none, mergeWait := [] }

def Serving.reset : Serving :=
  { sessions := [], gens := [], activity := 0, restoreQ := [], models := [], nextModel := 0, nextOrder := 0, warms := [],
    slots := [], slotQ := [] }

/-- The arbiters start at facet 0 and window 0 (log 7, DESIGN CHOICE). -/
def Intake.reset : Intake := { facet := 63, left := 0, windows := [] }

def Rail.reset : Rail := { acked := 0, outstanding := none, waiting := none, resent := false, fault := false }

def Die.reset : Die :=
  { state := .on, temp := 0, ceiling := 0, wanted := none, alloc := 0, periods := [], ownThermal := 0, thermal := 0, missed := false,
    droop := [], cleared := [], deferred := false, mult := 1, lag := 0, phases := 0, lagAge := 10, wakeLatch := false,
    entering := false }

def BaseDie.reset : BaseDie := { temp := 0, periods := [], thermal := 0 }

def Power.reset : Power :=
  { cap := 2800, nextCap := 2800, fixed := false, fixedRate := 0, gain := 1, calLimit := false, inputW := 0, overWindows := 0,
    pkg := 0, dies := [], bases := [], rails := [], dimEn := true, pkgDarkEn := false, droopMargin := 8, idleUs := 0xC8,
    actDimEn := true, actPkgDarkEn := false, actDroopMargin := 8, actIdleUs := 0xC8,
    cfgErr := 0, overcurrent := false, perstWarm := false, inlet := 0, outlet := 0, inputDv := 0,
    inputDa := 0, slotId := 7, coolantWarn := false }

def Errors.reset : Errors :=
  { autoRetire := true, retireScore := 0x40, ceThresh := 0x3E8, actCeThresh := 0x3E8, cfgErr := 0, logSource := 0, logFacet := 0, logCore := 0,
    logValid := false, logAddr := 0, scores := [], retired := [], corrected := 0, fatal := false, fatalRecords := [], retireWait := [] }

/-- A bank that holds a valid first TG1 image, which serves exactly 0x0100 (R308; its version and SVN: log 7, DESIGN CHOICE). -/
def Bank.reset : Bank := { usable := true, version := 1, svn := 0, ifMin := 0x0100, ifMax := 0x0100, measurement := 0, proven := true }

def Security.reset : Security :=
  { lifecycle := 1, debug := 0, haltFacet := 0, svnFused := 0, transitions := 1, banks := [], owner := none, migration := none,
    ideKeys := [], ideLink := false, requireIde := false, nonce := none, trace := none, traceSeq := 0, journal := [], seq := 0,
    lastDigest := 0, acked := 0, lost := 0, checkpoints := [], signings := [], covers := none, sinceCheckpoint := 0 }

/-- A cold boot at its step 1 (R478). -/
def Boot.reset : Boot :=
  { inputGood := true, fuseOpen := false, step := 1, cause := 0, bank := 0, fallback := false, recovery := false, failStep := 0,
    failDies := 0, activated := 0, expired := false, triedFirst := 0, retried := false, warmDue := none, dieReset := none, dieResetQ := [] }

def HostLink.reset : HostLink :=
  { linkUp := false, rate := 0, width := 0, perst := true, numVFs := 0, memEnable := [], msixEnable := [], mem := [],
    memPoison := [], memFail := [], flr := [], eidSmb := 0, eidI3c := 0, dynAddr := 0, ocAlert := false, thermTrip := false }

def CacheRegs.reset : CacheRegs := { pinCap := 8, homeTimeout := 0x64, cfgErr := 0, retain := [] }

def Strikes.none : Strikes := { rf := [], tiles := [], la := [], l1 := [], slice := [], dir := [], scalar := [], hbm := [], far := [], lehr := [] }

/-- The block right after a cold reset (R477, R504): the boot stands at step 1, every register at the value the spec states, and
every other one at the value its log entry names (log 7, DESIGN CHOICE). The part is an IMX1264 with no repaired and no retired site. -/
def Dev.reset : Dev :=
  { part48 := false, rowMap := [], latches := [], beats := [], counters := [], facetCounters := [],
    launches := [], blocks := [], clusters := [], saved := [], cores := [], nextLaunch := 0, nextAccept := 0, slices := [],
    net := [], nextMsg := 0, vcTurns := [], inTurns := [], cache := CacheRegs.reset, ports := [], groups := [], mem := [], memPoison := [], reads := [], stackRegs := [],
    wbatch := 1, memCfgErr := false, stripes := [], frames := [], farPorts := [], farWaits := [],
    facets := [(0, Facet.manager)], channels := [], dmaGrants := [], intake := Intake.reset, mbxTurn := 63, lehr := Lehr.reset, serving := Serving.reset, power := Power.reset,
    errors := Errors.reset, security := Security.reset, boot := Boot.reset, host := HostLink.reset, images := [], heldBar4 := [],
    sent := [], freeCount := 0, origins := [], strikes := Strikes.none }

/-- The state right after a cold reset: an empty queue and the block of `Dev.reset`. -/
def State.reset : State := { pending := [], dev := Dev.reset }

/-- A sender puts a command at the back of the queue. -/
def State.enqueue (s : State) (c : Instr) : State := { s with pending := s.pending ++ [c] }

end Sys2Proof.Machine
end

