-- ==== Sys2Proof/Machine/Ops.lean ====
section
/-! DEFINITION. The named operations that every family uses: running a meaning on a state, reading and updating each part of the block by its number, counters, fresh free values, traffic to the host, interrupts, glints, completions and the audit journal. -/

namespace Sys2Proof.Machine

/-- What a meaning answers. -/
abbrev Out := Host.Outcome State Fault Refusal

/-- Every meaning of this model: a function of the block alone, so the queue stays as it is and every command completes. -/
def State.run (s : State) (f : Dev → Dev) : Out := .next { s with dev := f s.dev }

/-! ## Parts by number -/

def Dev.facet (d : Dev) (f : Nat) : Facet := Tab.get Facet.reset d.facets f
def Dev.setFacet (d : Dev) (f : Nat) (x : Facet) : Dev := { d with facets := Tab.set Facet.reset d.facets f x }
def Dev.updFacet (d : Dev) (f : Nat) (g : Facet → Facet) : Dev := d.setFacet f (g (d.facet f))

def Dev.core (d : Dev) (c : Nat) : Core := Tab.get Core.reset d.cores c
def Dev.setCore (d : Dev) (c : Nat) (x : Core) : Dev := { d with cores := Tab.set Core.reset d.cores c x }
def Dev.updCore (d : Dev) (c : Nat) (g : Core → Core) : Dev := d.setCore c (g (d.core c))

def Dev.slice (d : Dev) (n : Nat) : Slice := Tab.get Slice.reset d.slices n
def Dev.setSlice (d : Dev) (n : Nat) (x : Slice) : Dev := { d with slices := Tab.set Slice.reset d.slices n x }
def Dev.updSlice (d : Dev) (n : Nat) (g : Slice → Slice) : Dev := d.setSlice n (g (d.slice n))

def Dev.port (d : Dev) (n : Nat) : PairPort := Tab.get PairPort.reset d.ports n
def Dev.setPort (d : Dev) (n : Nat) (x : PairPort) : Dev := { d with ports := Tab.set PairPort.reset d.ports n x }
def Dev.updPort (d : Dev) (n : Nat) (g : PairPort → PairPort) : Dev := d.setPort n (g (d.port n))

def Dev.stack (d : Dev) (n : Nat) : Stack := Tab.get Stack.reset d.stackRegs n
def Dev.setStack (d : Dev) (n : Nat) (x : Stack) : Dev := { d with stackRegs := Tab.set Stack.reset d.stackRegs n x }
def Dev.updStack (d : Dev) (n : Nat) (g : Stack → Stack) : Dev := d.setStack n (g (d.stack n))

def Dev.farPort (d : Dev) (n : Nat) : FarPort := Tab.get FarPort.reset d.farPorts n
def Dev.setFarPort (d : Dev) (n : Nat) (x : FarPort) : Dev := { d with farPorts := Tab.set FarPort.reset d.farPorts n x }
def Dev.updFarPort (d : Dev) (n : Nat) (g : FarPort → FarPort) : Dev := d.setFarPort n (g (d.farPort n))

def Dev.channel (d : Dev) (n : Nat) : Channel := Tab.get Channel.reset d.channels n
def Dev.setChannel (d : Dev) (n : Nat) (x : Channel) : Dev := { d with channels := Tab.set Channel.reset d.channels n x }
def Dev.updChannel (d : Dev) (n : Nat) (g : Channel → Channel) : Dev := d.setChannel n (g (d.channel n))

def Dev.die (d : Dev) (n : Nat) : Die := Tab.get Die.reset d.power.dies n
def Dev.updDie (d : Dev) (n : Nat) (g : Die → Die) : Dev :=
  { d with power := { d.power with dies := Tab.set Die.reset d.power.dies n (g (d.die n)) } }
def Dev.rail (d : Dev) (n : Nat) : Rail := Tab.get Rail.reset d.power.rails n
def Dev.updRail (d : Dev) (n : Nat) (g : Rail → Rail) : Dev :=
  { d with power := { d.power with rails := Tab.set Rail.reset d.power.rails n (g (d.rail n)) } }
def Dev.base (d : Dev) (n : Nat) : BaseDie := Tab.get BaseDie.reset d.power.bases n
def Dev.updBase (d : Dev) (n : Nat) (g : BaseDie → BaseDie) : Dev :=
  { d with power := { d.power with bases := Tab.set BaseDie.reset d.power.bases n (g (d.base n)) } }

/-- The mean of some periods' estimates (R419, R420: E over the last 1 ms; log 18, DESIGN CHOICE). -/
def meanPower (l : List Rat) : Rat := if l.isEmpty then 0 else l.sum / (l.length : Rat)
def Die.estimate (k : Die) : Rat := meanPower k.periods
def BaseDie.estimate (k : BaseDie) : Rat := meanPower k.periods

def Facet.window (x : Facet) (w : Nat) : Window := Tab.get Window.reset x.windows w
def Facet.updWindow (x : Facet) (w : Nat) (g : Window → Window) : Facet :=
  { x with windows := Tab.set Window.reset x.windows w (g (x.window w)) }
def Facet.ring (x : Facet) (r : Nat) : Ring := Tab.get Ring.reset x.rings r
def Facet.updRing (x : Facet) (r : Nat) (g : Ring → Ring) : Facet :=
  { x with rings := Tab.set Ring.reset x.rings r (g (x.ring r)) }

def Dev.launch? (d : Dev) (id : Nat) : Option Launch := d.launches.find? fun l => decide (l.id = id)
def Dev.updLaunch (d : Dev) (id : Nat) (g : Launch → Launch) : Dev :=
  { d with launches := updFirst (fun l => decide (l.id = id)) g d.launches }
def Dev.block? (d : Dev) (launch index : Nat) : Option Block :=
  d.blocks.find? fun b => decide (b.launch = launch) && decide (b.index = index)
def Dev.updBlock (d : Dev) (launch index : Nat) (g : Block → Block) : Dev :=
  { d with blocks := updFirst (fun b => decide (b.launch = launch) && decide (b.index = index)) g d.blocks }

def Dev.updPower (d : Dev) (g : Power → Power) : Dev := { d with power := g d.power }
def Dev.updErrors (d : Dev) (g : Errors → Errors) : Dev := { d with errors := g d.errors }
def Dev.updSecurity (d : Dev) (g : Security → Security) : Dev := { d with security := g d.security }
def Dev.updBoot (d : Dev) (g : Boot → Boot) : Dev := { d with boot := g d.boot }
def Dev.updHost (d : Dev) (g : HostLink → HostLink) : Dev := { d with host := g d.host }
def Dev.updLehr (d : Dev) (g : Lehr → Lehr) : Dev := { d with lehr := g d.lehr }
def Dev.updServing (d : Dev) (g : Serving → Serving) : Dev := { d with serving := g d.serving }

/-- Runs a list of updates in order. -/
def Dev.forEach {α : Type} (l : List α) (f : Dev → α → Dev) (d : Dev) : Dev := l.foldl f d

/-- The numbers of the facets that exist (R386). -/
def Dev.facetsThere (d : Dev) : List Nat :=
  (d.facets.filter fun e => decide (e.2.state ≠ .absent)).map Prod.fst

def Dev.facetExists (d : Dev) (f : Nat) : Bool := decide ((d.facet f).state ≠ .absent)

/-! ## Geometry (R17 to R23) -/

/-- CORE numbers carry bit 10 on a vector core (R52). -/
def coreIsVector (c : Nat) : Bool := decide (1024 ≤ c)
def coreNum (c : Nat) : Nat := c % 1024
/-- The compute die of a core (R23). -/
def coreDie (c : Nat) : Nat := if coreIsVector c then coreNum c / 16 else coreNum c / 64
/-- The device-wide row of a core (R23). -/
def coreRow (c : Nat) : Nat := if coreIsVector c then coreNum c / 2 else coreNum c / 8
def dieBase (die : Nat) : Nat := die / 3
def coreBase (c : Nat) : Nat := dieBase (coreDie c)
/-- The off site of a row (R20, R22): M8 and V2 where no site failed screening. -/
def Dev.offSite (d : Dev) (vector : Bool) (row : Nat) : Nat :=
  let map := (Tab.get 0x48 d.rowMap row).toNat
  if vector then map / 32 % 4 else map % 16
/-- The physical site of a logical slot: the active sites in ascending order skip the off site (R20). -/
def siteOf (off slot : Nat) : Nat := if slot < off then slot else slot + 1
/-- The logical slot of a core in its row (R23), and its physical site there (R18). -/
def coreSlot (c : Nat) : Nat := if coreIsVector c then coreNum c % 2 else coreNum c % 8
def Dev.coreSite (d : Dev) (c : Nat) : Nat := siteOf (d.offSite (coreIsVector c) (coreRow c)) (coreSlot c)

/-- The ten active cores of a row. -/
def rowCores (row : Nat) : List Nat :=
  (List.range 8).map (fun i => 8 * row + i) ++ (List.range 2).map fun i => 1024 + 2 * row + i
def dieCores (die : Nat) : List Nat := ((List.range 8).map fun r => rowCores (8 * die + r)).flatten
def allCores : List Nat := (List.range 768) ++ (List.range 192).map (1024 + ·)
def coreValid (c : Nat) : Bool := if coreIsVector c then decide (c < 1216) else decide (c < 768)

/-- A die whose reset is in progress or waits (R485). -/
def Dev.dieResets (d : Dev) (die : Nat) : Bool :=
  decide ((d.boot.dieReset.map DieReset.die) = some die) || d.boot.dieResetQ.contains die

/-- The core is in the facet's masks (R364, R365): facet 0 holds every core that no partition holds. -/
def Dev.coreOfFacet (d : Dev) (f c : Nat) : Bool :=
  let inMask (q : Quota) := if coreIsVector c then q.vCores.getLsbD (coreNum c) else q.mCores.getLsbD c
  if f = 0 then
    d.facets.all fun e => e.1 = 0 || decide (e.2.state = .absent) || !e.2.quota.partition || !inMask e.2.quota
  else inMask (d.facet f).quota

def Dev.coreRetired (d : Dev) (c : Nat) : Bool := NSet.has d.errors.retired c

/-! ## Counters (R154, R158) and free values (log 11, DESIGN CHOICE) -/

def Dev.counter (d : Dev) (off : Nat) : BitVec 48 := Tab.get 0 d.counters off
def Dev.count (d : Dev) (off n : Nat) : Dev :=
  { d with counters := Tab.set 0 d.counters off (Tab.get 0 d.counters off + BitVec.ofNat 48 n) }
def facetKey (f off : Nat) : Nat := 16777216 * f + off
/-- Counts in the device-wide counter and in one facet's view of it (R154). -/
def Dev.countF (d : Dev) (f off n : Nat) : Dev :=
  let d := d.count off n
  { d with facetCounters :=
      Tab.set 0 d.facetCounters (facetKey f off) (Tab.get 0 d.facetCounters (facetKey f off) + BitVec.ofNat 48 n) }

/-- A fresh free value, and the block that has drawn it. -/
def Dev.fresh (d : Dev) : BitVec 64 × Dev := (Config.freeValue d.freeCount, { d with freeCount := d.freeCount + 1 })

/-- Four fresh values as 32 bytes. -/
def Dev.fresh256 (d : Dev) : BitVec 256 × Dev :=
  let (a, d) := d.fresh
  let (b, d) := d.fresh
  let (c, d) := d.fresh
  let (e, d) := d.fresh
  (a ++ b ++ c ++ e, d)

def digestBytes (x : BitVec 256) : List Byte := leBytes 32 x.toNat

/-! ## The host side of the port (R303, R319, R326, R377, R382, R453; log 6, DESIGN CHOICE) -/

def Dev.send (d : Dev) (m : Sent) : Dev := { d with sent := d.sent ++ [m] }

/-- A TLP of a function other than a configuration completion or DOE leaves the port: the link is up, the function is not under
FLR, and IDE protects it where SEC_CTRL asks for it (R326, R377, R453). -/
def Dev.mayTransmit (d : Dev) (f : Nat) : Bool :=
  d.host.linkUp && !NSet.has d.host.flr f && (!d.security.requireIde || d.security.ideLink)

/-- A word of the MSI-X table: the vector control word resets to masked (R301; PCIe). Log 30, PRESUMED. -/
def Facet.msixWord (x : Facet) (i : Nat) : BitVec 32 := Tab.get (if i % 4 = 3 then 1 else 0) x.msix i
/-- Log 30, PRESUMED. -/
def Facet.setMsixWord (x : Facet) (i : Nat) (v : BitVec 32) : Facet :=
  { x with msix := Tab.set (if i % 4 = 3 then 1 else 0) x.msix i v }

/-- Sends a vector, or sets its PBA bit when it is masked (R319). Log 30, PRESUMED. -/
def Dev.msix (d : Dev) (f vector : Nat) : Dev :=
  if !NSet.has d.host.msixEnable f || !d.mayTransmit f then d
  else if ((d.facet f).msixWord (4 * vector + 3)).getLsbD 0 then
    d.updFacet f fun x => { x with pba := NSet.add x.pba vector }
  else d.send (.msix f vector)

/-- The 4 KiB pages of the logged range that a write touches (R382). -/
def DirtyLog.pages (l : DirtyLog) (bus n : Nat) : List Nat :=
  if !l.on || n = 0 then [] else
  ((List.range (bus / 4096 + (n + bus % 4096 + 4095) / 4096 - bus / 4096)).map (bus / 4096 + ·)).filterMap fun p =>
    if l.base ≤ 4096 * p && 4096 * p < l.base + l.size then some (p - l.base / 4096) else none

/-- Logs a facet's host write: each new bit writes the whole 64-bit word of the active bitmap from the shadow (R383). -/
def Dev.logDirty (d : Dev) (f bus n : Nat) : Dev :=
  let l := (d.facet f).log
  Dev.forEach (l.pages bus n) (fun d p =>
    let l := (d.facet f).log
    if NSet.has l.shadow p then d
    else
      let shadow := NSet.add l.shadow p
      let w := p / 64
      let word := ((List.range 64).map fun i => if NSet.has shadow (64 * w + i) then 2 ^ i else 0).sum
      let bitmap := if l.sideB then l.bitmapB else l.bitmapA
      let d := d.updFacet f fun x => { x with log := { x.log with shadow := shadow } }
      d.updHost fun h => { h with mem := Mem.write h.mem (bitmap + 8 * w) (leBytes 8 word) }) d

/-- A posted write of a facet to host or peer memory; a poisoned one carries EP. Nothing is written where no TLP may leave. -/
def Dev.hostWrite (d : Dev) (f bus : Nat) (bs : List Byte) (poison : Bool) : Dev :=
  if !d.mayTransmit f then d else
  let d := d.updHost fun h =>
    { h with mem := Mem.write h.mem bus bs,
             memPoison := if poison then NSet.add h.memPoison (bus / 128) else NSet.del h.memPoison (bus / 128) }
  d.logDirty f bus bs.length

/-- Bytes that no rule states: those of a read that the port or a router answers itself, poisoned (R163, R326; log 11, DESIGN CHOICE). -/
def Dev.lostBytes (d : Dev) (n : Nat) : List Byte × Dev :=
  ((((List.range ((n + 3) / 4)).map fun i => leBytes 4 (Config.deadWord d.freeCount i).toNat).flatten).take n,
    { d with freeCount := d.freeCount + 1 })

/-- A non-posted read of host or peer memory as the port returns it: bytes, and whether they are poisoned (R224, R326). -/
def Dev.hostRead (d : Dev) (f bus n : Nat) : (List Byte × Bool) × Dev :=
  if !d.mayTransmit f then let (bs, d) := d.lostBytes n; ((bs, true), d)
  else
    let bad (l : Nat) : Bool := NSet.has d.host.memPoison l || NSet.has d.host.memFail l
    ((Mem.read d.host.mem bus n, bad (bus / 128) || bad ((bus + n - 1) / 128)), d)

/-! ## Rings, glints and completions (R310 to R321) -/

def Ring.entries (r : Ring) : Nat := 2 ^ r.log2
def Ring.full (r : Ring) : Bool := decide (r.entries - 1 ≤ r.written.length)

/-- Writes a record at the tail of a ring and moderates the interrupt (R316 to R319). The record is given its sequence number and
its phase. -/
def Dev.ringWrite (d : Dev) (f n : Nat) (record : BitVec 32 → Bool → List Byte) (mark : Nat) : Dev :=
  let r := (d.facet f).ring n
  let seq := r.seq + 1
  let d := d.hostWrite f (r.bus + 32 * r.tail) (record seq r.phase) false
  let wraps := decide (r.tail + 1 = r.entries)
  let fires := r.irqEn && decide (r.modCount ≤ r.unsignalled + 1)
  let d := d.updFacet f fun x => x.updRing n fun r =>
    { r with seq := seq, tail := if wraps then 0 else r.tail + 1, phase := if wraps then !r.phase else r.phase,
             written := r.written ++ [mark], unsignalled := if fires then 0 else r.unsignalled + 1 }
  if fires then d.msix f r.vector else d

/-- The bytes of a glint (R320). -/
def glintRecord (typ : Nat) (lost : Bool) (payload : List Byte) (seq : BitVec 32) (phase : Bool) : List Byte :=
  [1, BitVec.ofNat 8 (boolNat phase + 2 * boolNat lost)] ++ leBytes 2 typ ++ leBytes 4 seq.toNat ++ (payload ++ leBytes 24 0).take 24

/-- Posts a glint to a facet's ring; one that finds the ring full or unregistered is dropped and counted (R320). -/
def Dev.glintTo (d : Dev) (f typ : Nat) (payload : List Byte) : Dev :=
  let x := d.facet f
  let r := x.ring 16
  if !r.registered || r.full then
    (d.countF f 0x606028 1).updFacet f fun x => { x with glintLost := true }
  else
    (d.ringWrite f 16 (glintRecord typ x.glintLost payload) 0).updFacet f fun x => { x with glintLost := false }

/-- The payload of R321: SUBJECT, DETAIL and DETAIL2. -/
def glintPayload (subject detail detail2 : Nat) : List Byte :=
  leBytes 4 subject ++ leBytes 4 0 ++ leBytes 8 detail ++ leBytes 8 detail2

def Dev.glint (d : Dev) (f typ subject detail detail2 : Nat) : Dev := d.glintTo f typ (glintPayload subject detail detail2)

/-- The completion record (R316). -/
def completionRecord (c : Cmd) (head : Nat) (seq : BitVec 32) (phase : Bool) : List Byte :=
  [1, BitVec.ofNat 8 (boolNat phase)] ++ leBytes 2 c.status.toNat ++ leBytes 2 c.id.toNat ++
    [c.gen, BitVec.ofNat 8 c.window] ++ leBytes 4 seq.toNat ++ [BitVec.ofNat 8 head, 0, 0, 0] ++
    leBytes 8 c.user.toNat ++ leBytes 8 c.result.toNat

/-- INT_WIN_HEAD of a window (R330). -/
def Window.head (w : Window) : Nat := w.slot + 64 * boolNat w.phase

def Facet.cmd? (x : Facet) (serial : Nat) : Option Cmd := x.cmds.find? fun c => decide (c.serial = serial)
def Facet.updCmd (x : Facet) (serial : Nat) (g : Cmd → Cmd) : Facet :=
  { x with cmds := updFirst (fun c => decide (c.serial = serial)) g x.cmds }
def Dev.updCmd (d : Dev) (f serial : Nat) (g : Cmd → Cmd) : Dev := d.updFacet f fun x => x.updCmd serial g

/-- The held completions of a facet in completion order (R317). -/
def Facet.heldInOrder (x : Facet) : List Cmd :=
  sortBy (fun a b => decide (a.dueOrder ≤ b.dueOrder)) (x.cmds.filter fun c => decide (c.state = .held))

/-- HELD (R332). -/
def Facet.held (x : Facet) : Nat := countIf (fun c => decide (c.state = .held)) x.cmds

/-- Outstanding commands, refused records included (R318). -/
def Facet.outstanding (x : Facet) : Nat := countIf (fun c => !c.dropped) x.cmds

/-- The LINK_DOWN glint is written once no completion is held and its ring has room (R320, R327 step 6). -/
def Dev.flushLinkDown (d : Dev) (f : Nat) : Dev :=
  let x := d.facet f
  if x.linkDownHeld && decide (x.held = 0) && (x.ring 16).registered && !(x.ring 16).full then
    (d.glint f 0x102 f x.lostCount x.rewritten).updFacet f fun x => { x with linkDownHeld := false, lostCount := 0, rewritten := 0 }
  else d

/-- Writes every held completion whose ring is registered and has room, in completion order (R317). -/
def Dev.flushRings (d : Dev) (f : Nat) : Dev :=
  let d := Dev.forEach ((d.facet f).heldInOrder) (fun d c =>
    let x := d.facet f
    let r := x.ring c.ring
    if r.registered && !r.full then
      let d := d.ringWrite f c.ring (completionRecord c (x.window c.window).head) c.serial
      d.updFacet f fun x =>
        { x.updCmd c.serial (fun c => { c with state := .written }) with
          rewritten := if x.linkDownHeld then x.rewritten + 1 else x.rewritten }
    else d) d
  d.flushLinkDown f

/-- A completion is due: it takes its place in completion order and is written or held; a dropped one goes (R309, R317). -/
def Dev.completionDue (d : Dev) (f serial : Nat) : Dev :=
  match (d.facet f).cmd? serial with
  | none => d
  | some c =>
    if c.dropped then d.updFacet f fun x => { x with cmds := eraseFirst (fun c => decide (c.serial = serial)) x.cmds }
    else
      (d.updFacet f fun x =>
        { x.updCmd serial (fun c => { c with state := .held, dueOrder := x.nextDue }) with nextDue := x.nextDue + 1 }).flushRings f

/-- A record of the last address written in a peer region (R226). -/
def recordPeer (recs : List PeerRec) (region addr : Nat) : List PeerRec :=
  let e : PeerRec := { region := region, addr := addr, asked := false }
  if recs.any (fun v => decide (v.region = region)) then updAll (fun v => decide (v.region = region)) (fun _ => e) recs
  else recs ++ [e]

/-- Bytes of a page (R192). -/
def pageBytes : Nat := 2097152

/-- The facet of a peer region: its number is the address of its mapping plus the facet. -/
def regionFacet (region : Nat) : Nat := region % pageBytes

/-- The peer regions of a facet that cores have written since they were last confirmed (R226). -/
def Dev.facetRegions (d : Dev) (f : Nat) : NSet :=
  d.cores.foldl (fun (s : NSet) e =>
    NSet.addAll s ((e.2.peerRecs.map PeerRec.region).filter fun r => decide (regionFacet r = f))) []

/-- A core's confirmation reads of regions it has recorded are issued (R226). -/
def Dev.askRegions (d : Dev) (core : Nat) (regions : List Nat) : Dev :=
  let d := Dev.forEach ((d.core core).peerRecs.filter fun e => regions.contains e.region) (fun d e => d.send (.confirmRead e.addr)) d
  d.updCore core fun k => { k with peerRecs := updAll (fun e => regions.contains e.region) (fun e => { e with asked := true }) k.peerRecs }

/-- The status a command completes with: HOST_LOST before all (R326); PEER_UNREACHABLE after a failed confirmation read, where nothing but
poison stands before it (R323, R430). Log 42, DEDUCED. -/
def Cmd.lastStatus (c : Cmd) (status : Code) : Code :=
  if c.hostLost then 0x108
  else if c.confirmFailed && (decide (status = 0) || decide (status = 0x680)) then 0x670 else status

/-- Marks a command host-lost (R326 step 2). -/
def Dev.markHostLost (d : Dev) (f serial : Nat) : Dev :=
  d.updFacet f fun x =>
    match x.cmd? serial with
    | some c =>
      if c.hostLost || !(decide (c.state = .waiting) || decide (c.state = .running)) then x
      else { x.updCmd serial (fun c => { c with hostLost := true }) with lostCount := x.lostCount + 1 }
    | none => x

/-- The confirmation reads of a LAUNCH or GENERATE with a system barrier, as it ends, are issued (R226, R232); without a link they are lost,
and the command is host-lost (R326). -/
def Dev.barrierReads (d : Dev) (f serial : Nat) : List Nat × Dev :=
  match (d.facet f).cmd? serial with
  | none => ([], d)
  | some c =>
    let regions := d.facetRegions f
    if c.barrier ≠ 2 ∨ ¬ (c.typ = 1 ∨ c.typ = 6) ∨ ¬ (c.state = .waiting ∨ c.state = .running) ∨ regions = [] then (c.confirms, d)
    else if !d.mayTransmit f then (c.confirms, d.markHostLost f serial)
    else (regions, Dev.forEach (d.cores.map Prod.fst) (fun d k => d.askRegions k regions) d)

/-- A running command has ended with a status and a result; a host-lost one reports HOST_LOST (R326). -/
def Dev.endCmd (d : Dev) (f serial : Nat) (status : Code) (result : Nat) : Dev :=
  let (confirms, d) := d.barrierReads f serial
  d.updCmd f serial fun c =>
    if decide (c.state = .waiting) || decide (c.state = .running) then
      { c with state := .ended, status := c.lastStatus status, result := BitVec.ofNat 64 result, confirms := confirms }
    else c

/-- Cancels a ring: records written and not consumed are held again, in ring order (R317). -/
def Facet.cancelRing (x : Facet) (n : Nat) : Facet :=
  let back := if n = 16 then [] else (x.ring n).written
  let rings := Tab.erase x.rings n
  { x with rings := rings, ringsVoid := x.ringsVoid || ((x.ring n).registered && !rings.any fun e => e.2.registered),
           cmds := updAll (fun c => back.contains c.serial) (fun c => { c with state := .held }) x.cmds }

def Facet.cancelRings (x : Facet) : Facet := (List.range 17).foldl Facet.cancelRing x

/-- Disables and zeroes every window (R330). -/
def Facet.zeroWindows (x : Facet) : Facet := { x with windows := [] }

/-- Bytes of one code (R234). -/
def codeBytes (i8 : Bool) : Nat := if i8 then 256 else 64

/-- The generation of an identifier (R315). -/
def Facet.gen (x : Facet) (id : Nat) : BitVec 8 := x.genBase + Tab.get 0 x.gens id
def Facet.bumpGen (x : Facet) (id : Nat) : Facet := { x with gens := Tab.set 0 x.gens id (Tab.get 0 x.gens id + 1) }

/-- The host consumes a completion: an identifier that the command holds is free, its generation one higher (R315). -/
def Facet.consume (x : Facet) (serial : Nat) : Facet :=
  match x.cmd? serial with
  | none => x
  | some c =>
    let x := { x with cmds := eraseFirst (fun c => decide (c.serial = serial)) x.cmds }
    if c.occupies then x.bumpGen c.id.toNat else x

/-! ## The audit journal (R458 to R462) -/

/-- The 64 bytes of an entry (R459). -/
def AuditEntry.bytes (e : AuditEntry) : List Byte :=
  [1, e.kind, BitVec.ofNat 8 (e.actor.toNat + 64 * boolNat e.self), 0] ++ leBytes 2 e.code.toNat ++ leBytes 2 e.status.toNat ++
    leBytes 8 e.seq ++ leBytes 8 e.subject.toNat ++ leBytes 8 e.detail.toNat ++ digestBytes e.prev

/-- Unacknowledged entries at which journaled commands are refused, and the size of the mirror (R460). -/
def auditNearLimit : Nat := 4128768
def auditMirror : Nat := 4194304

/-- Entries not yet acknowledged. -/
def Security.unacked (x : Security) : Nat := x.seq - x.acked
/-- SEC_AUDIT_STATUS.NEAR_FULL (R475). -/
def Security.nearFull (x : Security) : Bool := decide (auditNearLimit ≤ x.unacked)

def Signing.isCheckpoint : Signing → Bool
  | .checkpoint .. => true
  | .report .. => false

/-- A checkpoint falls due: it joins one that waits, else it waits in its turn (R452, R461). -/
def Security.dueCheckpoint (x : Security) (fn : Option Nat) (nonce : BitVec 256) (dest : Nat) : Security :=
  match x.signings with
  | [] => { x with signings := [.checkpoint fn nonce dest] }
  | s :: rest =>
    if rest.any Signing.isCheckpoint then
      if fn = none then x
      else { x with signings := s :: updFirst Signing.isCheckpoint (fun _ => .checkpoint fn nonce dest) rest }
    else { x with signings := s :: (rest ++ [.checkpoint fn nonce dest]) }

/-- A checkpoint at the front starts its signing: it covers every entry so far (R461). -/
def Security.startSigning (x : Security) : Security :=
  match x.covers, x.signings with
  | none, .checkpoint .. :: _ => { x with covers := some (x.seq, x.lost, x.lastDigest) }
  | _, _ => x

/-- Appends an entry (R458, R459), makes the checkpoint due after 256 (R461), and posts the glints of R460. -/
def Dev.audit (d : Dev) (kind : Nat) (actor : Nat) (self : Bool) (code status : Code) (subject detail : BitVec 64) : Dev :=
  let x := d.security
  let e : AuditEntry :=
    { kind := BitVec.ofNat 8 kind, actor := BitVec.ofNat 6 actor, self := self, code := code, status := status,
      seq := x.seq + 1, subject := subject, detail := detail, prev := x.lastDigest }
  let lapped := decide (auditMirror ≤ x.unacked)
  let near := decide (x.unacked + 1 = auditNearLimit)
  let x := { x with journal := (e :: x.journal).take auditMirror, seq := x.seq + 1,
                    lastDigest := Config.shake256 e.bytes, sinceCheckpoint := x.sinceCheckpoint + 1,
                    lost := if lapped then x.lost + 1 else x.lost, acked := if lapped then x.acked + 1 else x.acked }
  let x := if decide (256 ≤ x.sinceCheckpoint) then { (x.dueCheckpoint none 0 0).startSigning with sinceCheckpoint := 0 } else x
  let d := { d with security := x }
  let d := if near then d.glint 0 0x803 0 x.unacked 0 else d
  if lapped then d.glint 0 0x804 0 x.lost 0 else d

/-- A device event (R458): code 1 BOOT, 2 FLR, 3 CORE_RETIRED, 4 LIFECYCLE, 5 REMEASURE, 6 CHECKPOINT. -/
def Dev.auditEvent (d : Dev) (actor : Nat) (self : Bool) (code : Nat) (subject detail : Nat) : Dev :=
  d.audit (if code = 6 then 4 else 3) actor self (BitVec.ofNat 16 code) 0 (BitVec.ofNat 64 subject) (BitVec.ofNat 64 detail)

/-- A register write that changes a LIVE or HALTED field, or a commit (R458). -/
def Dev.auditWrite (d : Dev) (actor off : Nat) (value : Nat) : Dev :=
  d.audit 2 actor false 0 0 (BitVec.ofNat 64 off) (BitVec.ofNat 64 value)

end Sys2Proof.Machine
end

