-- ==== Sys2Proof/Machine/Home.lean ====
section
/-! DEFINITION. Device physical memory: its layout, stripes and home slices (R126, R191 to R193), a slice's data ways, directory and detectors (R125 to R144), and reading and writing a line of memory (R202, R209). -/

namespace Sys2Proof.Machine

/-! ## The device physical address space (R191, R192) -/

/-- Lines of a 2 MiB page. -/
def pageLines : Nat := 16384
def Dev.stackGiB (d : Dev) : Nat := if d.part48 then 48 else 64
/-- HBM capacity in bytes (R191). -/
def Dev.hbmBytes (d : Dev) : Nat := 12 * d.stackGiB * 1073741824
/-- Stripes of 24 MiB (R192). -/
def Dev.stripeCount (d : Dev) : Nat := if d.part48 then 24576 else 32768
def farBase : Nat := 0x40000000000
def farWindow : Nat := 0x10000000000
def lineIsFar (line : Nat) : Bool := decide (farBase ≤ 128 * line)
/-- The far-tier port of a far line. -/
def lineFarPort (line : Nat) : Nat := (128 * line - farBase) / farWindow
/-- The 2 MiB frame number of a line in the device physical space. -/
def lineFrame (line : Nat) : Nat := line / pageLines
/-- The frame number of a far line in its port's window. -/
def lineFarFrame (line : Nat) : Nat := (128 * line - farBase) % farWindow / pageBytes

/-- The mode of a stripe (R193): 0 none, 1 SPREAD, 2 LOCAL. -/
def Dev.stripeMode (d : Dev) (stripe : Nat) : Nat := Tab.get 0 d.stripes stripe
def lineStripe (line : Nat) : Nat := line / 196608
def Dev.lineLocal (d : Dev) (line : Nat) : Bool := !lineIsFar line && decide (d.stripeMode (lineStripe line) = 2)

/-- The stack that holds an HBM line (R192). -/
def Dev.lineStack (d : Dev) (line : Nat) : Nat :=
  let o := 128 * line % 25165824
  if d.lineLocal line then o / pageBytes else o / 4096 % 12

/-- The offset of an HBM line in its stack (R192). -/
def Dev.lineOffset (d : Dev) (line : Nat) : Nat :=
  let o := 128 * line % 25165824
  lineStripe line * pageBytes + (if d.lineLocal line then o % pageBytes else o / 4096 / 12 * 4096 + o % 4096)

/-- Its pseudo-channel there (R199). -/
def Dev.linePseudo (d : Dev) (line : Nat) : Nat := Config.pseudoChannel (d.lineOffset line / 128) % 64

/-- The 15-bit fold of the prism hash (R126). -/
def prismFold (l : Nat) : Nat := (bits l 0 15 ^^^ bits l 15 15) ^^^ bits l 30 15

/-- The home slice of a line (R126). -/
def Dev.homeSlice (d : Dev) (line : Nat) : Nat :=
  if d.lineLocal line then 8 * d.lineStack line + prismFold line % 8 else prismFold line % 96
/-- Its set in the slice's data ways. -/
def Dev.homeSet (d : Dev) (line : Nat) : Nat := if d.lineLocal line then bits line 3 12 else bits line 7 12
/-- Its set in the directory (R144). -/
def dirSet (line : Nat) : Nat := line % 16384

/-! ## Pair ports (R160, R161, R163, R215) -/

/-- Agent numbers beyond the cores (0 to 2047): DMA channel c is 2048 + c, then the port, the lehr, the gaffer, a reduction root. -/
def agentPort : Nat := 2112
def agentLehr : Nat := 2113
def agentGaffer : Nat := 2114
def agentRoot : Nat := 2115

/-- The pair port of two different base dies (R161). -/
def pairPort (a b : Nat) : Nat :=
  match min a b, max a b with
  | 0, n => n - 1
  | 1, n => n + 1
  | _, _ => 5
def portEndA (n : Nat) : Nat := if n < 3 then 0 else if n < 5 then 1 else 2
def portEndB (n : Nat) : Nat := if n < 3 then n + 1 else if n < 5 then n - 1 else 3

def Dev.homeBase (d : Dev) (line : Nat) : Nat := d.homeSlice line / 24
/-- The base die at which an agent's traffic enters the routers; the lehr and a reduction root stand at the line's. -/
def Dev.agentBase (d : Dev) (agent line : Nat) : Nat :=
  if agent < 2048 then coreBase agent
  else if agent < 2112 then (agent - 2048) / 16
  else if agent = agentPort ∨ agent = agentGaffer then 0
  else d.homeBase line

/-- The pair port that a message between an agent and a line's home crosses. -/
def Dev.crossing (d : Dev) (agent line : Nat) : Option Nat :=
  if d.agentBase agent line = d.homeBase line then none else some (pairPort (d.agentBase agent line) (d.homeBase line))
/-! ## A line of memory -/

def stackCounter (n off : Nat) : Nat := 0x603000 + 0x40 * n + off
def farCounter (p off : Nat) : Nat := 0x603400 + 0x40 * p + off

/-- A line's open row stands in its bank, or another one does (R201). -/
def Dev.rowState (d : Dev) (line : Nat) : Nat × Nat :=
  let (bank, row) := Config.bankRow (d.lineOffset line / 128)
  (Tab.get 0 (d.stack (d.lineStack line)).rows (d.linePseudo line + 64 * bank), row + 1)
def Dev.rowHit (d : Dev) (line : Nat) : Bool := decide ((d.rowState line).1 = (d.rowState line).2)

/-- A line is read or written on its pseudo-channel: a turnaround of the bus and a same-bank row conflict are counted (R201). -/
def Dev.hbmTouch (d : Dev) (line : Nat) (write : Bool) : Dev :=
  let n := d.lineStack line
  let p := d.linePseudo line
  let (old, new) := d.rowState line
  let bank := (Config.bankRow (d.lineOffset line / 128)).1
  let d := d.count (stackCounter n 0x10) (boolNat (NSet.has (d.stack n).writing p != write))
  let d := d.count (stackCounter n 0x18) (boolNat (decide (old ≠ 0) && decide (old ≠ new)))
  d.updStack n fun k => { k with writing := NSet.put k.writing p write, rows := Tab.set 0 k.rows (p + 64 * bank) new }

/-- Lines of a write batch (R210). -/
def Dev.batchLines (d : Dev) : Nat := 8 * 2 ^ d.wbatch.toNat

/-- Lines that wait for a pseudo-channel. -/
def Stack.waits (k : Stack) (p : Nat) : Nat := countIf (fun e => decide (e.1 = p)) k.writeQ

/-- Drains a batch, or all the writes there are (R199). -/
def Dev.drainBatch (d : Dev) (stack p : Nat) : Dev :=
  Dev.forEach (((d.stack stack).writeQ.filter fun e => decide (e.1 = p)).take d.batchLines) (fun d e =>
    (d.hbmTouch e.2 true).updStack stack fun k => { k with writeQ := eraseFirst (fun v => decide (v = e)) k.writeQ }) d

/-- A line joins its pseudo-channel's write queue; a full queue first drains (R199). -/
def Dev.queueWrite (d : Dev) (line : Nat) : Dev :=
  let n := d.lineStack line
  let p := d.linePseudo line
  let d := if 32 ≤ (d.stack n).waits p then d.drainBatch n p else d
  d.updStack n fun k => { k with writeQ := k.writeQ ++ [(p, line)] }

/-- One step of CRC-32C, polynomial 0x1EDC_6F41 with its bits reflected. -/
def crcStep (crc : Nat) : Nat := if crc % 2 = 1 then crc / 2 ^^^ 0x82F63B78 else crc / 2
/-- CRC-32C over bytes (R202; the initial and final complement: log 64, PRESUMED). -/
def crc32c (bs : List Byte) : Nat :=
  bs.foldl (fun c b => (List.range 8).foldl (fun c _ => crcStep c) (c ^^^ b.toNat)) 0xFFFFFFFF ^^^ 0xFFFFFFFF

/-- A poisoned read: home state P, a far frame that is marked, or a far port that is not UP (R148, R209). -/
def Dev.linePoisoned (d : Dev) (line : Nat) : Bool :=
  NSet.has d.memPoison line ||
    (lineIsFar line &&
      (decide ((d.farPort (lineFarPort line)).state ≠ 2) || NSet.has (d.farPort (lineFarPort line)).marked (lineFarFrame line)))

def Dev.memLine (d : Dev) (line : Nat) : List Byte := Mem.read d.mem (128 * line) 128

/-- The metadata of an HBM line (R202): the CRC over its data and its device physical address, and POISON above it (its place: log 64,
PRESUMED). Every write makes it from the line, so State does not hold it again; what a read's check finds is `ReadCheck`. -/
def Dev.lineMeta (d : Dev) (line : Nat) : Nat :=
  crc32c (d.memLine line ++ leBytes 8 (128 * line)) + 2 ^ 32 * boolNat (NSet.has d.memPoison line)

/-- Frames of a far port are marked: no copy of their lines stays in an L1 (R209). -/
def Dev.markFrames (d : Dev) (p : Nat) (frames : List Nat) : Dev :=
  let marked (line : Nat) : Bool := lineIsFar line && decide (lineFarPort line = p) && frames.contains (lineFarFrame line)
  let d := d.updFarPort p fun q => { q with marked := NSet.addAll q.marked frames }
  { d with cores := d.cores.map fun (e : Nat × Core) =>
      (e.1, if e.2.l1.any (fun l => marked l.line) then { e.2 with l1 := e.2.l1.filter fun l => !marked l.line } else e.2) }

/-- Counts a line read at its stack or port (R214). -/
def Dev.countRead (d : Dev) (line : Nat) : Dev :=
  if lineIsFar line then d.count (farCounter (lineFarPort line) 0) 1
  else (d.count (stackCounter (d.lineStack line) 0) 1).hbmTouch line false

/-- Writes a line of memory, clean or with POISON set (R202, R208); a far port that is not UP drops it and marks its frame
(R209). -/
def Dev.memWriteLine (d : Dev) (line : Nat) (bs : List Byte) (poison : Bool) : Dev :=
  if lineIsFar line && decide ((d.farPort (lineFarPort line)).state ≠ 2) then
    (d.count (farCounter (lineFarPort line) 0x20) 1).markFrames (lineFarPort line) [lineFarFrame line]
  else
    let d := { d with mem := Mem.write d.mem (128 * line) bs, memPoison := NSet.put d.memPoison line poison }
    if lineIsFar line then d.count (farCounter (lineFarPort line) 0x08) 1
    else (d.count (stackCounter (d.lineStack line) 0x08) 1).queueWrite line

/-! ## A slice's data ways (R125, R127, R132 to R135) -/

def sliceReg (n off : Nat) : Nat := 0x201000 + 0x40 * n + off

def Slice.way? (x : Slice) (line : Nat) : Option Way := x.ways.find? fun w => decide (w.line = line)
/-- Makes a line's way the most recently used. -/
def Slice.touch (x : Slice) (line : Nat) : Slice :=
  match x.way? line with
  | some w => { x with ways := w :: eraseFirst (fun w => decide (w.line = line)) x.ways }
  | none => x
def Slice.updWay (x : Slice) (line : Nat) (g : Way → Way) : Slice :=
  { x with ways := updFirst (fun w => decide (w.line = line)) g x.ways }
def Slice.dropWay (x : Slice) (line : Nat) : Slice :=
  { x with ways := eraseFirst (fun w => decide (w.line = line)) x.ways }

/-- The ways of one set. -/
def Dev.setWays (d : Dev) (x : Slice) (set : Nat) : List Way := x.ways.filter fun w => decide (d.homeSet w.line = set)
/-- The pinned ways of a set. -/
def Dev.pinnedWays (d : Dev) (x : Slice) (set : Nat) : Nat := countIf (fun w => w.pin.isSome) (d.setWays x set)

def Dev.way? (d : Dev) (line : Nat) : Option Way := (d.slice (d.homeSlice line)).way? line
def Dev.updHome (d : Dev) (line : Nat) (g : Slice → Slice) : Dev := d.updSlice (d.homeSlice line) g

/-- Takes a line out of its slice, writing it to memory when it is modified (R127). -/
def Dev.evictWay (d : Dev) (line : Nat) : Dev :=
  match d.way? line with
  | none => d
  | some w =>
    let d := if w.dirty then d.memWriteLine line w.data false else d
    d.updHome line fun x => x.dropWay line

/-- The line to take out so that a way of the set from `lo` up is free: none where one is free already (R127: the least
recently used among the ways that hold no pinned line). -/
def Dev.victim (d : Dev) (x : Slice) (set lo : Nat) : Option Nat :=
  let used := (d.setWays x set).filter fun w => decide (lo ≤ w.way)
  if decide (used.length < 16 - lo) then none
  else (used.reverse.find? fun w => w.pin.isNone).map Way.line

/-- The lowest way of a set, from `lo` up, that holds no line. Log 32, DESIGN CHOICE. -/
def Dev.freeWay (d : Dev) (x : Slice) (set lo : Nat) : Nat :=
  let used := (d.setWays x set).map Way.way
  (((List.range 16).filter fun i => decide (lo ≤ i) && !used.contains i).head?).getD lo

/-- Puts a line into its slice as the most recently used, evicting as R127 gives. Log 32, DESIGN CHOICE. -/
def Dev.allocWay (d : Dev) (line : Nat) (data : List Byte) (dirty : Bool) : Dev :=
  match d.way? line with
  | some _ => d.updHome line fun x => (x.updWay line fun w => { w with data := data, dirty := w.dirty || dirty }).touch line
  | none =>
    let x := d.slice (d.homeSlice line)
    let set := d.homeSet line
    let d := match d.victim x set 0 with
      | some v => d.evictWay v
      | none => d
    let x := d.slice (d.homeSlice line)
    d.updHome line fun y =>
      { y with ways := { line := line, data := data, dirty := dirty, pin := none, retained := false,
                         way := d.freeWay x set 0 } :: y.ways }

/-- Moves a line of the slice to a way from `lo` up or to way 0, evicting an unpinned line there (R132). -/
def Dev.moveWay (d : Dev) (line : Nat) (retain : Bool) : Dev :=
  let x := d.slice (d.homeSlice line)
  let set := d.homeSet line
  match x.way? line with
  | none => d
  | some w =>
    if retain then
      if w.way = 0 then d
      else
        let d := match (d.setWays x set).find? fun v => decide (v.way = 0) with
          | some v => if v.pin.isNone then d.evictWay v.line else d
          | none => d
        d.updHome line fun x => x.updWay line fun w => { w with way := 0 }
    else if decide (1 ≤ w.way) then d
    else
      let d := match d.victim x set 1 with
        | some v => d.evictWay v
        | none => d
      let x := d.slice (d.homeSlice line)
      d.updHome line fun y => y.updWay line fun w => { w with way := d.freeWay x set 1 }

/-- Brings a line to the way that its pin uses: one that the slice holds moves there, another is put there at once (R132). -/
def Dev.pinWay (d : Dev) (line : Nat) (data : List Byte) (retain : Bool) : Dev :=
  if (d.way? line).isSome then (d.moveWay line retain).updHome line fun x => x.touch line
  else
    let set := d.homeSet line
    let x := d.slice (d.homeSlice line)
    let out := if retain then ((d.setWays x set).find? fun v => decide (v.way = 0)).map Way.line else d.victim x set 1
    let d := match out with
      | some v => d.evictWay v
      | none => d
    let x := d.slice (d.homeSlice line)
    d.updHome line fun y =>
      { y with ways := { line := line, data := data, dirty := false, pin := none, retained := false,
                         way := if retain then 0 else d.freeWay x set 1 } :: y.ways }

/-! ## The directory (R144) -/

def Slice.dirEntry? (x : Slice) (line : Nat) : Option DirEntry := x.dir.find? fun e => decide (e.line = line)
def Dev.dirEntry? (d : Dev) (line : Nat) : Option DirEntry := (d.slice (d.homeSlice line)).dirEntry? line

/-- The cores that an entry names: the owner, the exact sharers, or all ten active cores of each marked row. -/
def DirEntry.copies (e : DirEntry) : List Nat :=
  e.owner.toList ++ e.sharers ++ (e.rows.map rowCores).flatten

/-- The home state of R148 as copies: none is DI. -/
def Dev.dirCopies (d : Dev) (line : Nat) : List Nat := ((d.dirEntry? line).map DirEntry.copies).getD []
def Dev.dirOwner (d : Dev) (line : Nat) : Option Nat := (d.dirEntry? line).bind DirEntry.owner

/-- Adds a sharer: exact up to four, then a coarse mask of rows. -/
def DirEntry.addSharer (e : DirEntry) (c : Nat) : DirEntry :=
  if !e.rows.isEmpty then { e with rows := NSet.add e.rows (coreRow c) }
  else if e.sharers.contains c then e
  else if decide (e.sharers.length < 4) then { e with sharers := e.sharers ++ [c] }
  else { e with sharers := [], rows := NSet.addAll [] (((e.sharers ++ [c]).map coreRow)) }

/-- An entry that names no copy is DI and goes. -/
def Slice.setDir (x : Slice) (e : DirEntry) : Slice :=
  let rest := x.dir.filter fun v => decide (v.line ≠ e.line)
  if e.owner.isNone && e.sharers.isEmpty && e.rows.isEmpty then { x with dir := rest } else { x with dir := e :: rest }

/-- Removes a core from a line's entry; a coarse mask keeps its rows until every core of the row is known to be out. -/
def Slice.dirRemove (x : Slice) (line c : Nat) : Slice :=
  match x.dirEntry? line with
  | none => x
  | some e =>
    x.setDir { e with owner := if e.owner = some c then none else e.owner, sharers := e.sharers.filter fun v => decide (v ≠ c) }

def Slice.dirClear (x : Slice) (line : Nat) : Slice := { x with dir := x.dir.filter fun v => decide (v.line ≠ line) }

/-- The owner becomes a sharer (SNP_DOWN). -/
def Slice.dirDown (x : Slice) (line : Nat) : Slice :=
  match x.dirEntry? line with
  | none => x
  | some e =>
    match e.owner with
    | none => x
    | some c => x.setDir (DirEntry.addSharer { e with owner := none } c)

/-! ## An L1 (R119, R143, R147) -/

/-- Sets of the L1 for a cache share code: none for share 0 (R119, R44). -/
def shareSets (code : Nat) : Nat :=
  match code with
  | 1 => 512 | 2 => 1024 | 3 => 2048 | 4 => 3072 | _ => 0

def Core.l1? (k : Core) (line : Nat) : Option L1Line := k.l1.find? fun x => decide (x.line = line)
def Core.l1Drop (k : Core) (line : Nat) : Core := { k with l1 := eraseFirst (fun x => decide (x.line = line)) k.l1 }
/-- Changes a line where it stands in the order of use. -/
def Core.l1Set (k : Core) (line : Nat) (g : L1Line → L1Line) : Core := { k with l1 := updFirst (fun x => decide (x.line = line)) g k.l1 }
def Core.l1Put (k : Core) (x : L1Line) : Core := { (k.l1Drop x.line) with l1 := x :: (k.l1Drop x.line).l1 }

/-! ## Stream detector and cullet tracker (R128, R137) -/

def streamRegion (line : Nat) : Nat := line / 8192

def Slice.isStream (x : Slice) (agent line : Nat) : Bool :=
  x.streams.any fun e => decide (e.agent = agent) && decide (e.region = streamRegion line) && decide (8 ≤ e.count)

/-- A read miss creates an entry, replacing the least recently used, and counts. -/
def Slice.streamMiss (x : Slice) (agent line : Nat) : Slice :=
  let same (e : StreamEntry) := decide (e.agent = agent) && decide (e.region = streamRegion line)
  let old := ((x.streams.find? same).map StreamEntry.count).getD 0
  { x with streams := ({ agent := agent, region := streamRegion line, count := old + 1 } ::
      (x.streams.filter fun e => !same e)).take 32 }

/-- A hit clears the entry's count. -/
def Slice.streamHit (x : Slice) (agent line : Nat) : Slice :=
  let same (e : StreamEntry) := decide (e.agent = agent) && decide (e.region = streamRegion line)
  { x with streams := updAll same (fun e => { e with count := 0 }) x.streams }

/-- A read of a tracked line counts once and removes it (R137). -/
def Dev.cullRead (d : Dev) (line : Nat) : Dev :=
  if (d.slice (d.homeSlice line)).culls.contains line then
    (d.updHome line fun x => { x with culls := x.culls.erase line }).count (sliceReg (d.homeSlice line) 0x18) 1
  else d

def Slice.cullAdd (x : Slice) (line : Nat) : Slice := { x with culls := (line :: x.culls.erase line).take 1024 }
def Slice.cullForget (x : Slice) (line : Nat) : Slice := { x with culls := x.culls.erase line }

end Sys2Proof.Machine
end

