-- ==== Sys2Proof/Machine/Net.lean ====
section
/-! DEFINITION. The package fabric as messages stand in it (R159 to R173): row hubs, routers and their ports, routes, virtual channels, credits and the round robin of an output, transaction tags, pair-port flits, detours, severed pairs and multicast. -/

namespace Sys2Proof.Machine

/-! ## Nodes and their ports (R159, R160) -/

/-- The router of a base die as a node; the hub of device-wide row r is node r. -/
def routerNode (base : Nat) : Nat := 96 + base
def nodeBase (node : Nat) : Nat := if node < 96 then node / 24 else node - 96
/-- Inputs and outputs of a node: ten cores, the mesh links (10 to the lower column, 11 to the higher, 12 to the other mesh row) and,
on rows 0 to 3, the vertical port (13); twelve vertical ports (0 to 11), 24 slices (12 to 35), three HBM controllers (36 to 38), three
serial ports (39 to 41), the DMA complex (42), the management processor (43) and on BD0 the PCIe port (44) and four CXL ports. -/
def nodePorts (node : Nat) : Nat := if node < 96 then (if node % 8 < 4 then 14 else 13) else if node = 96 then 49 else 44

/-- Where a message enters or leaves the fabric: a core, or a port of a router. -/
inductive Goal where
  | core (c : Nat)
  | port (base p : Nat)

def Goal.base : Goal → Nat
  | .core c => coreBase c
  | .port b _ => b

/-- The node of a goal and its port there. -/
def Goal.place : Goal → Nat × Nat
  | .core c => (coreRow c, if coreIsVector c then 8 + coreSlot c else coreSlot c)
  | .port b p => (routerNode b, p)

/-- Where an agent stands; the lehr and a reduction root stand at the management processor's port of the line's router. Log 13, DESIGN CHOICE. -/
def Dev.agentGoal (d : Dev) (agent line : Nat) : Goal :=
  if agent < 2048 then .core agent
  else if agent < 2112 then .port ((agent - 2048) / 16) 42
  else if agent = agentPort then .port 0 44
  else .port (d.agentBase agent line) 43

/-- A line's home slice at its router. -/
def Dev.homeGoal (d : Dev) (line : Nat) : Goal := .port (d.homeBase line) (12 + d.homeSlice line % 24)

/-- The serial port of a router to another base die. -/
def serialPort (base other : Nat) : Nat := 39 + (if other < base then other else other - 1)
/-- The base die at the far end of a serial port. -/
def serialFar (base port : Nat) : Nat := if port - 39 < base then port - 39 else port - 38
def isSerial (node port : Nat) : Bool := decide (96 ≤ node) && decide (39 ≤ port) && decide (port < 42)

/-! ## Routes (R162, R163) -/

/-- The pair's port is not DOWN. -/
def Dev.portLive (d : Dev) (n : Nat) : Bool := decide ((d.port n).state ≠ .down)

/-- The third base die of a detour: the lowest-numbered one whose ports to both ends are not DOWN. -/
def Dev.detourBase (d : Dev) (n : Nat) : Option Nat :=
  let a := portEndA n
  let b := portEndB n
  [0, 1, 2, 3].find? fun c => decide (c ≠ a) && decide (c ≠ b) && d.portLive (pairPort a c) && d.portLive (pairPort c b)

/-- The pair's traffic takes the detour: its port is DOWN, or a failed attempt has moved the traffic (R162, R169), and there is one. -/
def Dev.takesDetour (d : Dev) (n : Nat) : Bool :=
  ((d.port n).detour || !d.portLive n) && !(d.port n).severed && (d.detourBase n).isSome

/-- The base die to which a router sends a message for another one; none where it finds no route. -/
def Dev.routerNext (d : Dev) (base other : Nat) (second : Bool) : Option Nat :=
  let n := pairPort base other
  if !second && d.takesDetour n then d.detourBase n
  else if d.portLive n then some other else none

/-- One hop: the output, and the next node with its input there, or none where the message leaves the fabric. -/
structure Hop where
  out  : Nat
  next : Option (Nat × Nat)

/-- A hop inside a compute die from one row hub towards another: along the mesh row first, then along the column. -/
def meshHop (row last : Nat) : Hop :=
  if row % 4 < last % 4 then { out := 11, next := some (row + 1, 10) }
  else if last % 4 < row % 4 then { out := 10, next := some (row - 1, 11) }
  else { out := 12, next := some (if row % 8 < 4 then row + 4 else row - 4, 12) }

/-- The hop of a message at a node towards its goal (R162); none where a router finds no route. -/
def Dev.hop (d : Dev) (node : Nat) (second : Bool) (g : Goal) : Option Hop :=
  let (last, port) := g.place
  if node = last then some { out := port, next := none }
  else if node < 96 then
    if last < 96 ∧ node / 8 = last / 8 then some (meshHop node last)
    else if 4 ≤ node % 8 then some { out := 12, next := some (node - 4, 12) }
    else some { out := 13, next := some (routerNode (node / 24), 4 * (node / 8 % 3) + node % 4) }
  else
    let base := node - 96
    if g.base = base then
      some { out := 4 * (last / 8 % 3) + last % 4, next := some (last - last % 8 + last % 4, 13) }
    else
      (d.routerNext base g.base second).map fun t => { out := serialPort base t, next := some (routerNode t, serialPort t base) }

/-! ## Messages (R145, R164) -/

/-- The class of R145, from 0. -/
def MsgKind.cls : MsgKind → Nat
  | .request => 0
  | .snpInv | .snpDown | .snpDrop => 1
  | .rspAck | .rspData => 2
  | .wb | .evc => 3
  | .cmpS | .cmpE | .cmpM | .cmpOwn | .cmpNc | .cmpAck => 4

def MsgKind.isCompletion (k : MsgKind) : Bool := decide (k.cls = 4)
/-- It goes from the agent to the home. -/
def MsgKind.toHome (k : MsgKind) : Bool := decide (k.cls ≠ 1) && decide (k.cls ≠ 4)

def mkMsg (kind : MsgKind) (agent line : Nat) : Msg :=
  { id := 0, kind := kind, agent := agent, line := line, data := [], poison := false, status := 0, tag := none, req := none, also := [],
    node := 0, input := 0, vc := 0, second := false, flying := false, arrived := false }

/-- Its destinations, with their tags. -/
def Msg.dests (m : Msg) : List (Nat × Option TagRef) := (m.agent, m.tag) :: m.also
def Msg.sendsTo (m : Msg) (agent : Nat) : Bool := m.dests.any fun e => decide (e.1 = agent)
def Msg.isFor (m : Msg) (kind : MsgKind) (agent line : Nat) : Bool :=
  decide (m.kind = kind) && decide (m.line = line) && m.sendsTo agent

def Dev.msgGoal (d : Dev) (m : Msg) (agent : Nat) : Goal := if m.kind.toHome then d.homeGoal m.line else d.agentGoal agent m.line
def Dev.msgHop (d : Dev) (m : Msg) (agent : Nat) : Option Hop := d.hop m.node m.second (d.msgGoal m agent)
/-- The destinations that it reaches by an output. -/
def Dev.destsBy (d : Dev) (m : Msg) (out : Nat) : List (Nat × Option TagRef) :=
  m.dests.filter fun e => match d.msgHop m e.1 with
    | some h => decide (h.out = out)
    | none => false

/-- A message enters the fabric at its source. -/
def Dev.post (d : Dev) (m : Msg) : Dev :=
  let (node, input) := (if m.kind.toHome then d.agentGoal m.agent m.line else d.homeGoal m.line).place
  { d with net := d.net ++ [{ m with id := d.nextMsg, node := node, input := input, vc := m.kind.cls }], nextMsg := d.nextMsg + 1 }

/-- A completion that a router on the requester's side makes stands at the requester (R163). -/
def Dev.reply (d : Dev) (m : Msg) : Dev :=
  { d with net := d.net ++ [{ m with id := d.nextMsg, arrived := true }], nextMsg := d.nextMsg + 1 }

/-- Keeps the destinations given in a message; none of them: the message goes. -/
def Msg.keep (m : Msg) : List (Nat × Option TagRef) → Option Msg
  | [] => none
  | e :: rest => some { m with agent := e.1, tag := e.2, also := rest }

/-! ## Transaction tags (R171, R172) -/

def Tag.fresh (side index : Nat) : Tag :=
  { side := side, index := index, gen := 0, abandons := 0, withheld := false, agent := 0, line := 0, wantsData := false, busy := false }

def PairPort.tag? (p : PairPort) (side index : Nat) : Option Tag := p.tags.find? fun t => decide (t.side = side) && decide (t.index = index)
def PairPort.setTag (p : PairPort) (t : Tag) : PairPort :=
  { p with tags := t :: p.tags.filter fun v => !(decide (v.side = t.side) && decide (v.index = t.index)) }

/-- The lowest index of a port end that is neither in use nor withheld. Log 32, DESIGN CHOICE. -/
def PairPort.freeIndex (p : PairPort) (side : Nat) : Option Nat :=
  (List.range 1024).find? fun i => match p.tag? side i with
    | none => true
    | some t => !t.busy && !t.withheld

/-- The port end where an agent's requests start: 0 for end A. -/
def Dev.tagSide (d : Dev) (agent line : Nat) : Nat := boolNat (decide (d.homeBase line < d.agentBase agent line))

/-- Requests that expect data back (R163). -/
def ReqKind.wantsData : ReqKind → Bool
  | .rdS | .rdU | .upg | .rdNc | .atom => true
  | .own | .wrNc | .cctl | .pref | .evictDir => false

/-- A request that a router sends across a pair, and that expects a response; a prefetch expects none (R145, R171). -/
def Dev.wantsTag (d : Dev) (r : Request) : Bool := (d.crossing r.agent r.line).isSome && decide (r.kind ≠ .pref)

/-- The tag that a request would take; none where every index is in use. -/
def Dev.nextTag (d : Dev) (r : Request) : Option TagRef :=
  match d.crossing r.agent r.line with
  | none => none
  | some n =>
    let side := d.tagSide r.agent r.line
    ((d.port n).freeIndex side).map fun i =>
      { port := n, side := side, index := i, gen := (((d.port n).tag? side i).getD (Tag.fresh side i)).gen }

/-- Gives a request its tag. -/
def Dev.setTag (d : Dev) (r : Request) (t : TagRef) : Dev :=
  d.updPort t.port fun p =>
    p.setTag { (p.tag? t.side t.index).getD (Tag.fresh t.side t.index) with
                 agent := r.agent, line := r.line, wantsData := r.kind.wantsData, busy := true }

/-- A transaction ends without its response: the generation advances, and the third abandonment in a row withholds the index. -/
def Tag.abandon (t : Tag) : Tag :=
  { t with busy := false, gen := t.gen + 1, abandons := t.abandons + 1, withheld := decide (3 ≤ t.abandons + 1) }

def Dev.updTag (d : Dev) (t : TagRef) (g : Tag → Tag) : Dev :=
  d.updPort t.port fun p => { p with tags := updFirst (fun v => decide (v.side = t.side) && decide (v.index = t.index)) g p.tags }

/-- The tag is in use at this generation. -/
def Dev.tagCurrent (d : Dev) (t : TagRef) : Bool :=
  match (d.port t.port).tag? t.side t.index with
  | some v => v.busy && decide (v.gen = t.gen)
  | none => false

/-- A transaction whose tag still stands ends without its response. -/
def Dev.abandonTag (d : Dev) (t : Option TagRef) : Dev :=
  match t with
  | some t => if d.tagCurrent t then d.updTag t Tag.abandon else d
  | none => d

/-- A response reaches the requester's router: the current generation frees the index, another is discarded and counted (R172). -/
def Dev.acceptTag (d : Dev) (t : Option TagRef) : Bool × Dev :=
  match t with
  | none => (true, d)
  | some t =>
    if d.tagCurrent t then (true, d.updTag t fun v => { v with busy := false, abandons := 0 })
    else (false, d.count (0x602020 + 0x40 * t.port) 1)

/-- A response's destinations whose tags are current (R172). -/
def Dev.acceptAll (d : Dev) (l : List (Nat × Option TagRef)) : List (Nat × Option TagRef) × Dev :=
  l.foldl (fun (acc : List (Nat × Option TagRef) × Dev) e =>
    let (ok, d) := acc.2.acceptTag e.2
    (if ok then acc.1 ++ [e] else acc.1, d)) ([], d)

/-! ## Messages without a route (R163) -/

/-- What a router answers for the home (R163): poisoned data whose bytes no rule states, or D2D_SEVERED. -/
def Dev.routerReply (d : Dev) (agent line : Nat) (wantsData : Bool) : Dev :=
  if wantsData then
    let (bs, d) := d.lostBytes 128
    d.reply { mkMsg .cmpNc agent line with data := bs, poison := true }
  else d.reply { mkMsg .cmpAck agent line with status := 0x622 }

/-- A router ends a message: a request completes at its requester, anything else is dropped. -/
def Dev.endMsg (d : Dev) (m : Msg) : Dev :=
  match m.req with
  | none => d
  | some r => if r.kind = .pref then d else (d.abandonTag m.tag).routerReply r.agent r.line r.kind.wantsData

/-! ## Flits of the pair ports (R166, R167) -/

/-- A counter of a pair port (R186). -/
def d2dCounter (n off : Nat) : Nat := 0x602000 + 0x40 * n + off

def PairPort.dir (p : PairPort) (ab : Bool) : PortDir := if ab then p.ab else p.ba
def PairPort.updDir (p : PairPort) (ab : Bool) (g : PortDir → PortDir) : PairPort :=
  if ab then { p with ab := g p.ab } else { p with ba := g p.ba }

/-- The port sends new flits: it is trained, no replay is due, and its replay buffer has room. -/
def PairPort.sends (p : PairPort) (ab : Bool) : Bool :=
  (decide (p.state = .up) || decide (p.state = .degraded)) && (p.dir ab).resend.isNone && decide ((p.dir ab).replay.length < 512)

/-- Direction A to B from one base die to another. -/
def dirAB (base other : Nat) : Bool := decide (base < other)

/-- A flit crosses without an error and is acknowledged, with every flit before it. One flit carries one message. Log 66, DESIGN CHOICE. -/
def Dev.cleanFlit (d : Dev) (n : Nat) (ab : Bool) : Dev :=
  ((d.count (d2dCounter n 0x30) 1).count (d2dCounter n 0x38) 1).updPort n fun p =>
    p.updDir ab fun x =>
      if x.resend.isSome then { x with flits := x.flits + 1 }
      else { x with seq := x.seq + 1, expect := x.expect + 1, replay := [], fails := 0, flits := x.flits + 1 }

/-- What a crossing does to a message that is received at a router: a response that has reached its requester's router is held against
its tags, and the second crossing of a detour is next where this was the first. -/
def Dev.receive (d : Dev) (m : Msg) : Dev :=
  let (dests, d) := if m.kind.isCompletion then
      let here (e : Nat × Option TagRef) : Bool := decide ((d.msgGoal m e.1).base = nodeBase m.node)
      let (ok, d) := d.acceptAll (m.dests.filter here)
      (ok.map (fun e => (e.1, none)) ++ m.dests.filter (fun e => !here e), d)
    else (m.dests, d)
  match m.keep dests with
  | none => d
  | some m => { d with net := d.net ++ [{ m with second := true, flying := false }] }

/-! ## Arbitration (R164, R165) -/

/-- The heads of a node's inputs: for each input and virtual channel the message that came first. -/
def Dev.inputHeads (d : Dev) (node : Nat) : List Msg :=
  (d.net.foldl (fun (acc : List (Nat × Nat) × List Msg) m =>
    if m.node ≠ node ∨ m.arrived ∨ m.flying ∨ acc.1.contains (m.input, m.vc) then acc
    else ((m.input, m.vc) :: acc.1, acc.2 ++ [m])) ([], [])).2

/-- The virtual channel that a message takes at an output: its class, in the detour set on the second crossing of a detour. -/
def outVc (node out : Nat) (m : Msg) : Nat := if isSerial node out && m.second then m.kind.cls + 5 else m.kind.cls

/-- Messages that stand in a virtual channel of a node's input. -/
def Dev.occupied (d : Dev) (node input vc : Nat) : Nat :=
  countIf (fun m => decide (m.node = node) && decide (m.input = input) && decide (m.vc = vc) && !m.arrived) d.net

/-- The output can grant the message: its virtual channel has credit at the next input, and a serial port sends new flits and has a tag
where one is needed. -/
def Dev.canGo (d : Dev) (node out : Nat) (next : Option (Nat × Nat)) (m : Msg) : Bool :=
  match next with
  | none => true
  | some (dest, input) =>
    let used := d.occupied dest input (outVc node out m)
    (decide (used = 0) || decide (used < Config.channelDepth)) &&
      (!isSerial node out ||
        (let base := node - 96
         let far := serialFar base out
         (d.port (pairPort base far)).sends (dirAB base far) &&
          match m.req with
          | some r => m.tag.isSome || !d.wantsTag r || (d.nextTag r).isSome
          | none => true))

/-- The first number of a list at or after a start, else the least (round robin). -/
def robin (start : Nat) (l : List Nat) : Option Nat :=
  (leastBy id (l.filter fun x => decide (start ≤ x))).or (leastBy id l)

/-- The message that an output grants: among the virtual channels by round robin, and within one among its inputs. -/
def Dev.winner (d : Dev) (node out : Nat) : Option Msg :=
  let key := 64 * node + out
  let cands := (d.inputHeads node).filter fun m => match (d.destsBy m out).head? with
    | none => false
    | some e => d.canGo node out ((d.msgHop m e.1).bind Hop.next) m
  match robin (Tab.get 0 d.vcTurns key) (cands.map (outVc node out)) with
  | none => none
  | some vc =>
    let mine := cands.filter fun m => decide (outVc node out m = vc)
    (robin (Tab.get 0 d.inTurns (16 * key + vc)) (mine.map Msg.input)).bind fun i => mine.find? fun m => decide (m.input = i)

/-- The output turns past the channel and the input that it grants. -/
def Dev.turn (d : Dev) (node out : Nat) (m : Msg) : Dev :=
  let key := 64 * node + out
  let vc := outVc node out m
  { d with vcTurns := Tab.set 0 d.vcTurns key (vc + 1), inTurns := Tab.set 0 d.inTurns (16 * key + vc) (m.input + 1) }

def Dev.dropMsg (d : Dev) (id : Nat) : Dev := { d with net := eraseFirst (fun m => decide (m.id = id)) d.net }

/-- A granted message leaves its input; of a multicast the copy for the destinations by this output leaves, with a number of its own, and
the rest stays (R173). -/
def Dev.depart (d : Dev) (m : Msg) (out : Nat) : Option Msg × Dev :=
  let go := d.destsBy m out
  match m.keep (m.dests.filter fun e => !go.contains e) with
  | none => (some m, d.dropMsg m.id)
  | some rest =>
    ((m.keep go).map fun c => { c with id := d.nextMsg },
      { d with net := updFirst (fun v => decide (v.id = m.id)) (fun _ => rest) d.net, nextMsg := d.nextMsg + 1 })

/-- A request that a router sends across a pair takes its tag. -/
def Dev.tagMsg (d : Dev) (m : Msg) : Msg × Dev :=
  match m.req with
  | none => (m, d)
  | some r =>
    if m.tag.isSome || !d.wantsTag r then (m, d)
    else match d.nextTag r with
      | none => (m, d)
      | some t => ({ m with tag := some t }, d.setTag r t)

/-- Flits sent by detour are counted for their pair, at their first crossing. -/
def Dev.countDetour (d : Dev) (m : Msg) (base far : Nat) : Dev :=
  if m.second then d
  else
    match d.crossing m.agent m.line with
    | some n => if n = pairPort base far then d else d.count (d2dCounter n 0x28) 1
    | none => d

/-- An output grants: the winner moves one hop, a message across a pair port in one clean flit. None where nothing can go. -/
def Dev.grantOut (d : Dev) (node out : Nat) : Option Dev :=
  match d.winner node out with
  | none => none
  | some m =>
    match (d.turn node out m).depart m out with
    | (none, d) => some d
    | (some c, d) =>
      match (d.msgHop c c.agent).bind Hop.next with
      | none => some { d with net := d.net ++ [{ c with arrived := true }] }
      | some (dest, input) =>
        let c := { c with node := dest, input := input, vc := outVc node out m }
        if isSerial node out then
          let far := serialFar (node - 96) out
          let (c, d) := d.tagMsg c
          some (((d.countDetour m (node - 96) far).cleanFlit (pairPort (node - 96) far) (dirAB (node - 96) far)).receive c)
        else some { d with net := d.net ++ [c] }

/-- A router ends the heads for which it finds no route (R163). -/
def Dev.strand (d : Dev) (node : Nat) : Dev :=
  if node < 96 then d
  else
    Dev.forEach (d.inputHeads node) (fun d m =>
      let lost := m.dests.filter fun e => (d.msgHop m e.1).isNone
      if lost.isEmpty then d
      else
        let d := match m.keep (m.dests.filter fun e => (d.msgHop m e.1).isSome) with
          | none => d.dropMsg m.id
          | some rest => { d with net := updFirst (fun v => decide (v.id = m.id)) (fun _ => rest) d.net }
        d.endMsg m) d

/-- A message of a kind for an agent and a line goes on, each output granting in its turn, until it stands at its destination or
nothing before it can go. -/
def Dev.travel (kind : MsgKind) (agent line : Nat) : Nat → Dev → Dev
  | 0, d => d
  | fuel + 1, d =>
    match d.net.find? fun m => m.isFor kind agent line with
    | none => d
    | some m =>
      if m.arrived || m.flying then d
      else
        let d := d.strand m.node
        match d.net.find? fun v => decide (v.id = m.id) with
        | none => d
        | some m =>
          match d.msgHop m agent with
          | none => d
          | some h =>
            match d.grantOut m.node h.out with
            | none => d
            | some d => Dev.travel kind agent line fuel d

/-- Grants enough for every message to cross the whole fabric. -/
def Dev.travelFuel (d : Dev) : Nat := 16 * d.net.length + 16

/-- Takes the first message of a kind for an agent and a line at its destination, where it can get there. -/
def Dev.takeMsg (d : Dev) (kind : MsgKind) (agent line : Nat) : Option Msg × Dev :=
  let d := Dev.travel kind agent line d.travelFuel d
  match d.net.find? fun m => m.isFor kind agent line with
  | none => (none, d)
  | some m => if m.arrived then (some m, d.dropMsg m.id) else (none, d)

/-! ## Whole carriage (log 13, DESIGN CHOICE) -/

/-- One destination of a message is reached at once, whatever stands in its way: its pair's tag, flits and route count all the same. -/
def Dev.land1 (d : Dev) (m : Msg) (e : Nat × Option TagRef) : Dev :=
  let m := { m with agent := e.1, tag := e.2, also := [] }
  let arrive (d : Dev) (m : Msg) : Dev :=
    { d with net := d.net ++ [{ m with id := d.nextMsg, flying := false, arrived := true }], nextMsg := d.nextMsg + 1 }
  let here := nodeBase m.node
  let there := (d.msgGoal m m.agent).base
  if here = there then arrive d m
  else
    match d.routerNext here there m.second with
    | none => d.endMsg m
    | some t =>
      let d := (d.countDetour m here t).cleanFlit (pairPort here t) (dirAB here t)
      let d := if t = there then d else d.cleanFlit (pairPort t there) (dirAB t there)
      if m.kind.isCompletion then
        let (ok, d) := d.acceptTag m.tag
        if ok then arrive d { m with tag := none } else d
      else
        let (m, d) := d.tagMsg m
        arrive d m

/-- Every message of a line reaches its destinations. -/
def Dev.land (d : Dev) (line : Nat) : Dev :=
  Dev.forEach (d.net.filter fun m => decide (m.line = line) && !m.arrived) (fun d m =>
    Dev.forEach m.dests (fun d e => d.land1 m e) (d.dropMsg m.id)) d

end Sys2Proof.Machine
end

