-- ==== Sys2Proof/Machine/Coherence.lean ====
section
/-! DEFINITION. Coherence: poison origins (R431), requests at a home, snoops at an L1, responses, write-backs and completions (R142 to R152), and the whole accesses that beams and other agents make through them (log 13, DESIGN CHOICE). -/

namespace Sys2Proof.Machine

/-! ## Poison origins (R431, R432) -/

/-- The facet that holds a line's page: facet 0 where none does (R431). -/
def Dev.lineFacet (d : Dev) (line : Nat) : Nat := Tab.get 0 d.frames (lineFrame line) - 1

/-- A new origin of poison: one glint to the owning facet and to facet 0, AER, and the latch of MEM_ERR_LOG; one of the same
source on the same page or core within 1 ms posts nothing more. `place` is an address, or a core where `isCore`. -/
def Dev.poisonOrigin (d : Dev) (src : Nat) (isCore : Bool) (place facet : Nat) : Dev :=
  let key := if isCore then 2 * place + 1 else 2 * (place / pageBytes)
  let d := if d.errors.logValid then d else
    d.updErrors fun e =>
      { e with logSource := BitVec.ofNat 4 src, logFacet := BitVec.ofNat 6 facet, logValid := true,
               logCore := if isCore then BitVec.ofNat 11 place else 0, logAddr := if isCore then 0 else BitVec.ofNat 52 place }
  if d.origins.contains (src, key) then d
  else
    let d := { d with origins := d.origins ++ [(src, key)] }
    let d := d.glint facet 0x607 src place facet
    let d := if facet = 0 then d else d.glint 0 0x607 src place facet
    if src = 8 then d.send (.aerPoisonedTlp facet) else d.send (.aer facet true false)

/-- Corrected events of the running 1 s window (R432). -/
def Dev.corrected (d : Dev) : Dev := d.updErrors fun e => { e with corrected := e.corrected + 1 }

/-- A grant of a line that has become P carries poisoned data and grants nothing. Log 41, DEDUCED. -/
def Msg.degrade (m : Msg) (data : List Byte) : Msg :=
  match m.kind with
  | .cmpS | .cmpE | .cmpM | .cmpOwn => { m with kind := .cmpNc, data := data, poison := true }
  | _ => m

/-- A line becomes P: slice and memory copies are written poisoned, and no L1 holds it (R148, R427); a grant on its way becomes poisoned
data. Log 41, DEDUCED. -/
def Dev.poisonLine (d : Dev) (line : Nat) : Dev :=
  let data := match d.way? line with
    | some w => w.data
    | none => d.memLine line
  let d := d.updHome line fun x => (x.updWay line fun w => { w with dirty := false }).dirClear line
  let d := { d with cores := d.cores.map fun (e : Nat × Core) => (e.1, if (e.2.l1? line).isSome then e.2.l1Drop line else e.2),
                    net := updAll (fun m => decide (m.line = line)) (fun m => m.degrade data) d.net }
  (d.memWriteLine line data true).count 0x609020 1

/-! ## The home (R148, R150) -/

/-- All 128 bytes are enabled (R145). -/
def isFullWrite (r : Request) : Bool := decide (r.bytes.foldl (fun a e => a ||| 2 ^ e.1) 0 % 2 ^ 128 = 2 ^ 128 - 1)
/-- A write of the whole line, for the cullet tracker (R137, R152). -/
def Request.writesAll (r : Request) : Bool := decide (r.kind = .own) || (decide (r.kind = .wrNc) && isFullWrite r)

/-- Requests that can share one fill (R138). -/
def ReqKind.shares : ReqKind → Bool
  | .rdS | .rdNc | .pref => true
  | .rdU | .own | .upg | .wrNc | .atom | .cctl | .evictDir => false

def ReqKind.isRead : ReqKind → Bool
  | .rdS | .rdU | .rdNc => true
  | .own | .upg | .wrNc | .atom | .cctl | .pref | .evictDir => false

def Slice.txn? (x : Slice) (line : Nat) : Option Txn := x.txns.find? fun t => decide (t.req.line = line)
def Slice.updTxn (x : Slice) (line : Nat) (g : Txn → Txn) : Slice :=
  { x with txns := updFirst (fun t => decide (t.req.line = line)) g x.txns }
def Slice.dropTxn (x : Slice) (line : Nat) : Slice :=
  { x with txns := eraseFirst (fun t => decide (t.req.line = line)) x.txns }
def Dev.txn? (d : Dev) (line : Nat) : Option Txn := (d.slice (d.homeSlice line)).txn? line

/-- The request is stream traffic (R128, R129). -/
def Dev.streaming (d : Dev) (r : Request) : Bool := r.stream || (d.slice (d.homeSlice r.line)).isStream r.agent r.line

/-- The pin of a line, by facet. -/
def Dev.linePin (d : Dev) (line : Nat) : Option Nat := (d.way? line).bind Way.pin

/-- The requester holds the line as a sharer (R148, R149). -/
def Dev.isSharer (d : Dev) (r : Request) : Bool := (d.dirCopies r.line).contains r.agent && ((d.core r.agent).l1? r.line).isSome

/-- The refusal of a pin (R133), in the order of its table (log 29, DEDUCED). `cap` is PIN_CAP as its transaction opened. -/
def Dev.pinRefusal (d : Dev) (r : Request) (cap : Nat) : Option Code :=
  let x := d.slice (d.homeSlice r.line)
  let set := d.homeSet r.line
  match d.linePin r.line with
  | some f => if f = r.facet then none else some 0x611
  | none =>
    if decide (cap ≤ d.pinnedWays x set) then some 0x610
    else if decide (r.op = 4) && (d.setWays x set).any (fun w => w.retained) then some 0x612
    else none

/-- A request needs the line's data at the home before it acts; a refused pin does not. -/
def Dev.needsData (d : Dev) (r : Request) (cap : Nat) : Bool :=
  match r.kind with
  | .rdS | .rdU | .rdNc | .atom => true
  | .upg => !d.isSharer r
  | .pref => (d.dirOwner r.line).isNone
  | .wrNc => !isFullWrite r
  | .own | .evictDir => false
  | .cctl => (decide (r.op = 1) || decide (r.op = 4)) && (d.pinRefusal r cap).isNone

/-- The snoop a request sends to the copies other than the requester's, and its kind (R148). A gated core holds no line and receives
no snoop (R122). -/
def Dev.snoopsOf (d : Dev) (r : Request) : List Nat × MsgKind :=
  let copies := (d.dirCopies r.line).filter fun c => !(d.core c).gated
  let owner := (d.dirOwner r.line).toList
  let others := copies.filter fun c => decide (c ≠ r.agent)
  match r.kind with
  | .rdS | .rdNc => (owner.filter fun c => decide (c ≠ r.agent) || decide (r.kind = .rdNc), .snpDown)
  | .rdU | .own | .upg => (others, .snpInv)
  | .wrNc | .atom | .evictDir => (copies, .snpInv)
  | .cctl =>
    if decide (r.op = 0) && (d.linePin r.line).isNone then (copies, .snpDrop)
    else if r.op = 3 then (owner, .snpDown) else ([], .snpInv)
  | .pref => ([], .snpInv)

/-- The directory names the requester exactly although it asks for the line again: its WB or EVC is on its way. Log 41, DEDUCED. -/
def Dev.leaving (d : Dev) (r : Request) : Bool :=
  match r.kind with
  | .rdS | .rdU | .own | .upg =>
    match d.dirEntry? r.line with
    | some e =>
      (decide (e.owner = some r.agent) || e.sharers.contains r.agent) && ((d.core r.agent).l1? r.line).isNone &&
        d.net.any fun m => m.isFor .wb r.agent r.line || m.isFor .evc r.agent r.line
    | none => false
  | .rdNc | .wrNc | .atom | .cctl | .pref | .evictDir => false

/-- A request that changes memory. -/
def Request.writes (r : Request) : Bool :=
  match r.kind with
  | .wrNc | .atom | .own | .upg | .rdU => true
  | .rdS | .rdNc | .cctl | .pref | .evictDir => false

/-- A write of an agent has no CMP_ACK or ownership yet, wherever it stands (R217, R221). -/
def Dev.writesOut (d : Dev) (agent : Nat) : Bool :=
  let mine (r : Request) : Bool := decide (r.agent = agent) && r.writes
  let out (m : Msg) : Bool := match m.kind with
    | .request => m.req.any mine
    | .cmpAck | .cmpM | .cmpOwn => decide (m.agent = agent)
    | _ => false
  !(d.core agent).wbuf.isEmpty || d.net.any out || (d.farPorts.any fun p => p.2.writes.any fun w => decide (w.agent = agent)) ||
    d.slices.any fun e => e.2.waiting.any mine || e.2.channel.any mine || e.2.txns.any fun t => mine t.req || t.joined.any mine

/-! ### Counters of an access (R128, R135, R137, R154) -/

/-- An access opens: the class counters, the unpinned counter and the cullet tracker. -/
def Dev.countAccess (d : Dev) (r : Request) : Dev :=
  let line := r.line
  let d := d.countF r.facet (0x601000 + 16 * r.cls) 1
  let d := if (d.linePin line).isSome then d else d.count (sliceReg (d.homeSlice line) 0x08) 1
  let d := if r.kind.isRead then d.cullRead line else d
  if r.writesAll then d.updHome line fun x => x.cullForget line else d

/-- The detector follows cores and DMA channels; traffic that is always stream does not update it (R128, R129). -/
def Request.detected (r : Request) : Bool := !r.stream && decide (r.agent < 2112)

/-- An access was served from the data ways without memory. -/
def Dev.countHit (d : Dev) (r : Request) : Dev :=
  let d := d.countF r.facet (0x601008 + 16 * r.cls) 1
  if r.detected then d.updHome r.line fun x => x.streamHit r.agent r.line else d

/-- An access missed the data ways. The miss that brings the detector's count to 8 is itself stream traffic. Log 41, DEDUCED. -/
def Dev.countMiss (d : Dev) (r : Request) : Dev :=
  let d := if (d.linePin r.line).isSome then d else d.count (sliceReg (d.homeSlice r.line) 0x10) 1
  if r.detected && r.kind.isRead then d.updHome r.line fun x => x.streamMiss r.agent r.line else d

/-- Counts how an access was served, once: a fill was counted as it started. -/
def Dev.countOutcome (d : Dev) (r : Request) (hit filled : Bool) : Dev :=
  if filled || decide (r.kind = .evictDir) then d else if hit then d.countHit r else d.countMiss r

/-! ### The directory's room (R144) -/

/-- A grant of the request makes a directory entry. -/
def Dev.takesEntry (d : Dev) (r : Request) : Bool :=
  match r.kind with
  | .rdS | .rdU | .upg => !d.linePoisoned r.line && (d.dirEntry? r.line).isNone
  | .own => (d.dirEntry? r.line).isNone
  | .rdNc | .wrNc | .atom | .cctl | .pref | .evictDir => false

/-- The entries of a directory set, with those that open transactions will make. -/
def Dev.setUse (d : Dev) (line : Nat) : Nat :=
  let x := d.slice (d.homeSlice line)
  countIf (fun e => decide (dirSet e.line = dirSet line)) x.dir +
    countIf (fun t => decide (dirSet t.req.line = dirSet line) && t.room.isNone && (t.req :: t.joined).any d.takesEntry) x.txns

/-- The entries of a line's directory set, least recently used first. -/
def Dev.setOldest (d : Dev) (line : Nat) : List DirEntry :=
  (d.slice (d.homeSlice line)).dir.reverse.filter fun e => decide (dirSet e.line = dirSet line)

/-- Records a grant in the directory. -/
def Dev.grantOwner (d : Dev) (line c : Nat) : Dev :=
  d.updHome line fun x => x.setDir { line := line, owner := some c, sharers := [], rows := [] }
def Dev.grantSharer (d : Dev) (line c : Nat) : Dev :=
  d.updHome line fun x =>
    x.setDir (((x.dirEntry? line).getD { line := line, owner := none, sharers := [], rows := [] }).addSharer c)

def mkReq (kind : ReqKind) (agent facet cls line : Nat) : Request :=
  { kind := kind, agent := agent, line := line, bytes := [], poison := false, facet := facet, op := 0, x := 0, y := 0, cls := cls,
    stream := false, tag := none }

/-- The home's completion of a request. -/
def Dev.complete (d : Dev) (kind : MsgKind) (r : Request) (data : List Byte) (poison : Bool) (st : Code) : Dev :=
  d.post { mkMsg kind r.agent r.line with data := data, poison := poison, status := st, tag := r.tag }

/-- The 32-bit atomic operations of R57 on the old word. -/
def atomicOp (op : BitVec 4) (old x y : BitVec 32) : BitVec 32 :=
  match op.toNat with
  | 0 => old + x
  | 1 => f32Add old x
  | 2 => if old.slt x then old else x
  | 3 => if old.slt x then x else old
  | 4 => old &&& x
  | 5 => old ||| x
  | 6 => old ^^^ x
  | 7 => x
  | 8 => if old = x then y else old
  | _ => old

/-- The 64-bit operations of the PCIe AtomicOps (R230), as operations 9 to 11: add, exchange, compare and exchange. Log 43, DEDUCED. -/
def atomic64 (op old x y : Nat) : Nat :=
  match op with
  | 9 => (old + x) % 2 ^ 64
  | 10 => x
  | _ => if old = x then y else old

/-- Byte writes inside a line. -/
def patchLine (data : List Byte) (bytes : List (Nat × Byte)) : List Byte := bytes.foldl (fun l e => updAt (fun _ => e.2) e.1 l) data

/-- Pins a line that the slice holds, or that a fill has just brought (R132, R133): the status. -/
def Dev.pinLine (d : Dev) (r : Request) (cap : Nat) (data : List Byte) : Dev × Code :=
  let line := r.line
  match d.pinRefusal r cap with
  | some st => (d.count (sliceReg (d.homeSlice line) 0x20) 1, st)
  | none =>
    if (d.linePin line).isSome then (d, 0)
    else
      let retain := decide (r.op = 4)
      let d := d.pinWay line data retain
      (d.updHome line fun x => x.updWay line fun w => { w with pin := some r.facet, retained := retain }, 0)

def Dev.unpinLine (d : Dev) (line facet : Nat) : Dev × Code :=
  match d.linePin line with
  | none => (d, 0)
  | some f =>
    if f = facet then (d.updHome line fun x => x.updWay line fun w => { w with pin := none, retained := false }, 0)
    else (d.count (sliceReg (d.homeSlice line) 0x20) 1, 0x611)

/-- A write goes to memory and is acknowledged: by a far port that is UP when the memory device completes it, by one that is not with
FAR_LINK_DOWN (R209, R217). -/
def Dev.writeThrough (d : Dev) (agent line : Nat) (tag : Option TagRef) (data : List Byte) (poison : Bool) : Dev :=
  let d := d.memWriteLine line data poison
  let p := lineFarPort line
  if lineIsFar line && decide ((d.farPort p).state = 2) then
    d.updFarPort p fun q => { q with writes := q.writes ++ [{ line := line, agent := agent, tag := tag }] }
  else d.post { mkMsg .cmpAck agent line with status := if lineIsFar line then 0x661 else 0, tag := tag }

/-- Acts on a request whose snoops are answered and whose data stands at the home (R148). `data` is the line's coherent value, `cap`
PIN_CAP as its transaction opened. -/
def Dev.perform (d : Dev) (r : Request) (cap : Nat) (data : List Byte) : Dev :=
  let line := r.line
  match r.kind with
  | .rdS =>
    if (d.dirCopies line).isEmpty then (d.grantOwner line r.agent).complete .cmpE r data false 0
    else (d.grantSharer line r.agent).complete .cmpS r data false 0
  | .rdU => (d.grantOwner line r.agent).complete .cmpM r data false 0
  | .own => (d.grantOwner line r.agent).complete .cmpOwn r [] false 0
  | .upg =>
    let kind : MsgKind := if d.isSharer r then .cmpOwn else .cmpM
    (d.grantOwner line r.agent).complete kind r (if kind = .cmpOwn then [] else data) false 0
  | .rdNc => d.complete .cmpNc r data false 0
  | .wrNc =>
    let d := d.updHome line fun x => x.dirClear line
    if isFullWrite r && d.streaming r && (d.way? line).isNone then d.writeThrough r.agent line r.tag (patchLine data r.bytes) false
    else (d.allocWay line (patchLine data r.bytes) true).complete .cmpAck r [] false 0
  | .atom =>
    let off := (r.bytes.head?.map Prod.fst).getD 0
    let operand (n : Nat) := leNat (((r.bytes.map Prod.snd).drop n).take 8)
    let (old, new) : List Byte × List Byte :=
      if 8 < r.op.toNat then
        let old := leAt data off 8
        (leBytes 8 old, leBytes 8 (atomic64 r.op.toNat old (operand 0) (operand 8)))
      else
        let old : BitVec 32 := BitVec.ofNat 32 (leAt data off 4)
        (leBytes 4 old.toNat, leBytes 4 (atomicOp r.op old r.x r.y).toNat)
    let cells := (List.range new.length).zip new |>.map fun e => (off + e.1, e.2)
    ((d.updHome line fun x => x.dirClear line).allocWay line (patchLine data cells) true).complete .cmpNc r old false 0
  | .cctl =>
    match r.op.toNat with
    | 0 =>
      if (d.linePin line).isSome then d.complete .cmpAck r [] false 0
      else
        let held := (d.way? line).isSome
        let d := d.updHome line fun x => (x.dropWay line).dirClear line
        let d := if held || !r.bytes.isEmpty then d.updHome line fun x => x.cullAdd line else d
        d.complete .cmpAck r [] false 0
    | 1 | 4 => let (d, st) := d.pinLine r cap data; d.complete .cmpAck r [] false st
    | 2 => let (d, st) := d.unpinLine line r.facet; d.complete .cmpAck r [] false st
    | 3 =>
      match d.way? line with
      | some w =>
        let d := d.updHome line fun x => x.updWay line fun w => { w with dirty := false }
        if w.dirty then d.writeThrough r.agent line r.tag w.data false else d.complete .cmpAck r [] false 0
      | none => d.complete .cmpAck r [] false 0
    | _ => d.complete .cmpAck r [] false 0
  | .pref => d
  | .evictDir => d.updHome line fun x => x.dirClear line

/-- Acts on a request at a line in P (R148, R152, R427). -/
def Dev.performPoisoned (d : Dev) (r : Request) : Dev :=
  let line := r.line
  match r.kind with
  | .rdS | .rdU | .upg | .rdNc | .atom => d.complete .cmpNc r (d.memLine line) true 0
  | .own =>
    let d := { d with memPoison := NSet.del d.memPoison line }
    (d.grantOwner line r.agent).complete .cmpOwn r [] false 0
  | .wrNc =>
    let data := patchLine (d.memLine line) r.bytes
    let poison := !isFullWrite r || r.poison
    (d.updHome line fun x => x.updWay line fun w => { w with data := data, dirty := false }).writeThrough r.agent line r.tag data poison
  | .cctl =>
    match r.op.toNat with
    | 1 | 4 => (d.count (sliceReg (d.homeSlice line) 0x20) 1).complete .cmpAck r [] false 0x614
    | 2 => let (d, st) := d.unpinLine line r.facet; d.complete .cmpAck r [] false st
    | _ => d.complete .cmpAck r [] false 0
  | .pref => d
  | .evictDir => d.updHome line fun x => x.dirClear line

/-- A write that carries poison puts its line in P (R427). -/
def Dev.performPoisonWrite (d : Dev) (r : Request) (data : List Byte) : Dev :=
  let line := r.line
  let data := patchLine data r.bytes
  let d := d.updHome line fun x => (x.updWay line fun w => { w with data := data, dirty := false }).dirClear line
  (d.count 0x609020 1).writeThrough r.agent line r.tag data true

/-- The slice's or memory's value of a line. -/
def Dev.homeData (d : Dev) (line : Nat) : List Byte :=
  match d.way? line with
  | some w => w.data
  | none => d.memLine line

/-- A request whose snoops are answered: it acts, or waits for a fill from memory (R138). Stream traffic leaves the replacement order
unchanged and allocates nothing (R130). -/
def Dev.proceed (d : Dev) (r : Request) (cap : Nat) (filled : Bool) : Dev × Bool :=
  let line := r.line
  let held := (d.way? line).isSome
  let stream := d.streaming r
  if d.linePoisoned line then ((d.countOutcome r false filled).performPoisoned r, true)
  else if decide (r.kind = .wrNc) && r.poison then ((d.countOutcome r held filled).performPoisonWrite r (d.homeData line), true)
  else if held then
    let d := d.countOutcome r true filled
    let d := if stream then d else d.updHome line fun x => x.touch line
    (d.perform r cap (d.homeData line), true)
  else if filled then
    let data := d.memLine line
    let d := if (stream && r.kind.isRead) || decide (r.kind = .cctl) then d else d.allocWay line data false
    (d.perform r cap data, true)
  else if !d.needsData r cap then ((d.countOutcome r false filled).perform r cap (d.homeData line), true)
  else (d, false)

/-- The parity errors that a request finds at its home (R423, R425): a clean way is dropped and refetched, a modified one makes
the line P; a directory entry is recovered by invalidating every L1 copy, modified data merged. -/
def Dev.homeParity (d : Dev) (line : Nat) : Dev :=
  let d := if !NSet.has d.strikes.slice line then d else
    let d := { d with strikes := { d.strikes with slice := NSet.del d.strikes.slice line } }
    match d.way? line with
    | none => d
    | some w =>
      if w.dirty then (((d.poisonLine line).count 0x609018 1).poisonOrigin 6 false (128 * line) (d.lineFacet line))
      else ((d.updHome line fun x => x.dropWay line).count 0x609010 1).corrected
  if !NSet.has d.strikes.dir line then d else
    let d := { d with strikes := { d.strikes with dir := NSet.del d.strikes.dir line } }
    let d := Dev.forEach d.cores (fun d e =>
      match e.2.l1? line with
      | none => d
      | some l =>
        let d := if decide (l.state = .modified) then d.allocWay line l.data true else d
        d.updCore e.1 fun k => k.l1Drop line) d
    ((d.updHome line fun x => x.dirClear line).count 0x609050 1).corrected

/-- Open fills of a slice. -/
def Slice.openFills (x : Slice) : Nat := countIf (fun t => t.fill) x.txns
/-- Request entries in use (R150): the open transactions of requests, and those that wait behind one. -/
def Slice.entries (x : Slice) : Nat := countIf (fun t => decide (t.req.kind ≠ .evictDir)) x.txns + x.waiting.length
/-- Every miss register holds a line (R139). -/
def Slice.missesFull (x : Slice) : Bool := x.missMode && decide (64 ≤ x.openFills)

/-- What a request finds at its home: it joins a fill that it can share, opens a transaction, waits in an entry behind its line's
transaction, or waits in the request channel (R138, R139, R141, R150). -/
inductive Arrival where
  | join | open | wait | channel
  deriving DecidableEq

/-- The request would miss at once, with no copy to snoop first. -/
def Dev.wouldMiss (d : Dev) (r : Request) : Bool :=
  (d.way? r.line).isNone && !d.linePoisoned r.line && d.needsData r d.cache.pinCap.toNat && (d.snoopsOf r).1.isEmpty

/-- `x` is the slice with the requests ahead of this one. -/
def Dev.arrival (d : Dev) (x : Slice) (r : Request) : Arrival :=
  let full := decide (256 ≤ x.entries)
  if x.hold || x.channel.any (fun w => decide (w.line = r.line)) then .channel
  else
    match x.txn? r.line with
    | some t =>
      if x.waiting.any (fun w => decide (w.line = r.line)) then (if full then .channel else .wait)
      else if t.fill && t.req.kind.shares && r.kind.shares && 
          (!d.takesEntry r || (t.req :: t.joined).any d.takesEntry || decide (d.setUse r.line < 16)) then
        if !x.missMode || decide (t.joined.length < 15) then .join else .channel
      else if full then .channel else .wait
    | none =>
      if x.waiting.any (fun w => decide (w.line = r.line)) then (if full then .channel else .wait)
      else if full || (x.missesFull && d.wouldMiss r) then .channel else .open

/-- A line is being read from memory; its read is over. -/
def Dev.reading (d : Dev) (line : Nat) : Bool := d.reads.any fun r => decide (r.line = line)
def Dev.dropRead (d : Dev) (line : Nat) : Dev := { d with reads := eraseFirst (fun r => decide (r.line = line)) d.reads }

/-- Every snoop of a transaction is answered: the request acts, or starts its fill where a miss register is free. The second answer says
that the transaction is over. -/
def Dev.advance (d : Dev) (line : Nat) : Dev × Bool :=
  match d.txn? line with
  | none => (d, false)
  | some t =>
    if !t.snoops.isEmpty || t.fill || t.room.isSome then (d, false)
    else
      match d.proceed t.req t.cap false with
      | (d, true) => (d, true)
      | (d, false) =>
        if (d.slice (d.homeSlice line)).missesFull then
          (d.updHome line fun x => x.updTxn line fun t => { t with stalled := true }, false)
        else
          let d := (d.countMiss t.req).updHome line fun x => x.updTxn line fun t => { t with fill := true, stalled := false }
          ({ d with reads := d.reads ++ [{ line := line, passed := 0 }] }, false)

/-- Sends an open transaction's snoops, or waits for a message of the requester that is on its way. -/
def Dev.sendSnoops (d : Dev) (line : Nat) : Dev :=
  match d.txn? line with
  | none => d
  | some t =>
    let r := t.req
    if d.linePoisoned line && !(decide (r.kind = .wrNc) && r.poison) then d
    else if d.leaving r then d.updHome line fun x => x.updTxn line fun t => { t with snoops := [r.agent], own := true }
    else
      let (targets, kind) := d.snoopsOf r
      let r := if decide (r.kind = .cctl) && decide (r.op = 0) && !targets.isEmpty then { r with bytes := [(0, 0)] } else r
      let d := d.updHome line fun x => x.updTxn line fun t => { t with req := r, snoops := targets }
      Dev.forEach targets (fun d c => d.post (mkMsg kind c line)) d

def Txn.new (r : Request) (cap : Nat) : Txn :=
  { req := r, cap := cap, room := none, snoops := [], own := false, fill := false, stalled := false, joined := [], acks := [] }

/-- A transaction's snoops go out and it goes on where there are none. The answer names it where it is over. -/
def Dev.launchTxn (d : Dev) (line : Nat) : List Nat × Dev :=
  match (d.sendSnoops line).advance line with
  | (d, true) => ([line], d)
  | (d, false) => ([], d)

/-- Starts an open transaction: a grant that finds its directory set full first evicts the least recently used entry that has no
transaction, in one of its own, or waits for the oldest entry's (R144). The answer is the lines whose transactions are over. -/
def Dev.startTxn (d : Dev) (line : Nat) : List Nat × Dev :=
  match d.txn? line with
  | none => ([], d)
  | some t =>
    if d.takesEntry t.req && decide (16 < d.setUse line) then
      let old := d.setOldest line
      let wait (v : Nat) (d : Dev) : Dev := d.updHome line fun x => x.updTxn line fun t => { t with room := some v }
      match old.find? fun e => (d.txn? e.line).isNone with
      | some e =>
        let r := { mkReq .evictDir agentGaffer 0 7 e.line with stream := true }
        let d := (wait e.line d).count (sliceReg (d.homeSlice line) 0x38) 1
        (d.updHome line fun x => { x with txns := x.txns ++ [Txn.new r 0] }).launchTxn e.line
      | none =>
        match old.head? with
        | some e => ([], wait e.line d)
        | none => d.launchTxn line
    else d.launchTxn line

/-- Opens a transaction for a request (R150). -/
def Dev.openTxn (d : Dev) (r : Request) : List Nat × Dev :=
  let d := (d.homeParity r.line).countAccess r
  (d.updHome r.line fun x => { x with txns := x.txns ++ [Txn.new r d.cache.pinCap.toNat] }).startTxn r.line

/-- The requests of a slice that stand first for their line, with the requests that are ahead of each taken into account. -/
def Slice.firsts (x : Slice) : List (Request × Bool) :=
  ((x.waiting.map fun r => (r, true)) ++ (x.channel.map fun r => (r, false))).foldl (fun acc e =>
    if acc.any fun v => decide (v.1.line = e.1.line) then acc else acc ++ [e]) []

/-- The slice without a request that waits in it. -/
def Slice.without (x : Slice) (r : Request) (entry : Bool) : Slice :=
  if entry then { x with waiting := eraseFirst (fun w => decide (w = r)) x.waiting }
  else { x with channel := eraseFirst (fun w => decide (w = r)) x.channel }

/-- Ends transactions and serves what waited for them, for a register, an entry or the end of a hold, in arrival order. -/
def Dev.serve (n : Nat) : Nat → List Nat → Dev → Dev
  | 0, _, d => d
  | fuel + 1, line :: ended, d =>
    let d := (d.dropRead line).updSlice n fun x => x.dropTxn line
    match ((d.slice n).txns.find? fun t => decide (t.room = some line)).map fun t => t.req.line with
    | none => Dev.serve n fuel ended d
    | some w =>
      let (more, d) := (d.updSlice n fun x => x.updTxn w fun t => { t with room := none }).startTxn w
      Dev.serve n fuel (more ++ ended) d
  | fuel + 1, [], d =>
    let x := d.slice n
    match (if x.missesFull then none else x.txns.find? fun t => t.stalled) with
    | some t =>
      match d.advance t.req.line with
      | (d, true) => Dev.serve n fuel [t.req.line] d
      | (d, false) => Dev.serve n fuel [] d
    | none =>
      let go (e : Request × Bool) : Bool :=
        match d.arrival (x.without e.1 e.2) e.1 with
        | .open | .join => true
        | .wait => !e.2
        | .channel => false
      match x.firsts.find? go with
      | none => d
      | some (r, entry) =>
        let y := x.without r entry
        let d := d.setSlice n y
        match d.arrival y r with
        | .open => let (ended, d) := d.openTxn r; Dev.serve n fuel ended d
        | .join =>
          Dev.serve n fuel [] (((d.countAccess r).countMiss r).updHome r.line fun x =>
            x.updTxn r.line fun t => { t with joined := t.joined ++ [r] })
        | .wait => Dev.serve n fuel [] (d.updSlice n fun x => { x with waiting := x.waiting ++ [r] })
        | .channel => d

def serveFuel : Nat := 2048

/-- A request arrives at its home (R150). -/
def Dev.arriveHome (d : Dev) (r : Request) : Dev :=
  let n := d.homeSlice r.line
  Dev.serve n serveFuel [] (d.updSlice n fun x => { x with channel := x.channel ++ [r] })

/-- Closes a line's transaction and serves what waited. -/
def Dev.closeTxn (d : Dev) (line : Nat) : Dev := Dev.serve (d.homeSlice line) serveFuel [line] d

/-- A transaction whose snoops may all be answered goes on. -/
def Dev.snoopsDone (d : Dev) (line : Nat) : Dev :=
  match d.advance line with
  | (d, true) => d.closeTxn line
  | (d, false) => d

/-- Completions of one kind with the same data become one multicast to their cores (R138, R173). -/
def fuse : List Msg → List Msg
  | [] => []
  | m :: rest =>
    let rest := fuse rest
    match rest.find? fun v => decide (v.kind = m.kind) && decide (v.data = m.data) && decide (v.poison = m.poison) &&
        decide (v.status = m.status) && decide (m.agent < 2048) && decide (v.agent < 2048) with
    | none => m :: rest
    | some v => { m with also := v.dests } :: eraseFirst (fun w => decide (w.id = v.id)) rest

/-! ### The memories' answers (R187, R203, R208) -/

/-- The controller has checked a line that a fill reads; it reads once more after a failed CRC, which an error beyond on-die ECC is too
(R187, R203). -/
def Dev.hbmChecked (d : Dev) (line : Nat) (first second : ReadCheck) : Dev :=
  let n := d.lineStack line
  let d := d.dropRead line
  let corr (c : ReadCheck) (d : Dev) : Dev := if c = .corrected then (d.count (stackCounter n 0x30) 1).corrected else d
  if NSet.has d.memPoison line then d
  else if first ≠ .failed then corr first d
  else if second ≠ .failed then corr second (d.count (stackCounter n 0x20) 1).corrected
  else ((d.poisonLine line).count (stackCounter n 0x28) 1).poisonOrigin 1 false (128 * line) (d.lineFacet line)

/-- The memory device has answered a fill's read after a number of link retries, poisoned or not (R208, R214). -/
def Dev.farChecked (d : Dev) (line : Nat) (answer : FarAnswer) : Dev :=
  let p := lineFarPort line
  let d := (d.dropRead line).count (farCounter p 0x10) answer.retries
  if d.linePoisoned line then d
  else if answer.poisoned then ((d.poisonLine line).count (farCounter p 0x18) 1).poisonOrigin 9 false (128 * line) (d.lineFacet line)
  else if answer.retries = 0 then d else d.corrected

/-- A whole access's read is checked with the failure that stands at its line (R423). -/
def Dev.memChecked (d : Dev) (line : Nat) : Dev :=
  if !d.reading line then d
  else if lineIsFar line then
    let bad := NSet.has d.strikes.far line
    let d := { d with strikes := { d.strikes with far := NSet.del d.strikes.far line } }
    d.farChecked line { poisoned := bad, retries := 0 }
  else
    let bad := Tab.get 0 d.strikes.hbm line
    let d := { d with strikes := { d.strikes with hbm := Tab.erase d.strikes.hbm line } }
    d.hbmChecked line (if bad = 0 then .good else if bad = 1 then .corrected else .failed) (if bad = 3 then .failed else .good)

/-- A memory fill returns and is sent to the requester and to every joined one (R138, R139): with several shared readers, each
takes a shared copy. In multicast mode it goes out once; in miss-register mode to each in the order in which they joined. -/
def Dev.fillDone (d : Dev) (line : Nat) : Dev :=
  match d.txn? line with
  | none => d
  | some t =>
    if !t.fill then d
    else
      let d := (d.memChecked line).countRead line
      let all := t.req :: t.joined
      let readers := all.filter fun r => decide (r.kind = .rdS)
      let before := d.net.length
      let d := Dev.forEach all (fun d r =>
        if decide (r.kind = .rdS) && decide (2 ≤ readers.length) && !d.linePoisoned line then
          let data := d.homeData line
          let d := if (d.way? line).isSome || d.streaming r then d else d.allocWay line data false
          (d.grantSharer line r.agent).complete .cmpS r data false 0
        else (d.proceed r t.cap true).1) d
      let d := if (d.slice (d.homeSlice line)).missMode then d else { d with net := d.net.take before ++ fuse (d.net.drop before) }
      d.closeTxn line

/-! ## Requests on their way to the home (R145, R171) -/

/-- A request enters the fabric. -/
def Dev.postReq (d : Dev) (r : Request) : Dev := d.post { mkMsg .request r.agent r.line with req := some r }

/-- The request of an agent for a line is taken at its home, once it stands there. -/
def Dev.takeReq (d : Dev) (agent line : Nat) : Dev :=
  match d.takeMsg .request agent line with
  | (none, d) => d
  | (some m, d) =>
    match m.req with
    | some r => d.arriveHome { r with tag := m.tag }
    | none => d

/-- An agent's request goes to its home. -/
def Dev.request (d : Dev) (r : Request) : Dev := (d.postReq r).takeReq r.agent r.line

/-! ## The home timeout (R151) -/

/-- What a timed-out request is completed with (R151); its tag is abandoned (R172). -/
def Dev.timeoutReply (d : Dev) (r : Request) : Dev :=
  let d := d.abandonTag r.tag
  let r := { r with tag := none }
  match r.kind with
  | .rdS | .rdU | .rdNc | .atom => d.complete .cmpNc r (d.memLine r.line) true 0x620
  | .own | .upg | .wrNc | .cctl => d.complete .cmpAck r [] false 0x620
  | .pref | .evictDir => d

/-- HOME_TIMEOUT: a transaction still waits for a snoop response or a fill: its line becomes P, its requesters are completed, and the
glint goes to the owning facet and to facet 0. -/
def Dev.homeTimeout (d : Dev) (line : Nat) : Dev :=
  match d.txn? line with
  | none => d
  | some t =>
    let n := d.homeSlice line
    let owner := d.lineFacet line
    let d := (d.poisonLine line).count (sliceReg n 0x28) 1
    let d := if t.fill then d.updSlice n fun x => { x with lateFills := x.lateFills ++ [line] } else d
    let d := Dev.forEach (t.req :: t.joined) (fun d r => d.timeoutReply r) d
    let d := d.glint owner 0x601 n (128 * line) 0
    let d := if owner = 0 then d else d.glint 0 0x601 n (128 * line) 0
    d.closeTxn line

/-! ## The L1 (R147, R149) -/

/-- The core has a completion for the line on its way, so a snoop waits for it (R149). -/
def Dev.grantComing (d : Dev) (c line : Nat) : Bool :=
  d.net.any fun m => m.sendsTo c && decide (m.line = line) && m.kind.isCompletion && !decide (m.kind = .cmpAck)

/-- An L1 answers a snoop (R147): the response, and the state that follows. -/
def Dev.answerSnoop (d : Dev) (kind : MsgKind) (c line : Nat) : Dev :=
  match (d.core c).l1? line with
  | none => d.post (mkMsg .rspAck c line)
  | some l =>
    let reply := if decide (l.state = .modified) && !decide (kind = .snpDrop)
      then { mkMsg .rspData c line with data := l.data } else mkMsg .rspAck c line
    let d := if decide (kind = .snpDown)
      then d.updCore c fun k => k.l1Set line fun l => { l with state := .shared } else d.updCore c fun k => k.l1Drop line
    d.post reply

def snoopCode : MsgKind → Nat
  | .snpInv => 0 | .snpDown => 1 | _ => 2
def snoopOfCode (n : Nat) : MsgKind := if n = 0 then .snpInv else if n = 1 then .snpDown else .snpDrop

/-- A snoop arrives at an L1: held while the completion of the core's own request is on its way, else answered at once, so that the S copy
of a core whose UPG is still on its way goes (R149). Log 41, DEDUCED. -/
def Dev.snoop (d : Dev) (kind : MsgKind) (c line : Nat) : Dev :=
  match d.takeMsg kind c line with
  | (none, d) => d
  | (some _, d) =>
    if (d.core c).reqs.any (fun q => decide (q.1 = line)) && d.grantComing c line then
      d.updCore c fun k => { k with heldSnoops := k.heldSnoops ++ [(line, snoopCode kind)] }
    else d.answerSnoop kind c line

/-- Makes room in an L1 set by evicting its least recently used line: WB with data, EVC without (R119, R147). -/
def Dev.l1Evict (d : Dev) (c line : Nat) : Dev :=
  let k := d.core c
  let sets := shareSets k.split
  if sets = 0 then d
  else
    let set := k.l1.filter fun l => decide (l.line % sets = line % sets)
    if decide (set.length < 8) then d
    else
      match set.getLast? with
      | none => d
      | some v =>
        let d := d.updCore c fun k => k.l1Drop v.line
        if decide (v.state = .modified) then
          (d.updCore c fun k => { k with wbuf := k.wbuf ++ [(v.line, v.data)] }).post { mkMsg .wb c v.line with data := v.data }
        else d.post (mkMsg .evc c v.line)

/-- The own request of a core for a line is over: the snoops held for it are answered (R149). -/
def Dev.requestOver (d : Dev) (c line : Nat) : Dev :=
  let held := ((d.core c).heldSnoops.filter fun h => decide (h.1 = line)).map Prod.snd
  let d := d.updCore c fun k =>
    { k with reqs := eraseFirst (fun q => decide (q.1 = line)) k.reqs, heldSnoops := k.heldSnoops.filter fun h => decide (h.1 ≠ line) }
  Dev.forEach held (fun d n => d.answerSnoop (snoopOfCode n) c line) d

/-- A grant arrives at an L1 (R147): the line is installed and held snoops are applied to it. -/
def Dev.grantArrives (d : Dev) (kind : MsgKind) (c line : Nat) : Dev :=
  match d.takeMsg kind c line with
  | (none, d) => d
  | (some m, d) =>
    let had := (d.core c).l1? line
    let data := if m.data.isEmpty then (had.map L1Line.data).getD (leBytes 128 0) else m.data
    let state : L1State := match kind with
      | .cmpS => .shared | .cmpE => .exclusive | _ => .modified
    let d := if had.isSome then d else d.l1Evict c line
    (d.updCore c fun k => k.l1Put { line := line, state := state, data := data }).requestOver c line

/-- Data without a grant, or an acknowledgement, arrives at its agent (R145, R147). -/
def Dev.ackArrives (d : Dev) (kind : MsgKind) (agent line : Nat) : Dev :=
  match d.takeMsg kind agent line with
  | (none, d) => d
  | (some _, d) =>
    if 2048 ≤ agent then d
    else if decide (kind = .cmpAck) && (d.core agent).wbuf.any (fun w => decide (w.1 = line)) then
      d.updCore agent fun k => { k with wbuf := eraseFirst (fun w => decide (w.1 = line)) k.wbuf }
    else d.requestOver agent line

/-! ## Responses and write-backs at the home (R148, R149) -/

/-- The snoop kind of an open transaction: what its answer does to the directory. -/
def Dev.answered (d : Dev) (t : Txn) (c line : Nat) : Dev :=
  let down := match t.req.kind with
    | .rdS | .rdNc => true
    | .cctl => decide (t.req.op = 3)
    | _ => false
  if down && !t.own then d.updHome line fun x => x.dirDown line else d.updHome line fun x => x.dirRemove line c

/-- Takes one snooped core off a transaction. -/
def Dev.snoopAnswered (d : Dev) (t : Txn) (c line : Nat) : Dev :=
  let d := d.answered t c line
  (d.updHome line fun x => x.updTxn line fun t =>
    { t with snoops := t.snoops.filter fun v => decide (v ≠ c), own := false, acks := t.acks.filter fun v => decide (v ≠ c) }).snoopsDone
      line

/-- A requester's own WB or EVC that its transaction waited for has come: the transaction starts anew. -/
def Dev.ownCame (d : Dev) (line : Nat) : Dev :=
  let (ended, d) := (d.updHome line fun x => x.updTxn line fun t => { t with snoops := [], own := false }).launchTxn line
  Dev.serve (d.homeSlice line) serveFuel ended d

/-- RSP_ACK at the home: late ones are discarded and counted (R151); one whose WB is on its way waits for it (R149). -/
def Dev.rspAckArrives (d : Dev) (c line : Nat) : Dev :=
  match d.takeMsg .rspAck c line with
  | (none, d) => d
  | (some _, d) =>
    let late := d.count (sliceReg (d.homeSlice line) 0x30) 1
    match d.txn? line with
    | none => late
    | some t =>
      if t.own || !t.snoops.contains c then late
      else if t.acks.contains c then (d.post (mkMsg .cmpAck c line)).snoopAnswered t c line
      else if d.net.any (fun m => m.isFor .wb c line) then
        d.updHome line fun x => x.updTxn line fun t => { t with acks := t.acks ++ [c] }
      else d.snoopAnswered t c line

/-- RSP_DATA at the home: the modified line is merged into the slice copy (R148). -/
def Dev.rspDataArrives (d : Dev) (c line : Nat) : Dev :=
  match d.takeMsg .rspData c line with
  | (none, d) => d
  | (some m, d) =>
    let late := d.count (sliceReg (d.homeSlice line) 0x30) 1
    match d.txn? line with
    | none => late
    | some t =>
      if t.own || !t.snoops.contains c then late
      else
        let d := if m.poison then d.poisonLine line else if NSet.has d.memPoison line then d else d.allocWay line m.data true
        d.snoopAnswered t c line

/-- WB at the home (R130, R148, R149): merged into the slice, or for a stream region of the core written to memory. The data of one that
finds its line in P goes (R152; log 41, DEDUCED). -/
def Dev.wbArrives (d : Dev) (c line : Nat) : Dev :=
  match d.takeMsg .wb c line with
  | (none, d) => d
  | (some m, d) =>
    let merge (d : Dev) : Dev :=
      if m.poison then d.poisonLine line
      else if NSet.has d.memPoison line then d
      else d.allocWay line m.data true
    let ack (d : Dev) : Dev := d.post (mkMsg .cmpAck c line)
    let stream := !m.poison && !NSet.has d.memPoison line && (d.way? line).isNone &&
      (d.slice (d.homeSlice line)).isStream c line
    match d.txn? line with
    | none =>
      let d := d.updHome line fun x => x.dirRemove line c
      if stream then d.writeThrough c line none m.data false else ack (merge d)
    | some t =>
      if !t.snoops.contains c then ack ((merge d).updHome line fun x => x.dirRemove line c)
      else if t.own then (ack ((merge d).updHome line fun x => x.dirRemove line c)).ownCame line
      else if t.acks.contains c then (ack (merge d)).snoopAnswered t c line
      else (merge d).updHome line fun x => x.updTxn line fun t => { t with acks := t.acks ++ [c] }

/-- EVC at the home: the sharer or clean owner is removed (R148). -/
def Dev.evcArrives (d : Dev) (c line : Nat) : Dev :=
  match d.takeMsg .evc c line with
  | (none, d) => d
  | (some _, d) =>
    let d := d.updHome line fun x => x.dirRemove line c
    match d.txn? line with
    | some t => if t.own && t.snoops.contains c then d.ownCame line else d
    | none => d

/-! ## Whole accesses (log 13, DESIGN CHOICE) -/

/-- Takes one message that stands at its destination. -/
def Dev.deliver (d : Dev) (m : Msg) : Dev :=
  match m.kind with
  | .request => d.takeReq m.agent m.line
  | .snpInv | .snpDown | .snpDrop => d.snoop m.kind m.agent m.line
  | .rspAck => d.rspAckArrives m.agent m.line
  | .rspData => d.rspDataArrives m.agent m.line
  | .wb => d.wbArrives m.agent m.line
  | .evc => d.evcArrives m.agent m.line
  | .cmpS | .cmpE | .cmpM | .cmpOwn => d.grantArrives m.kind m.agent m.line
  | .cmpNc | .cmpAck => d.ackArrives m.kind m.agent m.line

/-- The line of the directory eviction that a line's transaction waits for. -/
def Dev.roomOf (d : Dev) (line : Nat) : Option Nat := (d.txn? line).bind Txn.room

/-- The line is at rest but for the completions of one agent: brings every message, fill and directory eviction that concerns it to its
end. -/
def Dev.pump (keep : Option Nat) (line : Nat) : Nat → Dev → Dev
  | 0, d => d
  | fuel + 1, d =>
    let lines := line :: (d.roomOf line).toList
    let d := Dev.forEach lines Dev.land d
    match d.net.find? fun m => lines.contains m.line && !(m.kind.isCompletion && decide (some m.agent = keep) && decide (m.line = line)) with
    | some m => Dev.pump keep line fuel (d.deliver m)
    | none =>
      match lines.find? fun l => ((d.txn? l).map Txn.fill).getD false with
      | some l => Dev.pump keep line fuel (d.fillDone l)
      | none => d

def pumpFuel : Nat := 4096

/-- Ends a mode change of the line's slice whose open fills are done (R141). -/
def Dev.endHold (d : Dev) (n : Nat) : Dev :=
  let x := d.slice n
  if x.hold && decide (x.openFills = 0) then
    Dev.serve n serveFuel [] (d.updSlice n fun x => { x with missMode := x.nextMode, cause := x.nextCause, hold := false })
  else d

/-- Brings a line to rest: every message, fill and mode change that concerns it is done. -/
def Dev.settle (d : Dev) (line : Nat) : Dev :=
  Dev.pump none line pumpFuel ((Dev.pump none line pumpFuel d).endHold (d.homeSlice line))

/-- Requests of a slice wait in its channel for something that other lines hold. -/
def Slice.blocked (x : Slice) : Bool := x.hold || x.missesFull || decide (256 ≤ x.entries) || !x.channel.isEmpty

/-- Brings a slice's other transactions to their ends, so that a whole access finds an entry, a register and no hold (R139, R141, R150);
one that waits for a lost message ends by the home timeout. -/
def Dev.freeSlice (n : Nat) : Nat → Dev → Dev
  | 0, d => d
  | fuel + 1, d =>
    if !(d.slice n).blocked then d
    else
      let d := Dev.forEach ((d.slice n).txns.map fun t => t.req.line) (fun d l =>
        let d := d.settle l
        if (d.txn? l).isSome then (d.homeTimeout l).settle l else d) d
      Dev.freeSlice n fuel (d.endHold n)

/-- A far write that waits for the memory device is acknowledged (R217). -/
def Dev.farWriteDone (d : Dev) (line : Nat) : Dev :=
  if !lineIsFar line then d
  else
    let p := lineFarPort line
    match (d.farPort p).writes.find? fun w => decide (w.line = line) with
    | none => d
    | some w =>
      (d.updFarPort p fun q => { q with writes := eraseFirst (fun w => decide (w.line = line)) q.writes }).post
        { mkMsg .cmpAck w.agent line with tag := w.tag }

/-- The completion for an agent's line on the network. -/
def Dev.answer? (d : Dev) (agent line : Nat) : Option Msg :=
  d.net.find? fun m => decide (m.agent = agent) && decide (m.line = line) && m.kind.isCompletion

/-- Waits for an agent's completion: while messages are lost at a severed pair, home timeouts end what waits for them. -/
def Dev.await (agent line : Nat) : Nat → Dev → Dev
  | 0, d => d
  | fuel + 1, d =>
    let d := Dev.pump (some agent) line pumpFuel ((Dev.pump (some agent) line pumpFuel d).farWriteDone line)
    if (d.answer? agent line).isSome || (d.txn? line).isNone then d else Dev.await agent line fuel (d.homeTimeout line)

/-- A whole request of an agent without a cache: the completion it gets (data, poison, status). One whose completion was lost is
abandoned by its router (R163, R172). -/
def Dev.access (d : Dev) (r : Request) : Msg × Dev :=
  let d := Dev.freeSlice (d.homeSlice r.line) 64 (d.settle r.line)
  let d := Dev.await r.agent r.line 4 (d.postReq r)
  let d := if (d.answer? r.agent r.line).isSome || decide (r.kind = .pref) then d
    else
      let mine (p : PairPort) : Option Tag := p.tags.find? fun t => t.busy && decide (t.agent = r.agent) && decide (t.line = r.line)
      let d := match (d.crossing r.agent r.line).bind fun n => (mine (d.port n)).map fun t => (n, t) with
        | some (n, t) => d.abandonTag (some { port := n, side := t.side, index := t.index, gen := t.gen })
        | none => d
      d.routerReply r.agent r.line r.kind.wantsData
  match d.answer? r.agent r.line with
  | some m => (m, d.dropMsg m.id)
  | none => (mkMsg .cmpAck r.agent r.line, d)

/-- A whole request of an L1: the grant is installed, and the victim's message delivered. -/
def Dev.l1Request (d : Dev) (kind : ReqKind) (c facet cls line : Nat) : Msg × Dev :=
  let d := d.updCore c fun k => { k with reqs := k.reqs ++ [(line, kind)] }
  let (m, d) := d.access (mkReq kind c facet cls line)
  let before := d.nextMsg
  let d := ({ d with net := d.net ++ [{ m with arrived := true }] } : Dev).deliver m
  let out := (d.net.filter fun v => decide (before ≤ v.id) && decide (v.agent = c) && (decide (v.kind = .wb) || decide (v.kind = .evc))).map Msg.line
  (m, Dev.forEach out (fun d l => d.settle l) d)

/-- A parity error that a hit finds in the L1 (R423): a clean line is invalidated, to be refetched from its home; a modified one
is written back poisoned. -/
def Dev.l1Parity (d : Dev) (c line : Nat) : Dev :=
  if !d.strikes.l1.contains (c, line) then d else
    let d := { d with strikes := { d.strikes with l1 := d.strikes.l1.filter fun e => decide (e ≠ (c, line)) } }
    match (d.core c).l1? line with
    | none => d
    | some l =>
      let d := d.updCore c fun k => k.l1Drop line
      if decide (l.state = .modified) then
        let d := (d.count 0x609018 1).poisonOrigin 6 false (128 * line) (d.lineFacet line)
        (d.post { mkMsg .wb c line with data := l.data, poison := true }).settle line
      else (((d.count 0x609010 1).corrected).post (mkMsg .evc c line)).settle line

end Sys2Proof.Machine
end

