-- ==== Sys2Proof/Machine/Access.lean ====
section
/-! DEFINITION. A facet's address translation (R191, R194, R322, R176), whole reads and writes of virtual memory by agents without a cache (R216, R217), scrubbing a page (R196, R455), and the trace ring (R467). -/

namespace Sys2Proof.Machine

/-- The agent number of a DMA channel. -/
def agentDma (ch : Nat) : Nat := 2048 + ch

/-- Where a virtual address leads (R71, R176, R194, R322). -/
inductive Target where
  | device (pa cls : Nat) (ro : Bool)
  | bus (addr : Nat) (peer : Option Nat) (ro closed : Bool)
  /-- Beyond the SIZE of its BUS_MAP mapping: PROTECTION. -/
  | beyond
  /-- A reduction window: the group and the offset in it. -/
  | window (group offset : Nat)
  | unmapped

def BusMap.covers (m : BusMap) (va : Nat) : Bool := decide (m.va ≤ va) && decide (va < m.va + alignUp m.size pageBytes)

/-- The bytes of a group's window: N × P rounded up to 64 KiB (R176). -/
def RedGroup.windowBytes (g : RedGroup) : Nat := alignUp (g.n * g.payload) 65536
def RedGroup.covers (g : RedGroup) (va : Nat) : Bool := decide (g.window ≤ va) && decide (va < g.window + g.windowBytes)

/-- Where a facet's virtual address leads. A peer region is known by its base address plus its facet. -/
def Dev.translate (d : Dev) (f va : Nat) : Target :=
  let x := d.facet f
  match d.groups.find? fun g => decide (g.facet = f) && g.covers va with
  | some g => .window g.num (va - g.window)
  | none =>
    match x.pages.find? fun p => decide (p.va = va / pageBytes) with
    | some p => .device (p.frame * pageBytes + va % pageBytes) p.cls.toNat p.ro
    | none =>
      match x.buses.find? fun m => m.covers va with
      | some m =>
        if decide (m.size ≤ va - m.va) then .beyond
        else .bus (m.bus + (va - m.va)) (if m.peer then some (m.va + f) else none) m.ro m.closed
      | none => .unmapped

/-- Every byte of a range is device memory that the facet mapped with MEM_ALLOC. -/
def Dev.isDevice (d : Dev) (f va n : Nat) : Bool :=
  (List.range (n / pageBytes + 2)).all fun i =>
    let a := va + i * pageBytes
    let a := if decide (a < va + n) then a else va + n - 1
    match d.translate f a with
    | .device .. => true
    | _ => false

/-- The whole 2 MiB pages of a range that are mapped at all. -/
def Facet.mapsAny (x : Facet) (va n : Nat) : Bool :=
  x.pages.any (fun p => decide (p.va * pageBytes < va + n) && decide (va < (p.va + 1) * pageBytes)) ||
  x.buses.any (fun m => decide (m.va < va + n) && decide (va < m.va + alignUp m.size pageBytes))

/-- A range overlaps a mapping of the facet, its reduction windows included. -/
def Dev.overlapsMapping (d : Dev) (f va n : Nat) : Bool :=
  (d.facet f).mapsAny va n ||
  d.groups.any fun g => decide (g.facet = f) && decide (g.window < va + n) && decide (va < g.window + g.windowBytes)

/-- The pieces of a range that lie in single lines: address and length. -/
def lineChunks (a n : Nat) : List (Nat × Nat) :=
  if n = 0 then []
  else (List.range ((a + n - 1) / 128 + 1 - a / 128)).map fun i =>
    let lo := max a (128 * (a / 128 + i))
    (lo, min (a + n) (128 * (a / 128 + i + 1)) - lo)

/-- What a read gives. -/
structure ReadResult where
  bytes  : List Byte
  poison : Bool
  /-- Every byte is mapped. Where one is not, no caller uses the bytes. -/
  ok     : Bool

/-- A read within one line by an agent without a cache. -/
def Dev.vreadChunk (d : Dev) (agent f : Nat) (stream : Bool) (cls : Option Nat) (va n : Nat) : ReadResult × Dev :=
  match d.translate f va with
  | .device pa c _ =>
    let (m, d) := d.access { mkReq .rdNc agent f (cls.getD c) (pa / 128) with stream := stream }
    ({ bytes := (m.data.drop (pa % 128)).take n, poison := m.poison, ok := true }, d)
  | .bus a _ _ closed =>
    if closed then let (bs, d) := d.lostBytes n; ({ bytes := bs, poison := true, ok := true }, d)
    else let ((bs, p), d) := d.hostRead f a n; ({ bytes := bs, poison := p, ok := true }, d)
  | _ => ({ bytes := leBytes n 0, poison := false, ok := false }, d)

/-- A read of a virtual range. -/
def Dev.vread (d : Dev) (agent f : Nat) (stream : Bool) (cls : Option Nat) (va n : Nat) : ReadResult × Dev :=
  (lineChunks va n).foldl (fun (acc : ReadResult × Dev) c =>
    let (r, d) := acc.2.vreadChunk agent f stream cls c.1 c.2
    ({ bytes := acc.1.bytes ++ r.bytes, poison := acc.1.poison || r.poison, ok := acc.1.ok && r.ok }, d))
    ({ bytes := [], poison := false, ok := true }, d)

/-- The gaffer reads a facet's memory. -/
def Dev.gread (d : Dev) (f va n : Nat) : ReadResult × Dev := d.vread agentGaffer f false none va n

/-- A write of device memory at its home (WR_NC), by physical address within one line; the status of its completion. -/
def Dev.writeHome (d : Dev) (agent f cls : Nat) (stream : Bool) (pa : Nat) (bs : List Byte) (poison : Bool) : Code × Dev :=
  let cells := (List.range bs.length).zip bs |>.map fun e => (pa % 128 + e.1, e.2)
  let (m, d) := d.access { mkReq .wrNc agent f cls (pa / 128) with bytes := cells, poison := poison, stream := stream }
  (m.status, d)

/-- A write within one line by an agent without a cache; false where it is not permitted. -/
def Dev.vwriteChunk (d : Dev) (agent f : Nat) (stream : Bool) (cls : Option Nat) (va : Nat) (bs : List Byte) (poison : Bool) :
    Bool × Dev :=
  match d.translate f va with
  | .device pa c ro => if ro then (false, d) else (true, (d.writeHome agent f (cls.getD c) stream pa bs poison).2)
  | .bus a _ ro closed => if ro then (false, d) else (true, if closed then d else d.hostWrite f a bs poison)
  | _ => (false, d)

def Dev.vwrite (d : Dev) (agent f : Nat) (stream : Bool) (cls : Option Nat) (va : Nat) (bs : List Byte) (poison : Bool) :
    Bool × Dev :=
  (lineChunks va bs.length).foldl (fun (acc : Bool × Dev) c =>
    let (ok, d) := acc.2.vwriteChunk agent f stream cls c.1 ((bs.drop (c.1 - va)).take c.2) poison
    (acc.1 && ok, d)) (true, d)

/-- The gaffer writes a facet's memory. -/
def Dev.gwrite (d : Dev) (f va : Nat) (bs : List Byte) : Dev := (d.vwrite agentGaffer f false none va bs false).2

/-- A command that read or wrote host memory through a link that is down is host-lost (R326). -/
def Dev.reaches (d : Dev) (f va : Nat) : Bool :=
  match d.translate f va with
  | .bus .. => d.mayTransmit f
  | _ => true

/-! ## Scrubbing (R196, R455) -/

/-- Discards every L1 and slice copy of a range of lines without write-back and zeroes it in memory, clearing poison. -/
def Dev.scrubLines (d : Dev) (lo n : Nat) : Dev :=
  let inside (l : Nat) : Bool := decide (lo ≤ l) && decide (l < lo + n)
  { d with
    cores := d.cores.map fun e =>
      (e.1, { e.2 with l1 := e.2.l1.filter (fun l => !inside l.line), wbuf := e.2.wbuf.filter (fun w => !inside w.1),
                       reqs := e.2.reqs.filter (fun q => !inside q.1),
                       heldSnoops := e.2.heldSnoops.filter fun h => !inside h.1 }),
    slices := d.slices.map fun e =>
      (e.1, { e.2 with ways := e.2.ways.filter (fun w => !inside w.line), dir := e.2.dir.filter (fun w => !inside w.line),
                       txns := e.2.txns.filter (fun t => !inside t.req.line),
                       waiting := e.2.waiting.filter (fun r => !inside r.line), channel := e.2.channel.filter (fun r => !inside r.line),
                       lateFills := e.2.lateFills.filter fun l => !inside l }),
    net := d.net.filter fun m => !inside m.line,
    reads := d.reads.filter fun r => !inside r.line,
    mem := Mem.clear d.mem (128 * lo) (128 * n),
    memPoison := NSet.clear d.memPoison lo n }

/-- Scrubs a 2 MiB frame; a far frame loses its mark when it is freed (R209). -/
def Dev.scrubFrame (d : Dev) (frame : Nat) : Dev :=
  let d := d.scrubLines (frame * pageLines) pageLines
  if lineIsFar (frame * pageLines) then
    d.updFarPort (lineFarPort (frame * pageLines)) fun p => { p with marked := NSet.del p.marked (lineFarFrame (frame * pageLines)) }
  else d

/-- Brings every line of a page to memory, so that its bytes can be taken as they stand: L1 and slice copies stay valid. -/
def Dev.flushPage (d : Dev) (f frame : Nat) : Dev :=
  Dev.forEach (List.range pageLines) (fun d i =>
    (d.access { mkReq .cctl agentGaffer f 7 (frame * pageLines + i) with op := 3 }).2) d

/-! ## The trace ring (R467; log 19, DESIGN CHOICE) -/

/-- A trace record, while OBSERVE or a higher level runs the ring: VERSION, KIND, SUBJECT, VALUE and SEQ. -/
def Dev.trace (d : Dev) (kind subject value : Nat) : Dev :=
  match d.security.trace with
  | none => d
  | some (va, log2) =>
    if d.security.debug = 0 then d
    else
      let seq := d.security.traceSeq + 1
      let d := d.updSecurity fun x => { x with traceSeq := seq }
      d.gwrite 0 (va + 32 * ((seq - 1) % 2 ^ log2))
        ([1, Config.traceKind kind] ++ leBytes 6 0 ++ leBytes 8 subject ++ leBytes 8 value ++ leBytes 8 seq)

end Sys2Proof.Machine
end

