-- ==== Sys2Proof/Machine/Mailbox.lean ====
section
/-! DEFINITION. The gaffer mailbox: the buffer's header, the checks of R307, and the one operation that runs a command's own rule and completes it (R303 to R307, R457, R458, R460, R522). -/

namespace Sys2Proof.Machine

/-- The valid request lengths of a command code under interface version 0x0100 (R522); none for a code that is not defined.
MODEL_REGISTER's depends on its SOURCES field. -/
def requestLengths (code : Nat) : List Nat :=
  match code with
  | 0x0001 => [24] | 0x0002 => [16] | 0x0003 => [8]
  | 0x0100 => [8] | 0x0101 => [8] | 0x0102 => [8]
  | 0x0200 => [80, 96, 112] | 0x0201 => [8] | 0x0202 => [8] | 0x0203 => [8] | 0x0204 => [8]
  | 0x0300 => [32] | 0x0301 => [32] | 0x0302 => [16] | 0x0303 => [8] | 0x0304 => [8] | 0x0305 => [8] | 0x0306 => [8]
  | 0x0400 => [8] | 0x0401 => [8] | 0x0402 => [8] | 0x0403 => [8]
  | 0x0500 => [160] | 0x0501 => [8] | 0x0502 => [160] | 0x0503 => [8] | 0x0504 => [8] | 0x0505 => [8] | 0x0506 => [16]
  | 0x0507 => [176] | 0x0508 => [40] | 0x0509 => [8]
  | 0x0600 => [32] | 0x0601 => [24] | 0x0602 => [32] | 0x0603 => [8]
  | 0x0610 => [32] | 0x0611 => [16] | 0x0612 => [24] | 0x0613 => [16] | 0x0620 => [64] | 0x0621 => [16]
  | 0x0700 => [8] | 0x0701 => [8]
  | 0x0800 => [56] | 0x0801 => [16] | 0x0802 => [24] | 0x0803 => [8] | 0x0804 => [8] | 0x0805 => [24] | 0x0806 => [24]
  | 0x0807 => [8] | 0x0808 => [24] | 0x0809 => [32] | 0x080A => [8] | 0x080B => [24] | 0x080C => [24] | 0x080D => [32]
  | 0x080E => [16] | 0x080F => [56] | 0x0810 => [1616] | 0x0811 => [32] | 0x0812 => [16] | 0x0813 => [32]
  | _ => []

/-- The commands that only the manager may send (R457); FACET_QUERY's own rule judges its sender (R363), and POWER_STATUS is every facet's (R414). -/
def managerOnly (code : Nat) : Bool :=
  (decide (0x0300 ≤ code) && decide (code ≤ 0x0305)) || [0x0400, 0x0401, 0x0403].contains code ||
  (decide (0x0500 ≤ code) && decide (code ≤ 0x0508)) || decide (code = 0x0603) || decide (code = 0x0700) ||
  decide (code = 0x0701) ||
  (decide (0x0802 ≤ code) && decide (code ≤ 0x0813) && decide (code ≠ 0x080A))

/-- Read-only commands, which the journal does not record when they succeed (R458). -/
def readOnlyCommand (code : Nat) : Bool :=
  [0x0102, 0x0204, 0x0306, 0x0402, 0x0403, 0x0509, 0x0800, 0x0801, 0x080D].contains code

/-- The audit and attestation commands, which the audit limit does not refuse (R460). -/
def auditExempt (code : Nat) : Bool := [0x0800, 0x0801, 0x080D, 0x080E, 0x080F].contains code

/-- The commands that recovery mode accepts (R481). -/
def recoveryCommand (code : Nat) : Bool := [0x0001, 0x0801, 0x0800, 0x0802, 0x0803, 0x0700].contains code

/-- The header fields of the buffer (R305). -/
def Mailbox.version (m : Mailbox) : Nat := leNat (Mem.read m.buf 0 1)
def Mailbox.command (m : Mailbox) : Nat := leNat (Mem.read m.buf 2 2)
def Mailbox.length (m : Mailbox) : Nat := leNat (Mem.read m.buf 4 2)
/-- The request payload, of its LENGTH. -/
def Mailbox.payload (m : Mailbox) : List Byte := Mem.read m.buf 16 m.length

/-- The facet's state refuses new mailbox commands (R307, check 4). -/
def FacetState.quiet : FacetState → Bool
  | .quiescing | .quiesced | .frozen => true
  | .absent | .running | .resetting => false

/-- Checks 1 to 8 of R307, in order: the first that fails gives the status. Log 14, DEDUCED. -/
def Dev.mbxCheck (d : Dev) (fn : Nat) : Option Code :=
  let x := d.facet fn
  let m := x.mailbox
  let code := m.command
  if decide (x.state = .absent) then some 0x5
  else if decide (m.version ≠ 1) then some 0x2
  else if d.boot.recovery && !recoveryCommand code then some 0x1
  else if x.state.quiet then some 0x514
  else if decide (code ≠ 1) && !x.hello then some 0x100
  else if (requestLengths code).isEmpty then some 0x1
  else if managerOnly code && decide (fn ≠ 0) then some 0x5
  else if !(requestLengths code).contains m.length then some 0x4
  else if decide (code = 0x0200) && decide (m.length ≠ 64 + 16 * bits (leAt m.payload 1 1) 0 2) then some 0x4
  else none

/-- A refusal that the journal records (R458). -/
def journaledRefusal (st : Code) : Bool := decide (st = 0x5) || decide (st = 0x107) || decide (st.toNat / 256 = 8)

/-- The response: header and payload in the buffer, STATUS and DONE set, GO and BUSY clear, the vector sent (R305, R306). -/
def Dev.mbxAnswer (d : Dev) (fn : Nat) (st : Code) (payload : List Byte) : Dev :=
  let m := (d.facet fn).mailbox
  if m.discard then d.updFacet fn fun x => { x with mailbox := { x.mailbox with accepted := false, discard := false } }
  else
    let head := Mem.read m.buf 2 2
    let tag := Mem.read m.buf 8 8
    let buf := Mem.write [] 0 ([1, 0] ++ head ++ leBytes 2 payload.length ++ leBytes 2 st.toNat ++ tag ++ payload)
    let d := d.updFacet fn fun x =>
      { x with mailbox := { x.mailbox with buf := buf, status := st, done := true, go := false, busy := false,
                                           accepted := false } }
    if m.irqEn then d.msix fn m.vector.toNat else d

/-- A command completes as it is accepted: the round robin goes on from its function (R307). -/
def Dev.mbxRespond (d : Dev) (fn : Nat) (st : Code) (payload : List Byte) : Dev := { d.mbxAnswer fn st payload with mbxTurn := fn }

/-- A command that runs on is accepted. -/
def Dev.mbxAccept (d : Dev) (fn : Nat) : Dev :=
  { (d.updFacet fn fun x => { x with mailbox := { x.mailbox with accepted := true } }) with mbxTurn := fn }

/-- The bits of the request's digest that an audit entry carries; DRIVER_ID for HELLO (R459). -/
def Mailbox.auditDetail (m : Mailbox) : BitVec 64 :=
  if m.command = 1 then BitVec.ofNat 64 (leAt m.payload 16 8) else (Config.shake256 m.payload).setWidth 64

/-- Completes a command with a refusal, which changes nothing but the journal (R307, R458). -/
def Dev.mbxRefuse (d : Dev) (fn : Nat) (st : Code) (payload : List Byte) : Dev :=
  let m := (d.facet fn).mailbox
  let d := if journaledRefusal st then d.audit 5 fn false (BitVec.ofNat 16 m.command) st (BitVec.ofNat 64 fn) m.auditDetail else d
  d.mbxRespond fn st payload

/-- What a command's own rule answers: done with a response payload and the audit entry's subject; refused; an outcome that
is no refusal (FAR_RESCAN); or running on, to be completed by a later step. -/
inductive MbxResult where
  | ok (d : Dev) (payload : List Byte)
  | refuse (st : Code) (payload : List Byte)
  | outcome (d : Dev) (st : Code)
  | wait (d : Dev)

/-- The gaffer can take a mailbox command: booted, the package ON, and fewer than eight in execution (R307, R413, R479). -/
def Dev.gafferUp (d : Dev) : Bool :=
  decide (d.boot.step = 9) && decide (d.power.pkg = 0) && decide (countIf (fun e => e.2.mailbox.accepted) d.facets < 8)

/-- The function is the next, after the one served last, whose GO is set and whose command has not been accepted (R307). -/
def Dev.mbxNext (d : Dev) (fn : Nat) : Bool :=
  let waits (f : Nat) : Bool := (d.facet f).mailbox.go && !(d.facet f).mailbox.accepted
  ((List.range 64).map fun i => (d.mbxTurn + 1 + i) % 64).find? waits == some fn

/-- The status of a payload VERSION that is not 0x01: R13's, but the range check of R197 for the memory commands. Log 45, DEDUCED. -/
def badVersion (code : Nat) : Code := if 0x0600 ≤ code ∧ code ≤ 0x0602 then 0x3 else 0x2

/-- Runs a mailbox command of a function: the gaffer accepts the waiting request of this code, applies the checks of R307, the
payload's VERSION (R13) and the audit limit, records the entry before the change, and completes it. It accepts by round robin over the functions
(R307). A request whose code no firmware implements is refused by whichever row runs on its function. Where no such request waits, nothing happens
(log 1, DESIGN CHOICE).
`subject` is the audit entry's subject. Log 14, DEDUCED. -/
def Dev.mbxRun (d : Dev) (fn code : Nat) (subject : Dev → List Byte → Nat) (body : Dev → List Byte → MbxResult) : Dev :=
  let m := (d.facet fn).mailbox
  if !m.go || m.accepted || (decide (m.command ≠ code) && !(requestLengths m.command).isEmpty) || !d.gafferUp then d
  else if d.errors.fatal then if m.command = 1 then d.mbxRefuse fn 0x680 [] else d
  else if !d.mbxNext fn then d
  else
    match d.mbxCheck fn with
    | some st => d.mbxRefuse fn st []
    | none =>
      if decide (m.command ≠ code) then d
      else if decide (leAt m.payload 0 1 ≠ 1) then d.mbxRefuse fn (badVersion code) []
      else if d.security.nearFull && !readOnlyCommand code && !auditExempt code then d.mbxRefuse fn 0x809 []
      else
        let p := m.payload
        let entry (d : Dev) : Dev :=
          if readOnlyCommand code then d
          else d.audit 1 fn false (BitVec.ofNat 16 code) 0 (BitVec.ofNat 64 (subject d p)) m.auditDetail
        match body d p with
        | .refuse st payload => d.mbxRefuse fn st payload
        | .outcome d st => if decide (st = 0) then (entry d).mbxRespond fn st [] else d.mbxRefuse fn st []
        | .ok _ _ =>
          match body (entry d) p with
          | .ok d payload => d.mbxRespond fn 0 payload
          | .outcome d st => d.mbxRespond fn st []
          | .refuse st payload => (entry d).mbxRespond fn st payload
          | .wait d => d.mbxAccept fn
        | .wait _ =>
          match body (entry d) p with
          | .wait d => d.mbxAccept fn
          | .ok d payload => d.mbxRespond fn 0 payload
          | .outcome d st => d.mbxRespond fn st []
          | .refuse st payload => (entry d).mbxRespond fn st payload

/-- Completes a command that ran on. -/
def Dev.mbxFinish (d : Dev) (fn : Nat) (st : Code) (payload : List Byte) : Dev :=
  if (d.facet fn).mailbox.accepted then d.mbxAnswer fn st payload else d

/-- The subject of most entries: the acting facet. -/
def ofSender (fn : Nat) : Dev → List Byte → Nat := fun _ _ => fn
/-- The subject of a facet command: FACET in byte 1. -/
def ofFacetField : Dev → List Byte → Nat := fun _ p => bits (leAt p 1 1) 0 6

end Sys2Proof.Machine
end

