-- ==== Sys2Proof/Machine/Reduce.lean ====
section
/-! DEFINITION. In-network reduction (R174 to R184): contributions, the combining tree, rounds, phase points (R395), and the meanings of its commands and events. -/

namespace Sys2Proof.Machine

def Dev.group? (d : Dev) (num : Nat) : Option RedGroup := d.groups.find? fun g => decide (g.num = num)
def Dev.updGroup (d : Dev) (num : Nat) (f : RedGroup → RedGroup) : Dev :=
  { d with groups := updFirst (fun g => decide (g.num = num)) f d.groups }

/-- Levels of the tree: the least that holds N ranks (R177). -/
def RedGroup.top (g : RedGroup) : Nat := clog2 g.n
def RedGroup.lines (g : RedGroup) : Nat := g.payload / 128

/-- One element of a node with two values (R178). -/
def redWord (op : BitVec 2) (a b : Nat) : Nat :=
  match op.toNat with
  | 0 => (f32Add (BitVec.ofNat 32 a) (BitVec.ofNat 32 b)).toNat
  | 1 => bf16.pack ((bf16.decode a).add (bf16.decode b))
  | _ => (a + b) % 2 ^ 32

/-- Bytes as little-endian elements of n bytes. -/
def elements (n : Nat) (bs : List Byte) : List Nat := (List.range (bs.length / n)).map fun i => leAt bs (n * i) n

/-- Two payloads combined (R178): element by element, or the smallest k entries of both lists. -/
def redCombine (op : BitVec 2) (a b : List Byte) : List Byte :=
  if op = 3 then
    let all := sortBy (fun x y => decide (x ≤ y)) (elements 8 a ++ elements 8 b)
    ((all.take (a.length / 8)).map (leBytes 8)).flatten
  else
    let n := if op = 1 then 2 else 4
    ((elements n a).zip (elements n b) |>.map fun e => leBytes n (redWord op e.1 e.2)).flatten

/-- No rank lies below a position of a level: its leaf is empty (R177). -/
def RedGroup.emptyAt (g : RedGroup) (level pos : Nat) : Bool := decide (g.n ≤ pos * 2 ^ level)

def RedNode.at (v : RedNode) (line level pos place : Nat) : Bool :=
  decide (v.line = line) && decide (v.level = level) && decide (v.pos = pos) && decide (v.place = place)

/-- The lines that a node takes up in a buffer. -/
def RedNode.size (v : RedNode) : Nat := (v.data.length + 127) / 128

/-- The combining point to which a node goes on from another (R179): from a row hub to its router, from a router to the root's. -/
def RedGroup.nextPlace (g : RedGroup) (place : Nat) : Nat := routerNode (if place < 96 then nodeBase place else g.root)

/-- The lines that a combining buffer holds (R179); the root's store holds every contribution (R180). -/
def RedGroup.buffer (g : RedGroup) (place : Nat) : Option Nat :=
  if place = routerNode g.root then none else if place < 96 then some 64 else some 512

/-- A node stands at a combining point: it rises past empty siblings unchanged, is combined with a sibling that is present, or waits. -/
def RedGroup.rise (g : RedGroup) : Nat → RedNode → RedGroup
  | 0, v => { g with nodes := g.nodes ++ [v] }
  | fuel + 1, v =>
    if g.top ≤ v.level then { g with nodes := g.nodes ++ [v] }
    else
      let sib := v.pos ^^^ 1
      if g.emptyAt v.level sib then g.rise fuel { v with level := v.level + 1, pos := v.pos / 2 }
      else
        match g.nodes.find? fun w => w.at v.line v.level sib v.place && decide (w.data.length = v.data.length) with
        | none => { g with nodes := g.nodes ++ [v] }
        | some w =>
          let data := if v.pos % 2 = 0 then redCombine g.op v.data w.data else redCombine g.op w.data v.data
          RedGroup.rise { g with nodes := eraseFirst (fun u => decide (u = w)) g.nodes } fuel
            { v with level := v.level + 1, pos := v.pos / 2, data := data, poison := v.poison || w.poison }

/-- A line or list arrives at a combining point. A list of a top-k group is one value: its lines gather first. -/
def RedGroup.arrive (g : RedGroup) (v : RedNode) : RedGroup :=
  if g.op = 3 ∧ v.data.length < g.payload then
    let g := { g with nodes := g.nodes ++ [v] }
    let mine := (List.range g.lines).filterMap fun l =>
      g.nodes.find? fun w => w.at l v.level v.pos v.place && decide (w.data.length = 128)
    if mine.length = g.lines then
      RedGroup.rise { g with nodes := g.nodes.filter fun w => !mine.contains w } (g.top + 1)
        { v with line := 0, data := (mine.map RedNode.data).flatten, poison := mine.any RedNode.poison }
    else g
  else g.rise (g.top + 1) v

/-- The buffer of a combining point that a group's nodes share with the other groups' (R179): the lines in use. -/
def Dev.bufferUse (d : Dev) (place : Nat) : Nat :=
  (d.groups.map fun g => if g.buffer place = none then 0
    else ((g.nodes.filter fun v => decide (v.place = place)).map RedNode.size).sum).sum

/-- A node goes from a combining point to the next one: across a pair port where the root stands on another base die, and nowhere where
the pair is severed (R163, R176). -/
def Dev.redCross (d : Dev) (g : RedGroup) (place : Nat) : Bool × Dev :=
  let here := nodeBase place
  if place < 96 ∨ here = g.root then (true, d)
  else
    match d.routerNext here g.root false with
    | none => (false, d)
    | some t =>
      let d := d.cleanFlit (pairPort here t) (dirAB here t)
      (true, if t = g.root then d
        else (d.cleanFlit (pairPort t g.root) (dirAB t g.root)).count (d2dCounter (pairPort here g.root) 0x28) 1)

/-- A node arrives at a combining point. Where it overfills the buffer, or its tree is whole, the node that it makes goes on at once: hub,
router, root (R177, R179). Log 33, DEDUCED. -/
def Dev.redArrive (num : Nat) : Nat → RedNode → Dev → Dev
  | 0, _, d => d
  | fuel + 1, v, d =>
    let d := d.updGroup num fun g => g.arrive v
    match d.group? num with
    | none => d
    | some g =>
      let here := g.nodes.filter fun w => decide (w.place = v.place)
      let goes := match g.buffer v.place with
        | none => none
        | some n => if n < d.bufferUse v.place then here.getLast? else here.find? fun w => decide (g.top ≤ w.level)
      match goes with
      | none => d
      | some w =>
        match (d.updGroup num fun g => { g with nodes := eraseFirst (fun u => decide (u = w)) g.nodes }).redCross g v.place with
        | (false, d) => d
        | (true, d) => Dev.redArrive num fuel { w with place := g.nextPlace v.place } d

/-- Every destination line has its value at the root. -/
def RedGroup.complete (g : RedGroup) : Bool :=
  let top (v : RedNode) : Bool := decide (v.level = g.top) && decide (v.place = routerNode g.root)
  if g.op = 3 then g.nodes.any fun v => top v && decide (v.data.length = g.payload)
  else (List.range g.lines).all fun l => g.nodes.any fun v => top v && decide (v.line = l)

/-- The open round is complete; the done word is owed for it. -/
def RedGroup.nextRound (g : RedGroup) (poisoned : Bool) : RedGroup :=
  { g with nodes := [], filled := [], overrun := false, poisoned := false, dies := [], doneOwed := some (poisoned, g.overrun, g.dies) }

/-- The root completes a round once the done word of the last one is written: it writes every destination line and owes the done word
(R181). -/
def Dev.roundComplete (d : Dev) (num : Nat) : Dev :=
  match d.group? num with
  | none => d
  | some g =>
    if !g.complete || g.doneOwed.isSome then d
    else
      let tops := g.nodes.filter fun v => decide (v.level = g.top) && decide (v.place = routerNode g.root)
      let bad := g.overrun || g.poisoned
      let d := Dev.forEach tops (fun d v =>
        (d.vwrite agentRoot g.facet false none (g.dest + 128 * v.line) v.data (bad || v.poison)).2) d
      d.updGroup num fun g => g.nextRound (bad || tops.any RedNode.poison)

/-- An open round completes without its missing data (R373): every destination line is written poisoned; the bytes of a line without a value
are ones that no rule states. Log 33, DEDUCED. -/
def Dev.forceRound (d : Dev) (num : Nat) : Dev :=
  match d.group? num with
  | none => d
  | some g =>
    if g.filled.isEmpty then d
    else
      let d := Dev.forEach (List.range g.lines) (fun d l =>
        let (lost, d) := d.lostBytes 128
        let data := match g.nodes.find? fun v => decide (v.level = g.top) && decide (v.line = l) && decide (v.data.length = 128) with
          | some v => v.data
          | none => lost
        (d.vwrite agentRoot g.facet false none (g.dest + 128 * l) data true).2) d
      d.updGroup num fun g => g.nextRound true

/-- A contribution line of a rank enters at its agent's combining point, which takes and acknowledges it (R176, R177, R181, R182). Log 33,
DEDUCED. -/
def Dev.contribute (d : Dev) (num rank line : Nat) (data : List Byte) (poison : Bool) (agent : Nat) : Dev :=
  match d.group? num with
  | none => d
  | some g =>
    if g.n ≤ rank ∨ g.lines ≤ line ∨ data.length ≠ 128 then d
    else if NSet.has g.filled (rank * g.lines + line) then
      (d.count 0x602188 1).updGroup num fun g => { g with overrun := true }
    else
      let place := (d.agentGoal agent 0).place.1
      let die := if agent < 2048 then [coreDie agent] else []
      let d := d.updGroup num fun g =>
        { g with filled := NSet.add g.filled (rank * g.lines + line), dies := NSet.addAll g.dies die }
      (Dev.redArrive num 4 { line := line, level := 0, pos := rank, data := data, poison := poison, place := place } d).roundComplete num

/-- A phase point of R395: each die's lag is a time that the model does not compute, so a free value (log 12, DESIGN CHOICE). -/
def Dev.phasePoint (d : Dev) (dies : List Nat) (group : Option Nat) : Dev :=
  if dies.length < 2 then d
  else
    Dev.forEach dies (fun d die =>
      let (v, d) := d.fresh
      let lag : Rat := ((v.toNat % 2 ^ 32 : Nat) : Rat)
      let d := d.updDie die fun x => { x with lag := x.lag + (lag - x.lag) / 8, phases := x.phases + 1, lagAge := 0 }
      match group with
      | none => d
      | some n => d.updGroup n fun g => { g with lags := Tab.upd (0 : Rat) g.lags die fun a => a + (lag - a) / 8 }) d

/-- Closes a group: the window is unmapped, the group and its reservation are free, an open round is discarded (R183). -/
def Dev.closeGroup (d : Dev) (num : Nat) : Dev := { d with groups := d.groups.filter fun g => decide (g.num ≠ num) }

/-! ## Meanings -/

/-- REDUCTION_CONTRIBUTION (R177). Log 33, DEDUCED. -/
def execReductionContribution (group : Nat) (rank : Contributor) (line : Nat) (data : List Byte) (poison : Bool) (s : State) : Out :=
  s.run fun d => d.contribute group rank.rank line data poison rank.agent

/-- A node goes on from its combining point. -/
def Dev.redForward (d : Dev) (g : RedGroup) (v : RedNode) : Dev :=
  match (d.updGroup g.num fun g => { g with nodes := eraseFirst (fun w => decide (w = v)) g.nodes }).redCross g v.place with
  | (false, d) => d
  | (true, d) => (Dev.redArrive g.num 4 { v with place := g.nextPlace v.place } d).roundComplete g.num

/-- COMBINE_HOLD_EXPIRE (R179): an unpaired node goes on, from a row hub to a router and from there to the root. -/
def execCombineHoldExpire (group line level pos : Nat) (s : State) : Out :=
  s.run fun d =>
    match d.group? group with
    | none => d
    | some g =>
      match g.nodes.find? fun v =>
        decide (v.line = line) && decide (v.level = level) && decide (v.pos = pos) && decide (v.place ≠ routerNode g.root) with
      | none => d
      | some v => d.redForward g v

/-- Every node of a group goes on until none is left but at the root. -/
def Dev.redFlush (num : Nat) : Nat → Dev → Dev
  | 0, d => d
  | fuel + 1, d =>
    match d.group? num with
    | none => d
    | some g =>
      match g.nodes.find? fun v => decide (v.place ≠ routerNode g.root) with
      | none => d
      | some v => Dev.redFlush num fuel (d.redForward g v)

/-- The root writes the done word that it owes: ROUND, POISONED and OVERRUN (R181, R395). A round that has waited for this word
completes. -/
def Dev.doneWord (d : Dev) (num : Nat) : Dev :=
  match d.group? num with
  | none => d
  | some g =>
    match g.doneOwed with
    | none => d
    | some (poisoned, overrun, dies) =>
      let rounds := g.rounds + 1
      let word := rounds.toNat + 2 ^ 32 * boolNat poisoned + 2 ^ 33 * boolNat overrun
      let d := (d.vwrite agentRoot g.facet false none g.done (leBytes 8 word) false).2
      let (v, d) := d.fresh
      let phase := decide (2 ≤ dies.length) && decide (num < 448)
      let d := (d.count 0x602180 1).updGroup num fun g =>
        { g with rounds := rounds, doneOwed := none,
                 phaseRounds := if phase then g.phaseRounds + 1 else g.phaseRounds,
                 intervals := if phase && decide (0 < g.phaseRounds) then (v.toNat % 2 ^ 32 :: g.intervals).take 63
                   else g.intervals }
      (if phase then d.phasePoint dies (some num) else d).roundComplete num

/-- DONE_WORD_WRITE. -/
def execDoneWordWrite (group : Nat) (s : State) : Out := s.run fun d => d.doneWord group

/-- What LEHR_START reserves at a named base die for groups 448 to 495 (R244): ceil(D / 2) × 32 KiB for each of its 48 / D groups. -/
def lehrStore (dies : BitVec 4) (base : Nat) : Nat :=
  let n := countIf (fun b => dies.getLsbD b) [0, 1, 2, 3]
  if 2 ≤ n ∧ dies.getLsbD base then 48 / n * ((n + 1) / 2 * 32768) else 0

/-- Bytes reserved at a base die's reduction store. -/
def Dev.storeUsed (d : Dev) (base : Nat) : Nat :=
  ((d.groups.filter fun g => decide (g.root = base)).map RedGroup.reserved).sum +
    (if d.lehr.running || d.lehr.starting.isSome then lehrStore d.lehr.dies base else 0)

/-- The root of a new group (R180). -/
def Dev.redRoot (d : Dev) (f dest need : Nat) : Option Nat :=
  let first := match d.translate f dest with
    | .device pa _ _ => [d.homeSlice (pa / 128) / 24]
    | _ => []
  (first ++ [0, 1, 2, 3]).find? fun b => decide (d.storeUsed b + need ≤ 2097152)

/-- RED_GROUP_OPEN, code 0x0620 (R174, R175, R180, R183, R184). -/
def execRedGroupOpen (fn : Nat) (s : State) : Out :=
  s.run fun d => d.mbxRun fn 0x0620 (ofSender fn) fun d p =>
    let op := bits (leAt p 1 1) 0 2
    let n := bits (leAt p 2 2) 0 11
    let payload := leAt p 4 4
    let window := leAt p 8 8
    let dest := leAt p 16 8
    let done := leAt p 24 8
    let need := (n + 1) / 2 * payload
    if n < 2 ∨ 1024 < n ∨ payload % 128 ≠ 0 ∨ payload = 0 ∨ 1048576 < payload ∨ (op = 3 ∧ 32768 < payload) ∨
        window % 65536 ≠ 0 ∨ dest % 128 ≠ 0 ∨ done % 8 ≠ 0 then .refuse 0x3 []
    else
      match (List.range 448).find? fun i => (d.group? i).isNone with
      | none => .refuse 0x630 []
      | some num =>
        if d.overlapsMapping fn window (alignUp (n * payload) 65536) || !d.isDevice fn dest payload || !d.isDevice fn done 8 then
          .refuse 0x632 []
        else
          match d.redRoot fn dest need with
          | none => .refuse 0x631 []
          | some root =>
            let g : RedGroup :=
              { num := num, facet := fn, op := BitVec.ofNat 2 op, n := n, payload := payload, window := window, dest := dest,
                done := done, root := root, reserved := need, rounds := 0, nodes := [], filled := [], overrun := false,
                poisoned := false, doneOwed := none, phaseRounds := 0, intervals := [], lags := [], dies := [] }
            .ok { d with groups := d.groups ++ [g] }
              ([1, 0] ++ leBytes 2 num ++ leBytes 4 need ++ leBytes 8 root)

/-- RED_GROUP_CLOSE, code 0x0621 (R183, R184). -/
def execRedGroupClose (fn : Nat) (s : State) : Out :=
  s.run fun d => d.mbxRun fn 0x0621 (ofSender fn) fun d p =>
    let num := bits (leAt p 2 2) 0 9
    match d.group? num with
    | none => .refuse 0x633 []
    | some g =>
      if g.facet ≠ fn ∨ 448 ≤ num then .refuse 0x633 []
      else if !bit (leAt p 4 1) 0 && (!g.filled.isEmpty || g.doneOwed.isSome) then .refuse 0x634 []
      else .ok (d.closeGroup num) []

end Sys2Proof.Machine
end

