-- ==== Sys2Proof/Machine/Operands.lean ====
section
/-! DEFINITION. A beam's operands: register specifiers (R52), masks (R53), scalar, ray, tile and vector operand forms (R54, R56, R86 to R88, R101 to R105), local addresses (R67), and the poison marks of what they name (R116, R426). -/

namespace Sys2Proof.Machine

/-- A resident beam with its block and launch. -/
structure Ctx where
  ref    : BeamRef
  launch : Launch
  block  : Block
  beam   : Beam

def Dev.ctx? (d : Dev) (r : BeamRef) : Option Ctx :=
  match d.launch? r.launch, d.block? r.launch r.block with
  | some l, some b =>
    match b.beams[r.beam]? with
    | some m => some { ref := r, launch := l, block := b, beam := m }
    | none => none
  | _, _ => none

def Dev.updBeam (d : Dev) (r : BeamRef) (g : Beam → Beam) : Dev :=
  d.updBlock r.launch r.block fun b => { b with beams := updAt g r.beam b.beams }

/-! ## Traps (R71 to R73) -/

/-- A failed check: its cause, DETAIL, DETAIL_REG and DETAIL_LENGTH (R72). -/
structure Trap where
  cause  : Cause
  detail : Nat
  reg    : Bool
  length : Bool

def Cause.code : Cause → Nat
  | .illegal => 0x01 | .regRange => 0x02 | .misaligned => 0x03 | .scratchRange => 0x04 | .pageFault => 0x05
  | .protection => 0x06 | .poison => 0x07 | .maskStackOverflow => 0x08 | .callStack => 0x09 | .barrierMismatch => 0x0A
  | .partialBeamMatrix => 0x0B | .software => 0x0C | .watchdog => 0x0D | .debugHalt => 0x0E

/-- The causes that REPLAY resumes (R71). -/
def Cause.replayable : Cause → Bool
  | .pageFault | .poison | .software | .watchdog | .debugHalt => true
  | .illegal | .regRange | .misaligned | .scratchRange | .protection | .maskStackOverflow | .callStack | .barrierMismatch
  | .partialBeamMatrix => false

def mkTrap (c : Cause) (detail : Nat) : Trap := { cause := c, detail := detail, reg := false, length := false }
def illegal : Trap := mkTrap .illegal 0
def regRange : Trap := mkTrap .regRange 0

/-- POISON consumed from a register: the specifier as encoded, and its field: 0 DST, 1 SRC_A, 2 SRC_B, 3 MSK (R72). -/
def poisonReg (field spec : Nat) : Trap := { cause := .poison, detail := spec % 256 + 256 * field, reg := true, length := false }

/-- A check as a list: the trap where the condition fails. -/
def trapIf (c : Bool) (t : Trap) : List Trap := if c then [t] else []

/-- CAUSE is the lowest code among the failed checks (R73); of one cause, the first failure stands. -/
def lowestTrap (l : List Trap) : Option Trap := leastBy (fun t => t.cause.code) l

/-! ## A beam's registers -/

def Beam.sGet (b : Beam) (n : Nat) : BitVec 64 := Tab.get 0 b.s n
def Beam.sSet (b : Beam) (n : Nat) (v : BitVec 64) : Beam := { b with s := Tab.set 0 b.s n v }
def Beam.gGet (b : Beam) (r ray : Nat) : BitVec 32 := Tab.get 0 b.g (32 * r + ray)
def Beam.gSet (b : Beam) (r ray : Nat) (v : BitVec 32) : Beam := { b with g := Tab.set 0 b.g (32 * r + ray) v }
def Beam.kGet (b : Beam) (n : Nat) : BitVec 32 := Tab.get 0 b.k n
def Beam.kSet (b : Beam) (n : Nat) (v : BitVec 32) : Beam := { b with k := Tab.set 0 b.k n v }

/-- The rays of a mask, ascending. -/
def maskRays (m : BitVec 32) : List Nat := (List.range 32).filter fun i => m.getLsbD i

/-- Writes one ray register of some rays. Its row becomes poisoned where a written value is, and clean where all 32 words are
written clean (R116, R429). -/
def Beam.writeRow (b : Beam) (r : Nat) (cells : List (Nat × BitVec 32)) (poison : Bool) : Beam :=
  let b := cells.foldl (fun b e => b.gSet r e.1 e.2) b
  let full := (List.range 32).all fun i => cells.any fun e => decide (e.1 = i)
  if poison then { b with gPoison := NSet.add b.gPoison r }
  else if full then { b with gPoison := NSet.del b.gPoison r } else b

/-- The registers allocated to each ray (R40). -/
def Ctx.rayRegs (c : Ctx) : Nat := 8 * c.launch.params.rayRegs

/-- Special registers 0xF0 to 0xFB (R52), as a scalar reads them. -/
def Ctx.special (c : Ctx) (n : Nat) : BitVec 64 :=
  match n with
  | 0xF1 => BitVec.ofNat 64 (32 * c.ref.beam)
  | 0xF2 => BitVec.ofNat 64 c.ref.beam
  | 0xF3 => BitVec.ofNat 64 c.block.index
  | 0xF4 => BitVec.ofNat 64 (c.block.index % c.launch.params.cluster)
  | 0xF5 => BitVec.ofNat 64 (c.block.index / c.launch.params.cluster)
  | 0xF6 => BitVec.ofNat 64 c.block.core
  | 0xF7 => BitVec.ofNat 64 c.beam.vl
  | 0xF8 => c.launch.params.argAddr
  | 0xF9 => BitVec.ofNat 64 c.launch.params.gridBlocks
  | 0xFA => BitVec.ofNat 64 c.launch.params.rays
  | 0xFB => (c.beam.path &&& ~~~ c.beam.exited).setWidth 64
  | _ => 0

/-- A scalar or special register's value. -/
def Ctx.sVal (c : Ctx) (spec : Nat) : BitVec 64 :=
  if spec < 0xC0 then 0 else if spec < 0xF0 then c.beam.sGet (spec - 0xC0) else c.special spec

/-- A scalar source names a scalar or special register (R54). -/
def sSrcBad (spec : Nat) : Bool := decide (spec < 0xC0) || decide (0xFC ≤ spec)
/-- A scalar destination names s0 to s47 or ZERO (R52, R54). -/
def sDstBad (spec : Nat) : Bool := decide (spec < 0xC0) || decide (0xF1 ≤ spec)

/-- Writes a scalar destination; ZERO discards the value. -/
def Beam.sWrite (b : Beam) (spec : Nat) (v : BitVec 64) : Beam :=
  if 0xC0 ≤ spec ∧ spec < 0xF0 then b.sSet (spec - 0xC0) v else b

/-- A source that must be a scalar register s0 to s47 or a special register, where the instruction writes s[…] (R56, R102). -/
def Ctx.sTraps (_c : Ctx) (spec : Nat) : List Trap := trapIf (sSrcBad spec) illegal

/-- IMM as a signed number (R51). -/
def immInt (f : KFields) : Int := f.imm.toInt
def imm64 (f : KFields) : BitVec 64 := f.imm.signExtend 64

/-! ## Masks (R53) -/

/-- The mask that MSK selects, none for the undefined value 8; exited rays are never in it. -/
def Ctx.mask? (c : Ctx) (msk : BitVec 4) : Option (BitVec 32) :=
  let live := c.beam.path &&& ~~~ c.beam.exited
  if msk = 0 then some live
  else if msk = 8 then none
  else if msk.toNat < 8 then some (live &&& c.beam.kGet msk.toNat)
  else some (live &&& ~~~ (c.beam.kGet (msk.toNat - 8)))

def Ctx.mask (c : Ctx) (msk : BitVec 4) : BitVec 32 := (c.mask? msk).getD 0
def Ctx.mskTraps (c : Ctx) (msk : BitVec 4) : List Trap := trapIf (c.mask? msk).isNone illegal

/-! ## Ray-level operands of memory instructions (R52, R56) -/

/-- One 32-bit source: a ray register, or bits [31:0] of a scalar or special register, RAY giving each ray its index. -/
def Ctx.rVal (c : Ctx) (spec ray : Nat) : BitVec 32 :=
  if spec < 0xC0 then c.beam.gGet spec ray
  else if spec = 0xF1 then BitVec.ofNat 32 (32 * c.ref.beam + ray)
  else (c.sVal spec).setWidth 32

def Ctx.rPoison (c : Ctx) (spec : Nat) : Bool := decide (spec < 0xC0) && NSet.has c.beam.gPoison spec

def Ctx.rSrcTraps (c : Ctx) (spec : Nat) : List Trap :=
  trapIf (decide (0xFC ≤ spec)) illegal ++ trapIf (decide (spec < 0xC0) && decide (c.rayRegs ≤ spec)) regRange

def Ctx.rDstTraps (c : Ctx) (spec : Nat) : List Trap :=
  trapIf (decide (0xF1 ≤ spec) || (decide (0xC0 ≤ spec) && decide (spec < 0xF0))) illegal ++
    trapIf (decide (spec < 0xC0) && decide (c.rayRegs ≤ spec)) regRange

/-- A field that names `n` consecutive ray registers. -/
def Ctx.groupTraps (c : Ctx) (spec n : Nat) : List Trap :=
  trapIf (decide (0xC0 ≤ spec)) illegal ++ trapIf (decide (spec < 0xC0) && decide (c.rayRegs < spec + n)) regRange

def Ctx.groupPoison (c : Ctx) (spec n : Nat) : Bool := (List.range n).any fun i => NSet.has c.beam.gPoison (spec + i)

/-- The 64-bit global address of a ray: g[SRC_A], g[SRC_A + 1] and IMM (R56). -/
def Ctx.globalAddr (c : Ctx) (f : KFields) (ray : Nat) : BitVec 64 :=
  (c.beam.gGet (f.a.toNat + 1) ray ++ c.beam.gGet f.a.toNat ray) + imm64 f
/-- The local address of a ray: g[SRC_A] + IMM, kept to 64 bits (R56; log 22, DEDUCED). -/
def Ctx.localAddr (c : Ctx) (f : KFields) (ray : Nat) : BitVec 64 := (c.rVal f.a.toNat ray).setWidth 64 + imm64 f
/-- The global address of a scalar access: s[SRC_A] + IMM. -/
def Ctx.scalarAddr (c : Ctx) (f : KFields) : BitVec 64 := c.sVal f.a.toNat + imm64 f

/-- The bytes a ray's registers supply, `n` of them from the named one. -/
def Ctx.rBytes (c : Ctx) (spec ray n : Nat) : List Byte :=
  if n ≤ 4 then leBytes n (c.rVal spec ray).toNat
  else ((List.range (n / 4)).map fun i => leBytes 4 (c.beam.gGet (spec + i) ray).toNat).flatten

/-! ## Local addresses (R67) and the local array (R70, R426) -/

/-- The block and offset that a local address of `n` bytes names; none where SCRATCH_RANGE is raised. -/
def Ctx.localTarget (c : Ctx) (a n : Nat) : Option (Nat × Nat) :=
  let size := c.launch.params.scratchBytes
  if a < 0x01000000 then if a + n ≤ size then some (c.block.index, a) else none
  else
    let rank := (a - 0x01000000) / 0x00800000
    let off := (a - 0x01000000) % 0x00800000
    if decide (rank < c.launch.params.cluster) && decide (off + n ≤ size) then
      some (c.block.index / c.launch.params.cluster * c.launch.params.cluster + rank, off)
    else none

/-- The core and physical local-array address of a block's scratchpad offset. -/
def Dev.scratchAt (d : Dev) (launch index off : Nat) : Option (Nat × Nat) :=
  (d.block? launch index).map fun b => (b.core, b.scratch + off)

/-- A parity error of a bank row that a read finds (R423): the row is poisoned. -/
def Dev.laParity (d : Dev) (core row : Nat) : Dev :=
  if !d.strikes.la.contains (core, row) then d else
    let d := { d with strikes := { d.strikes with la := d.strikes.la.filter fun e => decide (e ≠ (core, row)) } }
    ((d.updCore core fun k => { k with laPoison := NSet.add k.laPoison row }).count 0x609018 1)

/-- Bytes of a local array from a physical address, and whether a bank row among them is poisoned. -/
def Core.laRead (k : Core) (p n : Nat) : List Byte × Bool :=
  (Mem.read k.la p n, (List.range ((p + n + 127) / 128 - p / 128)).any fun i => NSet.has k.laPoison (p / 128 + i))

/-- Stores bytes; a row becomes poisoned where `poison` names it, and clean where all its bytes are stored clean (R429). -/
def Core.laStore (k : Core) (cells : List (Nat × Byte)) (poison : NSet) : Core :=
  let rows := NSet.addAll [] (cells.map fun e => e.1 / 128)
  let full (r : Nat) : Bool := (List.range 128).all fun i => cells.any fun e => decide (e.1 = 128 * r + i)
  let marks := rows.foldl (fun s r => if poison.contains r then NSet.add s r else if full r then NSet.del s r else s) k.laPoison
  { k with la := Mem.setAll k.la cells, laPoison := marks }

/-- Stores whole bank rows. -/
def Core.laStoreRow (k : Core) (row : Nat) (bs : List Byte) (poison : Bool) : Core :=
  { k with la := Mem.write k.la (128 * row) bs, laPoison := NSet.put k.laPoison row poison }

/-! ## Tile registers (R86 to R88) -/

def tileAddr (t row byte : Nat) : Nat := 16384 * t + 128 * row + byte
def Block.tileRow (b : Block) (t row : Nat) : List Byte := Mem.read b.tiles (tileAddr t row 0) 128
def Block.tileByte (b : Block) (t row byte : Nat) : Byte := Mem.get b.tiles (tileAddr t row byte)
def Block.rowPoison (b : Block) (t row : Nat) : Bool := NSet.has b.tilePoison (128 * t + row)
def Block.setTileRow (b : Block) (t row : Nat) (bs : List Byte) (poison : Bool) : Block :=
  { b with tiles := Mem.write b.tiles (tileAddr t row 0) bs, tilePoison := NSet.put b.tilePoison (128 * t + row) poison }
/-- Word e of chunk c of a tile. -/
def Block.chunkWord (b : Block) (t chunk e : Nat) : BitVec 32 :=
  BitVec.ofNat 32 (leNat (Mem.read b.tiles (16384 * t + 1024 * chunk + 4 * e) 4))

/-! ## Vector operands (R101 to R105) -/

/-- A 32-bit word source or destination of the vector engine: a register group, a tile chunk, a broadcast scalar or immediate, or
a ray broadcast (R104, R105). -/
inductive VOperand where
  | group (base : Nat)
  | chunk (tile chunk : Nat)
  | value (v : BitVec 64)
  | ray (base : Nat)

/-- Word w of a 32-bit operand. -/
def Ctx.word (c : Ctx) (o : VOperand) (w : Nat) : BitVec 32 :=
  match o with
  | .group base => c.beam.gGet (base + w / 32) (w % 32)
  | .chunk t k => c.block.chunkWord t k w
  | .value v => v.setWidth 32
  | .ray base => c.beam.gGet base (w % 32)

/-- Element e of a 64-bit operand. -/
def Ctx.dword (c : Ctx) (o : VOperand) (e : Nat) : BitVec 64 :=
  match o with
  | .group base => c.beam.gGet (base + 2 * (e / 32) + 1) (e % 32) ++ c.beam.gGet (base + 2 * (e / 32)) (e % 32)
  | .chunk _ _ => 0
  | .value v => v
  | .ray base => c.beam.gGet (base + 1) (e % 32) ++ c.beam.gGet base (e % 32)

/-- The poison mark of the row that holds word w of a 32-bit operand. -/
def Ctx.wordPoison (c : Ctx) (o : VOperand) (w : Nat) : Bool :=
  match o with
  | .group base => NSet.has c.beam.gPoison (base + w / 32)
  | .chunk t k => c.block.rowPoison t (8 * k + w / 32)
  | .value _ => false
  | .ray base => NSet.has c.beam.gPoison base

def Ctx.dwordPoison (c : Ctx) (o : VOperand) (e : Nat) : Bool :=
  match o with
  | .group base => NSet.has c.beam.gPoison (base + 2 * (e / 32)) || NSet.has c.beam.gPoison (base + 2 * (e / 32) + 1)
  | .chunk _ _ => false
  | .value _ => false
  | .ray base => NSet.has c.beam.gPoison base || NSet.has c.beam.gPoison (base + 1)

/-- The ray registers that an operand reads for its first `n` words. -/
def VOperand.regs (o : VOperand) (words : Nat) (dbl : Bool) : List Nat :=
  match o with
  | .group base => (List.range ((words + 31) / 32)).map (base + ·)
  | .ray base => if dbl then [base, base + 1] else [base]
  | .chunk _ _ => []
  | .value _ => []

/-- Element e is active (R103): below the length, its ray selected and not exited. -/
def Ctx.active (c : Ctx) (msk : BitVec 4) (len : Nat) : List Nat :=
  let m := c.mask msk
  (List.range len).filter fun e => m.getLsbD (e % 32)

/-- Merges words into a register group or a chunk: each write is (word, mask of its bits, value); a row is poisoned where a
poisoned write reaches it, and clean where every bit of it is written clean (R103, R116, R429). -/
structure WordWrite where
  word   : Nat
  mask   : BitVec 32
  value  : BitVec 32
  poison : Bool

/-- The rows of 32 words that a list of writes touches. Log 28, DEDUCED. -/
def writeRows (ws : List WordWrite) : NSet := NSet.addAll [] (ws.map fun w => w.word / 32)

/-- What becomes of a row's poison mark. Log 28, DEDUCED. -/
def rowMark (ws : List WordWrite) (row : Nat) (old : Bool) : Bool :=
  let mine := ws.filter fun w => decide (w.word / 32 = row)
  if mine.any WordWrite.poison then true
  else if (List.range 32).all fun i =>
      ((mine.filter fun w => decide (w.word % 32 = i)).foldl (fun (m : BitVec 32) w => m ||| w.mask) 0) = BitVec.allOnes 32
    then false
  else old

def mergeWord (old : BitVec 32) (w : WordWrite) : BitVec 32 := (old &&& ~~~ w.mask) ||| (w.value &&& w.mask)

def Beam.writeGroup (b : Beam) (base : Nat) (ws : List WordWrite) : Beam :=
  let marks := (writeRows ws).foldl (fun s r => NSet.put s (base + r) (rowMark ws r (NSet.has b.gPoison (base + r)))) b.gPoison
  let b := ws.foldl (fun (b : Beam) w => b.gSet (base + w.word / 32) (w.word % 32)
    (mergeWord (b.gGet (base + w.word / 32) (w.word % 32)) w)) b
  { b with gPoison := marks }

def Block.writeChunk (b : Block) (t k : Nat) (ws : List WordWrite) : Block :=
  let row (r : Nat) := 128 * t + 8 * k + r
  let marks := (writeRows ws).foldl (fun s r => NSet.put s (row r) (rowMark ws r (NSet.has b.tilePoison (row r)))) b.tilePoison
  let b := ws.foldl (fun (b : Block) w =>
    { b with tiles := Mem.write b.tiles (16384 * t + 1024 * k + 4 * w.word) (leBytes 4 (mergeWord (b.chunkWord t k w.word) w).toNat) }) b
  { b with tilePoison := marks }

/-- Writes words to a destination operand. -/
def Dev.writeWords (d : Dev) (r : BeamRef) (o : VOperand) (ws : List WordWrite) : Dev :=
  match o with
  | .group base => d.updBeam r fun b => b.writeGroup base ws
  | .chunk t k => d.updBlock r.launch r.block fun b => b.writeChunk t k ws
  | .value _ => d
  | .ray _ => d

end Sys2Proof.Machine
end

