-- ==== Sys2Proof/Machine/MatrixOps.lean ====
section
/-! DEFINITION. What the matrix engine computes and commits (R86 to R97, R115, R116): operand elements, scales, group sums, Hamming distances, tile moves, and the poison of the rows they write. -/

namespace Sys2Proof.Machine

/-! ## Formats (R91) and IMM fields (R89) -/

/-- The formats of a MOD code: of A, of B, bits of an element's place in a row, MX scales, integer. -/
structure MFormat where
  a     : FpFormat
  b     : FpFormat
  width : Nat
  mx    : Bool
  int   : Bool

def mformat (mod : Nat) : Option MFormat :=
  match mod with
  | 0x0 => some { a := bf16, b := bf16, width := 16, mx := false, int := false }
  | 0x1 => some { a := fp16, b := fp16, width := 16, mx := false, int := false }
  | 0x2 => some { a := e4m3, b := e4m3, width := 8, mx := false, int := false }
  | 0x3 => some { a := e5m2, b := e5m2, width := 8, mx := false, int := false }
  | 0x4 => some { a := e4m3, b := e5m2, width := 8, mx := false, int := false }
  | 0x5 => some { a := e5m2, b := e4m3, width := 8, mx := false, int := false }
  | 0x6 => some { a := e4m3, b := e4m3, width := 8, mx := true, int := false }
  | 0x7 => some { a := e5m2, b := e5m2, width := 8, mx := true, int := false }
  | 0x8 => some { a := e2m3, b := e2m3, width := 8, mx := true, int := false }
  | 0x9 => some { a := e3m2, b := e3m2, width := 8, mx := true, int := false }
  | 0xA => some { a := e2m1, b := e2m1, width := 4, mx := true, int := false }
  | 0xB => some { a := e4m3, b := e4m3, width := 8, mx := false, int := true }
  | 0xC => some { a := e4m3, b := e4m3, width := 4, mx := false, int := true }
  | _ => none

/-- K of one tile row (R86). -/
def MFormat.k (m : MFormat) : Nat := 1024 / m.width

def immAsc (f : KFields) : Nat := bits f.imm.toNat 0 5
def immASlot (f : KFields) : Nat := bits f.imm.toNat 5 4
def immBsc (f : KFields) : Nat := bits f.imm.toNat 9 5
def immBSlot (f : KFields) : Nat := bits f.imm.toNat 14 4
def immAcc (f : KFields) : Bool := f.imm.getLsbD 18
def immHalfK (f : KFields) : Bool := f.imm.getLsbD 5
def immThr (f : KFields) : Nat := bits f.imm.toNat 0 5

/-! ## Elements, scales and sums (R82, R83, R88, R92 to R94) -/

/-- The pattern of element k of a tile row (R82); an FP6 element is the low six bits of its byte. -/
def Block.element (b : Block) (w fw t row k : Nat) : Nat :=
  let byte := (b.tileByte t row (k * w / 8)).toNat
  let v := if w = 16 then byte + 256 * (b.tileByte t row (k * w / 8 + 1)).toNat
    else if w = 4 then byte / 16 ^ (k % 2) % 16 else byte
  v % 2 ^ fw

/-- The scale byte of the block of logical element k of operand row r (R88), and the scale tile's row that holds it. -/
def scaleByteAt (slot r k : Nat) : Nat := 1024 * (slot + k / 32 / 8) + 8 * r + k / 32 % 8
def Block.scale (b : Block) (t slot r k : Nat) : Nat := (Mem.get b.tiles (16384 * t + scaleByteAt slot r k)).toNat

/-- The logical positions of A row i that enter products, with the place of each value in its value row (R86, R94): every k for a
dense operand, the two kept ones of each group of four for a compressed one. -/
def Block.terms (b : Block) (sparse : Bool) (t i : Nat) (group : Nat) : List (Nat × Nat) :=
  if sparse then
    ((List.range 8).map fun q =>
      let g := 8 * group + q
      let meta4 := (b.tileByte (t + 1) i (g / 2)).toNat / 16 ^ (g % 2) % 16
      [(4 * g + meta4 % 4, 2 * g), (4 * g + meta4 / 4, 2 * g + 1)]).flatten
  else (List.range 32).map fun q => (32 * group + q, 32 * group + q)

/-- The tile and place of B's logical element k (R94). -/
def bTile (m : MFormat) (t k : Nat) : Nat × Nat := (t + k / m.k, k % m.k)

/-- One product, exactly, with MX scales applied (R92). -/
def Block.product (b : Block) (m : MFormat) (f : KFields) (i j : Nat) (kp : Nat × Nat) : FpVal :=
  let (bt, bk) := bTile m f.b.toNat kp.1
  let x := m.a.decode (b.element m.width m.a.width f.a.toNat i kp.2)
  let y := m.b.decode (b.element m.width m.b.width bt j bk)
  if m.mx then
    let sa := b.scale (immAsc f) (immASlot f) i kp.1
    let sb := b.scale (immBsc f) (immBSlot f) j kp.1
    if sa = 0xFF ∨ sb = 0xFF then .nan else (x.mul y).scale ((sa : Int) + sb - 254)
  else x.mul y

/-- The exact sum of a list of values: signed zeros, infinities and NaNs as R92 gives. -/
def FpVal.sum : List FpVal → FpVal
  | [] => .fin false 0 0
  | v :: vs => vs.foldl FpVal.add v

/-- Groups of 32 logical elements of an instruction. -/
def MFormat.groups (m : MFormat) (sparse : Bool) : Nat := (if sparse then 2 else 1) * m.k / 32

/-- Word j of row i of a quad (R87). -/
def Block.quadWord (b : Block) (t i j : Nat) : BitVec 32 :=
  BitVec.ofNat 32 (leNat (Mem.read b.tiles (tileAddr (t + j / 32) i (4 * (j % 32))) 4))

/-- D[i][j] of MMA and MMAS (R92, R93). -/
def Block.mmaOut (b : Block) (m : MFormat) (sparse : Bool) (f : KFields) (i j : Nat) : BitVec 32 :=
  let acc : BitVec 32 := if immAcc f then b.quadWord f.dst.toNat i j else 0
  if m.int then
    let sum : Int := ((List.range (m.groups sparse)).map fun g =>
      ((b.terms sparse f.a.toNat i g).map fun kp =>
        let (bt, bk) := bTile m f.b.toNat kp.1
        signed (b.element m.width m.width f.a.toNat i kp.2) m.width * signed (b.element m.width m.width bt j bk) m.width).sum).sum
    acc + BitVec.ofInt 32 sum
  else
    (List.range (m.groups sparse)).foldl (fun acc g =>
      toF32 ((f32 acc).add (FpVal.sum ((b.terms sparse f.a.toNat i g).map (b.product m f i j))))) acc

/-- The Hamming distance of A row i and B row j over `n` bytes (R93). -/
def Block.distance (b : Block) (ta tb i j n : Nat) : Nat :=
  ((List.range n).map fun k =>
    countIf (fun q => (b.tileByte ta i k ^^^ b.tileByte tb j k).getLsbD q) (List.range 8)).sum

def Block.mbinOut (b : Block) (f : KFields) (i j : Nat) : BitVec 32 :=
  (if immAcc f then b.quadWord f.dst.toNat i j else 0) +
    BitVec.ofNat 32 (b.distance f.a.toNat f.b.toNat i j (if immHalfK f then 64 else 128))

/-- Row i of MBINT's destination: the mask of distances at most their thresholds in bytes 0 to 15, zeros above (R95). -/
def Block.mbintRow (b : Block) (f : KFields) (i : Nat) : List Byte :=
  let n := if immHalfK f then 64 else 128
  let hit (j : Nat) : Bool :=
    decide (b.distance f.a.toNat f.b.toNat i j n ≤ leNat (Mem.read b.tiles (16384 * immThr f + 4 * j) 4))
  ((List.range 16).map fun k =>
    BitVec.ofNat 8 ((List.range 8).map fun q => boolNat (hit (8 * k + q)) * 2 ^ q).sum) ++ leBytes 112 0

/-! ## Poison (R115, R116) -/

/-- An operand row is poisoned, itself or through a scale-tile row that holds its scales. -/
def Block.operandPoison (b : Block) (m : MFormat) (sparse : Bool) (tiles : List Nat) (scale slot r : Nat) : Bool :=
  tiles.any (fun t => b.rowPoison t r) ||
    (m.mx && (List.range (m.groups sparse)).any fun j => b.rowPoison scale (scaleByteAt slot r (32 * j) / 128))

/-- Row i of quad tile q becomes poisoned: by A's row, by a row of B in the tile's columns, by the accumulated row itself. -/
def Block.quadPoison (b : Block) (dst : Nat) (acc : Bool) (aRow bRow : Nat → Bool) (i q : Nat) : Bool :=
  aRow i || ((List.range 32).any fun j => bRow (32 * q + j)) || (acc && b.rowPoison (dst + q) i)

/-- Commits a quad: every row of its four tiles with its words and its poison. -/
def Block.commitQuad (b : Block) (dst : Nat) (out : Nat → Nat → BitVec 32) (poison : Nat → Nat → Bool) : Block :=
  (List.range 4).foldl (fun acc q =>
    (List.range 128).foldl (fun acc i =>
      acc.setTileRow (dst + q) i ((List.range 32).map fun j => leBytes 4 (out i (32 * q + j)).toNat).flatten (poison i q)) acc) b

/-- Executes a matrix instruction of the compute queue on a block's tiles; `fails` are the outputs whose check failed on the
re-execution (R115). -/
def Block.matrixExec (b : Block) (i : Instr) (fails : List (Nat × Nat)) : Block :=
  let failed (row q : Nat) : Bool := fails.any fun e => decide (e.1 = row) && decide (e.2 / 32 = q)
  let mma (f : KFields) (sparse : Bool) : Block :=
    match mformat f.mod.toNat with
    | none => b
    | some m =>
      let ta := f.a.toNat
      let tb := f.b.toNat
      let aRow := b.operandPoison m sparse (if sparse then [ta, ta + 1] else [ta]) (immAsc f) (immASlot f)
      let bRow := b.operandPoison m sparse (if sparse then [tb, tb + 1] else [tb]) (immBsc f) (immBSlot f)
      b.commitQuad f.dst.toNat (b.mmaOut m sparse f) fun i q => b.quadPoison f.dst.toNat (immAcc f) aRow bRow i q || failed i q
  match i with
  | .mma _ f => mma f false
  | .mmas _ f => mma f true
  | .mbin _ f =>
    b.commitQuad f.dst.toNat (b.mbinOut f) fun i q =>
      b.quadPoison f.dst.toNat (immAcc f) (b.rowPoison f.a.toNat) (b.rowPoison f.b.toNat) i q || failed i q
  | .mbint _ f =>
    let every := (List.range 128).any (fun r => b.rowPoison f.b.toNat r) || (List.range 128).any fun r => b.rowPoison (immThr f) r
    (List.range 128).foldl (fun acc i =>
      acc.setTileRow f.dst.toNat i (b.mbintRow f i)
        (every || b.rowPoison f.a.toNat i || fails.any fun e => decide (e.1 = i))) b
  | .mzero _ f =>
    (List.range (if f.imm.getLsbD 0 then 4 else 1)).foldl (fun acc q =>
      (List.range 128).foldl (fun acc i => acc.setTileRow (f.dst.toNat + q) i (leBytes 128 0) false) acc) b
  | _ => b

/-! ## Tiles that an instruction reads and writes (R98) -/

/-- The scale tiles of a format with MX scales. -/
def scaleTiles (f : KFields) : List Nat :=
  match mformat f.mod.toNat with
  | some m => if m.mx then [immAsc f, immBsc f] else []
  | none => []

def matrixReads (i : Instr) : List Nat :=
  match i with
  | .mma _ f => [f.a.toNat, f.b.toNat] ++ scaleTiles f ++ (if immAcc f then (List.range 4).map (f.dst.toNat + ·) else [])
  | .mmas _ f =>
    [f.a.toNat, f.b.toNat, f.a.toNat + 1, f.b.toNat + 1] ++ scaleTiles f ++
      (if immAcc f then (List.range 4).map (f.dst.toNat + ·) else [])
  | .mbin _ f => [f.a.toNat, f.b.toNat] ++ (if immAcc f then (List.range 4).map (f.dst.toNat + ·) else [])
  | .mbint _ f => [f.a.toNat, f.b.toNat, immThr f]
  | .mst _ f => [f.dst.toNat]
  | _ => []

def matrixWrites (i : Instr) : List Nat :=
  match i with
  | .mma _ f | .mmas _ f | .mbin _ f => (List.range 4).map (f.dst.toNat + ·)
  | .mbint _ f | .mld _ f => [f.dst.toNat]
  | .mzero _ f => (List.range (if f.imm.getLsbD 0 then 4 else 1)).map (f.dst.toNat + ·)
  | _ => []

/-- The tiles that a vector instruction names as chunks (R105). -/
def vectorTiles (i : Instr) : List Nat × List Nat :=
  let of (f : KFields) : List Nat × List Nat :=
    (if f.mod.getLsbD 2 then [f.a.toNat % 32] else [], if f.mod.getLsbD 3 then [f.dst.toNat % 32] else [])
  match i with
  | .vaddF _ f | .vsubF _ f | .vmulF _ f | .vfmaF _ f | .vminF _ f | .vmaxF _ f | .vdivF _ f | .vsqrtF _ f | .vexp2F _ f
  | .vlog2F _ f | .vrsqF _ f | .vaddI _ f | .vsubI _ f | .vmulI _ f | .vminI _ f | .vmaxI _ f | .vminu _ f | .vmaxu _ f
  | .vand _ f | .vor _ f | .vxor _ f | .vshl _ f | .vshr _ f | .vsra _ f | .vpopc _ f | .vclz _ f | .vdot4I _ f | .vmov _ f
  | .vsel _ f | .vcvt _ f | .vmxscale _ f | .vred _ f | .vcmpF _ f | .vcmpI _ f | .vcmpU _ f | .vcmpkF _ f | .vcmpkI _ f
  | .vcmpkU _ f => of f
  | _ => ([], [])

def QEntry.reads (e : QEntry) : List Nat := matrixReads e.instr ++ (vectorTiles e.instr).1 ++ (vectorTiles e.instr).2
def QEntry.writes (e : QEntry) : List Nat := matrixWrites e.instr ++ (vectorTiles e.instr).2

/-- An entry must wait for an earlier one of its block (R98): for a write to a tile it names, or for a read of one it writes. -/
def QEntry.waitsFor (e w : QEntry) : Bool :=
  decide (w.seq < e.seq) && decide (w.beam.launch = e.beam.launch) && decide (w.beam.block = e.beam.block) &&
    ((e.reads ++ e.writes).any (fun t => w.writes.contains t) || e.writes.any fun t => w.reads.contains t)

def Core.entries (k : Core) : List QEntry := k.matQ ++ k.movQ ++ k.vecQ ++ k.sortQ
def Core.nextSeq (k : Core) : Nat := (k.entries.map fun e => e.seq + 1).foldl max 0

/-! ## Tile moves (R97) -/

/-- The local addresses of the rows of a move: the stride is unsigned, and an address is not reduced modulo 2^64. Log 38, DEDUCED. -/
def QEntry.rowAddr (e : QEntry) (r : Nat) : Nat := e.base + r * e.stride

/-- Bytes of the block's scratchpad that a move still has to read or write (R98). -/
def QEntry.touches (e : QEntry) (off n : Nat) (stores : Bool) : Bool :=
  let hits := (List.range 128).any fun r => decide (e.rowAddr r < off + n) && decide (off < e.rowAddr r + 128)
  match e.instr with
  | .mst _ _ => hits
  | .mld _ _ => stores && hits
  | _ => false

/-- A memory instruction waits for the moves of its block that touch its bytes; where the block is switched out, for its restore (R79). -/
def Dev.scratchBusy (d : Dev) (launch index off n : Nat) (stores : Bool) : Bool :=
  match d.block? launch index with
  | none => true
  | some b =>
    (d.core b.core).movQ.any fun e =>
      decide (e.beam.launch = launch) && decide (e.beam.block = index) && e.touches off n stores

/-- Commits a matrix instruction (R98, R115). -/
def Dev.matrixCommit (d : Dev) (e : QEntry) (fails : List (Nat × Nat)) : Dev :=
  match d.block? e.beam.launch e.beam.block with
  | none => d
  | some b =>
    match e.instr with
    | .mld _ f =>
      let d := Dev.forEach (List.range 128) (fun d r => d.laParity b.core ((b.scratch + e.rowAddr r) / 128)) d
      let k := d.core b.core
      d.updBlock e.beam.launch e.beam.block fun b =>
        (List.range 128).foldl (fun b r =>
          let (bs, p) := k.laRead (b.scratch + e.rowAddr r) 128
          b.setTileRow f.dst.toNat r bs p) b
    | .mst _ f =>
      d.updCore b.core fun k =>
        (List.range 128).foldl (fun k r =>
          k.laStoreRow ((b.scratch + e.rowAddr r) / 128) (b.tileRow f.dst.toNat r) (b.rowPoison f.dst.toNat r)) k
    | i => d.updBlock e.beam.launch e.beam.block fun b => b.matrixExec i fails

end Sys2Proof.Machine
end

