-- ==== Sys2Proof/Machine/VectorOps.lean ====
section
/-! DEFINITION. What a vector pass and the sort/select unit compute (R84, R85, R101 to R114): operand forms and their checks, element functions, conversion, reduction, comparison, and what each pass writes. -/

namespace Sys2Proof.Machine

/-! ## Kinds of pass -/

/-- What a vector instruction does with its elements: a 32-bit or a 64-bit element function with the operands it reads (a, b, and d,
the destination's old element), a comparison into elements or a mask, a conversion, a scale computation, a reduction. -/
inductive VKind where
  | f32 (usesA usesB usesD : Bool) (f : BitVec 32 → BitVec 32 → BitVec 32 → BitVec 32)
  | f64 (usesA usesB usesD : Bool) (f : BitVec 64 → BitVec 64 → BitVec 64 → BitVec 64)
  | cmp32 (order : BitVec 32 → BitVec 32 → Option Ordering) (mask : Bool)
  | cmp64 (order : BitVec 64 → BitVec 64 → Option Ordering) (mask : Bool)
  | cvt
  | mxscale
  | red

def fma32 (a b d : BitVec 32) : BitVec 32 := toF32 (((f32 a).mul (f32 b)).add (f32 d))
def fma64 (a b d : BitVec 64) : BitVec 64 := toF64 (((f64 a).mul (f64 b)).add (f64 d))

/-- Four signed byte products added to d (VDOT4.I). -/
def dot4 (a b d : BitVec 32) : BitVec 32 :=
  d + BitVec.ofInt 32 ((List.range 4).map fun n => signed (a.toNat / 256 ^ n % 256) 8 * signed (b.toNat / 256 ^ n % 256) 8).sum

def popcount (v w : Nat) : Nat := countIf (fun i => v.testBit i) (List.range w)
/-- Leading zeros of a 32-bit word. -/
def clz32 (a : BitVec 32) : Nat := if a = 0 then 32 else 31 - Nat.log2 a.toNat

def order32 (le : BitVec 32 → BitVec 32 → Bool) (a b : BitVec 32) : Option Ordering :=
  some (if a = b then .eq else if le a b then .lt else .gt)

/-- The pass of an instruction (R106, R107, R110); none for the others. -/
def vkind (i : Instr) : Option VKind :=
  match i with
  | .vaddF .. => some (.f32 true true false fun a b _ => f32Add a b)
  | .vsubF .. => some (.f32 true true false fun a b _ => toF32 ((f32 a).add (f32 b).neg))
  | .vmulF .. => some (.f32 true true false fun a b _ => toF32 ((f32 a).mul (f32 b)))
  | .vfmaF .. => some (.f32 true true true fma32)
  | .vminF .. => some (.f32 true true false fun a b _ => f32Min a b)
  | .vmaxF .. => some (.f32 true true false fun a b _ => f32Max a b)
  | .vdivF .. => some (.f32 true true false fun a b _ => toF32 ((f32 a).div (f32 b)))
  | .vsqrtF .. => some (.f32 true false false fun a _ _ => toF32 (f32 a).sqrt)
  | .vexp2F .. => some (.f32 true false false fun a _ _ => f32Exp2 a)
  | .vlog2F .. => some (.f32 true false false fun a _ _ => f32Log2 a)
  | .vrsqF .. => some (.f32 true false false fun a _ _ => f32Rsq a)
  | .vaddD .. => some (.f64 true true false fun a b _ => f64Add a b)
  | .vsubD .. => some (.f64 true true false fun a b _ => toF64 ((f64 a).add (f64 b).neg))
  | .vmulD .. => some (.f64 true true false fun a b _ => toF64 ((f64 a).mul (f64 b)))
  | .vfmaD .. => some (.f64 true true true fma64)
  | .vminD .. => some (.f64 true true false fun a b _ => f64Min a b)
  | .vmaxD .. => some (.f64 true true false fun a b _ => f64Max a b)
  | .vdivD .. => some (.f64 true true false fun a b _ => toF64 ((f64 a).div (f64 b)))
  | .vsqrtD .. => some (.f64 true false false fun a _ _ => toF64 (f64 a).sqrt)
  | .vaddI .. => some (.f32 true true false fun a b _ => a + b)
  | .vsubI .. => some (.f32 true true false fun a b _ => a - b)
  | .vmulI .. => some (.f32 true true false fun a b _ => a * b)
  | .vminI .. => some (.f32 true true false fun a b _ => if b.slt a then b else a)
  | .vmaxI .. => some (.f32 true true false fun a b _ => if a.slt b then b else a)
  | .vminu .. => some (.f32 true true false fun a b _ => if b.ult a then b else a)
  | .vmaxu .. => some (.f32 true true false fun a b _ => if a.ult b then b else a)
  | .vand .. => some (.f32 true true false fun a b _ => a &&& b)
  | .vor .. => some (.f32 true true false fun a b _ => a ||| b)
  | .vxor .. => some (.f32 true true false fun a b _ => a ^^^ b)
  | .vshl .. => some (.f32 true true false fun a b _ => a <<< (b.toNat % 32))
  | .vshr .. => some (.f32 true true false fun a b _ => a >>> (b.toNat % 32))
  | .vsra .. => some (.f32 true true false fun a b _ => a.sshiftRight (b.toNat % 32))
  | .vpopc .. => some (.f32 true false false fun a _ _ => BitVec.ofNat 32 (popcount a.toNat 32))
  | .vclz .. => some (.f32 true false false fun a _ _ => BitVec.ofNat 32 (clz32 a))
  | .vdot4I .. => some (.f32 true true true dot4)
  | .vmov .. => some (.f32 false true false fun _ b _ => b)
  | .vsel .. => some (.f32 true true true fun a b d => if d = 0 then b else a)
  | .vcvt .. => some .cvt
  | .vmxscale .. => some .mxscale
  | .vred .. => some .red
  | .vcmpF .. => some (.cmp32 (fun a b => fpOrder (f32 a) (f32 b)) false)
  | .vcmpD .. => some (.cmp64 (fun a b => fpOrder (f64 a) (f64 b)) false)
  | .vcmpI .. => some (.cmp32 (order32 BitVec.slt) false)
  | .vcmpU .. => some (.cmp32 (order32 BitVec.ult) false)
  | .vcmpkF .. => some (.cmp32 (fun a b => fpOrder (f32 a) (f32 b)) true)
  | .vcmpkD .. => some (.cmp64 (fun a b => fpOrder (f64 a) (f64 b)) true)
  | .vcmpkI .. => some (.cmp32 (order32 BitVec.slt) true)
  | .vcmpkU .. => some (.cmp32 (order32 BitVec.ult) true)
  | _ => none

/-- The fields of a vector pass; none for the other commands. -/
def vectorFields (i : Instr) : Option KFields :=
  match i with
  | .vaddF _ f | .vsubF _ f | .vmulF _ f | .vfmaF _ f | .vminF _ f | .vmaxF _ f | .vdivF _ f | .vsqrtF _ f | .vexp2F _ f
  | .vlog2F _ f | .vrsqF _ f | .vaddD _ f | .vsubD _ f | .vmulD _ f | .vfmaD _ f | .vminD _ f | .vmaxD _ f | .vdivD _ f
  | .vsqrtD _ f | .vaddI _ f | .vsubI _ f | .vmulI _ f | .vminI _ f | .vmaxI _ f | .vminu _ f | .vmaxu _ f | .vand _ f
  | .vor _ f | .vxor _ f | .vshl _ f | .vshr _ f | .vsra _ f | .vpopc _ f | .vclz _ f | .vdot4I _ f | .vmov _ f | .vsel _ f
  | .vcvt _ f | .vmxscale _ f | .vred _ f | .vcmpF _ f | .vcmpD _ f | .vcmpI _ f | .vcmpU _ f | .vcmpkF _ f | .vcmpkD _ f
  | .vcmpkI _ f | .vcmpkU _ f => some f
  | _ => none

/-- The FP32 operations, whose immediate operand is the high half of an FP32 value (R104). -/
def isFloatOp (i : Instr) : Bool :=
  match i with
  | .vaddF .. | .vsubF .. | .vmulF .. | .vfmaF .. | .vminF .. | .vmaxF .. | .vdivF .. | .vsqrtF .. | .vexp2F .. | .vlog2F ..
  | .vrsqF .. => true
  | _ => false

/-- The passes whose datapath is checked modulo 7 (R115). -/
def residueChecked (i : Instr) : Bool :=
  match i with
  | .vaddF .. | .vsubF .. | .vmulF .. | .vfmaF .. | .vaddD .. | .vsubD .. | .vmulD .. | .vfmaD .. | .vaddI .. | .vsubI ..
  | .vmulI .. | .vdot4I .. | .vred .. => true
  | _ => false

def vmode (f : KFields) : Nat := f.mod.toNat % 4
def tileA (f : KFields) : Bool := f.mod.getLsbD 2
def tileD (f : KFields) : Bool := f.mod.getLsbD 3
def immSf (f : KFields) : Nat := bits f.imm.toNat 0 4
def immDf (f : KFields) : Nat := bits f.imm.toNat 4 4
def immMx (f : KFields) : Bool := f.imm.getLsbD 11

/-- VRED's operation on 64-bit elements. -/
def redIs64 (f : KFields) : Bool := decide (bits f.imm.toNat 0 3 = 1)

/-- The length of an operation (R102). -/
def Ctx.len32 (c : Ctx) : Nat := c.beam.vl
def Ctx.len64 (c : Ctx) : Nat := min c.beam.vl 128
def Ctx.vlen (c : Ctx) (k : VKind) (f : KFields) : Nat :=
  match k with
  | .f64 .. | .cmp64 .. => c.len64
  | .cvt => if immSf f = 1 ∨ immDf f = 1 then c.len64 else c.len32
  | .red => if redIs64 f then c.len64 else c.len32
  | .f32 .. | .cmp32 .. | .mxscale => c.len32

/-! ## Operands (R104, R105) -/

def Ctx.opA (_c : Ctx) (f : KFields) : VOperand :=
  if tileA f then .chunk (f.a.toNat % 32) (bits f.imm.toNat 16 4) else .group f.a.toNat
def Ctx.opD (_c : Ctx) (f : KFields) : VOperand :=
  if tileD f then .chunk (f.dst.toNat % 32) (bits f.imm.toNat 16 4) else .group f.dst.toNat
def Ctx.opB (c : Ctx) (float : Bool) (f : KFields) : VOperand :=
  match vmode f with
  | 0 => .group f.b.toNat
  | 1 => .value (c.sVal f.b.toNat)
  | 2 => if float then .value (BitVec.ofNat 64 (65536 * (f.imm.toNat % 65536)))
    else .value ((f.imm.setWidth 16 : BitVec 16).signExtend 64)
  | _ => .ray f.b.toNat

/-- Registers of a group of `words` 32-bit words. -/
def regsOf (words : Nat) : Nat := (words + 31) / 32
/-- Registers of a 64-bit group of `n` elements. -/
def regs64 (n : Nat) : Nat := 2 * ((n + 31) / 32)

/-- The checks of a chunk operand (R105). -/
def Ctx.tileTraps (c : Ctx) (spec : Nat) : List Trap :=
  trapIf (coreIsVector c.block.core || decide (23 < spec % 32)) illegal ++
    trapIf (decide (spec % 32 ≤ 23) && decide (c.launch.params.tileRegs ≤ spec % 32)) regRange

/-- The checks of a group that may be a chunk. -/
def Ctx.wordTraps (c : Ctx) (tile : Bool) (spec regs : Nat) : List Trap :=
  if tile then c.tileTraps spec else c.groupTraps spec regs

/-- The checks of operand B. -/
def Ctx.bTraps (c : Ctx) (f : KFields) (regs : Nat) (dbl ownImm : Bool) : List Trap :=
  match vmode f with
  | 0 => c.groupTraps f.b.toNat regs
  | 1 => c.sTraps f.b.toNat
  | 2 => trapIf (dbl || ownImm) illegal
  | _ => c.groupTraps f.b.toNat (if dbl then 2 else 1)

/-- An operation without an operand B still has no mode 2 where it is 64-bit or uses IMM (R104). -/
def modeTraps (f : KFields) (bad : Bool) : List Trap := trapIf (decide (vmode f = 2) && bad) illegal

/-- The checks of a side of VCVT: a 64-bit side is a register group. -/
def Ctx.cvtTraps (c : Ctx) (tile : Bool) (spec code len : Nat) : List Trap :=
  if code = 1 then trapIf tile illegal ++ (if tile then [] else c.groupTraps spec (regs64 len))
  else c.wordTraps tile spec (regsOf ((len * cvtWidth code + 31) / 32))

/-- Every check of a vector instruction at its issue (R102 to R110). A group must have the registers of the whole length, whatever the mask
selects, for VCMPK too (log 62, DEDUCED); a chunk named where the instruction has no such operand is ILLEGAL. -/
def Ctx.vTraps (c : Ctx) (k : VKind) (f : KFields) : List Trap :=
  let n := c.vlen k f
  let noTiles := trapIf (tileA f || tileD f) illegal
  c.mskTraps f.msk ++
  match k with
  | .f32 usesA usesB _ _ =>
    (if usesA then c.wordTraps (tileA f) f.a.toNat (regsOf n) else trapIf (tileA f) illegal) ++ c.wordTraps (tileD f) f.dst.toNat (regsOf n) ++
      (if usesB then c.bTraps f (regsOf n) false false else [])
  | .f64 _ usesB _ _ =>
    noTiles ++ c.groupTraps f.a.toNat (regs64 n) ++ c.groupTraps f.dst.toNat (regs64 n) ++
      (if usesB then c.bTraps f (regs64 n) true true else modeTraps f true)
  | .cmp32 _ mask =>
    trapIf (decide (bits f.imm.toNat 0 3 = 7)) illegal ++ c.wordTraps (tileA f) f.a.toNat (regsOf n) ++
      c.bTraps f (regsOf n) false true ++
      (if mask then trapIf (tileD f || decide (f.dst.toNat = 0) || decide (7 < f.dst.toNat)) illegal
       else c.wordTraps (tileD f) f.dst.toNat (regsOf n))
  | .cmp64 _ mask =>
    noTiles ++ trapIf (decide (bits f.imm.toNat 0 3 = 7)) illegal ++ c.groupTraps f.a.toNat (regs64 n) ++
      c.bTraps f (regs64 n) true true ++
      (if mask then trapIf (decide (f.dst.toNat = 0) || decide (7 < f.dst.toNat)) illegal else c.groupTraps f.dst.toNat (regs64 n))
  | .cvt =>
    let sf := immSf f
    let df := immDf f
    trapIf (decide (12 ≤ sf) || decide (12 ≤ df)) illegal ++ modeTraps f true ++
      c.cvtTraps (tileA f) f.a.toNat sf n ++ c.cvtTraps (tileD f) f.dst.toNat df n ++
      (if immMx f then
        trapIf (!((decide (sf = 0) && cvtIsMx df) || (decide (df = 0) && cvtIsMx sf)) || decide (c.beam.vl % 32 ≠ 0) ||
          decide (vmode f ≠ 0)) illegal ++ c.groupTraps f.b.toNat (regsOf ((n / 32 + 3) / 4))
       else [])
  | .mxscale =>
    trapIf (!cvtIsMx (immDf f) || decide (c.beam.vl % 32 ≠ 0)) illegal ++ modeTraps f true ++
      c.wordTraps (tileA f) f.a.toNat (regsOf n) ++ c.wordTraps (tileD f) f.dst.toNat (regsOf ((n / 32 + 3) / 4))
  | .red =>
    trapIf (decide (bits f.imm.toNat 0 3 = 7) || tileD f || sDstBad f.dst.toNat) illegal ++ modeTraps f true ++
      (if redIs64 f then trapIf (tileA f) illegal ++ c.groupTraps f.a.toNat (regs64 n)
       else c.wordTraps (tileA f) f.a.toNat (regsOf n))

/-! ## Poisoned sources that a mask or scalar destination consumes (R116) -/

/-- The elements that VCMPK compares: 32 of them from 32 j. -/
def cmpkElements (f : KFields) : List Nat := (List.range 32).map (32 * bits f.imm.toNat 3 3 + ·)

/-- Poisoned elements of SRC_A, a group or a chunk, that a mask or a scalar takes. -/
def Ctx.consumesA (c : Ctx) (k : VKind) (f : KFields) : Bool :=
  let act := c.active f.msk (c.vlen k f)
  match k with
  | .cmp32 _ true => ((cmpkElements f).filter act.contains).any fun e => c.wordPoison (c.opA f) e
  | .cmp64 _ true => ((cmpkElements f).filter act.contains).any fun e => c.dwordPoison (.group f.a.toNat) e
  | .red => act.any fun e => if redIs64 f then c.dwordPoison (.group f.a.toNat) e else c.wordPoison (c.opA f) e
  | _ => false

/-- Poisoned elements of operand B that a mask takes. -/
def Ctx.consumesB (c : Ctx) (i : Instr) (k : VKind) (f : KFields) : Bool :=
  let act := c.active f.msk (c.vlen k f)
  let b := c.opB (isFloatOp i) f
  match k with
  | .cmp32 _ true => ((cmpkElements f).filter act.contains).any fun e => c.wordPoison b e
  | .cmp64 _ true => ((cmpkElements f).filter act.contains).any fun e => c.dwordPoison b e
  | _ => false

/-- What is checked as the instruction issues: a beam's registers hold their values until its pass is done, but a chunk's rows only once
the earlier accesses to its tile are (R98), so a chunk is checked as the pass executes. -/
def Ctx.vConsumes (c : Ctx) (i : Instr) (k : VKind) (f : KFields) : List Trap :=
  trapIf (!tileA f && c.consumesA k f) (poisonReg 1 f.a.toNat) ++ trapIf (c.consumesB i k f) (poisonReg 2 f.b.toNat)

/-! ## Reduction (R114) -/

/-- One level of the tree: positions 2m and 2m + 1 combine into m, a lone value passes, none stays empty. -/
def treeLevel {α : Type} (op : α → α → α) : List (Option α) → List (Option α)
  | some a :: some b :: t => some (op a b) :: treeLevel op t
  | some a :: none :: t => some a :: treeLevel op t
  | none :: some b :: t => some b :: treeLevel op t
  | none :: none :: t => none :: treeLevel op t
  | [a] => [a]
  | [] => []

def treeRoot {α : Type} (op : α → α → α) : Nat → List (Option α) → Option α
  | 0, l => (l.head?).bind id
  | n + 1, l => treeRoot op n (treeLevel op l)

/-- The 32-bit reductions and their identities. -/
def redOp (code : Nat) : BitVec 32 → BitVec 32 → BitVec 32 :=
  match code with
  | 0 => f32Add
  | 2 => fun a b => a + b
  | 3 => f32Min
  | 4 => f32Max
  | 5 => fun a b => if b.slt a then b else a
  | _ => fun a b => if a.slt b then b else a

def redIdentity (code : Nat) : BitVec 32 :=
  match code with
  | 3 => 0x7F800000
  | 4 => 0xFF800000
  | 5 => 0x7FFFFFFF
  | 6 => 0x80000000
  | _ => 0

def Ctx.redValue (c : Ctx) (f : KFields) : BitVec 64 :=
  let code := bits f.imm.toNat 0 3
  if redIs64 f then
    let act := c.active f.msk c.len64
    ((treeRoot f64Add 7 ((List.range 128).map fun e =>
      if act.contains e then some (c.dword (.group f.a.toNat) e) else none)).getD 0)
  else
    let act := c.active f.msk c.len32
    ((treeRoot (redOp code) 8 ((List.range 256).map fun e =>
      if act.contains e then some (c.word (c.opA f) e) else none)).getD (redIdentity code)).setWidth 64

/-! ## Conversion (R84, R85, R108) -/

/-- Element e of a packed operand of `w`-bit elements, and whether its row is poisoned. -/
def Ctx.packed (c : Ctx) (o : VOperand) (w e : Nat) : Nat × Bool :=
  if w = 64 then ((c.dword o e).toNat, c.dwordPoison o e)
  else (bits (c.word o (e * w / 32)).toNat (e * w % 32) w, c.wordPoison o (e * w / 32))

/-- The writes that store a `w`-bit element at position e. -/
def packedWrite (w e v : Nat) (poison : Bool) : List WordWrite :=
  if w = 64 then
    [{ word := 64 * (e / 32) + e % 32, mask := BitVec.allOnes 32, value := BitVec.ofNat 32 v, poison := poison },
     { word := 64 * (e / 32) + 32 + e % 32, mask := BitVec.allOnes 32, value := BitVec.ofNat 32 (v / 2 ^ 32), poison := poison }]
  else
    [{ word := e * w / 32, mask := BitVec.ofNat 32 ((2 ^ w - 1) * 2 ^ (e * w % 32)),
       value := BitVec.ofNat 32 (v % 2 ^ w * 2 ^ (e * w % 32)), poison := poison }]

def cvtRounding (f : KFields) : Rounding :=
  match bits f.imm.toNat 8 2 with
  | 0 => .nearestEven
  | 1 => .towardZero
  | 2 => .down
  | _ => .up

/-- The bits of an element that a format's conversion leaves in its place: an FP6 element's byte has zero high bits (R82). -/
def Ctx.cvtWrites (c : Ctx) (f : KFields) : List WordWrite :=
  let sf := immSf f
  let df := immDf f
  let n := if sf = 1 ∨ df = 1 then c.len64 else c.len32
  let sat := f.imm.getLsbD 10
  ((c.active f.msk n).map fun e =>
    let (x, p) := c.packed (c.opA f) (cvtWidth sf) e
    let x := if cvtIsInt sf ∨ sf = 1 ∨ sf = 0 then x else x % 2 ^ (cvtFormat sf).width
    let (s, q) := if immMx f then c.packed (.group f.b.toNat) 8 (e / 32) else (127, false)
    let v :=
      if immMx f ∧ s = 0xFF then (cvtFormat df).nanBits
      else convert sf df (cvtRounding f) sat (if immMx f then (if sf = 0 then 127 - (s : Int) else (s : Int) - 127) else 0) x
    packedWrite (cvtWidth df) e v (p || q)).flatten

def Ctx.mxscaleWrites (c : Ctx) (f : KFields) : List WordWrite :=
  let act := c.active f.msk c.len32
  ((List.range (c.len32 / 32)).map fun b =>
    let es := (List.range 32).map (32 * b + ·)
    if es.any act.contains then
      let vs := es.map fun e => if act.contains e then f32 (c.word (c.opA f) e) else .fin false 0 0
      let p := es.any fun e => act.contains e && c.wordPoison (c.opA f) e
      packedWrite 8 b (mxScale (immDf f) vs) p
    else []).flatten

/-! ## What a pass writes -/

/-- The word writes of a pass to its destination group or chunk; `fails` are the elements whose check failed again (R115). Every source
that an operation has marks its result, for VSEL all three. Log 28, DEDUCED. -/
def Ctx.vWrites (c : Ctx) (i : Instr) (k : VKind) (f : KFields) (fails : List Nat) : List WordWrite :=
  let act := c.active f.msk (c.vlen k f)
  let b := c.opB (isFloatOp i) f
  match k with
  | .f32 usesA usesB usesD g =>
    act.map fun e =>
      { word := e, mask := BitVec.allOnes 32, value := g (c.word (c.opA f) e) (c.word b e) (c.word (c.opD f) e),
        poison := (usesA && c.wordPoison (c.opA f) e) || (usesB && c.wordPoison b e) || (usesD && c.wordPoison (c.opD f) e) ||
          fails.contains e }
  | .f64 usesA usesB usesD g =>
    (act.map fun e =>
      let a : VOperand := .group f.a.toNat
      let dd : VOperand := .group f.dst.toNat
      packedWrite 64 e (g (c.dword a e) (c.dword b e) (c.dword dd e)).toNat
        ((usesA && c.dwordPoison a e) || (usesB && c.dwordPoison b e) || (usesD && c.dwordPoison dd e) || fails.contains e)).flatten
  | .cmp32 order false =>
    act.map fun e =>
      { word := e, mask := BitVec.allOnes 32, poison := c.wordPoison (c.opA f) e || c.wordPoison b e,
        value := if condition (bits f.imm.toNat 0 3) (order (c.word (c.opA f) e) (c.word b e)) then BitVec.allOnes 32 else 0 }
  | .cmp64 order false =>
    (act.map fun e =>
      let a : VOperand := .group f.a.toNat
      packedWrite 64 e (if condition (bits f.imm.toNat 0 3) (order (c.dword a e) (c.dword b e)) then 2 ^ 64 - 1 else 0)
        (c.dwordPoison a e || c.dwordPoison b e)).flatten
  | .cvt => c.cvtWrites f
  | .mxscale => c.mxscaleWrites f
  | .cmp32 _ true | .cmp64 _ true | .red => []

/-- The mask that VCMPK writes (R110). -/
def Ctx.cmpkMask (c : Ctx) (i : Instr) (k : VKind) (f : KFields) : BitVec 32 :=
  let act := c.active f.msk (c.vlen k f)
  let b := c.opB (isFloatOp i) f
  let code := bits f.imm.toNat 0 3
  BitVec.ofNat 32 (((cmpkElements f).zip (List.range 32)).map fun (e, r) =>
    let holds := match k with
      | .cmp32 order _ => condition code (order (c.word (c.opA f) e) (c.word b e))
      | .cmp64 order _ => condition code (order (c.dword (.group f.a.toNat) e) (c.dword b e))
      | _ => false
    boolNat (act.contains e && holds) * 2 ^ r).sum

/-- The ray registers that a pass reads, for the parity of the register file (R423). -/
def Ctx.vRegs (c : Ctx) (i : Instr) (k : VKind) (f : KFields) : List Nat :=
  let n := c.vlen k f
  let b := c.opB (isFloatOp i) f
  match k with
  | .f32 usesA usesB usesD _ =>
    (if usesA then (c.opA f).regs n false else []) ++ (if usesB then b.regs n false else []) ++
      (if usesD then (c.opD f).regs n false else [])
  | .f64 _ usesB usesD _ =>
    (c.opA f).regs (2 * n) true ++ (if usesB then b.regs (2 * n) true else []) ++ (if usesD then (c.opD f).regs (2 * n) true else [])
  | .cmp32 _ _ => (c.opA f).regs n false ++ b.regs n false
  | .cmp64 _ _ => (c.opA f).regs (2 * n) true ++ b.regs (2 * n) true
  | .cvt =>
    (c.opA f).regs (if immSf f = 1 then 2 * n else (n * cvtWidth (immSf f) + 31) / 32) false ++
      (if immMx f then (VOperand.group f.b.toNat).regs 2 false else [])
  | .mxscale => (c.opA f).regs n false
  | .red => (c.opA f).regs (if redIs64 f then 2 * n else n) false

/-- Commits a vector pass: registers and tiles, a mask, or a scalar; the beam goes on to its next instruction. -/
def Dev.vectorCommit (d : Dev) (c : Ctx) (i : Instr) (k : VKind) (f : KFields) (fails : List Nat) : Dev :=
  let r := c.ref
  let d := match k with
    | .cmp32 _ true | .cmp64 _ true => d.updBeam r fun b => b.kSet f.dst.toNat (c.cmpkMask i k f)
    | .red => d.updBeam r fun b => b.sWrite f.dst.toNat (c.redValue f)
    | _ => d.writeWords r (c.opD f) (c.vWrites i k f fails)
  d.updBeam r fun b => { b with pc := b.pc + 1, passOut := false }

/-! ## The sort/select unit (R111, R112) -/

def emptyEntry : Nat := 0xFFFFFFFFFFFFFFFF

/-- The active entries of SRC_A in element order. -/
def Ctx.sortEntries (c : Ctx) (f : KFields) : List Nat :=
  (c.active f.msk c.len64).map fun e => (c.dword (.group f.a.toNat) e).toNat

def Ctx.sortPoison (c : Ctx) (f : KFields) : Bool :=
  (c.active f.msk c.len64).any fun e => c.dwordPoison (.group f.a.toNat) e

def ascending (l : List Nat) : List Nat := sortBy (fun a b => decide (a ≤ b)) l

/-- Entries written to elements 0 upward of a 64-bit group. -/
def entryWrites (l : List Nat) (poison : Bool) (fails : List Nat) : List WordWrite :=
  (((List.range l.length).zip l).map fun (e, v) => packedWrite 64 e v (poison || fails.contains e)).flatten

/-! ## Parity of tile rows (R423) -/

/-- The rows of tiles that an entry reads. -/
def QEntry.readRows (e : QEntry) : NSet :=
  let tile (t : Nat) : List Nat := (List.range 128).map (128 * t + ·)
  let chunk (f : KFields) (t : Nat) : List Nat := (List.range 8).map (128 * t + 8 * bits f.imm.toNat 16 4 + ·)
  match vectorFields e.instr with
  | none => ((matrixReads e.instr).map tile).flatten
  | some f =>
    let d := match vkind e.instr with
      | some (.f32 _ _ true _) => (vectorTiles e.instr).2
      | _ => []
    (((vectorTiles e.instr).1 ++ d).map (chunk f)).flatten

/-- Parity errors of tile rows that an entry reads: the rows become poisoned (R423). -/
def Dev.tileParity (d : Dev) (e : QEntry) : Dev :=
  let mine := d.strikes.tiles.filter fun s => decide (s.1 = e.beam.launch) && decide (s.2.1 = e.beam.block)
  if mine.isEmpty then d
  else
    let rows := e.readRows
    let hit := mine.filter fun s => rows.contains s.2.2
    if hit.isEmpty then d
    else
      let d := { d with strikes := { d.strikes with tiles := d.strikes.tiles.filter fun s => !hit.contains s } }
      (d.updBlock e.beam.launch e.beam.block fun b =>
        { b with tilePoison := NSet.addAll b.tilePoison (hit.map fun s => s.2.2) }).count 0x609018 hit.length

end Sys2Proof.Machine
end

