-- ==== Sys2Proof/Machine/Kernel.lean ====
section
/-! DEFINITION. What kernels share: traps and parking (R48, R71 to R75), paths and barriers (R60 to R65, R69), asynchronous copies (R56, R58), the end of beams, blocks and launches (R47, R61), and saving a block (R77, R78). -/

namespace Sys2Proof.Machine

/-! ## Clusters and resources -/

def Ctx.clusterId (c : Ctx) : Nat := c.block.index / c.launch.params.cluster
def Dev.clusterBlocks (d : Dev) (l : Launch) (cid : Nat) : List Block :=
  d.blocks.filter fun b => decide (b.launch = l.id) && decide (b.index / l.params.cluster = cid)
def Dev.cluster (d : Dev) (launch cid : Nat) : Cluster :=
  (d.clusters.find? fun c => decide (c.launch = launch) && decide (c.index = cid)).getD { launch := launch, index := cid, phase := 0 }
def Dev.updCluster (d : Dev) (launch cid : Nat) (f : Cluster → Cluster) : Dev :=
  let rest := d.clusters.filter fun c => !(decide (c.launch = launch) && decide (c.index = cid))
  { d with clusters := rest ++ [f (d.cluster launch cid)] }

def Dev.blocksOn (d : Dev) (core : Nat) : List Block := d.blocks.filter fun b => decide (b.core = core)

/-- What a core's split and switch become once blocks have left it: the split stays in force while a block of any launch is left, and with
no block left no switch stands (R43, R45). -/
def Core.blocksLeft (k : Core) (left : List Block) : Core :=
  match left with
  | [] => { k with splitBy := none, switchReq := false, switchLate := false }
  | b :: _ =>
    { k with splitBy := match k.splitBy with
        | none => none
        | some l => if left.any (fun b => decide (b.launch = l)) then some l else some b.launch }

/-- Removes resident blocks and what the engines still hold of them. -/
def Dev.removeBlocks (d : Dev) (p : Block → Bool) : Dev :=
  let gone := d.blocks.filter p
  let out (e : QEntry) : Bool := gone.any fun b => decide (b.launch = e.beam.launch) && decide (b.index = e.beam.block)
  let d := { d with blocks := d.blocks.filter fun b => !p b }
  Dev.forEach gone (fun d g =>
    d.updCore g.core fun k =>
      Core.blocksLeft { k with matQ := k.matQ.filter fun e => !out e, movQ := k.movQ.filter fun e => !out e,
                               vecQ := k.vecQ.filter fun e => !out e, sortQ := k.sortQ.filter fun e => !out e }
        (d.blocksOn g.core)) d

/-! ## The end of a launch (R75, R314, R430) -/

/-- Ends a launch with a status: its blocks, resident and saved, are removed. -/
def Dev.endLaunch (d : Dev) (id : Nat) (status : Code) : Dev :=
  match d.launch? id with
  | none => d
  | some l =>
    let d := d.removeBlocks fun b => decide (b.launch = id)
    let d := { d with saved := d.saved.filter fun v => decide (v.block.launch ≠ id),
                      clusters := d.clusters.filter fun c => decide (c.launch ≠ id),
                      launches := d.launches.filter fun v => decide (v.id ≠ id) }
    d.endCmd l.facet l.cmd status 0

/-- A launch ends by itself once every block has ended (R314, R430). -/
def Dev.launchDone (d : Dev) (id : Nat) : Dev :=
  match d.launch? id with
  | none => d
  | some l => if l.params.gridBlocks ≤ l.ended then d.endLaunch id (if l.wrotePoison then 0x680 else 0) else d

/-! ## Parking (R71, R72, R75) -/

/-- The payload of a park glint (R72). -/
def parkPayload (cmd : Option Cmd) (b : Block) (beam pc : Nat) (t : Trap) : List Byte :=
  leBytes 2 ((cmd.map fun c => c.id.toNat).getD 0) ++ [(cmd.map Cmd.gen).getD 0, BitVec.ofNat 8 t.cause.code] ++
    leBytes 4 b.index ++ [BitVec.ofNat 8 beam, BitVec.ofNat 8 (boolNat t.reg + 2 * boolNat t.length)] ++ leBytes 2 b.core ++
    leBytes 4 pc ++ leBytes 8 t.detail

/-- The beam parks at its instruction, and its glint is posted; a trap that cannot be replayed ends a launch with ABORT_ON_FATAL. Log 34, DEDUCED. -/
def Dev.parkAt (d : Dev) (c : Ctx) (t : Trap) : Dev :=
  let d := d.updBeam c.ref fun b =>
    { b with status := .parked t.cause, passOut := false, parkedOn := match b.status with
        | .sleeping r => some r
        | _ => none }
  let d := if decide (t.cause = .poison) then d.count 0x609028 1 else d
  let cmd := (d.facet c.launch.facet).cmd? c.launch.cmd
  let d := d.glintTo c.launch.facet 0x101 (parkPayload cmd c.block c.ref.beam c.beam.pc.toNat t)
  if c.launch.params.abortOnFatal && !t.cause.replayable then d.endLaunch c.launch.id 0x164 else d

/-- A vector pass executes: a poisoned chunk that its mask or scalar would take raises POISON at the instruction (R116), else it commits. -/
def Dev.passExec (d : Dev) (c : Ctx) (i : Instr) (v : VKind) (f : KFields) (fails : List Nat) : Dev :=
  if tileA f && c.consumesA v f then d.parkAt c (poisonReg 1 f.a.toNat) else d.vectorCommit c i v f fails

/-- The next matrix instruction of a block completes ahead of its turn in the engine. -/
def Dev.matrixFirst (d : Dev) (core : Nat) (e : QEntry) : Dev :=
  ((d.tileParity e).matrixCommit e []).updCore core fun k =>
    { k with matQ := eraseFirst (fun v => decide (v.seq = e.seq)) k.matQ, movQ := eraseFirst (fun v => decide (v.seq = e.seq)) k.movQ }

/-- A pass ahead of a matrix instruction that waits for it executes. -/
def Dev.passFirst (d : Dev) (core : Nat) (w : QEntry) : Dev :=
  let d := d.updCore core fun k => { k with vecQ := eraseFirst (fun v => decide (v.seq = w.seq)) k.vecQ }
  match d.ctx? w.beam, vkind w.instr, vectorFields w.instr with
  | some c, some v, some f =>
    if !c.beam.passOut then d
    else
      let d := d.tileParity w
      d.passExec ((d.ctx? w.beam).getD c) w.instr v f []
  | _, _, _ => d

/-- Completes a block's entries in the matrix engine, oldest first, each behind the block's passes that it waits for (R98). -/
def Dev.drainMatrix (d : Dev) (b : Block) : Nat → Dev
  | 0 => d
  | fuel + 1 =>
    let k := d.core b.core
    let mine (e : QEntry) : Bool := decide (e.beam.launch = b.launch) && decide (e.beam.block = b.index)
    match leastBy QEntry.seq ((k.matQ ++ k.movQ).filter mine) with
    | none => d
    | some e =>
      match k.vecQ.filter mine with
      | w :: rest =>
        if (w :: rest).any fun w => e.waitsFor w then (d.passFirst b.core w).drainMatrix b fuel
        else (d.matrixFirst b.core e).drainMatrix b fuel
      | [] => (d.matrixFirst b.core e).drainMatrix b fuel

/-- Both queues of a block, and the passes ahead of them, are empty of its entries. -/
def Dev.drained (d : Dev) (b : Block) : Dev := d.drainMatrix b (8 + (d.core b.core).vecQ.length)

/-- Parks the beam at its instruction, its block's matrix instructions complete (R98). -/
def Dev.park (d : Dev) (c : Ctx) (t : Trap) : Dev := (d.drained c.block).parkAt c t

/-! ## Barriers (R62 to R65, R69) -/

def Block.live (b : Block) (i : Nat) : BitVec 32 :=
  match b.beams[i]? with
  | some m => ~~~ m.exited
  | none => 0

/-- Every ray of the block that has not exited is counted in an arrival table. -/
def Block.allArrived (b : Block) (arrived : Tab (BitVec 32)) : Bool :=
  (List.range b.beams.length).all fun i => decide (b.live i &&& ~~~ (Tab.get 0 arrived i) = 0)

def BarrierRef.isBlock : BarrierRef → Bool
  | .block _ => true
  | .cluster _ => false

/-- A beam that sleeps on a released barrier wakes. -/
def Beam.wake (m : Beam) (kind : Bool) : Beam :=
  match m.status with
  | .sleeping r => if r.isBlock = kind then { m with status := .running, yieldMap := none } else m
  | _ => m

/-- Beams of a cluster that woke with a halt of DEBUG_BEAM waiting for them park (R466). -/
def Dev.haltsDue (d : Dev) (l : Launch) (cid : Nat) : Dev :=
  Dev.forEach (d.clusterBlocks l cid) (fun d b =>
    Dev.forEach (List.range b.beams.length) (fun d i =>
      match d.ctx? { launch := l.id, block := b.index, beam := i } with
      | none => d
      | some c =>
        if c.beam.haltPending && decide (c.beam.status = .running) then
          (d.updBeam c.ref fun m => { m with haltPending := false }).park c (mkTrap .debugHalt 0)
        else d) d) d

/-- Completes the block's phase when every live ray has arrived: waiting rays become ready, the next phase begins with no
arrivals, the watchdog clears (R62, R64). -/
def Block.phaseDone (b : Block) : Block :=
  if b.arrived.isEmpty || !b.allArrived b.arrived then b
  else { b with phase := b.phase + 1, barId := none, arrived := [], watchdog := 0, beams := b.beams.map fun m => m.wake true }

/-- The same for the cluster's barrier; while a block of the cluster is saved the phase waits for its restore. Log 27, DEDUCED. -/
def Dev.clusterPhase (d : Dev) (l : Launch) (cid : Nat) : Dev :=
  let bs := d.clusterBlocks l cid
  let out := d.saved.any fun v => decide (v.block.launch = l.id) && decide (v.block.index / l.params.cluster = cid)
  if out || bs.all (fun b => b.cArrived.isEmpty) || !(bs.all fun b => b.allArrived b.cArrived) then d
  else
    let d := d.updCluster l.id cid fun c => { c with phase := c.phase + 1 }
    { d with blocks := updAll (fun b => decide (b.launch = l.id) && decide (b.index / l.params.cluster = cid))
               (fun b => { b with cArrived := [], watchdog := 0, beams := b.beams.map fun m => m.wake false }) d.blocks }

def Dev.released (d : Dev) (c : Ctx) (r : BarrierRef) : Bool :=
  match r with
  | .block p => match d.block? c.ref.launch c.ref.block with
    | some b => decide (p < b.phase)
    | none => true
  | .cluster p => decide (p < (d.cluster c.launch.id c.clusterId).phase)

/-! ## Paths (R60, R61) -/

/-- A popped entry's path runs on, or its beam sleeps until the entry's barrier is released. -/
def Beam.enter (m : Beam) (released : BarrierRef → Bool) (e : StackEntry) (path : BitVec 32) (join : BitVec 64) : Beam :=
  match e with
  | .reconv _ _ => { m with path := path, pc := join + 1 }
  | .pending _ start _ => { m with path := path, pc := start }
  | .wait _ resume _ r map =>
    if released r then { m with path := path, pc := resume }
    else { m with path := path, pc := resume, status := .sleeping r, yieldMap := map }

def StackEntry.mask : StackEntry → BitVec 32
  | .reconv m _ => m
  | .pending m _ _ => m
  | .wait m _ _ _ _ => m
def StackEntry.rc : StackEntry → BitVec 64
  | .reconv _ rc => rc
  | .pending _ _ rc => rc
  | .wait _ _ rc _ _ => rc

/-- An empty path acts as a JOIN at the top entry's reconvergence point, for as long as popped entries leave it empty; with an
empty stack the beam ends (R61). -/
def Beam.pathEmpty (m : Beam) (released : BarrierRef → Bool) : List StackEntry → Beam
  | [] => { m with stack := [], path := 0, status := .ended }
  | e :: rest =>
    let path := e.mask &&& ~~~ m.exited
    if path = 0 then m.pathEmpty released rest else Beam.enter { m with stack := rest } released e path e.rc

/-- JOIN at instruction p (R60). -/
def Beam.joinAt (m : Beam) (released : BarrierRef → Bool) (p : BitVec 64) : Beam :=
  match m.stack with
  | [] => { m with pc := p + 1 }
  | e :: rest =>
    if e.rc ≠ p then { m with pc := p + 1 }
    else
      let path := e.mask &&& ~~~ m.exited
      if path = 0 then m.pathEmpty released rest else Beam.enter { m with stack := rest } released e path p

/-! ## Asynchronous copies (R56, R58, R176, R428) -/

/-- Notes that a launch wrote poison (R430). -/
def Dev.notePoison (d : Dev) (launch : Nat) (p : Bool) : Dev :=
  if p then d.updLaunch launch fun l => { l with wrotePoison := true } else d

/-- The peer region of a virtual address. -/
def Dev.peerRegion (d : Dev) (f va : Nat) : Option Nat :=
  match d.translate f va with
  | .bus _ region _ _ => region
  | _ => none

/-- How many of a list of stores are performed before one to a region beyond the sixteen recorded (R226); none where all are. -/
def heldAt (regionOf : Nat → Option Nat) : List Nat → List Nat → Option Nat
  | _, [] => none
  | known, va :: rest =>
    match regionOf va with
    | none => (heldAt regionOf known rest).map (· + 1)
    | some g =>
      if known.contains g then (heldAt regionOf known rest).map (· + 1)
      else if 16 ≤ known.length then some 0
      else (heldAt regionOf (g :: known) rest).map (· + 1)

def Dev.heldStores (d : Dev) (c : Ctx) (vas : List Nat) : Option Nat :=
  heldAt (d.peerRegion c.launch.facet) ((d.core c.block.core).peerRecs.map PeerRec.region) vas

/-- A beam waits for the confirmation reads of regions, which are issued; without a link they are lost, and the launch is host-lost
(R226, R326). -/
def Dev.confirmRegions (d : Dev) (c : Ctx) (regions : List Nat) : Dev :=
  if regions = [] then d
  else if !d.mayTransmit c.launch.facet then
    (d.markHostLost c.launch.facet c.launch.cmd).updCore c.block.core fun k =>
      { k with peerRecs := k.peerRecs.filter fun e => !regions.contains e.region }
  else (d.askRegions c.block.core regions).updBeam c.ref fun m => { m with fenceWait := regions }

/-- A store to a 17th region waits for the oldest one recorded (R226). -/
def Dev.confirmOldest (d : Dev) (c : Ctx) : Dev :=
  d.confirmRegions c (((d.core c.block.core).peerRecs.map PeerRec.region).take 1)

/-- A store of a beam to a virtual address, within one line, at its point of coherence. -/
def Dev.beamWrite (d : Dev) (c : Ctx) (va : Nat) (bs : List Byte) (poison : Bool) : Dev :=
  let core := c.block.core
  let d := match d.translate c.launch.facet va with
    | .bus bus (some region) _ _ => d.updCore core fun k => { k with peerRecs := recordPeer k.peerRecs region bus }
    | _ => d
  let d := if d.reaches c.launch.facet va then d else d.markHostLost c.launch.facet c.launch.cmd
  ((d.vwriteChunk core c.launch.facet false none va bs poison).2).notePoison c.launch.id poison

/-- A read of a beam at the point of coherence, within one line: a read of host memory that a link-down loses returns poison and
marks the command (R326). -/
def Dev.beamRead (d : Dev) (c : Ctx) (va n : Nat) : ReadResult × Dev :=
  let d := if d.reaches c.launch.facet va then d else d.markHostLost c.launch.facet c.launch.cmd
  d.vreadChunk c.block.core c.launch.facet false none va n

/-- The core and physical local-array address of one line of a copy, whose local address may lie in a cluster window (R67). -/
def Dev.copyAt (d : Dev) (c : Ctx) (a : AsyncCopy) (i : Nat) : Option (Nat × Nat) :=
  (c.localTarget (a.loc + 128 * i) 128).bind fun t => d.scratchAt c.ref.launch t.1 t.2

/-- One line of a copy. -/
def Dev.copyLine (d : Dev) (c : Ctx) (a : AsyncCopy) (i : Nat) : Dev :=
  let va := a.glob.toNat + 128 * i
  match d.copyAt c a i with
  | none => d
  | some (core, p) =>
    if a.toScratch then
      let (r, d) := d.beamRead c va 128
      d.updCore core fun k => k.laStoreRow (p / 128) r.bytes (r.poison || !r.ok)
    else
      let d := d.laParity core (p / 128)
      let (bs, poison) := (d.core core).laRead p 128
      match d.translate c.launch.facet va with
      | .window g off =>
        match d.group? g with
        | some grp => (d.contribute g (off / grp.payload) (off % grp.payload / 128) bs poison c.block.core).notePoison
            c.launch.id poison
        | none => d
      | _ => d.beamWrite c va bs poison

/-- The block whose scratchpad a copy moves is resident; a copy waits for one that was switched out. Log 33, DEDUCED. -/
def Dev.copyReady (d : Dev) (c : Ctx) (a : AsyncCopy) : Bool :=
  match c.localTarget a.loc a.len with
  | some t => (d.block? c.ref.launch t.1).isSome
  | none => true

/-- A copy whose first `i` lines have moved. -/
def AsyncCopy.after (a : AsyncCopy) (i : Nat) : AsyncCopy :=
  { a with glob := a.glob + BitVec.ofNat 64 (128 * i), loc := a.loc + 128 * i, len := a.len - 128 * i }

/-- A copy completes: its lines move, and the beam has one fewer outstanding. A line stored to a 17th peer region holds the rest, and the
beam (R226). -/
def Dev.copyDone (d : Dev) (r : BeamRef) (n : Nat) : Dev :=
  match d.ctx? r with
  | none => d
  | some c =>
    match c.beam.copies[n]? with
    | none => d
    | some a =>
      let lines := List.range (a.len / 128)
      let held := if a.toScratch then none else d.heldStores c (lines.map fun i => a.glob.toNat + 128 * i)
      if !d.copyReady c a || !c.beam.fenceWait.isEmpty then d
      else
        match held with
        | none =>
          (Dev.forEach lines (fun d i => d.copyLine c a i) d).updBeam r fun b => { b with copies := b.copies.eraseIdx n }
        | some i =>
          let d := Dev.forEach (lines.take i) (fun d i => d.copyLine c a i) d
          (d.updBeam r fun b => { b with copies := b.copies.set n (a.after i) }).confirmOldest c

/-- Completes every outstanding copy of a beam that can, oldest first. -/
def Dev.copiesDone (d : Dev) (r : BeamRef) : Dev :=
  let go (acc : Nat × Dev) : Nat × Dev :=
    let left (d : Dev) : Nat := ((d.ctx? r).map fun c => c.beam.copies.length).getD 0
    let e := acc.2.copyDone r acc.1
    if left e = left acc.2 then (acc.1 + 1, e) else (acc.1, e)
  ((List.range (((d.ctx? r).map fun c => c.beam.copies.length).getD 0)).foldl (fun acc _ => go acc) (0, d)).2

/-! ## Ends (R47, R61) -/

/-- A block whose beams have all ended, their copies done, has ended; a cluster whose blocks have all ended is freed; a launch whose blocks have all
ended is due for completion. -/
def Dev.blockEnds (d : Dev) (l : Launch) (index : Nat) : Dev :=
  match d.block? l.id index with
  | none => d
  | some b =>
    if b.ended || !(b.beams.all fun m => decide (m.status = .ended) && m.copies.isEmpty) then d
    else
      let d := d.updBlock l.id index fun b => { b with ended := true }
      let d := d.updLaunch l.id fun l => { l with ended := l.ended + 1 }
      let cid := index / l.params.cluster
      let bs := d.clusterBlocks l cid
      let d := if decide (bs.length = l.params.cluster) && bs.all Block.ended then
          d.removeBlocks fun b => decide (b.launch = l.id) && decide (b.index / l.params.cluster = cid)
        else d
      d.launchDone l.id

/-- What follows from a beam's new path or exits: its copies complete if it ended, the phases that its exits complete, and the
ends of its block and launch. Log 33, DEDUCED. -/
def Dev.afterPath (d : Dev) (c : Ctx) : Dev :=
  let ended : Bool := match d.ctx? c.ref with
    | some c => decide (c.beam.status = .ended)
    | none => false
  let d := if ended then d.copiesDone c.ref else d
  let d := d.updBlock c.ref.launch c.ref.block Block.phaseDone
  let d := (d.clusterPhase c.launch c.clusterId).haltsDue c.launch c.clusterId
  d.blockEnds c.launch c.ref.block

/-! ## Issue (R48, R64, R99) -/

/-- The watchdog's limit of a launch (R40). -/
def Launch.watchdogLimit (l : Launch) : Nat := 2 ^ (if l.params.watchdogLog2 = 0 then 32 else l.params.watchdogLog2)

/-- A phase of the block's barrier or of its cluster's has at least one arrival. -/
def Dev.arrivals (d : Dev) (c : Ctx) : Bool :=
  !c.block.arrived.isEmpty || (d.clusterBlocks c.launch c.clusterId).any fun b => !b.cArrived.isEmpty

/-- The count stands at the limit: the block parks before any further issue. -/
def Dev.watchdogDue (d : Dev) (c : Ctx) : Bool := d.arrivals c && decide (c.launch.watchdogLimit ≤ c.block.watchdog)

/-- The beam is ready, its next instruction and unit apart (R48). -/
def Dev.beamReady (d : Dev) (c : Ctx) : Bool :=
  decide (c.beam.status = .running) && !c.beam.passOut && c.beam.fenceWait.isEmpty && !d.watchdogDue c && !c.block.ended &&
    !(d.core c.block.core).gated &&
    (decide ((d.die (coreDie c.block.core)).state = .on) || decide ((d.die (coreDie c.block.core)).state = .dim))

/-- Matrix issue is gated by droop, over-current or the Halt step; vector issue by the Halt step (R401, R403, R404). -/
def Dev.matrixGated (d : Dev) (core : Nat) : Bool :=
  NSet.has (d.die (coreDie core)).droop (coreRow core) || d.power.overcurrent || decide ((d.die (coreDie core)).thermal = 3)
def Dev.vectorGated (d : Dev) (core : Nat) : Bool := decide ((d.die (coreDie core)).thermal = 3)

/-! ## Saving a block (R77, R78, R98, R229) -/

/-- A live-map entry (R76). -/
structure LiveMap where
  rays    : BitVec 192
  tiles   : BitVec 24
  scratch : Nat

def liveMapOf (bs : List Byte) : LiveMap :=
  { rays := BitVec.ofNat 192 (leAt bs 0 24), tiles := BitVec.ofNat 24 (leAt bs 24 4), scratch := leAt bs 28 4 }

/-- The yield point where a beam stands, if it stands at one. Log 27, DEDUCED. -/
def Beam.yieldAt (m : Beam) : Option Nat :=
  match m.status with
  | .yielded i => some i
  | .sleeping _ => m.yieldMap
  | _ => none

/-- Reads the live-map entries of the beams that have not ended; none where one stands at no yield point, or an entry cannot be
read or is poisoned. -/
def Dev.liveMaps (d : Dev) (l : Launch) (b : Block) : Option (List (Nat × LiveMap)) × Dev :=
  (List.range b.beams.length).foldl (fun (acc : Option (List (Nat × LiveMap)) × Dev) i =>
    match acc.1, b.beams[i]? with
    | some maps, some m =>
      if decide (m.status = .ended) then acc
      else
        match m.yieldAt with
        | none => (none, acc.2)
        | some n =>
          let (r, d) := acc.2.gread l.facet (l.params.liveMapAddr.toNat + 16 + 48 * n) 48
          if r.ok && !r.poison then (some (maps ++ [(i, liveMapOf r.bytes)]), d) else (none, d)
    | _, _ => acc) (some [], d)

/-- Registers that an entry does not name hold unstated values after the restore. -/
def Beam.dropDead (m : Beam) (l : LiveMap) (draw : Nat) : Beam :=
  let dead := (List.range 192).filter fun r => !l.rays.getLsbD r
  let m := dead.foldl (fun (m : Beam) r =>
    (List.range 32).foldl (fun m i => m.gSet r i (Config.deadWord draw (32 * r + i))) m) m
  { m with gPoison := m.gPoison.filter fun r => l.rays.getLsbD r }

def Block.dropDeadTiles (b : Block) (live : BitVec 24) (count draw : Nat) : Block :=
  let dead := (List.range count).filter fun t => !live.getLsbD t
  let b := dead.foldl (fun (b : Block) t =>
    { b with tiles := (List.range 4096).foldl (fun m w =>
        Mem.write m (16384 * t + 4 * w) (leBytes 4 (Config.deadWord draw (6144 + 4096 * t + w)).toNat)) b.tiles }) b
  { b with tilePoison := b.tilePoison.filter fun r => live.getLsbD (r / 128) || decide (count ≤ r / 128) }

/-- Bytes of a whole save (R78). -/
def Launch.wholeSize (l : Launch) : Nat :=
  256 + (l.params.rays + 31) / 32 * (1024 + 128 * 8 * l.params.rayRegs) + 16384 * l.params.tileRegs + l.params.scratchBytes

/-- Completes the block's entries in the matrix engine, and drops its vector passes, before its state is saved (R98). -/
def Dev.drainBlock (d : Dev) (b : Block) : Dev :=
  let mine (e : QEntry) : Bool := decide (e.beam.launch = b.launch) && decide (e.beam.block = b.index)
  (d.drained b).updCore b.core fun k => { k with vecQ := k.vecQ.filter fun e => !mine e, sortQ := k.sortQ.filter fun e => !mine e }

/-- A beam stands in the save as it stood: one stopped at a YIELD resumes after it, one asleep at a barrier that is a yield point still
stands at it, and one whose vector pass had not completed issues it again. -/
def Beam.saved (m : Beam) : Beam :=
  match m.status with
  | .yielded _ => { m with passOut := false, status := .running, yieldMap := none }
  | _ => { m with passOut := false }

/-- Saves a resident block and frees its resources. `whole` forces a whole save; a frozen facet's block goes to its store. -/
def Dev.saveBlock (d : Dev) (launch index : Nat) (whole frozen : Bool) : Dev :=
  match d.launch? launch, d.block? launch index with
  | some l, some b =>
    let d := Dev.forEach (List.range b.beams.length) (fun d i => d.copiesDone { launch := launch, block := index, beam := i }) d
    let d := d.drainBlock b
    let b := (d.block? launch index).getD b
    let (maps, d) := if whole then (none, d) else d.liveMaps l b
    let draw := d.freeCount
    let k := d.core b.core
    let (b', size, keep, d) : Block × Nat × Nat × Dev := match maps with
      | none => (b, l.wholeSize, l.params.scratchBytes, d)
      | some maps =>
        let tiles := maps.foldl (fun (m : BitVec 24) e => m ||| e.2.tiles) 0
        let scratch := maps.foldl (fun m e => max m e.2.scratch) 0
        let beams := maps.foldl (fun (l : List Beam) e => updAt (fun m => m.dropDead e.2 (draw + e.1)) e.1 l) b.beams
        let size := 256 + (maps.map fun e => 1024 + 128 * popcount e.2.rays.toNat 192).sum + 16384 * popcount tiles.toNat 24 + scratch
        (Block.dropDeadTiles { b with beams := beams } tiles l.params.tileRegs (draw + 32), size,
          min scratch l.params.scratchBytes, { d with freeCount := draw + 33 })
    let rows := (List.range (keep / 128)).filter fun r => NSet.has k.laPoison (b.scratch / 128 + r)
    let v : SavedBlock :=
      { block := { b' with beams := b'.beams.map Beam.saved }, bytes := Mem.slice k.la b.scratch keep, keep := keep, poison := rows,
        size := size, frozen := frozen, accepted := l.accepted }
    ({ d with saved := d.saved ++ [v] }).removeBlocks fun x => decide (x.launch = launch) && decide (x.index = index)
  | _, _ => d

/-- Completes the outstanding copies of a block's beams. -/
def Dev.blockCopies (d : Dev) (b : Block) : Dev :=
  Dev.forEach (List.range b.beams.length) (fun d i => d.copiesDone { launch := b.launch, block := b.index, beam := i }) d

/-- Saves every block of the clusters that have a block on a core: a saved cluster is restored as a unit (R79). -/
def Dev.saveCore (d : Dev) (core : Nat) (whole frozen : Bool) : Dev :=
  Dev.forEach (d.blocksOn core) (fun d b =>
    match d.launch? b.launch with
    | none => d
    | some l =>
      let bs := d.clusterBlocks l (b.index / l.params.cluster)
      Dev.forEach bs (fun d b => d.saveBlock b.launch b.index whole frozen) (Dev.forEach bs Dev.blockCopies d)) d

end Sys2Proof.Machine
end

