-- ==== Sys2Proof/Machine/ServingOps.lean ====
section
/-! DEFINITION. What serving, facets and core retirement share: cores that pass between works (R122, R366), HBM quotas (R365), sessions, sequences and batches (R268 to R286), models and hot-set slots (R274 to R282). -/

namespace Sys2Proof.Machine

/-! ## Cores that pass between works (R122, R366) -/

/-- Writes back every modified line of an L1, releases every line and leaves it empty (R122). -/
def Dev.flushL1 (d : Dev) (c : Nat) : Dev :=
  Dev.forEach (d.core c).l1 (fun d l =>
    let d := d.updCore c fun k => k.l1Drop l.line
    let d := if decide (l.state = .modified) then
        (d.updCore c fun k => { k with wbuf := k.wbuf ++ [(l.line, l.data)] }).post { mkMsg .wb c l.line with data := l.data }
      else d.post (mkMsg .evc c l.line)
    d.settle l.line) d

/-- Zeroes a core's register file and local array with their poison. -/
def Dev.zeroCore (d : Dev) (c : Nat) : Dev :=
  { (d.updCore c fun k => { k with la := [], laPoison := [] }) with
    strikes := { d.strikes with la := d.strikes.la.filter fun e => decide (e.1 ≠ c) } }

/-- The work numbers of `Core.lastWork`. -/
def facetWork (f : Nat) : Nat := f + 1
def slotWork : Nat := 100

/-- A core takes work: where its last work was another, it flushes its L1 and zeroes what the incoming work can read (R366). -/
def Dev.takeCore (d : Dev) (c work : Nat) : Dev :=
  if (d.core c).lastWork = work then d
  else ((d.flushL1 c).zeroCore c).updCore c fun k => { k with lastWork := work }

/-- Clears a core's retention mark (R124). -/
def Dev.clearRetain (d : Dev) (c : Nat) : Dev := { d with cache := { d.cache with retain := NSet.del d.cache.retain c } }

/-! ## The lehr's cores (R244) -/

/-- The lehr has its cores, its staging ring and its root store, or is about to start. -/
def Lehr.held (l : Lehr) : Bool := l.running || l.starting.isSome
def Dev.isLehrDie (d : Dev) (base : Nat) : Bool := d.lehr.held && d.lehr.dies.getLsbD base
def Dev.isLehrCore (d : Dev) (c : Nat) : Bool := d.isLehrDie (coreBase c)

/-- The cores of some base dies. -/
def basesCores (dies : BitVec 4) : List Nat := allCores.filter fun c => dies.getLsbD (coreBase c)

/-- `Core.lastWork` of a lehr core. -/
def lehrWork : Nat := 101

/-- No block is left on the lehr's cores. -/
def Dev.lehrFree (d : Dev) : Bool := (basesCores d.lehr.dies).all fun c => (d.blocksOn c).isEmpty
/-- The lehr takes its cores, and runs. -/
def Dev.lehrTakes (d : Dev) : Dev :=
  (Dev.forEach (basesCores d.lehr.dies) (fun d c => d.takeCore c lehrWork) d).updLehr fun l => { l with running := true, starting := none }

/-! ## HBM quotas (R267, R364, R365), in 2 MiB pages -/

def Dev.hbmPages (d : Dev) : Nat := d.hbmBytes / pageBytes
/-- The gaffer reserve: 24 GiB + 16 MiB (R267). -/
def reservePages : Nat := 12296
/-- The quotas of facets 1 to 63. -/
def Dev.reservedPages (d : Dev) : Nat :=
  ((d.facets.filter fun e => decide (e.1 ≠ 0) && decide (e.2.state ≠ .absent)).map fun e => e.2.quota.hbmPages).sum
/-- A facet's quota: facet 0 has the remainder. -/
def Dev.hbmQuota (d : Dev) (f : Nat) : Nat :=
  if f = 0 then d.hbmPages - reservePages - d.reservedPages else (d.facet f).quota.hbmPages

/-- Log 36, DEDUCED. -/
def pagesOf (bytes : Nat) : Nat := (bytes + pageBytes - 1) / pageBytes

/-- Whether a frame number lies in HBM. -/
def frameIsHbm (frame : Nat) : Bool := !lineIsFar (frame * pageLines)

def Dev.model? (d : Dev) (num : Nat) : Option Model := d.serving.models.find? fun m => decide (m.num = num)
def Dev.updModel (d : Dev) (num : Nat) (g : Model → Model) : Dev :=
  d.updServing fun v => { v with models := updFirst (fun m => decide (m.num = num)) g v.models }
def Model.ref? (m : Model) (f : Nat) : Option ModelRef := m.refs.find? fun r => decide (r.facet = f)
/-- KV bytes of a token, as the facet registered the model. -/
def Model.kvFor (m : Model) (f : Nat) : Nat := ((m.ref? f).map ModelRef.kvBytes).getD 0
def Model.hasRef (m : Model) (f : Nat) : Bool := m.refs.any fun r => decide (r.facet = f)
/-- The facets that reference an entry. -/
def Model.facets (m : Model) : List Nat := NSet.addAll [] (m.refs.map ModelRef.facet)

/-- KV bytes that a facet's joined sequences hold (R284). -/
def Dev.kvBytes (d : Dev) (f : Nat) : Nat :=
  ((d.serving.sessions.filter fun s => decide (s.facet = f)).map fun s =>
    (s.seqs.map fun q => q.kvPages * 64 * ((d.model? s.model).map fun m => m.kvFor f).getD 0).sum).sum

/-- A facet references an entry of a digest without COLD; or any facet does. -/
def Dev.keepsWarm (d : Dev) (digest : BitVec 256) (f : Option Nat) : Bool :=
  d.serving.models.any fun m => decide (m.digest = digest) && m.refs.any fun r => (f.isNone || decide (f = some r.facet)) && !r.cold

/-- Warm-copy pages charged to a facet (R275): the full size of each warm copy that it uses. Log 45, DEDUCED. -/
def Dev.warmPages (d : Dev) (f : Nat) : Nat :=
  ((d.serving.warms.filter fun w => d.keepsWarm w.digest (some f)).map fun w => pagesOf w.bytes).sum

/-- Pages of a facet's frozen-block store: as a freeze took them, and after RESUME as its waiting blocks need them (R374). -/
def Dev.storeUse (d : Dev) (f : Nat) (x : Facet) : Nat :=
  if x.state.quiet then x.storePages
  else min x.storePages (pagesOf ((d.saved.filter fun v => v.frozen && decide (v.block.facet = f)).map SavedBlock.size).sum)

/-- Facet 0's pages that the gaffer holds: the audit mirror (R460), the staging ring (R244), frozen-block stores (R374) and
dirty-log shadows (R382). -/
def Dev.managerPages (d : Dev) : Nat :=
  128 + (if d.lehr.held then 128 else 0) + (d.facets.map fun e => d.storeUse e.1 e.2).sum +
    pagesOf ((d.facets.map fun e => if e.2.log.on then e.2.log.size / 32768 else 0).sum)

/-- Log 36, DEDUCED. -/
def Dev.hbmUsed (d : Dev) (f : Nat) : Nat :=
  countIf (fun p => frameIsHbm p.frame) (d.facet f).pages + pagesOf (d.kvBytes f) + d.warmPages f +
    (if f = 0 then d.managerPages else 0)

/-- Pages that the facet's quota still grants. Log 36, DEDUCED. -/
def Dev.hbmFree (d : Dev) (f : Nat) : Nat := d.hbmQuota f - d.hbmUsed f

/-! ## Sessions (R268 to R273) -/

def Dev.session? (d : Dev) (num : Nat) : Option Session := d.serving.sessions.find? fun s => decide (s.num = num)
def Dev.updSession (d : Dev) (num : Nat) (g : Session → Session) : Dev :=
  d.updServing fun v => { v with sessions := updFirst (fun s => decide (s.num = num)) g v.sessions }

/-- The open session of a facet that an identifier names. -/
def Dev.sessionOf (d : Dev) (f id : Nat) : Option Session :=
  d.serving.sessions.find? fun s => decide (s.num = id % 65536) && decide (s.gen.toNat = id / 65536) && decide (s.facet = f)

def Session.id (s : Session) : Nat := s.num + 65536 * s.gen.toNat
/-- No pending input, shortlists among it, and no sequence waiting or joined (R269, R295). -/
def Session.quiet (s : Session) : Bool := s.seqs.isEmpty && s.shortlists.isEmpty && s.closing.isNone
def Session.idle (s : Session) : Bool := !s.spilled && s.quiet
def Dev.residentSessions (d : Dev) : Nat := countIf (fun s => !s.spilled) d.serving.sessions
def Dev.openSessions (d : Dev) (f : Nat) : Nat := countIf (fun s => decide (s.facet = f)) d.serving.sessions

/-- The activity counter advances and is copied into the session (R269). -/
def Dev.sessionActive (d : Dev) (num : Nat) : Dev :=
  let n := d.serving.activity + 1
  (d.updServing fun v => { v with activity := n }).updSession num fun s => { s with activity := n }

/-- The IDLE session with the lowest activity number. -/
def Dev.spillVictim (d : Dev) : Option Session := leastBy Session.activity (d.serving.sessions.filter Session.idle)

/-- An input that names a SPILLED session queues it for restore (R271). -/
def Dev.queueRestore (d : Dev) (s : Session) : Dev :=
  if s.spilled && !d.serving.restoreQ.contains s.num then d.updServing fun v => { v with restoreQ := v.restoreQ ++ [s.num] } else d

/-- Spills a session (R270, R271). -/
def Dev.spill (d : Dev) (num : Nat) : Dev := (d.updSession num fun s => { s with spilled := true }).count 0x605018 1

/-- Sequences of a session that have not joined. -/
def Session.pending (s : Session) : Nat := countIf (fun q => !q.joined) s.seqs

/-- The core of a model's slot that writes its sequences' outputs. Log 42, DESIGN CHOICE. -/
def Dev.outputCore (d : Dev) (model : Nat) : Nat :=
  ((d.serving.slots.find? fun s => decide (s.model = model)).bind fun s => s.cores.getLast?).getD 1024

/-- Writes a sequence's output; a peer region it writes is recorded for the barrier of its command, and a 17th replaces the oldest, whose read
is issued (R226, R232). Log 42, DESIGN CHOICE. -/
def Dev.outputWrite (d : Dev) (model f va : Nat) (bs : List Byte) : Dev :=
  let core := d.outputCore model
  let d := match d.translate f va with
    | .bus bus (some region) _ _ =>
      let d := if heldAt some ((d.core core).peerRecs.map PeerRec.region) [region] = none then d
        else
          let d := d.askRegions core (((d.core core).peerRecs.map PeerRec.region).take 1)
          d.updCore core fun k => { k with peerRecs := k.peerRecs.drop 1 }
      d.updCore core fun k => { k with peerRecs := recordPeer k.peerRecs region bus }
    | _ => d
  d.gwrite f va bs

/-- The output header of a sequence that leaves (R286). -/
def Dev.outputHeader (d : Dev) (model : Nat) (q : Sequence) (stop : Nat) : Dev :=
  d.outputWrite model q.facet q.outVa ([1, BitVec.ofNat 8 stop, 0, 0] ++ leBytes 4 q.made ++ leBytes 56 0)

/-- A sequence leaves with its END code and status: header, pages and command (R273, R285, R286). -/
def Dev.endSequence (d : Dev) (num serial stop : Nat) (status : Code) : Dev :=
  match d.session? num with
  | none => d
  | some s =>
    match s.seqs.find? fun q => decide (q.serial = serial) with
    | none => d
    | some q =>
      let d := d.outputHeader s.model q stop
      let d := d.updSession num fun s => { s with seqs := eraseFirst (fun q => decide (q.serial = serial)) s.seqs }
      d.endCmd q.facet q.serial status q.made

/-- A session's number is free: its generation is one higher at its next use (R268). -/
def Dev.dropSession (d : Dev) (num : Nat) : Dev :=
  match d.session? num with
  | none => d
  | some s =>
    d.updServing fun v =>
      { v with sessions := eraseFirst (fun s => decide (s.num = num)) v.sessions, gens := Tab.set 0 v.gens num (s.gen + 1),
               restoreQ := v.restoreQ.filter fun n => decide (n ≠ num) }

/-- The closes of a model's sessions that waited for joined sequences complete once those have left (R273). -/
def Dev.closesDone (d : Dev) (model : Nat) : Dev :=
  Dev.forEach (d.serving.sessions.filter fun s => decide (s.model = model) && !s.seqs.any Sequence.joined) (fun d s =>
    match s.closing with
    | none => d
    | some fn => (d.dropSession s.num).mbxFinish fn 0 []) d

/-- Closes a session with FORCE (R273): pending sequences are removed at once; a joined one is cancelled and leaves at the next
step boundary, where the close completes for the mailbox of `fn`. Answers whether the session is closed. -/
def Dev.closeSession (d : Dev) (num : Nat) (fn : Option Nat) : Bool × Dev :=
  match d.session? num with
  | none => (true, d)
  | some s =>
    let d := Dev.forEach (s.seqs.filter fun q => !q.joined) (fun d q => d.endSequence num q.serial 2 0x126) d
    if s.seqs.any Sequence.joined then
      (false, d.updSession num fun s =>
        { s with closing := some (fn.getD 64), seqs := s.seqs.map fun q => { q with cancelled := true } })
    else (true, d.dropSession num)

/-! ## Warm copies (R134, R275, R279, R434) -/

/-- Warm-copy lines by line number. -/
def WarmCopy.line (w : WarmCopy) (i : Nat) : Nat := w.frames[i / pageLines]?.getD 0 * pageLines + i % pageLines
def WarmCopy.lines (w : WarmCopy) : List Nat := (List.range ((w.bytes + 127) / 128)).map w.line
def Dev.warmOf (d : Dev) (digest : BitVec 256) : Option WarmCopy := d.serving.warms.find? fun w => decide (w.digest = digest)

/-- Writes an image into its warm copy with full-line writes, which clear P. -/
def Dev.writeWarm (d : Dev) (w : WarmCopy) (image : List Byte) : Dev :=
  Dev.forEach ((List.range w.lines.length).zip w.lines) (fun d e =>
    let bs := (image.drop (128 * e.1)).take 128
    (d.writeHome agentGaffer 0 0 false (128 * e.2) (bs ++ List.replicate (128 - bs.length) 0) false).2) d

/-- The image from its warm copy, where every line reads clean. -/
def Dev.readWarm (d : Dev) (w : WarmCopy) : Option (List Byte) × Dev :=
  let (r, d) := w.lines.foldl (fun (acc : (List Byte × Bool) × Dev) l =>
    let (m, d) := acc.2.access (mkReq .rdNc agentGaffer 0 0 l)
    ((acc.1.1 ++ m.data, acc.1.2 || m.poison), d)) (([], false), d)
  (if r.2 then none else some (r.1.take w.bytes), d)

/-- The gaffer pins (op 1) or unpins (op 2) the lines of a warm copy as facet 0; a refused pin changes nothing (R133, R134). -/
def Dev.pinWarm (d : Dev) (w : WarmCopy) (op : BitVec 4) : Dev :=
  Dev.forEach w.lines (fun d l => (d.access { mkReq .cctl agentGaffer 0 0 l with op := op }).2) d

/-! ## Models and slots (R274 to R282) -/

def slotBytes : Nat := 4718592
/-- C_m (R278). -/
def Model.cores (m : Model) : Nat := (m.weightBytes + slotBytes - 1) / slotBytes

def Dev.slot? (d : Dev) (num : Nat) : Option Slot := d.serving.slots.find? fun s => decide (s.num = num)
def Dev.slotOf (d : Dev) (model : Nat) : Option Slot := d.serving.slots.find? fun s => decide (s.model = model)
def Dev.updSlot (d : Dev) (num : Nat) (g : Slot → Slot) : Dev :=
  d.updServing fun v => { v with slots := updFirst (fun s => decide (s.num = num)) g v.slots }

/-- Sequences of a model's sessions, with their session. -/
def Dev.sequences (d : Dev) (model : Nat) : List (Session × Sequence) :=
  ((d.serving.sessions.filter fun s => decide (s.model = model)).map fun s => s.seqs.map fun q => (s, q)).flatten
def Dev.batch (d : Dev) (model : Nat) : List (Session × Sequence) := (d.sequences model).filter fun e => e.2.joined

def Model.pinnedBy (m : Model) : Bool := m.refs.any ModelRef.pinned

/-- Evictable (R280): unpinned, an empty batch, and no sequence that waits to join, those of frozen facets apart. A partition's
resident model never is. -/
def Dev.evictable (d : Dev) (s : Slot) : Bool :=
  decide (s.num < 16) && !(((d.model? s.model).map Model.pinnedBy).getD false) &&
    (d.sequences s.model).all fun e => !e.2.joined && decide ((d.facet e.2.facet).state = .frozen)

/-- U_f: a facet's hot-set cores, each slot's divided equally among the facets that reference it (R280). -/
def Dev.hotCores (d : Dev) (f : Nat) : Rat :=
  ((d.serving.slots.filter fun s => decide (s.num < 16)).map fun s =>
    match d.model? s.model with
    | some m => if m.hasRef f then ((m.cores : Nat) : Rat) / (m.facets.length : Rat) else 0
    | none => 0).sum

/-- Cores of a facet's pinned slots, counted as in U_f. -/
def Dev.pinnedCores (d : Dev) (f : Nat) : Rat :=
  ((d.serving.models.filter fun m => m.refs.any fun r => decide (r.facet = f) && r.pinned).map fun m =>
    ((m.cores : Nat) : Rat) / (m.facets.length : Rat)).sum

/-- Releases a slot's cores: their weights are zeroed and their retention marks cleared (R277, R366). -/
def Dev.freeSlotCores (d : Dev) (cores : NSet) : Dev :=
  Dev.forEach cores (fun d c => ((d.flushL1 c).zeroCore c).clearRetain c |>.updCore c fun k => { k with lastWork := 0 }) d

/-- A loaded hot-set slot holds a model of this digest. -/
def Dev.hotDigest (d : Dev) (digest : BitVec 256) : Bool :=
  d.serving.slots.any fun s => decide (s.num < 16) && s.loaded && decide ((d.model? s.model).map Model.digest = some digest)

/-- A slot ends: its weights are discarded, and a running step is abandoned. Weights that no hot slot holds any more are unpinned. -/
def Dev.releaseSlot (d : Dev) (num : Nat) : Dev :=
  match d.slot? num with
  | none => d
  | some s =>
    let d := (d.freeSlotCores s.cores).updServing fun v => { v with slots := v.slots.filter fun s => decide (s.num ≠ num) }
    match (d.model? s.model).bind fun m => d.warmOf m.digest with
    | some w => if s.loaded && decide (num < 16) && !d.hotDigest w.digest then d.pinWarm w 2 else d
    | none => d

/-- Evicts a slot (R280, R291), which is counted. -/
def Dev.evictSlot (d : Dev) (num : Nat) : Dev :=
  if (d.slot? num).isNone then d else (d.releaseSlot num).count 0x605030 1

/-- A matrix core that a hot slot or a partition's model can take: not retired, no lehr core, not on a die under reset, no other
slot's, and with no block on it; a partition's cores serve its own facet only (R278, R282, R365). -/
def Dev.slotCoreFree (d : Dev) (partition : Option Nat) (c : Nat) : Bool :=
  let held := d.serving.slots.any fun s => NSet.has s.cores c
  let mine := match partition with
    | some f => d.coreOfFacet f c
    | none => d.coreOfFacet 0 c
  mine && !d.coreRetired c && !d.isLehrCore c && !d.dieResets (coreDie c) && !held && (d.blocksOn c).isEmpty

/-- Takes `n` of the candidates: whole rows where it can, lowest row first, then the lowest cores that are left (R278). Log 35, DESIGN CHOICE. -/
def wholeRowsFirst (n : Nat) (cands : NSet) : NSet :=
  let rows := (List.range 96).filter fun r => (List.range 8).all fun i => cands.contains (8 * r + i)
  let whole := ((rows.take (n / 8)).map fun r => (List.range 8).map fun i => 8 * r + i).flatten
  let rest := cands.filter fun c => !whole.contains c
  NSet.addAll [] (whole ++ rest.take (n - whole.length))

/-- H_f and the overshoot U_f − H_f by which evictable slots are ranked, largest first, then by the lowest activity number of the last
step (R280). -/
def Dev.overshoot (d : Dev) (s : Slot) : Rat :=
  (((d.model? s.model).map Model.facets).getD []).foldl (fun m f => max m (d.hotCores f - ((d.facet f).quota.share : Rat))) (-768)
def Dev.evictRank (d : Dev) : List Slot :=
  sortBy (fun a b => decide (d.overshoot b < d.overshoot a) || (decide (d.overshoot a = d.overshoot b) && decide (a.lastStep ≤ b.lastStep)))
    (d.serving.slots.filter d.evictable)

/-- Free slots of the hot set. -/
def Dev.freeSlot (d : Dev) : Option Nat := (List.range 16).find? fun n => (d.slot? n).isNone

/-- The facet whose partition a model is resident in (R282). -/
def Model.owner (m : Model) : Option Nat := if m.partition then m.facets.head? else none

/-- Matrix cores that a partition's registered models take. -/
def Dev.partitionNeed (d : Dev) (f : Nat) : Nat := ((d.serving.models.filter fun m => m.partition && m.hasRef f).map Model.cores).sum
/-- Matrix cores of a partition that are not retired. -/
def Dev.partitionCores (d : Dev) (f : Nat) : Nat := countIf (fun c => d.coreOfFacet f c && !d.coreRetired c) (List.range 768)

/-- Cores that are awake come before gated ones (R406). Log 35, DESIGN CHOICE. -/
def Dev.slotCores (d : Dev) (partition : Option Nat) (n : Nat) : Option NSet :=
  let cands := (List.range 768).filter (d.slotCoreFree partition)
  let awake := cands.filter fun c => !(d.core c).gated
  if n ≤ awake.length then some (wholeRowsFirst n awake)
  else if n ≤ cands.length then some (NSet.addAll awake (wholeRowsFirst (n - awake.length) (cands.filter fun c => (d.core c).gated)))
  else none

/-- The slot that a model's load takes: a free one of the hot set, or for a partition's model a number from 16. -/
def Dev.slotNumFor (d : Dev) (m : Model) : Option Nat :=
  if m.partition then some (16 + ((List.range 257).find? fun i => (d.slot? (16 + i)).isNone).getD 256) else d.freeSlot
/-- A slot and cores are free for a model. -/
def Dev.slotFits (d : Dev) (m : Model) : Bool := (d.slotNumFor m).isSome && (d.slotCores m.owner m.cores).isSome

/-- Evicts evictable slots by rank until a slot and enough cores are free for a model, or none is left; a partition's model evicts none
(R280, R282). -/
def Dev.evictUntil (m : Model) : Nat → Dev → Dev
  | 0, d => d
  | fuel + 1, d =>
    if m.partition || d.slotFits m then d
    else match d.evictRank with
      | [] => d
      | s :: _ => Dev.evictUntil m fuel (d.evictSlot s.num)

/-- A model asks for a slot, or for cores of its partition. -/
def Dev.askSlot (d : Dev) (model : Nat) : Dev :=
  if (d.slotOf model).isSome || d.serving.slotQ.any fun a => decide (a.model = model) then d
  else ({ d with nextAccept := d.nextAccept + 1 } : Dev).updServing fun v =>
    { v with slotQ := v.slotQ ++ [{ model := model, accepted := d.nextAccept, passed := 0 }] }
/-- A model asks no longer. -/
def Dev.dropAsk (d : Dev) (model : Nat) : Dev :=
  d.updServing fun v => { v with slotQ := v.slotQ.filter fun a => decide (a.model ≠ model) }

/-- Ends every pending and joined sequence of a model (R279, R282, R434); closes that waited for them complete. -/
def Dev.endSequences (d : Dev) (model stop : Nat) (status : Code) : Dev :=
  (Dev.forEach (d.sequences model) (fun d e => d.endSequence e.1.num e.2.serial stop status) d).closesDone model

end Sys2Proof.Machine
end

