-- ==== Sys2Proof/Machine/Retire.lean ====
section
/-! DEFINITION. Error scores and core retirement (R26, R438, R439). -/

namespace Sys2Proof.Machine

/-- A slot whose core is lost is evicted; a hot model whose sequences remain waits for a slot again, and a partition's model for the cores that
are left, or where they do not hold the partition's models its sequences complete with PARTITION_FULL (R437, R439). -/
def Dev.slotLosesCore (d : Dev) (c : Nat) : Dev :=
  match d.serving.slots.find? fun s => NSet.has s.cores c with
  | none => d
  | some s =>
    let d := d.evictSlot s.num
    match (d.model? s.model).bind Model.owner with
    | some f =>
      if d.partitionNeed f ≤ d.partitionCores f then d.askSlot s.model
      else
        let (v, d) := d.fresh
        d.endSequences s.model (v.toNat % 4) 0x408
    | none => if (d.sequences s.model).isEmpty && !((d.model? s.model).map Model.pinnedBy).getD false then d else d.askSlot s.model

/-- A switch request stands for the cores that hold blocks: their beams stop at their next yield points (R77). -/
def Dev.standSwitch (d : Dev) (cores : List Nat) : Dev :=
  Dev.forEach (cores.filter fun c => !(d.blocksOn c).isEmpty) (fun d c => d.updCore c fun k => { k with switchReq := true }) d

/-- Some cores with every core that the clusters on them reach: a cluster is switched out as a whole. -/
def Dev.clusterCores (d : Dev) : Nat → NSet → NSet
  | 0, cores => cores
  | fuel + 1, cores =>
    let ids := (d.blocks.filter fun b => cores.contains b.core).filterMap fun b => (d.launch? b.launch).map fun l => (l.id, b.index / l.params.cluster)
    d.clusterCores fuel (NSet.addAll cores ((d.blocks.filter fun b =>
      match d.launch? b.launch with
      | some l => ids.contains (l.id, b.index / l.params.cluster)
      | none => false).map Block.core))

def Quota.dropCore (q : Quota) (c : Nat) : Quota :=
  if coreIsVector c then { q with vCores := q.vCores &&& ~~~ BitVec.ofNat 192 (2 ^ coreNum c) }
  else { q with mCores := q.mCores &&& ~~~ BitVec.ofNat 768 (2 ^ c) }

/-- The facet that a core's blocks or partition belong to; facet 0 where none does. -/
def Dev.coreOwner (d : Dev) (c : Nat) : Nat :=
  match (d.blocksOn c).head? with
  | some b => b.facet
  | none => ((d.facetsThere.find? fun f => (d.facet f).quota.partition && d.coreOfFacet f c)).getD 0

/-- Retires a core (R439): its entry is journaled, its clusters are saved whole, its slot is evicted, a partition loses it, and the
retirement is recorded and reported. One on a die under reset waits (R486). -/
def Dev.retireCore (d : Dev) (c : Nat) : Dev :=
  if d.coreRetired c then d
  else if d.dieResets (coreDie c) then d.updErrors fun e => { e with retireWait := (e.retireWait.filter fun x => decide (x ≠ c)) ++ [c] }
  else
    let score := Tab.get 0 d.errors.scores c
    let owner := d.coreOwner c
    let d := d.auditEvent 0 true 3 c score
    let d := d.saveCore c true false
    let d := d.updErrors fun e => { e with retired := NSet.add e.retired c }
    let d := Dev.forEach (d.facetsThere.filter fun f => (d.facet f).quota.partition && d.coreOfFacet f c)
      (fun d f => d.updFacet f fun x => { x with quota := x.quota.dropCore c }) d
    let d := (d.slotLosesCore c).clearRetain c
    let d := d.glint 0 0x608 c score 0
    if owner = 0 then d else d.glint owner 0x608 c score 0

/-- A core's score rises (R438): at RETIRE_SCORE the core is retired, or where AUTO_RETIRE is 0 ERROR_THRESHOLD is posted and the
score stops rising. Log 37, DEDUCED. -/
def Dev.scoreUp (d : Dev) (c n : Nat) : Dev :=
  let old := Tab.get 0 d.errors.scores c
  let limit := d.errors.retireScore.toNat
  if !d.errors.autoRetire && decide (limit ≤ old) then d
  else
    let new := min 2047 (old + n)
    let d := d.updErrors fun e => { e with scores := Tab.set 0 e.scores c new }
    if new < limit then d
    else if d.errors.autoRetire then d.retireCore c
    else d.glint 0 0x609 c new 0

/-- Charges a core for the local-array rows and the tile rows whose parity a command found failing (R431, R438). -/
def Dev.charge (after before : Dev) : Dev :=
  let tile (e : Nat × Nat × Nat) : List (Nat × Nat) := ((before.block? e.1 e.2.1).map fun b => (b.core, b.facet)).toList
  let tiles := ((before.strikes.tiles.filter fun e => !after.strikes.tiles.contains e).map tile).flatten
  let d := Dev.forEach (before.strikes.la.filter fun e => !after.strikes.la.contains e) (fun d e =>
    (d.poisonOrigin 5 true e.1 (before.coreOwner e.1)).scoreUp e.1 16) after
  Dev.forEach tiles (fun d e => (d.poisonOrigin 4 true e.1 e.2).scoreUp e.1 16) d

end Sys2Proof.Machine
end

