-- ==== Sys2Proof/Machine/Place.lean ====
section
/-! DEFINITION. Placing blocks and choosing cores: what a launch needs and a core has (R41, R44, R45, R66), the queue of waiting work (R43, R290), and the cores that pre-emption takes (R289, R291). -/

namespace Sys2Proof.Machine

/-! ## Resources (R38, R41, R44, R46) -/

def LaunchParams.beams (p : LaunchParams) : Nat := (p.rays + 31) / 32
/-- Register-file bytes of one block. -/
def LaunchParams.rfBytes (p : LaunchParams) : Nat := p.beams * 8 * p.rayRegs * 128 + p.tileRegs * 16384
def beamSlots (vector : Bool) : Nat := if vector then 64 else 32
def rfCapacity (vector : Bool) : Nat := if vector then 524288 else 393216
/-- The scratchpad share of CACHE_SHARE (R44). -/
def scratchShare (vector : Bool) (code : Nat) : Nat :=
  524288 * (if vector then 3 - code else match code with
    | 0 => 12 | 1 => 11 | 2 => 10 | 3 => 8 | _ => 6)

/-- What the blocks on a core take of it: beams, register-file bytes, scratchpad regions. -/
structure CoreUse where
  beams   : Nat
  rf      : Nat
  regions : List (Nat × Nat)

/-- The lowest multiple of 4 KiB where a region of this size is free. -/
def freeRegion (regions : List (Nat × Nat)) (size cap : Nat) : Option Nat :=
  let ok (s : Nat) : Bool := decide (s + size ≤ cap) && regions.all fun r => decide (s + size ≤ r.1) || decide (r.1 + r.2 ≤ s)
  leastBy id (((0 :: regions.map fun r => r.1 + r.2)).filter ok)

/-- Room for one more block of a launch (R41, R47): its region's place, and the core's use with it. -/
def CoreUse.add (u : CoreUse) (p : LaunchParams) : Option (Nat × CoreUse) :=
  if u.beams + p.beams ≤ beamSlots p.vector ∧ u.rf + p.rfBytes ≤ rfCapacity p.vector then
    (freeRegion u.regions p.scratchBytes (scratchShare p.vector p.cacheShare)).map fun s =>
      (s, { beams := u.beams + p.beams, rf := u.rf + p.rfBytes, regions := (s, p.scratchBytes) :: u.regions })
  else none

def CoreUse.empty : CoreUse := { beams := 0, rf := 0, regions := [] }

/-- Blocks, at most `n`, that fit. -/
def CoreUse.count (u : CoreUse) (p : LaunchParams) : Nat → Nat
  | 0 => 0
  | n + 1 => match u.add p with
    | none => 0
    | some (_, v) => 1 + v.count p n

/-- The lowest beam places of a core that are free, one for each of `n` beams (log 32, DESIGN CHOICE). -/
def Dev.freeSlots (d : Dev) (c n : Nat) : List Nat :=
  let used := ((d.blocksOn c).filter fun b => !b.ended).map Block.slots
  ((List.range (beamSlots (coreIsVector c))).filter fun i => !used.any fun l => l.contains i).take n

/-- A core's use. An ended block keeps its region alone until its cluster is freed (R47). -/
def Dev.coreUse (d : Dev) (c : Nat) : CoreUse :=
  (d.blocksOn c).foldl (fun u b =>
    match d.launch? b.launch with
    | none => u
    | some l =>
      { beams := u.beams + (if b.ended then 0 else l.params.beams), rf := u.rf + (if b.ended then 0 else l.params.rfBytes),
        regions := (b.scratch, l.params.scratchBytes) :: u.regions }) CoreUse.empty

/-! ## Cores of a launch (R27, R45, R244, R366, R485) -/

def Dev.heldBySlot (d : Dev) (c : Nat) : Bool := d.serving.slots.any fun s => NSet.has s.cores c
/-- A core that the facet may have blocks of this kind on, the blocks that are there apart. -/
def Dev.coreServes (d : Dev) (f : Nat) (vector : Bool) (c : Nat) : Bool :=
  coreValid c && (coreIsVector c == vector) && d.coreOfFacet f c && !d.coreRetired c && !d.isLehrCore c && !d.heldBySlot c &&
    !d.dieResets (coreDie c)

/-- A core that can take a block of a launch now: no switch stands, and its blocks are the facet's and of the same split. -/
def Dev.usable (d : Dev) (l : Launch) (c : Nat) : Bool :=
  let k := d.core c
  d.coreServes l.facet l.params.vector c && !k.switchReq && (d.blocksOn c).all (fun b => decide (b.facet = l.facet)) &&
    (k.splitBy.isNone || decide (k.split = l.params.cacheShare))

/-- The cores of one kind in a row. -/
def kindCores (vector : Bool) (row : Nat) : List Nat := (rowCores row).filter fun c => coreIsVector c == vector

/-- Blocks of a launch, at most `n`, that a row can take now. -/
def Dev.rowRoom (d : Dev) (l : Launch) (row n : Nat) : Nat :=
  ((kindCores l.params.vector row).map fun c => if d.usable l c then (d.coreUse c).count l.params n else 0).sum

/-- Work on gated cores gives way to awake cores of a row that hold it as well (R406). Log 35, DESIGN CHOICE. -/
def Dev.awakeFirst (d : Dev) (l : Launch) (cores : List Nat) : Bool :=
  !cores.any (fun c => (d.core c).gated) ||
    !(List.range 96).any fun row => decide (cores.length ≤ ((kindCores l.params.vector row).map fun c =>
      if d.usable l c && !(d.core c).gated then (d.coreUse c).count l.params cores.length else 0).sum)

def Dev.fitsSomeRow (d : Dev) (l : Launch) (n : Nat) : Bool := (List.range 96).any fun row => decide (n ≤ d.rowRoom l row n)

/-! ## The queue (R43, R290) -/

/-- Work that waits for cores: a launch's next cluster, a saved cluster, a slot load. -/
inductive Waiting where
  | fresh (l : Launch)
  | saved (l : Launch) (cluster : Nat)
  | load (m : Model) (cls eff accepted : Nat)

/-- Effective class: 0 once 64 later-accepted entries have passed. -/
def Launch.eff (l : Launch) : Nat := if 64 ≤ l.passed then 0 else l.cls
def Waiting.eff : Waiting → Nat
  | .fresh l => l.eff
  | .saved l _ => l.eff
  | .load _ _ e _ => e
def Waiting.accepted : Waiting → Nat
  | .fresh l => l.accepted
  | .saved l _ => l.accepted
  | .load _ _ _ a => a
/-- Declared class, which governs pre-emption. -/
def Waiting.cls : Waiting → Nat
  | .fresh l => l.cls
  | .saved l _ => l.cls
  | .load _ c _ _ => c
def Waiting.ahead (a b : Waiting) : Bool :=
  decide (a.eff < b.eff) || (decide (a.eff = b.eff) && decide (a.accepted < b.accepted))

/-- The launch's command has started (ORDERED, R313), and its facet's work is not frozen (R373). -/
def Dev.launchRuns (d : Dev) (l : Launch) : Bool :=
  let x := d.facet l.facet
  !x.freezing && (decide (x.state = .running) || decide (x.state = .quiescing))

def Dev.savedOf (d : Dev) (l : Launch) (cid : Nat) : List SavedBlock :=
  d.saved.filter fun v => decide (v.block.launch = l.id) && decide (v.block.index / l.params.cluster = cid)
/-- Every block of a cluster has been saved: it can be restored. -/
def Dev.wholeSaved (d : Dev) (l : Launch) (cid : Nat) : Bool := decide ((d.savedOf l cid).length = l.params.cluster)
/-- The saved clusters of a launch. -/
def Dev.savedClusters (d : Dev) (l : Launch) : List Nat :=
  NSet.addAll [] ((d.saved.filter fun v => decide (v.block.launch = l.id)).map fun v => v.block.index / l.params.cluster)

/-- A slot load as the queue orders it: at the place of the first of its model's sequences in the order of R290, or at its own where it has none;
its declared class is the highest among them. -/
def Dev.loadOf (d : Dev) (m : Model) (a : SlotAsk) : Waiting :=
  let seqs := d.sequences m.num
  let key := seqs.foldl (fun (k : Nat × Nat) e =>
    let eff := if 64 ≤ e.2.passed then 0 else e.1.cls
    if eff < k.1 ∨ (eff = k.1 ∧ e.2.accepted < k.2) then (eff, e.2.accepted) else k) (if 64 ≤ a.passed then 0 else 3, a.accepted)
  .load m ((seqs.map fun e => e.1.cls).foldl min 3) key.1 key.2

/-- The work that waits for cores of one kind. Log 39, DEDUCED. -/
def Dev.waiting (d : Dev) (vector : Bool) : List Waiting :=
  let ls := d.launches.filter fun l => (l.params.vector == vector) && d.launchRuns l
  ((ls.filter fun l => decide (l.nextBlock < l.params.gridBlocks)).map Waiting.fresh) ++
    (ls.map fun l => ((d.savedClusters l).filter (d.wholeSaved l)).map (Waiting.saved l)).flatten ++
    (if vector then [] else d.serving.slotQ.filterMap fun a => (d.model? a.model).map fun m => d.loadOf m a)

/-- What waits could be placed now, a slot load with the eviction of R280. Log 39, DEDUCED. -/
def Dev.couldPlace (d : Dev) : Waiting → Bool
  | .fresh l => d.fitsSomeRow l l.params.cluster
  | .saved l cid => d.fitsSomeRow l (d.savedOf l cid).length
  | .load m _ _ _ => (Dev.evictUntil m 17 d).slotFits m

/-- The queue lets this work be placed on these cores: nothing ahead of it could be placed; a facet's launches keep their order; and
no unplaced block passes a saved one of its class or a higher one that the cores could hold. Log 39, DEDUCED. -/
def Dev.mayPlace (d : Dev) (w : Waiting) (vector : Bool) (cores : List Nat) : Bool :=
  let ahead := (d.waiting vector).filter fun v => v.ahead w
  !ahead.any d.couldPlace &&
  match w with
  | .fresh l =>
    (d.savedClusters l).isEmpty &&
    !ahead.any (fun v => match v with
      | .fresh k => decide (k.facet = l.facet)
      | _ => false) &&
    !(d.waiting vector).any fun v => match v with
      | .saved k _ => decide (k.cls ≤ l.cls) && cores.any fun c => d.coreOfFacet k.facet c
      | _ => false
  | _ => true

/-- Waiting entries accepted earlier are passed by one that is placed, joined or loaded first. -/
def Dev.passOver (d : Dev) (vector : Bool) (accepted : Nat) : Dev :=
  let d := { d with launches := updAll (fun l => (l.params.vector == vector) && decide (l.accepted < accepted) &&
                      (decide (l.nextBlock < l.params.gridBlocks) || d.saved.any fun v => decide (v.block.launch = l.id)))
                      (fun l => { l with passed := l.passed + 1 }) d.launches }
  if vector then d
  else d.updServing fun v =>
    { v with slotQ := updAll (fun a => decide (a.accepted < accepted)) (fun a => { a with passed := a.passed + 1 }) v.slotQ,
             sessions := v.sessions.map fun s =>
        { s with seqs := updAll (fun q => !q.joined && decide (q.accepted < accepted)) (fun q => { q with passed := q.passed + 1 }) s.seqs } }

/-! ## Pre-emption (R289, R291) -/

/-- A unit that can be taken: a launch or a slot, with its class, its order, and its cores by whole clusters, highest first (a
slot's are indivisible). -/
structure PreemptUnit where
  cls   : Nat
  order : Nat
  slot  : Option Nat
  parts : List NSet

/-- The class of a slot's running step: the highest among its batch. -/
def Dev.stepClass (d : Dev) (s : Slot) : Nat := ((d.batch s.model).map fun e => e.1.cls).foldl min 3

/-- The cluster parts of a launch on candidate cores: each core with every core of the clusters that have a block on it. -/
def Dev.launchParts (d : Dev) (l : Launch) (cands : Nat → Bool) : List NSet :=
  let mine := d.blocks.filter fun b => decide (b.launch = l.id)
  let cores := (NSet.addAll [] (mine.map Block.core)).reverse
  (cores.map fun c =>
    let ids := (mine.filter fun b => decide (b.core = c)).map fun b => b.index / l.params.cluster
    NSet.addAll [] ((mine.filter fun b => ids.contains (b.index / l.params.cluster)).map Block.core)).filter fun p => p.all cands

/-- The units of a class below `cls` on candidate cores, in the order they are taken. -/
def Dev.preemptUnits (d : Dev) (cls : Nat) (vector : Bool) (cands : Nat → Bool) : List PreemptUnit :=
  let free (c : Nat) : Bool := cands c && (d.blocksOn c).all fun b =>
    match d.launch? b.launch with
    | some l => decide (cls < l.cls)
    | none => false
  let ls := (d.launches.filter fun l => decide (cls < l.cls) && (l.params.vector == vector)).map fun l =>
    ({ cls := l.cls, order := l.accepted, slot := none, parts := d.launchParts l free } : PreemptUnit)
  let ss := if vector then [] else (d.serving.slots.filter fun s =>
      decide (cls < d.stepClass s) && s.stepping && s.cores.all cands).map fun s =>
    ({ cls := d.stepClass s, order := s.loadOrder, slot := some s.num, parts := [s.cores] } : PreemptUnit)
  sortBy (fun a b => decide (b.cls < a.cls) || (decide (a.cls = b.cls) && decide (b.order ≤ a.order))) (ls ++ ss)

/-- `select`: the cores to take and the slots among them; none where they do not suffice. Log 35, DESIGN CHOICE. -/
def selectCores (n : Nat) (units : List PreemptUnit) : Option (NSet × List Nat) :=
  let (cores, slots) := units.foldl (fun (acc : NSet × List Nat) u =>
    if n ≤ acc.1.length then acc
    else match u.slot with
      | some s => (NSet.addAll acc.1 (u.parts.flatten), acc.2 ++ [s])
      | none => (u.parts.foldl (fun cs p => if n ≤ cs.length then cs else NSet.addAll cs p) acc.1, acc.2)) ([], [])
  if n ≤ cores.length then some (cores, slots) else none

/-- Cores that a cluster of a launch needs where every one is empty. -/
def LaunchParams.coresFor (p : LaunchParams) (blocks : Nat) : Nat :=
  let fit := CoreUse.empty.count p blocks
  if fit = 0 then blocks else (blocks + fit - 1) / fit

/-- The evictable slot that waiting blocks take first: the first by rank on a core that could serve them (R280, R291). -/
def Dev.evictFor (d : Dev) (w : Waiting) : Option Slot :=
  let serves (l : Launch) (s : Slot) : Bool := !l.params.vector && s.cores.any fun c => d.coreOfFacet l.facet c
  match w with
  | .fresh l => d.evictRank.find? (serves l)
  | .saved l _ => d.evictRank.find? (serves l)
  | .load .. => none

/-- The cores that pre-emption takes for waiting work that nothing free supplies: for a cluster, in the row that needs the fewest,
lowest first. -/
def Dev.preemptFor (d : Dev) (w : Waiting) : Option (NSet × List Nat) :=
  let inRows (l : Launch) (blocks : Nat) : Option (NSet × List Nat) :=
    let base (c : Nat) : Bool := coreValid c && d.coreOfFacet l.facet c && !d.coreRetired c && !d.isLehrCore c &&
      !d.dieResets (coreDie c) && !(d.core c).switchReq
    leastBy (fun r => r.1.length) ((List.range 96).filterMap fun row =>
      selectCores (l.params.coresFor blocks - countIf (fun c => d.usable l c && (d.blocksOn c).isEmpty) (kindCores l.params.vector row))
        (d.preemptUnits w.cls l.params.vector fun c => base c && (kindCores l.params.vector row).contains c))
  if d.couldPlace w || (d.evictFor w).isSome then none
  else match w with
    | .fresh l => inRows l l.params.cluster
    | .saved l cid => inRows l (d.savedOf l cid).length
    | .load m _ _ _ =>
      let d := Dev.evictUntil m 17 d
      let units := d.preemptUnits w.cls false fun c =>
        decide (c < 768) && d.coreOfFacet (m.owner.getD 0) c && !d.coreRetired c && !d.isLehrCore c && !(d.core c).switchReq
      match selectCores (m.cores - countIf (d.slotCoreFree m.owner) (List.range 768)) units with
      | none => none
      | some (cores, slots) =>
        if m.partition || d.freeSlot.isSome || !slots.isEmpty then some (cores, slots)
        else (units.find? fun u => u.slot.isSome).map fun u => (NSet.addAll cores u.parts.flatten, u.slot.toList)

end Sys2Proof.Machine
end

