-- ==== Sys2Proof/Machine/Intake.lean ====
section
/-! DEFINITION. Reading command records from intake windows: the head record, the checks of R315, acceptance, order (R311 to R315, R318), and what a record's start answers. -/

namespace Sys2Proof.Machine

/-! ## Records (R311 to R313) -/

/-- The 64 bytes of the next slot of a window. -/
def Window.headBytes (w : Window) : List Byte := Mem.read w.slots (64 * w.slot) 64
/-- A record is present: its PHASE bit is the expected one. -/
def Window.present (w : Window) : Bool := w.enable && ((leAt w.headBytes 63 1).testBit 0 == w.phase)

/-- Goes on to the next slot; the expected phase turns at each wrap. -/
def Window.advance (w : Window) : Window :=
  if w.slot + 1 = 64 then { w with slot := 0, phase := !w.phase } else { w with slot := w.slot + 1 }

/-- The gaffer serves work: the boot is done, the package is not DARK, nothing is fatal (R413, R436, R478, R481). -/
def Dev.gafferServes (d : Dev) : Bool :=
  decide (d.boot.step = 9) && !d.boot.recovery && decide (d.power.pkg = 0) && !d.errors.fatal

/-! ## Arbitration (R294, R311) -/

/-- The window of a facet that is read next (R312, R318, R373, R377): the first after the one read last that has a record. -/
def Dev.nextWindow (d : Dev) (f : Nat) : Option Nat :=
  let x := d.facet f
  if decide (x.state = .running) && !NSet.has d.host.flr f && decide (x.outstanding < 4096) then
    ((List.range 16).map fun i => (Tab.get 0 d.intake.windows f + i) % 16).find? fun w => (x.window w).present
  else none

/-- What the gaffer reads next, by deficit round robin over facets: the facet whose round it is while its quantum lasts, else the next one that
has a record, with a quantum of 16 times its intake weight. The facet, the window, and the quantum that is left. -/
def Dev.intakeGrant (d : Dev) : Option (Nat × Nat × Nat) :=
  let of (f left : Nat) : Option (Nat × Nat × Nat) := (d.nextWindow f).map fun w => (f, w, left - 1)
  let next := ((List.range 64).map fun i => (d.intake.facet + 1 + i) % 64).findSome? fun f => of f (16 * (d.facet f).quota.weight)
  if d.intake.left = 0 then next else (of d.intake.facet d.intake.left).or next

/-- The arbiters go on after a record is read. -/
def Dev.intakeTurn (d : Dev) (f w left : Nat) : Dev :=
  { d with intake := { facet := f, left := left, windows := Tab.set 0 d.intake.windows f (w + 1) } }

/-- Type of the head record. -/
def recordType (bs : List Byte) : Nat := leAt bs 1 1

/-- The command that a record asks for. -/
def recordCmd (x : Facet) (w : Nat) (bs : List Byte) : Cmd :=
  let b5 := leAt bs 5 1
  let typ := recordType bs
  let prio := bits b5 2 2
  { serial := x.nextSerial, id := BitVec.ofNat 16 (leAt bs 2 2), gen := BitVec.ofNat 8 (leAt bs 4 1), typ := BitVec.ofNat 8 typ,
    window := w, ring := (x.window w).ring, barrier := BitVec.ofNat 2 (bits b5 0 2), user := BitVec.ofNat 64 (leAt bs 8 8),
    cls := max prio x.quota.maxClass, ordered := bit b5 4, state := .waiting, status := 0, result := 0, hostLost := false,
    occupies := true, dropped := false, args := (bs.drop 16).take 40, copied := none, dueOrder := 0, confirms := [], confirmFailed := false }

/-- The checks of R315 up to the type's own fields: a refusal's status and RESULT. -/
def Facet.recordCheck (x : Facet) (c : Cmd) (bs : List Byte) : Option (Code × Nat) :=
  if decide (leAt bs 0 1 ≠ 1) then some (0x2, 0)
  else if x.cmds.any fun o => o.occupies && !o.dropped && decide (o.id = c.id) then some (0x101, 0)
  else if decide (c.gen ≠ x.gen c.id.toNat) then some (0x102, (x.gen c.id.toNat).toNat)
  else if decide (7 < recordType bs) then some (0x1, 0)
  else if decide (c.barrier = 3) then some (0x3, 0)
  else none

/-- What the start of a command answers: refused by its own fields; running; or ended at once. -/
inductive Started where
  | refused (st : Code)
  | running (d : Dev)
  | ended (d : Dev) (st : Code) (result : Nat)

/-- A command that its own fields refuse occupies no identifier, and its completion is due at once (R315). -/
def Dev.refuseCmd (d : Dev) (f serial : Nat) (st : Code) (result : Nat) : Dev :=
  ((d.updCmd f serial fun c => { c with state := .ended, occupies := false, status := st, result := BitVec.ofNat 64 result }).countF
    f 0x606008 1).completionDue f serial

/-- Every earlier-read command of the window has its completion due (R313). -/
def Facet.orderMet (x : Facet) (c : Cmd) : Bool :=
  !c.ordered || !x.cmds.any fun o => decide (o.window = c.window) && decide (o.serial < c.serial) &&
    !(decide (o.state = .held) || decide (o.state = .written))

/-- The descriptor that acceptance copies: a RIDE's with its code where that can be read (R254), a GENERATE's (R283); none for another type, or
where it is misaligned, unmapped or poisoned. -/
def Dev.copyDescriptor (d : Dev) (f : Nat) (c : Cmd) : Option (List Byte) × Dev :=
  let va := leAt c.args 0 8
  if !decide (c.typ = 4) && !decide (c.typ = 6) then (none, d)
  else
    let (r, d) := d.gread f va 64
    if va % 64 ≠ 0 ∨ r.ok = false ∨ r.poison = true then (none, d)
    else if c.typ = 6 then (some r.bytes, d)
    else
      let i8 := d.lehr.corpora.any fun x => decide (x.num = bits (leAt r.bytes 1 1) 0 4) && x.i8
      let (q, d) := d.gread f (va + 64) (codeBytes i8)
      (some (r.bytes ++ (if q.ok && !q.poison then q.bytes else [])), d)

/-- Starts a command that ORDERED held back, once its turn has come: one that can no longer start ends with its status (log 65, DEDUCED). A command
that a freeze of its facet holds does not start (R373). -/
def Dev.startCmd (d : Dev) (f serial : Nat) (start : Dev → Nat → Cmd → Started) : Dev :=
  let x := d.facet f
  match x.cmd? serial with
  | none => d
  | some c =>
    if !decide (c.state = .waiting) || x.freezing || decide (x.state = .frozen) || !x.orderMet c then d
    else
      let d' := d.updCmd f serial fun c => { c with state := .running }
      match start d' f { c with state := .running } with
      | .refused st => d'.endCmd f serial st 0
      | .running e => e
      | .ended e st result => e.endCmd f serial st result

/-- The gaffer reads the head record of a window, of one of these types, when the window's turn has come: it takes the record, checks it, its type's own
fields last (R315), counts it as accepted, and starts it unless ORDERED holds it. -/
def Dev.takeRecord (d : Dev) (f w : Nat) (types : Nat → Bool) (start : Dev → Nat → Cmd → Started) : Dev :=
  match (if d.gafferServes then d.intakeGrant else none) with
  | none => d
  | some (gf, gw, left) =>
    let x := d.facet f
    let bs := (x.window w).headBytes
    if !decide (gf = f) || !decide (gw = w) || !types (recordType bs) then d
    else
      let c := recordCmd x w bs
      let d := (d.intakeTurn f w left).updFacet f fun x =>
        { (x.updWindow w Window.advance) with cmds := x.cmds ++ [c], nextSerial := x.nextSerial + 1 }
      match x.recordCheck c bs with
      | some (st, result) => d.refuseCmd f c.serial st result
      | none =>
        let (bytes, d) := d.copyDescriptor f c
        let c := { c with copied := bytes }
        let d := d.updCmd f c.serial fun _ => c
        match start (d.updCmd f c.serial fun c => { c with state := .running }) f { c with state := .running } with
        | .refused st => d.refuseCmd f c.serial st 0
        | .running e => if x.orderMet c then e.countF f 0x606000 1 else d.countF f 0x606000 1
        | .ended e st result => if x.orderMet c then (e.countF f 0x606000 1).endCmd f c.serial st result else d.countF f 0x606000 1

/-! ## Targets (R314) -/

/-- The outstanding command of a type that TARGET names. -/
def Facet.target (x : Facet) (c : Cmd) (typ : Nat) : Option Cmd :=
  x.cmds.find? fun o => o.occupies && !o.dropped && decide (o.id.toNat = leAt c.args 0 2) && decide (o.gen.toNat = leAt c.args 2 1) &&
    decide (o.typ.toNat = typ)

end Sys2Proof.Machine
end

