-- ==== Sys2Proof/Machine/Launch.lean ====
section
/-! DEFINITION. Launches: acceptance (R38 to R42), placement (R39, R43, R45, R66), replay and abort (R74, R75), switching blocks out and restoring them (R77 to R79, R291). -/

namespace Sys2Proof.Machine

/-! ## Acceptance (R38, R40, R42) -/

/-- The launch parameter block of 64 bytes (R40). -/
def launchParams (bs : List Byte) : LaunchParams :=
  { vector := bit (leAt bs 1 1) 0, cluster := bits (leAt bs 2 1) 0 4, cacheShare := bits (leAt bs 3 1) 0 3,
    rays := bits (leAt bs 4 2) 0 11, rayRegs := bits (leAt bs 6 1) 0 5, tileRegs := bits (leAt bs 7 1) 0 5,
    scratchBytes := leAt bs 8 4, gridBlocks := leAt bs 12 4, kernelAddr := BitVec.ofNat 64 (leAt bs 16 8),
    argAddr := BitVec.ofNat 64 (leAt bs 24 8), liveMapAddr := BitVec.ofNat 64 (leAt bs 32 8),
    watchdogLog2 := bits (leAt bs 40 1) 0 6, abortOnFatal := bit (leAt bs 41 1) 0 }

/-- Every field is in its range, and the limits of R38 hold. -/
def LaunchParams.inRange (p : LaunchParams) : Bool :=
  decide (1 ≤ p.cluster) && decide (p.cluster ≤ 8) && decide (p.cacheShare ≤ 4) && decide (1 ≤ p.rays) && decide (p.rays ≤ 1024) &&
  decide (1 ≤ p.rayRegs) && decide (p.rayRegs ≤ 24) && decide (p.tileRegs ≤ 24) && decide (p.scratchBytes % 4096 = 0) &&
  decide (1 ≤ p.gridBlocks) && decide (p.gridBlocks % p.cluster = 0) && decide (p.kernelAddr.toNat % 8 = 0) &&
  decide (p.liveMapAddr.toNat % 16 = 0) &&
  (decide (p.watchdogLog2 = 0) || (decide (16 ≤ p.watchdogLog2) && decide (p.watchdogLog2 ≤ 40)))

/-- The checks of a launch, in order; none where it is accepted. Where 0x0160 and 0x0161 both apply, 0x0161 is given. Log 29, DEDUCED. -/
def Dev.launchRefusal (d : Dev) (f : Nat) (p : LaunchParams) : Option Code :=
  let fit := CoreUse.empty.count p 64
  let rowHolds (row : Nat) : Bool :=
    decide (p.cluster ≤ fit * countIf (fun c => d.coreOfFacet f c && !d.coreRetired c) (kindCores p.vector row))
  if !p.inRange then some 0x3
  else if p.vector && (decide (p.tileRegs ≠ 0) || decide (2 < p.cacheShare)) then some 0x161
  else if fit = 0 then some 0x160
  else if !(List.range 96).any rowHolds then some 0x162
  else none

/-- Starts a LAUNCH: reads the parameter block, checks it, and queues the launch; a block that cannot be read, or is poisoned or
misaligned, is a field out of range. -/
def startLaunch (d : Dev) (f : Nat) (c : Cmd) : Started :=
  let va := leAt c.args 0 8
  let (r, d) := d.gread f va 64
  if va % 64 ≠ 0 ∨ r.ok = false ∨ r.poison = true then .refused 0x3
  else if leAt r.bytes 0 1 ≠ 1 then .refused 0x2
  else
    let p := launchParams r.bytes
    match d.launchRefusal f p with
    | some st => .refused st
    | none =>
      let l : Launch :=
        { id := d.nextLaunch, facet := f, cmd := c.serial, cls := c.cls, params := p, nextBlock := 0, ended := 0, liveMaps := 0,
          headerRead := false, wrotePoison := false, accepted := d.nextAccept, passed := 0 }
      .running { d with launches := d.launches ++ [l], nextLaunch := d.nextLaunch + 1, nextAccept := d.nextAccept + 1 }

def execLaunch (fn w : Nat) (s : State) : Out :=
  s.run fun d => d.takeRecord fn w (fun t => decide (t = 1)) startLaunch

/-! ## Placement (R39, R43, R45, R66, R76, R102, R366) -/

/-- Words that no one has written, from a draw. -/
def unsetWords (draw lo n : Nat) : Tab (BitVec 32) :=
  (List.range n).foldl (fun t i => Tab.set 0 t i (Config.deadWord draw (lo + i))) []

/-- A beam at the start of its block: at instruction 0 on a full path, surplus rays exited, VL 32. Registers of a core that was
just zeroed are zero, and of another core unstated (log 4, DESIGN CHOICE). -/
def startBeam (p : LaunchParams) (zeroed : Bool) (draw i : Nat) : Beam :=
  let live := if 32 * (i + 1) ≤ p.rays then 32 else p.rays - 32 * i
  let path := BitVec.ofNat 32 (2 ^ live - 1)
  { pc := 0, path := path, exited := ~~~ path, stack := [], calls := [],
    k := if zeroed then [] else (List.range 7).foldl (fun t n => Tab.set 0 t (n + 1) (Config.deadWord draw n)) [],
    s := if zeroed then [] else (List.range 48).foldl (fun t n =>
      Tab.set 0 t n (Config.deadWord draw (8 + 2 * n) ++ Config.deadWord draw (9 + 2 * n))) [],
    g := if zeroed then [] else unsetWords draw 128 (256 * p.rayRegs),
    gPoison := [], vl := 32, copies := [], status := .running, yieldMap := none, parkedOn := none, passOut := false,
    fenceWait := [], stored := 0, debugStep := false, haltPending := false }

/-- A block at its start. -/
def startBlock (l : Launch) (index core scratch : Nat) (slots : List Nat) (zeroed : Bool) (draw : Nat) : Block :=
  let tiles : Mem := if zeroed then [] else (List.range (4096 * l.params.tileRegs)).foldl (fun m i =>
    Mem.write m (4 * i) (leBytes 4 (Config.deadWord (draw + 40) i).toNat)) []
  { launch := l.id, index := index, facet := l.facet, core := core, scratch := scratch, slots := slots,
    beams := (List.range l.params.beams).map fun i => startBeam l.params zeroed (draw + i) i,
    tiles := tiles, tilePoison := [], phase := 0, barId := none, arrived := [], watchdog := 0, cArrived := [], ended := false }

/-- A core takes a block of a launch: it flushes and is zeroed as R366 gives, flushes for another split (R122), and takes the split
(R45). The answer says whether it was zeroed. -/
def Dev.coreTakes (d : Dev) (l : Launch) (core : Nat) : Bool × Dev :=
  let work := facetWork l.facet
  let zeroed := decide ((d.core core).lastWork ≠ work)
  let d := d.takeCore core work
  let k := d.core core
  if k.splitBy.isSome then (zeroed, d)
  else
    let d := if k.split = l.params.cacheShare then d else d.flushL1 core
    (zeroed, d.updCore core fun k => { k with split := l.params.cacheShare, splitBy := some l.id })

/-- Places one block where the core has room; none where it has not. -/
def Dev.placeBlock (d : Dev) (l : Launch) (index core : Nat) : Option Dev :=
  if !d.usable l core then none
  else
    ((d.coreUse core).add l.params).map fun (scratch, _) =>
      let (zeroed, d) := d.coreTakes l core
      let b := startBlock l index core scratch (d.freeSlots core l.params.beams) zeroed d.freeCount
      { d with blocks := d.blocks ++ [b], freeCount := d.freeCount + 64 }

/-- Reads the live-map header, once (R76). -/
def Dev.readHeader (d : Dev) (l : Launch) : Dev :=
  if l.headerRead then d
  else
    let a := l.params.liveMapAddr.toNat
    let (n, d) := if a = 0 then (0, d) else
      let (r, d) := d.gread l.facet a 16
      (if r.ok && !r.poison && decide (leAt r.bytes 0 1 = 1) then leAt r.bytes 2 2 else 0, d)
    d.updLaunch l.id fun l => { l with liveMaps := n, headerRead := true }

/-- The cores named for a cluster lie in one row. -/
def oneRow (cores : List Nat) : Bool :=
  match cores with
  | [] => false
  | c :: rest => rest.all fun x => decide (coreRow x = coreRow c)

/-- BLOCK_PLACE: a launch's next cluster on the named cores of one row, one for each block, where the queue lets it and each has room. -/
def Dev.blockPlace (d : Dev) (launch : Nat) (cores : List Nat) : Dev :=
  match d.launch? launch with
  | none => d
  | some l =>
    let fresh := Waiting.fresh l
    if !d.launchRuns l || !decide (l.nextBlock < l.params.gridBlocks) || !decide (cores.length = l.params.cluster) || !oneRow cores ||
        !d.gafferServes || !d.awakeFirst l cores || !d.mayPlace fresh l.params.vector cores then d
    else
      let placed := ((List.range cores.length).zip cores).foldl (fun (acc : Option Dev) e =>
        acc.bind fun d => d.placeBlock l (l.nextBlock + e.1) e.2) (some d)
      match placed with
      | none => d
      | some e =>
        let e := e.readHeader l
        let e := if l.nextBlock = 0 then e.passOver l.params.vector l.accepted else e
        e.updLaunch launch fun l => { l with nextBlock := l.nextBlock + l.params.cluster }

def execBlockPlace (launch : Nat) (cores : List Nat) (s : State) : Out := s.run fun d => d.blockPlace launch cores

/-! ## REPLAY and ABORT (R74, R75, R314) -/

/-- A parked beam resumes: again at its instruction, after a TRAP, or asleep at the barrier it slept on (R64, R71, R466). -/
def Beam.resume (m : Beam) (released : BarrierRef → Bool) : Beam :=
  match m.status with
  | .parked cause =>
    if !cause.replayable then m
    else
      let status := match m.parkedOn with
        | some r => if released r then .running else .sleeping r
        | none => .running
      { m with status := status, parkedOn := none, pc := if decide (cause = .software) then m.pc + 1 else m.pc }
  | _ => m

def Beam.isParked (m : Beam) : Bool :=
  match m.status with
  | .parked cause => cause.replayable
  | _ => false
def Beam.isWatchdog (m : Beam) : Bool := decide (m.status = .parked .watchdog)

/-- The beams of a block that REPLAY names: all, or one; a watchdog's beams go together, whichever beam of the block is named. -/
def Block.replay (b : Block) (one : Option Nat) (released : BarrierRef → Bool) : Block × Nat :=
  let dog := b.beams.any Beam.isWatchdog
  let named (i : Nat) (m : Beam) : Bool := m.isParked && (decide (one = none) || decide (one = some i) || (dog && m.isWatchdog))
  let beams := ((List.range b.beams.length).zip b.beams).map fun e => if named e.1 e.2 then e.2.resume released else e.2
  ({ b with beams := beams, watchdog := if dog then 0 else b.watchdog },
    countIf (fun e => named e.1 e.2) ((List.range b.beams.length).zip b.beams))

/-- Whether a barrier of a block, resident or saved, has been released. -/
def Dev.barrierGone (d : Dev) (l : Launch) (b : Block) (r : BarrierRef) : Bool :=
  match r with
  | .block p => decide (p < b.phase)
  | .cluster p => decide (p < (d.cluster l.id (b.index / l.params.cluster)).phase)

def startReplay (d : Dev) (f : Nat) (c : Cmd) : Started :=
  match (d.facet f).target c 1 with
  | none => .refused 0x103
  | some t =>
    match d.launches.find? fun l => decide (l.facet = f) && decide (l.cmd = t.serial) with
    | none => .ended d 0 0
    | some l =>
      let one := bit (leAt c.args 3 1) 0
      let block := leAt c.args 4 4
      let beam := bits (leAt c.args 8 1) 0 5
      if one && (decide (l.params.gridBlocks ≤ block) || decide (l.params.beams ≤ beam)) then .refused 0x3
      else
        let mine (b : Block) : Bool := decide (b.launch = l.id) && (!one || decide (b.index = block))
        let go (b : Block) : Block × Nat := b.replay (if one then some beam else none) (d.barrierGone l b)
        let n := ((d.blocks.filter mine).map fun b => (go b).2).sum + ((d.saved.filter fun v => mine v.block).map fun v => (go v.block).2).sum
        .ended { d with blocks := updAll mine (fun b => (go b).1) d.blocks,
                        saved := updAll (fun v => mine v.block) (fun v => { v with block := (go v.block).1 }) d.saved } 0 n

def execReplay (fn w : Nat) (s : State) : Out := s.run fun d => d.takeRecord fn w (fun t => decide (t = 2)) startReplay

def startAbort (d : Dev) (f : Nat) (c : Cmd) : Started :=
  match (d.facet f).target c 1 with
  | none => .refused 0x103
  | some t =>
    match d.launches.find? fun l => decide (l.facet = f) && decide (l.cmd = t.serial) with
    | none => .ended d 0 0
    | some l => .ended (d.endLaunch l.id 0x163) 0 0

def execAbort (fn w : Nat) (s : State) : Out := s.run fun d => d.takeRecord fn w (fun t => decide (t = 3)) startAbort

/-! ## Switching (R77 to R79, R289, R291, R374) -/

/-- The cores that hold blocks of a facet whose freeze is in progress (R373). -/
def Dev.freezeCores (d : Dev) (f : Nat) : NSet :=
  if (d.facet f).freezing then NSet.addAll [] ((d.blocks.filter fun b => decide (b.facet = f)).map Block.core) else []

/-- SWITCH_REQUEST: the cores that pre-emption selects for waiting work, slots among them evicted; those of a facet that is being
frozen; or those of an evictable slot that waiting blocks take, which needs no switch. Beams then stop at their next yield points. -/
def Dev.switchRequest (d : Dev) (cores : List Nat) : Dev :=
  let set := NSet.addAll [] cores
  if set.isEmpty then d
  else if d.facetsThere.any fun f => decide (d.freezeCores f = set) then d.standSwitch set
  else
    let work := d.waiting false ++ d.waiting true
    match work.filterMap d.preemptFor |>.find? fun p => decide (p.1 = set) with
    | none =>
      match ((work.filter fun w => !d.couldPlace w).filterMap d.evictFor).find? fun s => decide (s.cores = set) with
      | some s => d.evictSlot s.num
      | none => d
    | some (_, slots) =>
      let owner := fun c => ((d.blocksOn c).head?.map Block.facet).getD 0
      let d := Dev.forEach set (fun d c => d.countF (owner c) 0x605038 1) d
      let d := Dev.forEach slots (fun d n =>
        match d.slot? n with
        | none => d
        | some s =>
          (d.evictSlot n).askSlot s.model) d
      d.standSwitch set

def execSwitchRequest (cores : List Nat) (s : State) : Out := s.run fun d => d.switchRequest cores

/-- Every beam has stopped at a yield point, has ended or has parked (R77). -/
def Block.stopped (b : Block) : Bool :=
  b.beams.all fun m => match m.status with
    | .ended => true
    | .parked _ => true
    | _ => m.yieldAt.isSome

/-- A lehr that is starting runs once its cores are free, and LEHR_START completes (R244). -/
def Dev.lehrReady (d : Dev) : Dev :=
  match d.lehr.starting with
  | none => d
  | some fn => if d.lehrFree then d.lehrTakes.mbxFinish fn 0 [] else d

/-- BLOCK_SAVE: a block whose beams have stopped, or whose time is up. A frozen facet's goes to its store. -/
def Dev.blockSave (d : Dev) (launch block : Nat) : Dev :=
  match d.block? launch block with
  | none => d
  | some b =>
    let k := d.core b.core
    if !k.switchReq || !(b.stopped || k.switchLate) then d
    else ((d.saveBlock launch block (!b.stopped) (d.facet b.facet).freezing).charge d).lehrReady

def execBlockSave (launch block : Nat) (s : State) : Out := s.run fun d => d.blockSave launch block

/-- SWITCH_TIMEOUT: 10 µs have passed since the request (R77). -/
def execSwitchTimeout (cores : List Nat) (s : State) : Out :=
  s.run fun d => Dev.forEach cores (fun d c => d.updCore c fun k => { k with switchLate := k.switchReq }) d

/-- A saved block on its new core: its region, its bytes and their poison (R79). -/
def Dev.restoreBlock (d : Dev) (l : Launch) (v : SavedBlock) (core : Nat) : Option Dev :=
  if !d.usable l core then none
  else
    ((d.coreUse core).add l.params).map fun (scratch, _) =>
      let (_, d) := d.coreTakes l core
      let d := d.updCore core fun k =>
        let rows := (List.range (v.keep / 128)).map (scratch / 128 + ·)
        let la := Mem.paste (Mem.clear k.la scratch v.keep) scratch v.bytes
        { k with la := la, laPoison := NSet.addAll (k.laPoison.filter fun r => !rows.contains r) (v.poison.map (scratch / 128 + ·)) }
      { d with blocks := d.blocks ++ [{ v.block with core := core, scratch := scratch, slots := d.freeSlots core l.params.beams }],
               saved := d.saved.filter fun x => !(decide (x.block.launch = l.id) && decide (x.block.index = v.block.index)) }

/-- BLOCK_RESTORE: a cluster whose blocks have all been saved goes back as a unit into one row (R79). -/
def Dev.blockRestore (d : Dev) (launch cluster : Nat) (cores : List Nat) : Dev :=
  match d.launch? launch with
  | none => d
  | some l =>
    let vs := sortBy (fun a b => decide (a.block.index ≤ b.block.index)) (d.savedOf l cluster)
    if !d.wholeSaved l cluster || !decide (vs.length = cores.length) || !oneRow cores || !d.launchRuns l ||
        !d.gafferServes || !d.awakeFirst l cores || !d.mayPlace (.saved l cluster) l.params.vector cores then d
    else
      let placed := (vs.zip cores).foldl (fun (acc : Option Dev) e => acc.bind fun d => d.restoreBlock l e.1 e.2) (some d)
      match placed with
      | none => d
      | some e => ((e.passOver l.params.vector l.accepted).clusterPhase l cluster).haltsDue l cluster

def execBlockRestore (launch cluster : Nat) (cores : List Nat) (s : State) : Out :=
  s.run fun d => d.blockRestore launch cluster cores

end Sys2Proof.Machine
end

