-- ==== Sys2Proof/Machine/Messages.lean ====
section
/-! DEFINITION. The coherence messages one by one (R145 to R149), fills (R138), the home timeout (R151) and a slice's mode change (R141). -/

namespace Sys2Proof.Machine

/-! ## Requests of an L1 (R147) -/

/-- A line of device memory that there is. -/
def Dev.lineExists (d : Dev) (line : Nat) : Bool :=
  if lineIsFar line then decide (lineFarPort line < 4) && decide (lineFarFrame line * pageBytes < (d.farPort (lineFarPort line)).capacity * 268435456)
  else decide (128 * line < d.hbmBytes)

/-- The facet whose work a core holds; facet 0 for a slot's steps. -/
def Dev.workFacet (d : Dev) (c : Nat) : Nat :=
  let w := (d.core c).lastWork
  if w = 0 ∨ w = slotWork then 0 else w - 1

/-- The traffic class of a facet's page that holds a line (R153). -/
def Dev.lineClass (d : Dev) (f line : Nat) : Nat :=
  match (d.facet f).pages.find? fun p => decide (p.frame = lineFrame line) with
  | some p => p.cls.toNat
  | none => 7

/-- An L1's request for a line is taken at the home. The L1 sends it where it has a cache share and no request of its own for the line is
outstanding; one that is still on its way goes on. -/
def Dev.l1Send (d : Dev) (kind : ReqKind) (core line : Nat) (from_ : Option L1State) : Dev :=
  let k := d.core core
  let now := (k.l1? line).map L1Line.state
  if k.reqs.contains (line, kind) then d.takeReq core line
  else if !coreValid core || !d.lineExists line || decide (shareSets k.split = 0) || k.gated || k.reqs.any (fun q => decide (q.1 = line)) ||
      decide (now ≠ from_) then d
  else
    let f := d.workFacet core
    (d.updCore core fun k => { k with reqs := k.reqs ++ [(line, kind)] }).request (mkReq kind core f (d.lineClass f line) line)

def execRdS (core line : Nat) (s : State) : Out := s.run fun d => d.l1Send .rdS core line none
def execRdU (core line : Nat) (s : State) : Out := s.run fun d => d.l1Send .rdU core line none
def execOwn (core line : Nat) (s : State) : Out := s.run fun d => d.l1Send .own core line none
/-- UPG is sent from S; the copy may be invalidated while it is on its way (R149). -/
def execUpg (core line : Nat) (s : State) : Out := s.run fun d => d.l1Send .upg core line (some .shared)

/-! ## Requests of any agent (R142, R145, R148) -/

/-- The agents: the cores, 64 DMA channels, the port, the lehr, the gaffer, the reduction root. -/
def agentValid (a : Nat) : Bool := coreValid a || (decide (2048 ≤ a) && decide (a < 2116))
def Dev.agentFacet (d : Dev) (a line : Nat) : Nat :=
  if a < 2048 then d.workFacet a
  else if a < 2112 then (d.channel (a - 2048)).owner
  else d.lineFacet line
/-- Traffic classes that an agent's kind fixes (R153). -/
def Dev.agentClass (d : Dev) (a line : Nat) : Nat :=
  if a < 2048 then d.lineClass (d.workFacet a) line
  else if a < 2112 then 5
  else if a = agentPort then 7
  else if a = agentLehr then 3
  else d.lineClass (d.lineFacet line) line

/-- The request of an agent for a line. -/
def Dev.agentReq (d : Dev) (kind : ReqKind) (a line : Nat) : Request :=
  { mkReq kind a (d.agentFacet a line) (d.agentClass a line) line with stream := decide (a = agentLehr) }

/-- A request of an agent is taken at the home; the same request that is still on its way goes on. -/
def Dev.agentSend (d : Dev) (r : Request) : Dev :=
  if d.net.any fun m => decide (m.req = some r) then d.takeReq r.agent r.line
  else if agentValid r.agent && d.lineExists r.line then d.request r else d

def execRdNc (agent line : Nat) (s : State) : Out := s.run fun d => d.agentSend (d.agentReq .rdNc agent line)
def execWrNc (agent line : Nat) (bytes : List (Nat × Byte)) (poison : Bool) (s : State) : Out :=
  s.run fun d =>
    if bytes.isEmpty || bytes.any fun e => decide (128 ≤ e.1) then d
    else d.agentSend { d.agentReq .wrNc agent line with bytes := bytes, poison := poison }
/-- ATOM at a byte address; `op` is R57's. -/
def execAtom (agent addr : Nat) (op : BitVec 4) (x y : BitVec 32) (s : State) : Out :=
  s.run fun d =>
    if addr % 4 ≠ 0 ∨ 8 < op.toNat then d
    else d.agentSend { d.agentReq .atom agent (addr / 128) with bytes := [(addr % 128, 0)], op := op, x := x, y := y }
/-- CCTL: `op` is 0 cullet, 1 pin, 2 unpin, 3 write back, 4 pin and retain. -/
def execCctl (agent facet line : Nat) (op : BitVec 4) (s : State) : Out :=
  s.run fun d => if 4 < op.toNat then d else d.agentSend { d.agentReq .cctl agent line with facet := facet, op := op }
def execPrefRequest (agent line : Nat) (s : State) : Out := s.run fun d => d.agentSend (d.agentReq .pref agent line)

/-! ## Messages that arrive (R145, R147 to R149) -/

def execSnpInv (core line : Nat) (s : State) : Out := s.run fun d => d.snoop .snpInv core line
def execSnpDown (core line : Nat) (s : State) : Out := s.run fun d => d.snoop .snpDown core line
def execSnpDrop (core line : Nat) (s : State) : Out := s.run fun d => d.snoop .snpDrop core line
def execRspAck (core line : Nat) (s : State) : Out := s.run fun d => d.rspAckArrives core line
def execRspData (core line : Nat) (s : State) : Out := s.run fun d => d.rspDataArrives core line
def execWb (core line : Nat) (s : State) : Out := s.run fun d => d.wbArrives core line
def execEvc (core line : Nat) (s : State) : Out := s.run fun d => d.evcArrives core line
def execCmpS (core line : Nat) (s : State) : Out := s.run fun d => d.grantArrives .cmpS core line
def execCmpE (core line : Nat) (s : State) : Out := s.run fun d => d.grantArrives .cmpE core line
def execCmpM (core line : Nat) (s : State) : Out := s.run fun d => d.grantArrives .cmpM core line
def execCmpOwn (core line : Nat) (s : State) : Out := s.run fun d => d.grantArrives .cmpOwn core line
def execCmpNc (agent line : Nat) (s : State) : Out := s.run fun d => d.ackArrives .cmpNc agent line
def execCmpAck (agent line : Nat) (s : State) : Out := s.run fun d => d.ackArrives .cmpAck agent line

/-! ## Fills, the home timeout and modes (R138 to R141, R151) -/

/-- SLICE_FILL_COMPLETE: memory has answered the line's fill; an HBM read that its controller still checks has not (R203). A fill whose
transaction has timed out is discarded and counted (R151). -/
def execSliceFillComplete (line : Nat) (s : State) : Out :=
  s.run fun d =>
    let n := d.homeSlice line
    if (d.slice n).lateFills.contains line then
      (d.count (sliceReg n 0x30) 1).updSlice n fun x => { x with lateFills := x.lateFills.erase line }
    else if d.reading line then d else d.fillDone line

def execHomeTimeout (line : Nat) (s : State) : Out := s.run fun d => d.homeTimeout line

/-- Some pair port of a base die is down or retraining. -/
def Dev.portsDown (d : Dev) (base : Nat) : Bool :=
  (List.range 6).any fun n => (decide (portEndA n = base) || decide (portEndB n = base)) &&
    (decide ((d.port n).state = .down) || decide ((d.port n).state = .retrain))

/-- A port of the base die is down or retraining, or a die reset has put its slices in recovery (R140, R485). -/
def Dev.recovering (d : Dev) (base : Nat) : Bool :=
  d.portsDown base ||
  (match d.boot.dieReset with
    | some r => decide (dieBase r.die = base)
    | none => false)

/-- The mode and cause that R140 allows a slice now: 0 service, 1 start-up, 2 a memory test, 3 recovery. -/
def Dev.modeAllowed (d : Dev) (slice : Nat) (missMode : Bool) (cause : BitVec 2) : Bool :=
  let booting := decide (d.boot.step < 8)
  match cause.toNat with
  | 0 => !missMode && !booting && !d.recovering (slice / 24)
  | 1 => missMode && booting
  | 2 => missMode
  | _ => missMode && d.recovering (slice / 24)

/-- SLICE_MODE_CHANGE: the gaffer holds the slice and names the new mode and its cause (R140). -/
def execSliceModeChange (slice : Nat) (missMode : Bool) (cause : BitVec 2) (s : State) : Out :=
  s.run fun d =>
    if 96 ≤ slice ∨ (d.slice slice).hold = true ∨ d.modeAllowed slice missMode cause = false then d
    else d.updSlice slice fun x => { x with hold := true, nextMode := missMode, nextCause := cause }

/-- SLICE_HOLD_DRAINED: the open fills are done: the mode is written, the hold cleared, and the waiting requests are served. -/
def execSliceHoldDrained (slice : Nat) (s : State) : Out :=
  s.run fun d => 
    if slice < 96 ∧ (d.slice slice).hold = true ∧ (d.slice slice).openFills = 0 then
      (d.trace 4 slice (boolNat (d.slice slice).nextMode)).endHold slice
    else d

end Sys2Proof.Machine
end

