-- ==== Sys2Proof/Machine/Fabric.lean ====
section
/-! DEFINITION. The package fabric's own commands: flits of the mesh and of the pair ports, lane sparing, retraining, severed pairs (R162 to R169, R423), and transaction tags (R171, R172). -/

namespace Sys2Proof.Machine

/-! ## The state of a pair port (R163, R169) -/

/-- D2D_PORT: the new STATE, and whether the pair is severed (R163, R169). -/
def portStateCode : PortState → Nat
  | .up => 0 | .retrain => 1 | .degraded => 2 | .down => 3
def Dev.portGlint (d : Dev) (n : Nat) : Dev :=
  d.glint 0 0x604 n (portStateCode (d.port n).state) (boolNat (d.port n).severed)

/-- Pairs whose port is DOWN and that have no detour become severed; the routers end what they find no route for (R163). The answer names
them. -/
def Dev.sever (d : Dev) : List Nat × Dev :=
  let new := (List.range 6).filter fun n => !(d.port n).severed && !d.portLive n && (d.detourBase n).isNone
  (new, Dev.forEach new (fun d n => d.updPort n fun p => { p with severed := true }) d)

/-- Ports have their new states: the pairs that these sever, then the glints of the ports named and of the other severed pairs. -/
def Dev.portsMoved (d : Dev) (ports glints : List Nat) : Dev :=
  let d := Dev.forEach ports (fun d n => d.trace 3 n (portStateCode (d.port n).state)) d
  let (new, d) := d.sever
  let d := Dev.forEach glints Dev.portGlint d
  Dev.forEach (new.filter fun m => !glints.contains m) Dev.portGlint d

/-- Lanes that a direction runs with; a direction that is trained anew replays from its first unacknowledged flit (R169 step 3). -/
def PortDir.trained (x : PortDir) (lanes : Nat) : PortDir :=
  { x with lanes := lanes, fails := 0, resend := x.replay.head?.map Flit.seq }

/-- Messages in a direction's replay buffer that the far end has not received stand at their router again, for the detour (R169). -/
def Dev.returnFlits (d : Dev) (n : Nat) (ab : Bool) : Dev :=
  let x := (d.port n).dir ab
  let back := x.replay.filter fun f => decide (x.expect ≤ f.seq)
  let stand (m : Msg) : Msg := match back.find? fun f => decide (f.msg = m.id) with
    | some f => if m.flying then { m with node := f.node, input := f.input, vc := f.from_, flying := false } else m
    | none => m
  { d with net := d.net.map stand }.updPort n fun p => p.updDir ab fun x => { x with replay := [], resend := none, seq := x.expect, fails := 0 }

/-! ## Flits (R162, R166, R167, R423) -/

/-- A message whose data a flit poisoned: a completion grants nothing. Log 41, DEDUCED. -/
def Msg.poisoned (m : Msg) : Msg :=
  match m.kind with
  | .cmpS | .cmpE | .cmpM => { m with kind := .cmpNc, poison := true }
  | .request => { m with req := m.req.map fun r => { r with poison := true } }
  | _ => { m with poison := true }

/-- The message carries data: a line, or the bytes of a write. -/
def Msg.hasData (m : Msg) : Bool :=
  !m.data.isEmpty || (match m.req with
    | some r => decide (r.kind = .wrNc)
    | none => false)

/-- MESH_FLIT: the message that a mesh link or vertical port grants moves one hop, its flit having failed a number of times. More than 16
replays poison its data, or drop a message without data. Log 41, DEDUCED. -/
def Dev.meshFlit (d : Dev) (msg fails : Nat) : Dev :=
  match d.net.find? fun m => decide (m.id = msg) with
  | none => d
  | some m =>
    match if m.arrived || m.flying then none else d.msgHop m m.agent with
    | none => d
    | some h =>
      if isSerial m.node h.out ∨ h.next = none ∨ (d.winner m.node h.out).map Msg.id ≠ some msg then d
      else
        let d := if fails = 0 ∨ 16 < fails then d else d.corrected
        if fails ≤ 16 then (d.grantOut m.node h.out).getD d
        else
          let d := d.count 0x609038 1
          if !m.hasData then d.dropMsg msg
          else
            let d := { d with net := updFirst (fun v => decide (v.id = msg)) Msg.poisoned d.net }
            ((d.grantOut m.node h.out).getD d).poisonOrigin 7 false (128 * m.line) (d.lineFacet m.line)

def execMeshFlit (msg fails : Nat) (s : State) : Out := s.run fun d => d.meshFlit msg fails

/-- Starts a retrain (R169): the port stops new flits and keeps its replay buffer. Log 40, DEDUCED. -/
def Dev.retrain (d : Dev) (n : Nat) : Dev :=
  (d.count (d2dCounter n 0x10) 1).updPort n fun p =>
    { p with state := .retrain, attempts := 0, halfTurn := false, ab := { p.ab with fails := 0 }, ba := { p.ba with fails := 0 } }

/-- A flit's corrected bytes, by the lane of each, in the lanes' 1 ms windows (R168). -/
def PortDir.correct (x : PortDir) (lanes : List Nat) : PortDir :=
  { x with laneErr := lanes.foldl (fun t l => Tab.upd (0, 0) t l fun e => (e.1 + 1, e.2)) x.laneErr }

/-- A port end receives a flit (R167): FEC corrects up to four bytes. A flit with a bad CRC is dropped and its replay is due, and 16 failed
replays of one flit in a row retrain the port; one received before is discarded; its acknowledgement frees the other direction's replay
buffer. Log 40, DEDUCED. -/
def Dev.receiveFlit (d : Dev) (n : Nat) (ab : Bool) (f : Option Flit) (again : Bool) (fec : List Nat) (crcOk : Bool) : Dev :=
  let d := d.count (d2dCounter n 0x30) 1
  let d := if again then d.count (d2dCounter n 0x08) 1 else d
  if !crcOk || decide (4 < fec.length) then
    match f with
    | none => d
    | some f =>
      let fails := if again then ((d.port n).dir ab).fails + 1 else 0
      let d := d.updPort n fun p => p.updDir ab fun x => { x with resend := some f.seq, fails := fails }
      if 16 ≤ fails then d.retrain n else d
  else
    let d := if fec.isEmpty then d else (d.count (d2dCounter n 0) 1).corrected
    let d := if again then d.corrected else d
    let d := (d.count (d2dCounter n 0x38) 1).updPort n fun p => p.updDir ab fun x => { x.correct fec with flits := x.flits + 1 }
    match f with
    | none => d
    | some f =>
      let d := d.updPort n fun p => p.updDir (!ab) fun x => { x with replay := x.replay.filter fun v => decide (f.ack ≤ v.seq) }
      let fresh := decide (f.seq = ((d.port n).dir ab).expect)
      let d := d.updPort n fun p => p.updDir ab fun x =>
        { x with expect := if fresh then x.expect + 1 else x.expect, fails := 0,
                 resend := if x.resend.isSome then (x.replay.find? fun v => decide (f.seq < v.seq)).map Flit.seq else none }
      match d.net.find? fun m => decide (m.id = f.msg) with
      | some m => if fresh && m.flying then (d.dropMsg m.id).receive m else d
      | none => d

/-- An acknowledgement without a message: the far end's expected sequence number (R166). -/
def Dev.ackFlit (d : Dev) (n : Nat) (ab : Bool) (fec : List Nat) (crcOk : Bool) : Dev :=
  let ack := ((d.port n).dir (!ab)).expect
  let d := d.receiveFlit n ab none false fec crcOk
  if crcOk && decide (fec.length ≤ 4) then
    d.updPort n fun p => p.updDir (!ab) fun x => { x with replay := x.replay.filter fun v => decide (ack ≤ v.seq) }
  else d

/-- PAIR_PORT_FLIT: the flit due next in a direction is sent and received. That is the replay that is due; else a new flit with the message
that the router's output grants; or, with no message, an acknowledgement alone. A flit carries one message. Log 66, DESIGN CHOICE. -/
def Dev.pairPortFlit (d : Dev) (n : Nat) (ab : Bool) (msg : Option Nat) (fec : List Nat) (crcOk : Bool) : Dev :=
  let p := d.port n
  let x := p.dir ab
  if 6 ≤ n ∨ ¬ (p.state = .up ∨ p.state = .degraded) then d
  else
    match msg, (x.resend.bind fun s => x.replay.find? fun f => decide (f.seq = s)) with
    | none, _ => d.ackFlit n ab fec crcOk
    | some id, some f => if f.msg = id then d.receiveFlit n ab (some f) true fec crcOk else d
    | some id, none =>
      let base := if ab then portEndA n else portEndB n
      let far := if ab then portEndB n else portEndA n
      let node := routerNode base
      let out := serialPort base far
      match d.winner node out with
      | none => d
      | some m =>
        if m.id ≠ id then d
        else
          match (d.turn node out m).depart m out with
          | (none, d) => d
          | (some c, d) =>
            let vc := outVc node out m
            let f : Flit := { vc := vc, seq := x.seq, ack := (p.dir (!ab)).expect, msg := c.id, node := node, input := m.input, from_ := m.vc }
            let (c, d) := d.tagMsg { c with node := routerNode far, input := serialPort far base, vc := vc, flying := true }
            let d := ({ d with net := d.net ++ [c] } : Dev).countDetour m base far
            let d := d.updPort n fun p => p.updDir ab fun x => { x with seq := x.seq + 1, replay := x.replay ++ [f] }
            d.receiveFlit n ab (some f) false fec crcOk

def execPairPortFlit (port : Nat) (ab : Bool) (msg : Option Nat) (fec : List Nat) (crcOk : Bool) (s : State) : Out :=
  s.run fun d => d.pairPortFlit port ab msg fec crcOk

/-! ## Lanes and retraining (R168, R169) -/

/-- A lane's corrected-symbol ratio in its window: its corrected symbols over its share of the bytes of the flits received. -/
def PortDir.lanePoor (x : PortDir) (lane : Nat) : Bool :=
  let (errs, start) := Tab.get (0, 0) x.laneErr lane
  decide ((x.flits - start) * 256 < errs * 1000000 * x.lanes)

/-- The lane's 1 ms window begins anew. -/
def PortDir.newWindow (x : PortDir) (lane : Nat) : PortDir := { x with laneErr := Tab.set (0, 0) x.laneErr lane (0, x.flits) }

/-- A spare replaces a lane, which is retired; a lane is replaced once. -/
def PortDir.spare (x : PortDir) (lane : Nat) : PortDir :=
  { x with spares := x.spares - 1, retired := NSet.add x.retired lane }

/-- LANE_SPARE: a lane's 1 ms window ends. A lane above one corrected symbol in a million is replaced by a spare; with none left the port
retrains. -/
def execLaneSpare (port : Nat) (ab : Bool) (lane : Nat) (s : State) : Out :=
  s.run fun d =>
    let p := d.port port
    let x := p.dir ab
    if 6 ≤ port ∨ 68 ≤ lane ∨ NSet.has x.retired lane ∨ ¬ (p.state = .up ∨ p.state = .degraded) then d
    else
      let d := d.updPort port fun p => p.updDir ab fun x => x.newWindow lane
      if !x.lanePoor lane then d
      else if x.spares = 0 then d.retrain port
      else (d.count (d2dCounter port 0x18) 1).updPort port fun p => p.updDir ab fun x => x.spare lane

def execPortRetrain (port : Nat) (s : State) : Out :=
  s.run fun d =>
    if port < 6 ∧ ((d.port port).state = .up ∨ (d.port port).state = .degraded) then d.retrain port else d

/-- Requests of a pair that have had no response are reissued by the detour with the next generation (R172); one whose response is
already on its way is not. Log 40, DEDUCED. -/
def Dev.reissue (d : Dev) (n : Nat) : Dev :=
  Dev.forEach ((d.port n).tags.filter Tag.busy) (fun d t =>
    let old : TagRef := { port := n, side := t.side, index := t.index, gen := t.gen }
    let new : TagRef := { old with gen := t.gen + 1 }
    let mine (r : Request) : Bool := decide (r.tag = some old)
    let x := d.slice (d.homeSlice t.line)
    let sent (m : Msg) : Bool := decide (m.kind = .request) && decide (m.tag = some old)
    if x.waiting.any mine || x.channel.any mine || x.txns.any (fun v => mine v.req || v.joined.any mine) || d.net.any sent then
      let next (r : Request) : Request := if mine r then { r with tag := some new } else r
      let d := d.updHome t.line fun x =>
        { x with waiting := x.waiting.map next, channel := x.channel.map next,
                 txns := x.txns.map fun v => { v with req := next v.req, joined := v.joined.map next } }
      ({ d with net := updAll sent (fun m => { m with tag := some new }) d.net } : Dev).updTag old fun t => { t.abandon with busy := true }
    else d) d

/-- Failing lanes are replaced from the spares that remain as a port trains at full width (R169 step 2); none where there are too few. -/
def PortDir.respare (x : PortDir) (failed : List Nat) : Option PortDir :=
  let new := (NSet.addAll [] failed).filter fun l => !NSet.has x.retired l
  if x.spares < new.length then none else some (new.foldl PortDir.spare x)

/-- A port is trained: its new state and lanes; its traffic leaves the detour. -/
def PairPort.trainedAs (p : PairPort) (state : PortState) (lanes : Nat) : PairPort :=
  { p with state := state, ab := p.ab.trained lanes, ba := p.ba.trained lanes, detour := false, attempts := 0, halfTurn := false }

/-- A full-width or half-width attempt fails: the first moves the traffic to the detour, the half-width one ends in DOWN. -/
def Dev.attemptFails (d : Dev) (n : Nat) : Dev :=
  let p := d.port n
  if p.halfTurn then
    (d.updPort n fun p =>
      { p.trainedAs .down 0 with detour := true }).portsMoved [n] [n]
  else
    let d := d.updPort n fun p => { p with attempts := p.attempts + 1, halfTurn := decide (2 ≤ p.attempts), detour := true }
    if p.attempts = 0 then ((d.returnFlits n true).returnFlits n false).reissue n else d

/-- RETRAIN_ATTEMPT_END: the first attempt, two more on the detour, then one at half width. -/
def Dev.retrainAttemptEnd (d : Dev) (n : Nat) (result : TrainEnd) : Dev :=
  let p := d.port n
  if 6 ≤ n ∨ p.state ≠ .retrain then d
  else if !result.trained then d.attemptFails n
  else if p.halfTurn then (d.updPort n fun p => p.trainedAs .degraded 32).portsMoved [n] [n]
  else
    match p.ab.respare result.failedAB, p.ba.respare result.failedBA with
    | some ab, some ba =>
      let used := (p.ab.spares - ab.spares) + (p.ba.spares - ba.spares)
      ((d.count (d2dCounter n 0x18) used).updPort n fun p => { p with ab := ab, ba := ba }.trainedAs .up 64).portsMoved [n] []
    | _, _ => d.attemptFails n

def execRetrainAttemptEnd (port : Nat) (trained : TrainEnd) (s : State) : Out := s.run fun d => d.retrainAttemptEnd port trained

/-! ## Tags (R163, R171, R172) -/

/-- TAG_ABANDON: the router ends the request of a tag that has had no response. -/
def execTagAbandon (port side index : Nat) (s : State) : Out :=
  s.run fun d =>
    match (d.port port).tag? side index with
    | none => d
    | some t =>
      if 6 ≤ port ∨ t.busy = false then d
      else (d.updPort port fun p => p.setTag t.abandon).routerReply t.agent t.line t.wantsData

/-- DRAIN_MARKER_RETURN: the marker behind the third request has returned, so the index is free. -/
def execDrainMarkerReturn (port side index : Nat) (s : State) : Out :=
  s.run fun d =>
    match (d.port port).tag? side index with
    | none => d
    | some t =>
      if 6 ≤ port ∨ t.withheld = false then d
      else d.updPort port fun p => p.setTag { t with withheld := false, abandons := 0 }

end Sys2Proof.Machine
end

