-- ==== Sys2Proof/Machine/Stacks.lean ====
section
/-! DEFINITION. The HBM stacks (R199 to R205), the CXL far tier (R206 to R209, R484) and the commands that grant memory (R195 to R197). -/

namespace Sys2Proof.Machine

/-! ## HBM lines and write batches (R199, R201 to R203) -/

/-- The reads of a line's pseudo-channel that stand in its read queue, oldest first (R199). -/
def Dev.readQueue (d : Dev) (line : Nat) : List MemRead :=
  (d.reads.filter fun r => decide (r.line = line) ||
    (!lineIsFar r.line && decide (d.lineStack r.line = d.lineStack line) && decide (d.linePseudo r.line = d.linePseudo line))).take 32

/-- The read that a pseudo-channel serves next: one that 16 later reads have bypassed, else a row hit, else the oldest. -/
def Dev.nextRead (d : Dev) (line : Nat) : Option MemRead :=
  leastBy (fun r => if 16 ≤ r.passed then 0 else if d.rowHit r.line then 1 else 2) (d.readQueue line)

/-- Older reads of the queue are bypassed by one that is served. -/
def Dev.bypass (d : Dev) (line : Nat) : Dev :=
  let older := (d.readQueue line).takeWhile fun r => decide (r.line ≠ line)
  { d with reads := updAll (fun r => older.contains r) (fun r => { r with passed := r.passed + 1 }) d.reads }

/-- HBM_READ_COMPLETE: the controller serves and checks a line that a fill reads, in the order of R199. -/
def Dev.hbmReadComplete (d : Dev) (line : Nat) (first second : ReadCheck) : Dev :=
  if !d.reading line || lineIsFar line || decide ((d.nextRead line).map MemRead.line ≠ some line) then d
  else (d.bypass line).hbmChecked line first second

def execHbmReadComplete (line : Nat) (first second : ReadCheck) (s : State) : Out :=
  s.run fun d => d.hbmReadComplete line first second

/-- No read waits at a pseudo-channel. -/
def Dev.noReads (d : Dev) (stack p : Nat) : Bool :=
  !d.reads.any fun r => !lineIsFar r.line && decide (d.lineStack r.line = stack) && decide (d.linePseudo r.line = p)

def execHbmWriteBatch (stack pseudo : Nat) (s : State) : Out :=
  s.run fun d => if d.batchLines ≤ (d.stack stack).waits pseudo ∨ d.noReads stack pseudo = true then d.drainBatch stack pseudo else d
/-- WRITE_WAIT_EXPIRE: a write has waited 2 µs. -/
def execWriteWaitExpire (stack pseudo : Nat) (s : State) : Out := s.run fun d => d.drainBatch stack pseudo
/-- HBM_REFRESH takes stack time (R201) and changes nothing that the spec lets be seen (log 12, DESIGN CHOICE). -/
def execHbmRefresh (stack : Nat) (s : State) : Out := s.run fun d => d.updStack stack fun k => k

/-! ## Stack temperature (R204, R205) -/

/-- The throttle steps' entry and exit thresholds; a step is active up to the code that stands. Log 46, DEDUCED. -/
def throttleAfter (old temp : Nat) : Nat :=
  let active (k enter leave : Nat) : Bool := decide (enter ≤ temp) || (decide (k ≤ old) && decide (leave ≤ temp))
  if active 3 105 100 then 3 else if active 2 100 98 then 2 else if active 1 95 93 then 1 else 0

/-- Log 46, DEDUCED. -/
def Dev.stackTempRead (d : Dev) (n temp : Nat) : Dev :=
  let k := d.stack n
  if 12 ≤ n ∨ k.state ≠ 0 then d
  else
    let old := k.throttle.toNat
    let new := throttleAfter old temp
    let twice := decide (85 ≤ temp) || (k.refresh2x && decide (83 ≤ temp))
    let changes := (if old ≤ new then new - old else old - new) + boolNat (twice != k.refresh2x)
    let d := d.updStack n fun k =>
      { k with temp := BitVec.ofNat 8 (min temp 255), throttle := BitVec.ofNat 2 new, refresh2x := twice }
    let d := d.count (stackCounter n 0x38) changes
    let d := if old = new then d else d.trace 5 n new
    if new = 3 ∧ old ≠ 3 then d.glint 0 0x602 n temp 0 else d

def execStackTempRead (stack temp : Nat) (s : State) : Out := s.run fun d => d.stackTempRead stack temp

/-! ## Far-tier ports (R206 to R209, R484) -/

/-- The device's 2 MiB frame number of a port's frame. -/
def farFrame (p k : Nat) : Nat := (farBase + p * farWindow) / pageBytes + k
def FarPort.frames (q : FarPort) : Nat := 128 * q.capacity
/-- Holder of a 2 MiB frame: 0 free, f + 1. -/
def Dev.holder (d : Dev) (frame : Nat) : Nat := Tab.get 0 d.frames frame
def Dev.setHolder (d : Dev) (frame h : Nat) : Dev := { d with frames := Tab.set 0 d.frames frame h }
/-- The frames of a port that someone holds. -/
def Dev.farHeld (d : Dev) (p : Nat) : List Nat :=
  (d.frames.filter fun e => decide (farFrame p 0 ≤ e.1) && decide (e.1 < farFrame (p + 1) 0)).map fun e => e.1 - farFrame p 0

/-- FAR_PORT: the new STATE and the number of marked frames. -/
def Dev.farGlint (d : Dev) (p : Nat) : Dev := d.glint 0 0x605 p (d.farPort p).state.toNat (d.farPort p).marked.length

/-- Steps 1 to 5 of R207 with what they find. A device other than the last one is not scrubbed. Log 44, DEDUCED. -/
def Dev.farEnumerate (d : Dev) (p : Nat) (found : FarDevice) : Dev :=
  let q := d.farPort p
  let cap := min (found.capacity / 268435456) 4096
  if !found.link then d.setFarPort p { q with state := 0, rate := 0, width := 0, ide := false, capacity := 0 }
  else if !found.supported then
    d.setFarPort p { q with state := 4, rate := found.rate, width := found.width, ide := false, capacity := 0 }
  else if !found.ide then
    let d := if q.state = 3 then d else d.count (farCounter p 0x28) 1
    d.setFarPort p { q with state := 3, rate := found.rate, width := found.width, ide := false }
  else
    let same := decide (q.identity = found.identity) && decide (q.capacity = cap)
    (d.setFarPort p { q with state := 2, rate := found.rate, width := found.width, ide := true, capacity := cap,
                             identity := found.identity, scrubbed := if same then q.scrubbed else 0 }).farGlint p

/-- Maps pages at consecutive virtual pages. -/
def Dev.mapPages (d : Dev) (f va : Nat) (frames : List Nat) (cls : BitVec 3) (ro : Bool) : Dev :=
  let new := ((List.range frames.length).zip frames).map fun e => ({ va := va + e.1, frame := e.2, cls := cls, ro := ro } : PageMap)
  d.updFacet f fun x => { x with pages := x.pages ++ new }

/-- The response of MEM_ALLOC. -/
def allocResponse (vaPage pages : Nat) : List Byte := leBytes 8 1 ++ leBytes 8 (vaPage * pageBytes) ++ leBytes 4 pages ++ leBytes 4 0

def frameScrubbed (d : Dev) (frame : Nat) : Bool :=
  let p := lineFarPort (frame * pageLines)
  decide (frame - farFrame p 0 < (d.farPort p).scrubbed)

/-- Completes waiting far allocations in arrival order while their frames are scrubbed (R484). -/
def Dev.serveFarWaits (d : Dev) : Nat → Dev
  | 0 => d
  | fuel + 1 =>
    match d.farWaits with
    | [] => d
    | w :: rest =>
      if w.frames.all (frameScrubbed d) then
        let d := ({ d with farWaits := rest } : Dev).mapPages w.fn w.va w.frames w.cls w.ro
        (d.mbxFinish w.fn 0 (allocResponse w.va w.frames.length)).serveFarWaits fuel
      else d

/-- Gives up waiting allocations and their frames; the commands complete with a status. -/
def Dev.dropFarWaits (d : Dev) (p : FarWait → Bool) (st : Code) : Dev :=
  let gone := d.farWaits.filter p
  let d := { d with farWaits := d.farWaits.filter fun w => !p w }
  Dev.forEach gone (fun d w => (Dev.forEach w.frames (fun d fr => d.setHolder fr 0) d).mbxFinish w.fn st []) d

/-- FAR_READ_COMPLETE: the memory device answers a fill's read, poisoned or not (R208). -/
def execFarReadComplete (line : Nat) (answer : FarAnswer) (s : State) : Out :=
  s.run fun d => if !d.reading line || !lineIsFar line then d else d.farChecked line answer

/-- FAR_LINK_DOWN: what is outstanding completes at once, and every frame that lost a write is marked. -/
def Dev.farLinkDown (d : Dev) (p : Nat) : Dev :=
  let q := d.farPort p
  if 4 ≤ p ∨ q.state ≠ 2 then d
  else
    let lost := q.writes
    let d := (d.count (farCounter p 0x28) 1).updFarPort p fun q =>
      { q with state := 3, ide := false, writes := [] }
    let d := d.markFrames p (lost.map fun w => lineFarFrame w.line)
    let d := Dev.forEach lost (fun d w => d.post { mkMsg .cmpAck w.agent w.line with status := 0x661, tag := w.tag }) d
    let fills := (d.reads.filter fun r => lineIsFar r.line && decide (lineFarPort r.line = p)).map MemRead.line
    let d := Dev.forEach fills (fun d l => (d.dropRead l).fillDone l) d
    let d := d.dropFarWaits (fun w => w.frames.any fun fr => decide (lineFarPort (fr * pageLines) = p)) 0x661
    d.farGlint p

def execFarLinkDown (port : Nat) (s : State) : Out := s.run fun d => d.farLinkDown port

/-- FAR_LINK_RECOVER: another device, or the same one with another capacity, marks every mapped frame of the port. -/
def execFarLinkRecover (port : Nat) (found : FarDevice) (s : State) : Out :=
  s.run fun d =>
    let q := d.farPort port
    if 4 ≤ port ∨ q.state ≠ 3 then d
    else
      let changed := found.link && found.supported &&
        (decide (found.identity ≠ q.identity) || decide (min (found.capacity / 268435456) 4096 ≠ q.capacity))
      let d := if changed then d.markFrames port (d.farHeld port) else d
      d.farEnumerate port found

/-- FAR_ENUMERATE: after boot step 8 (R207). -/
def execFarEnumerate (port : Nat) (found : FarDevice) (s : State) : Out :=
  s.run fun d =>
    if 4 ≤ port ∨ d.boot.step ≠ 9 ∨ (d.farPort port).state ≠ 0 ∨ d.farHeld port ≠ [] then d
    else (d.updFarPort port fun q => { q with perst := false }).farEnumerate port found

/-- CXL_EVENT: an event record of a memory device, as a glint (R206, R321). -/
def execCxlEvent (port : Nat) (lo hi : BitVec 64) (s : State) : Out :=
  s.run fun d => if 4 ≤ port ∨ (d.farPort port).state ≠ 2 then d else d.glint 0 0x606 port lo.toNat hi.toNat

/-- FAR_SCRUB_PROGRESS: every frame of a port below a number is scrubbed (R484). Log 44, DEDUCED. -/
def Dev.farScrub (d : Dev) (p frames : Nat) : Dev :=
  let q := d.farPort p
  if 4 ≤ p ∨ q.state ≠ 2 ∨ frames ≤ q.scrubbed ∨ q.frames < frames then d
  else
    let d := d.scrubLines (farFrame p q.scrubbed * pageLines) ((frames - q.scrubbed) * pageLines)
    (d.updFarPort p fun q => { q with scrubbed := frames }).serveFarWaits d.farWaits.length

def execFarScrubProgress (port frames : Nat) (s : State) : Out := s.run fun d => d.farScrub port frames

/-! ## Free pages (R193, R195) -/

/-- The first number from a start that meets a test, within a count. -/
def findUp (p : Nat → Bool) : Nat → Nat → Option Nat
  | 0, _ => none
  | fuel + 1, n => if p n then some n else findUp p fuel (n + 1)

/-- Pages that the gaffer itself holds beside the warm copies: its reserve, its structures and KV pages; they lie in the highest stripes. -/
def Dev.gafferPages (d : Dev) : Nat :=
  reservePages + d.managerPages + (d.facetsThere.map fun f => pagesOf (d.kvBytes f)).sum
/-- Stripes below the gaffer's own. -/
def Dev.openStripes (d : Dev) : Nat := d.stripeCount - (d.gafferPages + 11) / 12

def Dev.stripePageFree (d : Dev) (stripe page : Nat) : Bool := decide (d.holder (12 * stripe + page) = 0)
def Dev.stripeFreePage (d : Dev) (stripe : Nat) : Option Nat := findUp (d.stripePageFree stripe) 12 0
/-- The lowest-numbered stripe with no mode. -/
def Dev.bareStripe (d : Dev) : Option Nat := findUp (fun s => decide (d.stripeMode s = 0)) d.openStripes 0

/-- Takes a page of a stripe for a facet; the stripe takes its mode with its first page. -/
def Dev.takePage (d : Dev) (f mode stripe page : Nat) : Nat × Dev :=
  (12 * stripe + page, { (d.setHolder (12 * stripe + page) (f + 1)) with stripes := Tab.set 0 d.stripes stripe mode })

/-- A SPREAD page: from partly used SPREAD stripes first. -/
def Dev.pickSpread (d : Dev) (f : Nat) : Option (Nat × Dev) :=
  match d.stripes.find? fun e => decide (e.2 = 1) && (d.stripeFreePage e.1).isSome with
  | some (s, _) => (d.stripeFreePage s).map fun p => d.takePage f 1 s p
  | none => d.bareStripe.map fun s => d.takePage f 1 s 0

/-- A LOCAL page of a stack: from LOCAL stripes first. -/
def Dev.pickLocal (d : Dev) (f stack : Nat) : Option (Nat × Dev) :=
  match d.stripes.find? fun e => decide (e.2 = 2) && d.stripePageFree e.1 stack with
  | some (s, _) => some (d.takePage f 2 s stack)
  | none => d.bareStripe.map fun s => d.takePage f 2 s stack

/-- Pages that can take LOCAL mode in a stack. -/
def Dev.localRoom (d : Dev) (stack : Nat) : Nat :=
  countIf (fun e => decide (e.2 = 2) && d.stripePageFree e.1 stack) d.stripes +
    (d.openStripes - countIf (fun e => decide (e.1 < d.openStripes)) d.stripes)
/-- The base die with the most such pages, the lower number on ties. -/
def Dev.roomiestBase (d : Dev) : Nat :=
  let room (b : Nat) := d.localRoom (3 * b) + d.localRoom (3 * b + 1) + d.localRoom (3 * b + 2)
  (leastBy (fun b => 1000000000 - room b) [0, 1, 2, 3]).getD 0

/-- The lowest-numbered free frame of a port. -/
def Dev.pickFar (d : Dev) (f p : Nat) : Option (Nat × Dev) :=
  if (d.farPort p).state ≠ 2 then none
  else (findUp (fun k => decide (d.holder (farFrame p k) = 0)) (d.farPort p).frames 0).map fun k =>
    (farFrame p k, d.setHolder (farFrame p k) (f + 1))

/-- Pages from several places in turn, passing over a place that has none left. -/
def pickInTurn (pick : Dev → Nat → Option (Nat × Dev)) (places : List Nat) : Nat → Nat → Dev → Option (List Nat × Dev)
  | 0, _, d => some ([], d)
  | n + 1, turn, d =>
    let order := (places.drop turn) ++ places.take turn
    match order.findSome? fun p => (pick d p).map fun e => (p, e) with
    | none => none
    | some (p, frame, d) =>
      let at_ := (places.findIdx fun q => decide (q = p))
      (pickInTurn pick places n ((at_ + 1) % places.length) d).map fun e => (frame :: e.1, e.2)

/-! ## The memory commands (R195 to R197) -/

def memClassOk (c : Nat) : Bool := [0, 1, 2, 4, 7].contains c

/-- TARGET has a value that R195 defines for the tier and the placement. -/
def memTargetOk (far localPages : Bool) (t : Nat) : Bool :=
  if far then decide (t < 4) || decide (t = 0x1F)
  else !localPages || decide (t < 12) || (decide (0x10 ≤ t) && decide (t ≤ 0x13)) || decide (t = 0x1F)

/-- The virtual address that the gaffer chooses: the one proposed where it fits, else the lowest that does. Log 15, DESIGN CHOICE. -/
def Dev.chooseVa (d : Dev) (f choice bytes : Nat) : Nat :=
  let fits (va : Nat) : Bool :=
    decide (va ≠ 0) && decide (va % pageBytes = 0) && decide (va + bytes ≤ 2 ^ 64) && !d.overlapsMapping f va bytes
  if fits choice then choice
  else
    let x := d.facet f
    let ends := (x.pages.map fun p => (p.va + 1) * pageBytes) ++ (x.buses.map fun m => m.va + alignUp m.size pageBytes) ++
      ((d.groups.filter fun g => decide (g.facet = f)).map fun g => alignUp (g.window + g.windowBytes) pageBytes)
    (leastBy id ((pageBytes :: ends).filter fits)).getD pageBytes

/-- Any stack is FAILED (R189). -/
def Dev.stackFailed (d : Dev) : Bool := (List.range 12).any fun n => decide ((d.stack n).state = 2)

/-- The pages of a MEM_ALLOC, HBM or far. -/
def Dev.pickPages (d : Dev) (f : Nat) (far localPages : Bool) (t n : Nat) : Option (List Nat × Dev) :=
  if far then
    pickInTurn (fun d p => d.pickFar f p) (if t = 0x1F then [0, 1, 2, 3].filter fun p => decide ((d.farPort p).state = 2) else [t]) n 0 d
  else if !localPages then pickInTurn (fun d _ => d.pickSpread f) [0] n 0 d
  else
    let b := if t = 0x1F then d.roomiestBase else t - 0x10
    pickInTurn (fun d s => d.pickLocal f s) (if t < 12 then [t] else [3 * b, 3 * b + 1, 3 * b + 2]) n 0 d

/-- MEM_ALLOC, code 0x0600; `vaChoice` is the gaffer's address where the request leaves it to it. -/
def execMemAlloc (fn vaChoice : Nat) (s : State) : Out :=
  s.run fun d => d.mbxRun fn 0x0600 (ofSender fn) fun d p =>
    let far := bit (leAt p 1 1) 0
    let localPages := bit (leAt p 1 1) 1
    let cls := bits (leAt p 2 1) 0 3
    let ro := bit (leAt p 2 1) 3
    let target := bits (leAt p 3 1) 0 5
    let n := leAt p 4 4
    let asked := leAt p 8 8
    let bytes := n * pageBytes
    if n = 0 ∨ (far && localPages) = true ∨ memClassOk cls = false ∨ memTargetOk far localPages target = false then .refuse 0x3 []
    else if asked ≠ 0 ∧ (asked % pageBytes ≠ 0 ∨ 2 ^ 64 < asked + bytes ∨ d.overlapsMapping fn asked bytes = true) then .refuse 0x651 []
    else if !far && d.stackFailed then .refuse 0x653 []
    else if !far && decide (d.hbmFree fn < n) then .refuse 0x650 []
    else if far && !(if target = 0x1F then [0, 1, 2, 3] else [target]).any (fun p => decide ((d.farPort p).state = 2)) then
      .refuse 0x660 []
    else
      match d.pickPages fn far localPages target n with
      | none => .refuse 0x654 []
      | some (frames, e) =>
        let va := (if asked ≠ 0 then asked else d.chooseVa fn vaChoice bytes) / pageBytes
        if frames.all (fun fr => !far || frameScrubbed e fr) && (!far || e.farWaits.isEmpty) then
          .ok (e.mapPages fn va frames (BitVec.ofNat 3 cls) ro) (allocResponse va n)
        else .wait { e with farWaits := e.farWaits ++ [{ fn := fn, va := va, frames := frames, cls := BitVec.ofNat 3 cls, ro := ro }] }

/-- The ranges of the manager's addresses that a corpus block takes (R239, R240). -/
def CorpusBlock.ranges (b : CorpusBlock) (i8 : Bool) : List (Nat × Nat) :=
  [(b.code, b.count * codeBytes i8), (b.attr, 8 * b.count)] ++ (if b.rerank = 0 then [] else [(b.rerank, 1024 * b.count)])

/-- A range of a facet's addresses holds something that MEM_FREE refuses to take away: a registered block, a registered model's
program, a reduction window (R197, R240, R275). -/
def Dev.rangeInUse (d : Dev) (f va n : Nat) : Bool :=
  let meets (r : Nat × Nat) : Bool := decide (r.1 < va + n) && decide (va < r.1 + r.2)
  (decide (f = 0) && d.lehr.corpora.any fun c => c.blocks.any fun b => (b.ranges c.i8).any meets) ||
    d.serving.models.any (fun m => m.refs.any fun r => decide (r.facet = f) && meets (r.program, m.program.length)) ||
    d.groups.any fun g => decide (g.facet = f) && meets (g.window, g.windowBytes)

/-- The pages from an address are mapped by MEM_ALLOC. -/
def Dev.allAllocated (d : Dev) (f va : Nat) : Nat → Bool
  | 0 => true
  | n + 1 => (d.facet f).pages.any (fun p => decide (p.va = va)) && d.allAllocated f (va + 1) n

/-- A frame is free again, scrubbed; a stripe with no page left has no mode (R193, R196). -/
def Dev.freeFrame (d : Dev) (frame : Nat) : Dev :=
  let d := (d.scrubFrame frame).setHolder frame 0
  if frameIsHbm frame && ((List.range 12).all fun i => d.stripePageFree (frame / 12) i) then { d with stripes := Tab.erase d.stripes (frame / 12) } else d

/-- Unmaps a facet's pages: pins, cached copies and contents go. -/
def Dev.releasePages (d : Dev) (f : Nat) (p : PageMap → Bool) : Dev :=
  let gone := (d.facet f).pages.filter p
  let d := d.updFacet f fun x => { x with pages := x.pages.filter fun m => !p m }
  let d := Dev.forEach gone (fun d m => d.freeFrame m.frame) d
  d.serveFarWaits d.farWaits.length

/-- The checks of MEM_FREE and MEM_SET_CLASS after their fields. -/
def Dev.pageRangeBad (d : Dev) (f va n : Nat) : Bool := decide (va % pageBytes ≠ 0) || !d.allAllocated f (va / pageBytes) n

def inPages (va n : Nat) (m : PageMap) : Bool := decide (va / pageBytes ≤ m.va) && decide (m.va < va / pageBytes + n)

/-- MEM_FREE, code 0x0601. -/
def execMemFree (fn : Nat) (s : State) : Out :=
  s.run fun d => d.mbxRun fn 0x0601 (ofSender fn) fun d p =>
    let va := leAt p 8 8
    let n := leAt p 16 4
    if n = 0 then .refuse 0x3 []
    else if d.pageRangeBad fn va n then .refuse 0x651 []
    else if d.rangeInUse fn va (n * pageBytes) then .refuse 0x652 []
    else .ok (d.releasePages fn (inPages va n)) []

/-- MEM_SET_CLASS, code 0x0602. -/
def execMemSetClass (fn : Nat) (s : State) : Out :=
  s.run fun d => d.mbxRun fn 0x0602 (ofSender fn) fun d p =>
    let cls := bits (leAt p 2 1) 0 3
    let ro := bit (leAt p 2 1) 3
    let va := leAt p 8 8
    let n := leAt p 16 4
    if n = 0 ∨ memClassOk cls = false then .refuse 0x3 []
    else if d.pageRangeBad fn va n then .refuse 0x651 []
    else .ok (d.updFacet fn fun x =>
      { x with pages := updAll (inPages va n) (fun m => { m with cls := BitVec.ofNat 3 cls, ro := ro }) x.pages }) []

/-- FAR_RESCAN, code 0x0603: it completes with the outcome of the enumeration. Log 44, DEDUCED. -/
def execFarRescan (fn : Nat) (found : FarDevice) (s : State) : Out :=
  s.run fun d => d.mbxRun fn 0x0603 (ofSender fn) fun d p =>
    let port := leAt p 1 1
    if 3 < port then .refuse 0x3 []
    else if d.farHeld port ≠ [] then .refuse 0x652 []
    else
      let d := (d.updFarPort port fun q => { q with perst := false }).farEnumerate port found
      let st := (d.farPort port).state
      .outcome d (if st = 2 then 0 else if st = 4 then 0x662 else 0x660)

end Sys2Proof.Machine
end

