-- ==== Sys2Proof/Machine/Aperture.lean ====
section
/-! DEFINITION. The PCIe port: host and peer mappings (R322, R323), the BAR4 apertures and the requests to them (R302, R324, R230), intake slots (R311), configuration requests (R300, R326) and confirmation reads (R226). -/

namespace Sys2Proof.Machine

/-! ## Who is reached (R300, R326, R377, R453, R479, R481) -/

/-- The function is on the bus. -/
def Dev.onBus (d : Dev) (fn : Nat) : Bool := d.host.linkUp && (decide (fn = 0) || (decide (fn ≤ d.host.numVFs) && decide (fn ≤ 63)))
/-- Memory requests reach the function's BARs. -/
def Dev.barOpen (d : Dev) (fn : Nat) : Bool :=
  d.onBus fn && decide (d.boot.step = 9) && NSet.has d.host.memEnable fn && !NSet.has d.host.flr fn &&
    (!d.boot.recovery || decide (fn = 0))
/-- A request to BAR2 or BAR4 passes the IDE rule. -/
def Dev.idePasses (d : Dev) (ide : Bool) : Bool := ide || !d.security.requireIde

/-- A register write or commit of a function: one that changes a LIVE or HALTED field or a STAGED pair is journaled before it takes
effect, and is ignored while the journal is near its limit (R458, R460). -/
def Dev.journaled (d : Dev) (fn off value : Nat) (changes : Bool) (apply : Dev → Dev) : Dev :=
  if !changes then apply d else if d.security.nearFull then d else apply (d.auditWrite fn off value)

/-! ## Host and peer mappings (R322, R323) -/

def Dev.peerMappings (d : Dev) : Nat := (d.facets.map fun e => countIf BusMap.peer e.2.buses).sum

/-- BUS_MAP, code 0x0610; `pathOpen` is what the path test finds. -/
def execBusMap (fn vaChoice : Nat) (pathOpen : Bool) (s : State) : Out :=
  s.run fun d => d.mbxRun fn 0x0610 (ofSender fn) fun d p =>
    let peer := bit (leAt p 1 1) 0
    let ro := bit (leAt p 1 1) 1
    let bus := leAt p 8 8
    let size := leAt p 16 8
    let asked := leAt p 24 8
    let bytes := alignUp size pageBytes
    let x := d.facet fn
    if bus % 4096 ≠ 0 ∨ size = 0 ∨ size % 4096 ≠ 0 ∨ 68719476736 < size then .refuse 0x3 []
    else if asked ≠ 0 ∧ (asked % pageBytes ≠ 0 ∨ 2 ^ 64 < asked + bytes ∨ d.overlapsMapping fn asked bytes = true) then .refuse 0x651 []
    else if (if peer then decide (16 ≤ countIf BusMap.peer x.buses) || decide (64 ≤ d.peerMappings)
        else decide (256 ≤ countIf (fun m => !m.peer) x.buses)) then .refuse 0x671 []
    else if peer && !(pathOpen && d.mayTransmit fn) then .refuse 0x670 []
    else
      let va := if asked ≠ 0 then asked else d.chooseVa fn vaChoice bytes
      .ok (d.updFacet fn fun x => { x with buses := x.buses ++ [{ va := va, bus := bus, size := size, peer := peer, ro := ro, closed := false }] })
        (leBytes 8 1 ++ leBytes 8 va)

/-- BUS_UNMAP, code 0x0611. -/
def execBusUnmap (fn : Nat) (s : State) : Out :=
  s.run fun d => d.mbxRun fn 0x0611 (ofSender fn) fun d p =>
    let va := leAt p 8 8
    if !(d.facet fn).buses.any (fun m => decide (m.va = va)) then .refuse 0x651 []
    else .ok (d.updFacet fn fun x => { x with buses := eraseFirst (fun m => decide (m.va = va)) x.buses }) []

/-! ## Apertures (R302, R324, R328) -/

/-- The range of BAR4 offsets of the plain aperture, or of a lane: start and size. -/
def Facet.apertureRange (x : Facet) (keyed : Bool) (key : Nat) : Nat × Nat :=
  if keyed then (x.bar4 / 2 + key * (x.bar4 / 512), x.bar4 / 512) else (0, x.bar4 / 2)

/-- An offset of a range where a mapping fits: the one proposed, else the lowest. Log 15, DESIGN CHOICE. -/
def Facet.apertureOffset (x : Facet) (range : Nat × Nat) (choice size : Nat) : Option Nat :=
  let fits (o : Nat) : Bool := decide (range.1 ≤ o) && decide (o % 4096 = 0) && decide (o + size ≤ range.1 + range.2) &&
    x.apertures.all fun a => decide (o + size ≤ a.offset) || decide (a.offset + a.size ≤ o)
  if fits choice then some choice
  else leastBy id ((range.1 :: x.apertures.map fun a => a.offset + a.size).filter fits)

def Dev.keyedMappings (d : Dev) : Nat := (d.facets.map fun e => countIf Aperture.keyed e.2.apertures).sum

/-- APERTURE_MAP, code 0x0612; `offsetChoice` is the gaffer's offset. -/
def execApertureMap (fn offsetChoice : Nat) (s : State) : Out :=
  s.run fun d => d.mbxRun fn 0x0612 (ofSender fn) fun d p =>
    let flags := leAt p 1 1
    let keyed := bit flags 0
    let key := leAt p 2 1
    let va := leAt p 8 8
    let size := leAt p 16 8
    let x := d.facet fn
    if va % 4096 ≠ 0 ∨ size % 4096 ≠ 0 ∨ size = 0 then .refuse 0x3 []
    else if !d.isDevice fn va size then .refuse 0x651 []
    else
      match x.apertureOffset (x.apertureRange keyed key) offsetChoice size with
      | none => .refuse 0x672 []
      | some o =>
        if keyed && (decide (64 ≤ countIf Aperture.keyed x.apertures) || decide (256 ≤ d.keyedMappings)) then .refuse 0x671 []
        else
          let a : Aperture :=
            { offset := o, va := va, size := size, keyed := keyed, key := key, read := bit flags 1, write := bit flags 2,
              anyRid := bit flags 3, rid := BitVec.ofNat 16 (leAt p 4 2) }
          .ok (d.updFacet fn fun x => { x with apertures := x.apertures ++ [a] }) (leBytes 8 1 ++ leBytes 8 o)

/-- APERTURE_UNMAP, code 0x0613. -/
def execApertureUnmap (fn : Nat) (s : State) : Out :=
  s.run fun d => d.mbxRun fn 0x0613 (ofSender fn) fun d p =>
    let o := leAt p 8 8
    if !(d.facet fn).apertures.any (fun a => decide (a.offset = o)) then .refuse 0x651 []
    else .ok (d.updFacet fn fun x => { x with apertures := eraseFirst (fun a => decide (a.offset = o)) x.apertures }) []

/-- Where a BAR4 request leads: a virtual address of the facet, or no mapped page, perhaps by a wrong key. -/
inductive Bar4Target where
  | at (va : Nat)
  | unmapped
  | keyMiss

/-- Resolves a BAR4 request of some bytes (R302, R324, R328, R373). -/
def Facet.bar4Target (x : Facet) (offset n : Nat) (write : Bool) (rid : BitVec 16) : Bar4Target :=
  let keyed := decide (x.bar4 / 2 ≤ offset)
  if x.state.quiet || (!keyed && x.plainPending && decide (x.bar4 ≠ x.bar4AtDown)) then .unmapped
  else
    match x.apertures.find? fun a => (a.keyed == keyed) && decide (a.offset ≤ offset) && decide (offset + n ≤ a.offset + a.size) with
    | none => .unmapped
    | some a =>
      let allowed := if write then a.write else a.read
      if keyed && !(allowed && (a.anyRid || decide (a.rid = rid))) then .keyMiss
      else if !allowed then .unmapped
      else .at (a.va + (offset - a.offset))

/-- A posted write that leads nowhere (R302). Log 43, DEDUCED. -/
def Dev.strayWrite (d : Dev) (fn : Nat) : Dev := d.send (.aerAdvisory fn)
def Dev.keyMissed (d : Dev) : Dev := d.count 0x606020 1

/-- The device memory behind a virtual range, of which each byte is a MEM_ALLOC page and, for a write, not READ_ONLY. -/
def Dev.deviceRange (d : Dev) (fn va n : Nat) (write : Bool) : Bool :=
  (lineChunks va n).all fun c => match d.translate fn c.1 with
    | .device _ _ ro => !(write && ro)
    | _ => false

/-- A posted write TLP at the homes. A poisoned TLP poisons every line it writes (R427, R431). -/
def Dev.bar4Write (d : Dev) (fn offset : Nat) (data : List Byte) (ep : Bool) (rid : BitVec 16) : Dev :=
  match (d.facet fn).bar4Target offset data.length true rid with
  | .unmapped => d.strayWrite fn
  | .keyMiss => d.keyMissed.strayWrite fn
  | .at va =>
    if !d.deviceRange fn va data.length true then d.strayWrite fn
    else
      let d := (d.vwrite agentPort fn false (some 7) va data ep).2
      if !ep then d
      else
        match d.translate fn va with
        | .device pa _ _ => (d.count 0x609030 1).poisonOrigin 8 false pa fn
        | _ => d

/-- A non-posted read TLP: its completion. -/
def Dev.bar4Read (d : Dev) (fn offset n : Nat) (rid : BitVec 16) : Dev :=
  match (d.facet fn).bar4Target offset n false rid with
  | .unmapped => d.send .unsupportedRequest
  | .keyMiss => d.keyMissed.send .unsupportedRequest
  | .at va =>
    if !d.deviceRange fn va n false then d.send .unsupportedRequest
    else
      let (r, d) := d.vread agentPort fn false (some 7) va n
      d.send (.completion r.bytes r.poison)

/-- The operation at the home: 32 bits of R57, or 64 bits. -/
def atomicCode (op : AtomicOp) (wide : Bool) : BitVec 4 :=
  match op, wide with
  | .fetchAdd, false => 0
  | .swap, false => 7
  | .cas, false => 8
  | .fetchAdd, true => 9
  | .swap, true => 10
  | .cas, true => 11

/-- An AtomicOp of 4 or 8 bytes at the home (R230); another size completes with Unsupported Request. Log 43, DEDUCED. -/
def Dev.bar4Atomic (d : Dev) (fn offset : Nat) (op : AtomicOp) (n : Nat) (x y : BitVec 128) (rid : BitVec 16) : Dev :=
  if ¬ (n = 4 ∨ n = 8) ∨ offset % n ≠ 0 then d.send .unsupportedRequest
  else
    match (d.facet fn).bar4Target offset n true rid with
    | .unmapped => d.send .unsupportedRequest
    | .keyMiss => d.keyMissed.send .unsupportedRequest
    | .at va =>
      match d.translate fn va with
      | .device pa _ false =>
        let operands := leBytes 8 (x.toNat % 2 ^ 64) ++ leBytes 8 (y.toNat % 2 ^ 64)
        let req := { mkReq .atom agentPort fn 7 (pa / 128) with
                     bytes := operands.map fun b => (pa % 128, b), op := atomicCode op (decide (n = 8)), x := x.setWidth 32, y := y.setWidth 32 }
        let (m, d) := d.access req
        d.send (.completion (m.data.take n) m.poison)
      | _ => d.send .unsupportedRequest

/-- The port holds BAR4 requests while the package is DARK or leaves it (R413). -/
def Dev.bar4Held (d : Dev) : Bool := decide (d.power.pkg ≠ 0)

/-- BAR4_WRITE. -/
def execBar4Write (fn offset : Nat) (data : List Byte) (ep ide : Bool) (rid : BitVec 16) (s : State) : Out :=
  s.run fun d =>
    if !d.barOpen fn || !d.idePasses ide then d
    else if d.bar4Held then { d with heldBar4 := d.heldBar4 ++ [.bar4Write fn offset data ep ide rid] }
    else d.bar4Write fn offset data ep rid

/-- BAR4_READ. -/
def execBar4Read (fn offset len : Nat) (ide : Bool) (rid : BitVec 16) (s : State) : Out :=
  s.run fun d =>
    if !d.host.linkUp then d
    else if !d.barOpen fn || !d.idePasses ide then d.send .unsupportedRequest
    else if d.bar4Held then { d with heldBar4 := d.heldBar4 ++ [.bar4Read fn offset len ide rid] }
    else d.bar4Read fn offset len rid

/-- PCIE_ATOMICOP. -/
def execPcieAtomicop (fn offset : Nat) (op : AtomicOp) (bytes : Nat) (x y : BitVec 128) (ide : Bool) (rid : BitVec 16) (s : State) : Out :=
  s.run fun d =>
    if !d.host.linkUp then d
    else if !d.barOpen fn || !d.idePasses ide then d.send .unsupportedRequest
    else if d.bar4Held then { d with heldBar4 := d.heldBar4 ++ [.pcieAtomicop fn offset op bytes x y ide rid] }
    else d.bar4Atomic fn offset op bytes x y rid

/-- A request that the port held is performed (R413). -/
def Dev.performHeld (d : Dev) (c : Instr) : Dev :=
  match c with
  | .bar4Write fn offset data ep _ rid => d.bar4Write fn offset data ep rid
  | .bar4Read fn offset len _ rid => d.bar4Read fn offset len rid
  | .pcieAtomicop fn offset op n x y _ rid => d.bar4Atomic fn offset op n x y rid
  | _ => d

/-! ## Intake slots (R311, R312) -/

/-- BAR2_WRITE: the bytes of a record land in their window's slots. -/
def execBar2Write (fn offset : Nat) (data : List Byte) (ide : Bool) (s : State) : Out :=
  s.run fun d =>
    if !d.barOpen fn || !d.idePasses ide || !d.facetExists fn || decide (65536 < offset + data.length) then d
    else
      Dev.forEach ((List.range data.length).zip data) (fun d e =>
        let a := offset + e.1
        d.updFacet fn fun x => x.updWindow (a / 4096) fun w => { w with slots := Mem.set w.slots (a % 4096) e.2 }) d

/-! ## Configuration requests (R300, R326, R479) -/

/-- The value of a configuration field that the manual states (R298, R300). -/
def HostLink.configField (h : HostLink) (fn : Nat) : ConfigField → Nat
  | .totalVFs => 63
  | .numVFs => h.numVFs
  | .firstVFOffset | .vfStride => 1
  | .maxPayload => 512
  | .maxReadRequest => 4096
  | .msixVectors => 32
  | .memoryEnable => boolNat (NSet.has h.memEnable fn)
  | .msixEnable => boolNat (NSet.has h.msixEnable fn)

/-- CONFIG_REQUEST: Request Retry Status until boot step 8 completes; then the words that R326 and R327 name, and of any other word a
value that no rule states. -/
def execConfigRequest (fn : Nat) (req : ConfigReq) (s : State) : Out :=
  s.run fun d =>
    if !d.host.linkUp then d
    else if d.boot.step ≠ 9 then d.send .retryStatus
    else if !d.onBus fn || (d.boot.recovery && decide (fn ≠ 0)) then d.send .unsupportedRequest
    else
      match req with
      | .read _ => let (v, d) := d.fresh; d.send (.configValue (v.setWidth 32))
      | .readField v => d.send (.configValue (BitVec.ofNat 32 (d.host.configField fn v)))
      | .setNumVFs n => if fn = 0 ∧ n ≤ 63 then d.updHost fun h => { h with numVFs := n } else d
      | .setEnables memory msix => d.updHost fun h =>
          { h with memEnable := NSet.put h.memEnable fn memory, msixEnable := NSet.put h.msixEnable fn msix }
      | .write _ _ => d.updHost fun h => h

/-! ## Host reads and confirmation reads (R224, R226, R232, R323) -/

/-- HOST_READ_COMPLETION: what host or peer memory holds at an address from now on, as a read finds it; a completion that is not
successful stands as lines whose reads fail (log 6, DESIGN CHOICE). -/
def execHostReadCompletion (addr : Nat) (data : List Byte) (ok : Bool) (s : State) : Out :=
  s.run fun d =>
    if !d.host.linkUp || data.isEmpty then d
    else
      let lines := (List.range ((addr + data.length - 1) / 128 + 1 - addr / 128)).map (addr / 128 + ·)
      d.updHost fun h =>
        { h with mem := if ok then Mem.write h.mem addr data else h.mem,
                 memPoison := if ok then h.memPoison.filter (fun l => !lines.contains l) else h.memPoison,
                 memFail := if ok then h.memFail.filter (fun l => !lines.contains l) else NSet.addAll h.memFail lines }

/-- A core's record of a region is confirmed, unless it has written there since the read was issued. -/
def Dev.regionConfirmed (d : Dev) (core region : Nat) : Dev :=
  d.updCore core fun k => { k with peerRecs := k.peerRecs.filter fun e => decide (e.region ≠ region) || !e.asked }

/-- A command's confirmation read fails: it completes with PEER_UNREACHABLE (R323). -/
def Dev.confirmFails (d : Dev) (f serial : Nat) : Dev :=
  d.updCmd f serial fun c =>
    let c := { c with confirmFailed := true }
    if c.state = .ended then { c with status := c.lastStatus c.status } else c

/-- The path to a peer region has closed (R323). -/
def Dev.pathClosed (d : Dev) (region : Nat) : Dev :=
  d.updFacet (regionFacet region) fun x =>
    { x with buses := updAll (fun m => m.peer && decide (m.va + regionFacet region = region)) (fun m => { m with closed := true }) x.buses }

/-- A confirmation read of an agent ends: `region` as the agent records it; a channel numbers host memory 0 and a region one more. -/
def Dev.confirmDone (d : Dev) (agent : ConfirmAgent) (region : Nat) (ok : Bool) : Dev :=
  match agent with
  | .beam b =>
    match d.ctx? b with
    | none => d
    | some c =>
      if !c.beam.fenceWait.contains region then d
      else
        let d := (d.regionConfirmed c.block.core region).updBeam b fun m => { m with fenceWait := m.fenceWait.erase region }
        if ok then d else d.confirmFails c.launch.facet c.launch.cmd
  | .channel ch =>
    d.updChannel ch fun k =>
      { k with run := k.run.map fun r =>
          if r.confirms.contains region then
            { r with confirms := r.confirms.erase region, confirmFailed := r.confirmFailed || !ok }
          else r }
  | .command fn serial =>
    match (d.facet fn).cmd? serial with
    | none => d
    | some c =>
      if !c.confirms.contains region then d
      else
        let d := Dev.forEach (d.cores.map Prod.fst) (fun d k => d.regionConfirmed k region) d
        let d := d.updCmd fn serial fun c => { c with confirms := c.confirms.erase region }
        if ok then d else d.confirmFails fn serial

/-- PEER_CONFIRM_COMPLETE; a read that fails on a link that is up shows a closed path. -/
def execPeerConfirmComplete (agent : ConfirmAgent) (region : Nat) (ok : Bool) (s : State) : Out :=
  s.run fun d =>
    let there := match agent with
      | .channel _ => region - 1
      | _ => region
    let e := d.confirmDone agent region (ok && d.host.linkUp)
    if ok || !d.host.linkUp || decide (e = d) then e else e.pathClosed there

end Sys2Proof.Machine
end

