-- ==== Sys2Proof/Machine/Issue.lean ====
section
/-! DEFINITION. Issuing a kernel instruction (R48, R64, R71, R466): whether the beam is ready, what its register rows' parity finds, its effect or its trap. -/

namespace Sys2Proof.Machine

/-- What an instruction does at its issue. -/
inductive Issue where
  | done (d : Dev)
  /-- Part of its effect, its beam then waiting to go on with the rest. -/
  | part (d : Dev)
  | trap (t : Trap)
  /-- Not ready: nothing issues. -/
  | hold

/-- Counts an issue for the watchdog (R64). -/
def Dev.noteIssue (d : Dev) (c : Ctx) : Dev :=
  if d.arrivals c then d.updBlock c.ref.launch c.ref.block fun b => { b with watchdog := b.watchdog + 1 } else d

/-- Parity errors of register rows that the instruction reads (R423, R438). -/
def Dev.rfParity (d : Dev) (c : Ctx) (rows : List Nat) : Dev × Nat :=
  let hit := d.strikes.rf.filter fun e => decide (e.1 = c.ref) && rows.contains e.2
  if hit.isEmpty then (d, 0)
  else
    let d := { d with strikes := { d.strikes with rf := d.strikes.rf.filter fun e => !hit.contains e } }
    ((d.updBeam c.ref fun b => { b with gPoison := NSet.addAll b.gPoison (hit.map Prod.snd) }).count 0x609018 hit.length, hit.length)

/-- A debug step ends with the instruction: the beam parks again with cause DEBUG_HALT, without a second glint for a trap. -/
def Dev.stepEnds (d : Dev) (c : Ctx) : Dev :=
  if !c.beam.debugStep then d
  else
    match d.ctx? c.ref with
    | none => d
    | some c =>
      let d := d.updBeam c.ref fun b => { b with debugStep := false }
      match c.beam.status with
      | .running => d.park { c with beam := { c.beam with debugStep := false } } (mkTrap .debugHalt 0)
      | .sleeping _ => d.updBeam c.ref fun b => { b with haltPending := true }
      | _ => d

/-- Issues an instruction of a beam: nothing where the beam is not ready; else its effect or its trap. Log 3, DESIGN CHOICE. -/
def Dev.issue (d : Dev) (r : BeamRef) (rows : Ctx → List Nat) (body : Dev → Ctx → Issue) : Dev :=
  match d.ctx? r with
  | none => d
  | some c =>
    if !d.beamReady c then d
    else
      let (e, struck) := (d.noteIssue c).rfParity c (rows c)
      let c := (e.ctx? r).getD c
      let e := if struck = 0 then e else e.poisonOrigin 4 true c.block.core c.launch.facet
      let scored (e : Dev) : Dev := if struck = 0 then e else e.scoreUp c.block.core (16 * struck)
      match body e c with
      | .hold => d
      | .part e => scored (e.charge d)
      | .trap t => scored (((e.park c t).updBeam r fun b => { b with debugStep := false }).charge d)
      | .done e => scored ((e.stepEnds c).charge d)

/-- The first check that fails, by cause, or the effect. -/
def checked (traps : List Trap) (k : Issue) : Issue :=
  match lowestTrap traps with
  | some t => .trap t
  | none => k

/-- Goes on to the next instruction. -/
def Dev.next (d : Dev) (c : Ctx) : Dev := d.updBeam c.ref fun b => { b with pc := b.pc + 1 }

/-- The scalar unit that serves a beam: on a vector core unit j serves the resident indices that are j modulo 4 (R29). -/
def Ctx.scalarUnit (c : Ctx) : Nat := if coreIsVector c.block.core then c.block.slots.getD c.ref.beam 0 % 4 else 0

/-- A scalar instruction executes twice in its unit and is compared (R423): a mismatch that the re-execution cures only counts; one that
persists raises POISON. -/
def Dev.issueScalar (d : Dev) (r : BeamRef) (body : Dev → Ctx → Issue) : Dev :=
  match d.ctx? r with
  | none => d
  | some c =>
    let mine (e : Nat × Nat × Bool) : Bool := decide (e.1 = c.block.core) && decide (e.2.1 = c.scalarUnit)
    match d.strikes.scalar.find? mine with
    | none => d.issue r (fun _ => []) body
    | some (core, _, persists) =>
      if !d.beamReady c then d
      else
        let e := { d with strikes := { d.strikes with scalar := eraseFirst mine d.strikes.scalar } }
        if persists then
          ((e.count 0x609008 1).issue r (fun _ => []) fun _ _ => .trap (mkTrap .poison 0)).scoreUp core 16
        else (((e.count 0x609000 1).corrected).issue r (fun _ => []) body).scoreUp core 1

end Sys2Proof.Machine
end

