-- ==== Sys2Proof/Machine/Control.lean ====
section
/-! DEFINITION. Control and synchronisation instructions (R55, R60 to R64, R69, R76, R77, R221), undefined words, fetch faults and the barrier watchdog (R51, R64, R71). -/

namespace Sys2Proof.Machine

/-! ## Control -/

/-- Branches to an instruction index. -/
def Dev.jump (d : Dev) (c : Ctx) (target : BitVec 64) : Dev := d.updBeam c.ref fun b => { b with pc := target }

/-- An instruction without register rows. -/
def Dev.issueControl (d : Dev) (r : BeamRef) (body : Dev → Ctx → Issue) : Dev := d.issue r (fun _ => []) body

def execNop (b : BeamRef) (_f : KFields) (s : State) : Out := s.run fun d => d.issueControl b fun d c => .done (d.next c)

def execBra (b : BeamRef) (f : KFields) (s : State) : Out :=
  s.run fun d => d.issueControl b fun d c => .done (d.jump c (c.beam.pc + imm64 f))

def execBrx (b : BeamRef) (f : KFields) (s : State) : Out :=
  s.run fun d => d.issueControl b fun d c =>
    checked (trapIf (sSrcBad f.a.toNat) illegal) (.done (d.jump c (c.sVal f.a.toNat)))

def execCall (b : BeamRef) (f : KFields) (s : State) : Out :=
  s.run fun d => d.issueControl b fun d c =>
    checked (trapIf (decide (8 ≤ c.beam.calls.length)) (mkTrap .callStack 0))
      (.done (d.updBeam c.ref fun m => { m with calls := (m.pc + 1) :: m.calls, pc := m.pc + imm64 f }))

def execRet (b : BeamRef) (_f : KFields) (s : State) : Out :=
  s.run fun d => d.issueControl b fun d c =>
    match c.beam.calls with
    | [] => .trap (mkTrap .callStack 0)
    | p :: rest => .done (d.updBeam c.ref fun m => { m with calls := rest, pc := p })

/-- DIV (R60): `f.a ++ f.b` is RC, the unsigned forward offset of the reconvergence point. -/
def Beam.diverge (m : Beam) (cond : BitVec 32) (f : KFields) : Beam :=
  let taken := m.path &&& cond
  let fall := m.path &&& ~~~ cond
  let target := m.pc + imm64 f
  let rc := m.pc + (f.a ++ f.b).setWidth 64
  if taken = 0 then { m with pc := m.pc + 1 }
  else if fall = 0 then { m with pc := target }
  else { m with stack := .pending fall (m.pc + 1) rc :: .reconv m.path rc :: m.stack, path := taken, pc := target }

def execDivS (b : BeamRef) (f : KFields) (s : State) : Out :=
  s.run fun d => d.issueControl b fun d c =>
    let cond := c.mask f.msk
    let splits := decide (c.beam.path &&& cond ≠ 0) && decide (c.beam.path &&& ~~~ cond ≠ 0)
    checked (c.mskTraps f.msk ++ trapIf (splits && decide (16 < c.beam.stack.length + 2)) (mkTrap .maskStackOverflow 0))
      (.done (d.updBeam c.ref fun m => m.diverge cond f))

def execJoin (b : BeamRef) (_f : KFields) (s : State) : Out :=
  s.run fun d => d.issueControl b fun d c =>
    .done ((d.updBeam c.ref fun m => m.joinAt (d.released c) m.pc).afterPath c)

/-- EXIT (R55, R61): the selected rays exit; an empty path goes on as R61 gives. -/
def Beam.exitRays (m : Beam) (released : BarrierRef → Bool) (rays : BitVec 32) : Beam :=
  let m := { m with exited := m.exited ||| rays, path := m.path &&& ~~~ rays }
  if m.path = 0 then m.pathEmpty released m.stack else { m with pc := m.pc + 1 }

def execExit (b : BeamRef) (f : KFields) (s : State) : Out :=
  s.run fun d => d.issueControl b fun d c =>
    checked (c.mskTraps f.msk)
      (.done ((d.updBeam c.ref fun m => m.exitRays (d.released c) (c.mask f.msk)).afterPath c))

/-- The live-map index of a yield point, where its header's ENTRIES makes it one (R76). Log 27, DEDUCED. -/
def Ctx.yieldPoint (c : Ctx) (f : KFields) : Option Nat :=
  let i := f.imm.toNat % 65536
  if i < c.launch.liveMaps then some i else none

def execYield (b : BeamRef) (f : KFields) (s : State) : Out :=
  s.run fun d => d.issueControl b fun d c =>
    let d' := d.next c
    match c.yieldPoint f with
    | some i => if (d.core c.block.core).switchReq then .done (d'.updBeam c.ref fun m => { m with status := .yielded i }) else .done d'
    | none => .done d'

def execTrap (b : BeamRef) (f : KFields) (s : State) : Out :=
  s.run fun d => d.issueControl b fun _ _ => .trap (mkTrap .software (imm64 f).toNat)

/-! ## Barriers -/

/-- A path arrives (R63): under a pending entry it leaves a wait entry and the pending path runs; else the beam sleeps. -/
def Beam.arrive (m : Beam) (released : BarrierRef → Bool) (r : BarrierRef) (point : Option Nat) : Beam :=
  match m.stack with
  | .pending mask start rc :: rest =>
    let stack := .wait m.path (m.pc + 1) rc r point :: rest
    let path := mask &&& ~~~ m.exited
    if path = 0 then { m with stack := stack }.pathEmpty released stack else { m with stack := stack, path := path, pc := start }
  | _ => { m with pc := m.pc + 1, status := .sleeping r, yieldMap := point }

/-- Adds rays to an arrival table. -/
def arriveRays (t : Tab (BitVec 32)) (beam : Nat) (rays : BitVec 32) : Tab (BitVec 32) := Tab.upd 0 t beam fun m => m ||| rays

def execBar (b : BeamRef) (f : KFields) (s : State) : Out :=
  s.run fun d => d.issueControl b fun d c =>
    let id := f.dst.toNat % 16
    let mismatch := match c.block.barId with
      | some i => decide (i ≠ id)
      | none => false
    checked (trapIf mismatch (mkTrap .barrierMismatch (c.block.barId.getD 0 + 16 * id)))
      (.done (((d.updBlock c.ref.launch c.ref.block fun k =>
        { k with barId := some id, arrived := arriveRays k.arrived c.ref.beam c.beam.path }).updBeam c.ref fun m =>
          m.arrive (d.released c) (.block c.block.phase) (c.yieldPoint f)).afterPath c))

def execCbar (b : BeamRef) (f : KFields) (s : State) : Out :=
  s.run fun d => d.issueControl b fun d c =>
    let phase := (d.cluster c.launch.id c.clusterId).phase
    .done (((d.updBlock c.ref.launch c.ref.block fun k =>
      { k with cArrived := arriveRays k.cArrived c.ref.beam c.beam.path }).updBeam c.ref fun m =>
        m.arrive (d.released c) (.cluster phase) (c.yieldPoint f)).afterPath c)

/-- FENCE (R221, R225, R226): the memory pipe performs an access at its issue (log 13, DESIGN CHOICE), so a fence of chip scope waits for the
CMP_ACK of the core's writes that are still out, and one of system scope for the confirmation reads of the recorded peer regions too. -/
def execFence (b : BeamRef) (f : KFields) (s : State) : Out :=
  s.run fun d => d.issueControl b fun d c =>
    checked (trapIf (decide (f.mod.toNat % 4 = 3)) illegal)
      (if f.mod.toNat % 4 = 0 then .done (d.next c)
       else if d.writesOut c.block.core then .hold
       else if f.mod.toNat % 4 = 1 then .done (d.next c)
       else .done ((d.next c).confirmRegions c ((d.core c.block.core).peerRecs.map PeerRec.region)))

def execWaitc (b : BeamRef) (f : KFields) (s : State) : Out :=
  s.run fun d => d.issueControl b fun d c =>
    if c.beam.copies.length ≤ f.imm.toNat % 32 then .done (d.next c) else .hold

/-! ## Words that cannot execute -/

/-- A word of an undefined class or OP issues and raises ILLEGAL (R51, R55). -/
def execUndefinedInstruction (b : BeamRef) (word : BitVec 64) (s : State) : Out :=
  s.run fun d =>
    match Sys2Proof.decodeIssue b word with
    | .undefinedInstruction _ _ => d.issueControl b fun _ _ => .trap illegal
    | _ => d

/-- What the fetch of a beam's next instruction raises (R71). -/
def Dev.fetchTrap (d : Dev) (c : Ctx) : Option Trap :=
  let va := (c.launch.params.kernelAddr + 8 * c.beam.pc).toNat
  match d.translate c.launch.facet va with
  | .unmapped => some (mkTrap .pageFault va)
  | .beyond => some (mkTrap .protection va)
  | .window _ _ => some (mkTrap .protection va)
  | .device pa _ _ => if d.linePoisoned (pa / 128) then some (mkTrap .poison va) else none
  | .bus a _ _ closed => if closed || (d.hostRead c.launch.facet a 8).1.2 then some (mkTrap .poison va) else none

/-- An instruction that cannot be fetched traps before any part of it executes. -/
def execInstructionFetchFault (b : BeamRef) (s : State) : Out :=
  s.run fun d => d.issueControl b fun d c =>
    match d.fetchTrap c with
    | some t => .trap t
    | none => .hold

/-- The barrier watchdog (R64): every beam of the block that runs parks, with one glint for the block. -/
def execWatchdog (launch block : Nat) (s : State) : Out :=
  s.run fun d =>
    match d.ctx? { launch := launch, block := block, beam := 0 } with
    | none => d
    | some c =>
      if !d.watchdogDue c then d
      else
        let d := d.updBlock launch block fun k =>
          { k with beams := k.beams.map fun m =>
              match m.status with
              | .running => { m with status := .parked .watchdog, parkedOn := none, passOut := false }
              | .yielded _ => { m with status := .parked .watchdog, parkedOn := none, passOut := false }
              | .sleeping r => { m with status := .parked .watchdog, parkedOn := some r, passOut := false }
              | .parked _ => m
              | .ended => m }
        let cmd := (d.facet c.launch.facet).cmd? c.launch.cmd
        d.glintTo c.launch.facet 0x101 (parkPayload cmd c.block 0 c.beam.pc.toNat (mkTrap .watchdog 0))

end Sys2Proof.Machine
end

