-- ==== Sys2Proof/Machine/Hello.lean ====
section
/-! DEFINITION. The mailbox's submission (R303, R304, R306, R307), HELLO (R308, R309, R328, R495) and rings (R310), and the end of HALT when a consent token becomes void (R465). -/

namespace Sys2Proof.Machine

/-! ## Consent (R465) -/

/-- Beams that HALT parked resume, and halts that wait are withdrawn, in the blocks that a test picks. -/
def Dev.resumeHalted (d : Dev) (mine : Block → Bool) : Dev :=
  let wake (d : Dev) (b : Block) : Block :=
    match d.launch? b.launch with
    | none => b
    | some l =>
      let go (m : Beam) : Beam :=
        let m := { m with haltPending := false, debugStep := false }
        if decide (m.status = .parked .debugHalt) then m.resume (d.barrierGone l b) else m
      { b with beams := b.beams.map go }
  { d with blocks := updAll mine (wake d) d.blocks, saved := updAll (fun v => mine v.block) (fun v => { v with block := wake d v.block }) d.saved }

/-- HALT ends on its facet: the level falls to OBSERVE, and the facet is told. -/
def Dev.endHalt (d : Dev) : Dev :=
  let f := d.security.haltFacet
  if d.security.debug ≠ 2 then d
  else
    let d := d.updSecurity fun x => { x with debug := 1, haltFacet := 0 }
    (d.resumeHalted fun b => decide (b.facet = f)).glint f 0x801 f 0 0

/-- A facet's consent token becomes void. -/
def Dev.voidConsent (d : Dev) (f : Nat) : Dev :=
  let d := d.updFacet f fun x => { x with consent := none }
  if decide (d.security.debug = 2) && decide (d.security.haltFacet = f) then d.endHalt else d

/-! ## Submission (R303, R306, R307) -/

/-- A waiting request that fails the checks before its own rule completes with their status, once the gaffer takes commands. Log 14, DEDUCED. -/
def Dev.mbxSettle (d : Dev) (fn : Nat) : Dev :=
  let m := (d.facet fn).mailbox
  if !m.go || m.accepted || d.boot.step ≠ 9 || d.power.pkg ≠ 0 || d.errors.fatal then d
  else match d.mbxCheck fn with
    | some st => d.mbxRefuse fn st []
    | none => d

/-- A write of MBX_CTRL. -/
def Dev.writeMbxCtrl (d : Dev) (fn : Nat) (v : BitVec 32) : Dev :=
  let go := v.getLsbD 0
  let d := d.updFacet fn fun x =>
    let m := x.mailbox
    let m := { m with irqEn := v.getLsbD 1, vector := v.extractLsb' 2 5 }
    { x with mailbox := if !go then m else if m.busy then { m with dropped := true } else { m with go := true, busy := true } }
  if go then d.mbxSettle fn else d

/-- MBX_GO. -/
def execMbxGo (fn : Nat) (value : BitVec 32) (s : State) : Out :=
  s.run fun d => if d.barOpen fn then d.writeMbxCtrl fn value else d

/-! ## HELLO (R308, R309, R328, R495) -/

def Dev.bankOf (d : Dev) (n : Nat) : Bank := Tab.get Bank.reset d.security.banks n
/-- The running image. -/
def Dev.runningBank (d : Dev) : Bank := d.bankOf d.boot.bank
/-- The interface range that the device serves (R497). -/
def Dev.ifRange (d : Dev) : Nat × Nat :=
  if d.boot.recovery then (0x0100, 0x0100) else (d.runningBank.ifMin.toNat, d.runningBank.ifMax.toNat)

/-- The version that a HELLO selects: the held one for a re-attach with held state, else by R308. -/
def Dev.helloSelect (d : Dev) (held : Option Nat) (lo hi : Nat) : Option Nat :=
  let (dlo, dhi) := d.ifRange
  match held with
  | some v => if lo ≤ v ∧ v ≤ hi ∧ dlo ≤ v ∧ v ≤ dhi then some v else none
  | none => if max lo dlo ≤ min hi dhi then some (min hi dhi) else none

/-- A facet holds state: outstanding commands or held completions. -/
def Facet.holdsState (x : Facet) : Bool := x.cmds.any fun c => !c.dropped

/-- DISCARD: held and unconsumed completions go, running commands will complete to no one, every identifier is free with its
generation one higher. Log 50, DEDUCED. -/
def Facet.discardAll (x : Facet) : Facet :=
  let gone (c : Cmd) : Bool := decide (c.state = .held) || decide (c.state = .written)
  { x with cmds := (x.cmds.filter fun c => !gone c).map fun c => { c with dropped := true },
           rings := x.rings.map fun e => (e.1, { e.2 with written := if e.1 = 16 then e.2.written else [] }), genBase := x.genBase + 1 }

/-- The plain apertures at the first HELLO after a link-down: kept where BAR4 has the size it had. -/
def Facet.decideApertures (x : Facet) : Facet :=
  if !x.plainPending then x
  else { x with plainPending := false, apertures := if x.bar4 = x.bar4AtDown then x.apertures else x.apertures.filter Aperture.keyed }

/-- The effects of every HELLO that completes with 0x0000. -/
def Dev.helloEffects (d : Dev) (fn selected : Nat) (discard : Bool) (cred : BitVec 64) : Dev :=
  let d := d.voidConsent fn
  d.updFacet fn fun x =>
    let x := if discard then x.discardAll else x
    let x := (x.cancelRings.zeroWindows).decideApertures
    { x with hello := true, attached := true, ringsVoid := true, ifSel := BitVec.ofNat 16 selected, credential := some cred }

/-- The response of HELLO. -/
def helloResponse (selected lo hi version facet held : Nat) (cred : BitVec 64) (caps : Nat) : List Byte :=
  leBytes 2 1 ++ leBytes 2 selected ++ leBytes 2 lo ++ leBytes 2 hi ++ leBytes 4 version ++ leBytes 2 facet ++ leBytes 2 held ++
    leBytes 8 cred.toNat ++ leBytes 8 caps

/-- The running firmware version; the ROM's own is not stated. -/
def Dev.fwVersion (d : Dev) : Nat × Dev :=
  if d.boot.recovery then let (v, d) := d.fresh; (v.toNat % 2 ^ 32, d) else (d.runningBank.version.toNat, d)

/-- CAPS: QS-8 mode, and a far tier that is present. -/
def Dev.helloCaps (d : Dev) : Nat := 1 + 2 * boolNat ((List.range 4).any fun p => decide ((d.farPort p).state = 2))

/-- HELLO, code 0x0001. -/
def execHello (fn : Nat) (s : State) : Out :=
  s.run fun d => d.mbxRun fn 0x0001 (ofSender fn) fun d p =>
    let x := d.facet fn
    let attach := bit (leAt p 1 1) 0
    let discard := bit (leAt p 1 1) 1 && !attach && x.holdsState
    let (lo, hi) := d.ifRange
    if attach && decide (x.credential ≠ some (BitVec.ofNat 64 (leAt p 8 8))) then .refuse 0x107 []
    else if !attach && x.holdsState && !discard then .refuse 0x106 []
    else
      match d.helloSelect (if attach && x.holdsState then some x.ifSel.toNat else none) (leAt p 2 2) (leAt p 4 2) with
      | none => .refuse 0x2 (helloResponse 0 lo hi 0 0 0 0 0)
      | some v =>
        let (cred, d) := d.fresh
        let (version, d) := d.fwVersion
        let d := d.helloEffects fn v discard cred
        .ok d (helloResponse v lo hi version fn (d.facet fn).held cred d.helloCaps)

/-! ## Rings (R310, R317, R327) -/

/-- The ring that a RING_SET describes. -/
def ringOf (p : List Byte) : Ring :=
  { Ring.reset with registered := true, log2 := bits (leAt p 2 1) 0 5, vector := bits (leAt p 3 1) 0 5, irqEn := bit (leAt p 3 1) 7,
                    modCount := bits (leAt p 4 2) 0 13, modDelay := bits (leAt p 6 2) 0 10, bus := leAt p 8 8 }

def Ring.inRange (r : Ring) : Bool :=
  decide (6 ≤ r.log2) && decide (r.log2 ≤ 16) && decide (1 ≤ r.modCount) && decide (r.modCount ≤ 4096) && decide (1 ≤ r.modDelay) &&
    decide (r.modDelay ≤ 1000) && decide (r.bus % 4096 = 0)

/-- RING_SET, code 0x0002; held completions of the ring are then written. -/
def execRingSet (fn : Nat) (s : State) : Out :=
  s.run fun d => d.mbxRun fn 0x0002 (ofSender fn) fun d p =>
    let n := bits (leAt p 1 1) 0 5
    let r := ringOf p
    if 16 < n ∨ r.inRange = false then .refuse 0x104 []
    else if ((d.facet fn).ring n).registered then .refuse 0x105 []
    else .ok ((d.updFacet fn fun x => { x with rings := Tab.set Ring.reset x.rings n r, ringsVoid := false }).flushRings fn) []

/-- RING_CLEAR, code 0x0003. -/
def execRingClear (fn : Nat) (s : State) : Out :=
  s.run fun d => d.mbxRun fn 0x0003 (ofSender fn) fun d p =>
    let n := bits (leAt p 1 1) 0 5
    let x := d.facet fn
    if 16 < n then .refuse 0x104 []
    else if n < 16 ∧ x.windows.any (fun w => w.2.enable && decide (w.2.ring = n)) = true then .refuse 0x105 []
    else .ok (d.setFacet fn (if (x.ring n).registered then x.cancelRing n else x)) []

end Sys2Proof.Machine
end

