-- ==== Sys2Proof/Machine/Dma.lean ====
section
/-! DEFINITION. The DMA engine: command records (R338, R339), descriptors (R340 to R344), barriers (R345), errors (R346 to R352), completion status (R353), arbitration (R354) and the rate limit (R357). A grant of a line request and the line's completion are one step. -/

namespace Sys2Proof.Machine

def Channel.holds (k : Channel) (f : Nat) : Bool := decide (k.owner = f) && !k.leaving
def Dev.updRun (d : Dev) (ch : Nat) (g : DmaRun → DmaRun) : Dev := d.updChannel ch fun k => { k with run := k.run.map g }
def dmaCounter (ch off : Nat) : Nat := 0x607000 + 0x40 * ch + off
/-- The facet whose mask names a channel; facet 0 where none does (R336). -/
def Dev.maskOwner (d : Dev) (ch : Nat) : Nat :=
  ((d.facetsThere.find? fun f => decide (f ≠ 0) && (d.facet f).quota.dmaMask.getLsbD ch)).getD 0

/-! ## Commands (R338, R339) -/

/-- The held channel with the fewest queued commands, the lowest on a tie. Log 49, DEDUCED. -/
def Dev.leastQueued (d : Dev) (f : Nat) : Option Nat :=
  leastBy (fun n => (d.channel n).queue.length) ((List.range 64).filter fun n => (d.channel n).holds f)

/-- A DMA record joins its channel's queue. Log 49, DEDUCED. -/
def startDma (d : Dev) (f : Nat) (c : Cmd) : Started :=
  let va := leAt c.args 0 8
  let n := bits (leAt c.args 8 1) 0 7
  let maxDesc := leAt c.args 12 4
  if va % 64 ≠ 0 ∨ maxDesc = 0 ∨ 65536 < maxDesc ∨ (64 ≤ n ∧ n ≠ 0x7F) then .refused 0x3
  else
    match (if n = 0x7F then d.leastQueued f else if (d.channel n).holds f then some n else none) with
    | none => .refused 0x203
    | some n =>
      let q : DmaQueued :=
        { fn := f, serial := c.serial, cls := c.cls, accepted := d.nextAccept, passed := 0, chain := BitVec.ofNat 64 va, maxDesc := maxDesc }
      .running (({ d with nextAccept := d.nextAccept + 1 } : Dev).updChannel n fun k => { k with queue := k.queue ++ [q] })

def execDma (fn w : Nat) (s : State) : Out := s.run fun d => d.takeRecord fn w (fun t => decide (t = 7)) startDma

/-- Effective class (R339). -/
def DmaQueued.eff (q : DmaQueued) : Nat := if 64 ≤ q.passed then 0 else q.cls

/-- DMA_COMMAND_START: an idle channel takes its first queued command, by effective class and acceptance; those it passes count it. -/
def Dev.dmaStart (d : Dev) (ch : Nat) : Dev :=
  let k := d.channel ch
  let runs (q : DmaQueued) : Bool := let x := d.facet q.fn; !x.freezing && (decide (x.state = .running) || decide (x.state = .quiescing))
  if k.run.isSome then d
  else
    match leastBy (fun q => q.eff * 2 ^ 64 + q.accepted) (k.queue.filter runs) with
    | none => d
    | some q =>
      let rest := (k.queue.filter fun v => decide (v ≠ q)).map fun v => if v.accepted < q.accepted then { v with passed := v.passed + 1 } else v
      let r : DmaRun :=
        { fn := q.fn, serial := q.serial, nextVa := q.chain, maxDesc := q.maxDesc, fetched := 0, desc := [], doneBytes := 0, poison := false,
          processed := 0, bad := 0, poisoned := 0, chainEnd := false, fault := 0, hostRec := none, peerRecs := [],
          confirms := [], confirmFailed := false, held := false, freezing := false }
      d.setChannel ch { k with queue := rest, run := some r, state := .running, passedBy := 0, promoted := none }

def execDmaCommandStart (ch : Nat) (s : State) : Out := s.run fun d => if 64 ≤ ch then d else d.dmaStart ch

/-! ## The end of a command (R345, R353) -/

/-- RESULT (R338). -/
def DmaRun.result (r : DmaRun) : Nat := r.processed % 2 ^ 32 + 2 ^ 32 * min r.bad 0xFFFF + 2 ^ 48 * min r.poisoned 0xFFFF

/-- MAX_DESC descriptors are processed and the chain goes on (R341). -/
def DmaRun.long (r : DmaRun) : Bool := !r.chainEnd && decide (r.maxDesc ≤ r.processed)

/-- The completion status below HOST_LOST (R353); a forced end's status stands first (R373). Log 42, DEDUCED. -/
def DmaRun.status (r : DmaRun) : Code :=
  if r.fault ≠ 0 ∧ r.fault ≠ 0x670 then r.fault
  else if r.long then 0x206
  else if r.fault = 0x670 then 0x670
  else if r.bad ≠ 0 then 0x201
  else if r.poisoned ≠ 0 then 0x204
  else 0

/-- The command ends, and the channel is idle; a channel that leaves its facet passes on (R372). -/
def Dev.dmaFinish (d : Dev) (ch : Nat) : Dev :=
  let k := d.channel ch
  match k.run with
  | none => d
  | some r =>
    let d := d.setChannel ch
      { k with run := none, state := .idle, leaving := false, owner := if k.leaving then d.maskOwner ch else k.owner, passedBy := 0, promoted := none }
    d.endCmd r.fn r.serial r.status r.result

/-- Nothing is left to execute, and no descriptor will come. -/
def DmaRun.over (r : DmaRun) : Bool := r.desc.isEmpty && (r.chainEnd || decide (r.fault ≠ 0) || r.long)

/-- Issues the confirmation reads of a system-scope barrier and clears the channel's records (R345). Without a link they are lost at
once, and the command is host-lost (R326). -/
def Dev.dmaConfirm (d : Dev) (ch : Nat) (r : DmaRun) : Dev :=
  let regions := (r.hostRec.map fun _ => 0).toList ++ r.peerRecs.map fun e => e.region + 1
  let d := if regions.isEmpty then d else d.count (dmaCounter ch 0x28) regions.length
  let up := d.mayTransmit r.fn
  let d := if up || regions.isEmpty then d else d.markHostLost r.fn r.serial
  let confirms := if up then regions else []
  let d := if up then Dev.forEach (r.hostRec.toList ++ r.peerRecs.map PeerRec.addr) (fun d a => d.send (.confirmRead a)) d else d
  (d.updChannel ch fun k => { k with state := .confirming }).updRun ch fun r => { r with hostRec := none, peerRecs := [], confirms := confirms }

/-- The command's record asks for system scope (R232, R345). -/
def Dev.dmaSystem (d : Dev) (r : DmaRun) : Bool := (((d.facet r.fn).cmd? r.serial).map fun c => decide (c.barrier = 2)).getD false

/-- Goes on after a descriptor: the command ends, after its own barrier; a freeze stops it, its unexecuted descriptors to be fetched
again; or the chain proceeds. -/
def Dev.dmaNext (d : Dev) (ch : Nat) : Dev :=
  match (d.channel ch).run with
  | none => d
  | some r =>
    if r.over then
      if d.dmaSystem r && (r.hostRec.isSome || !r.peerRecs.isEmpty) then d.dmaConfirm ch r else d.dmaFinish ch
    else if r.freezing then
      let va := (r.desc.head?.map Desc.va).getD r.nextVa
      (d.updChannel ch fun k => { k with state := .idle }).updRun ch fun r =>
        { r with nextVa := va, desc := [], fetched := r.processed, chainEnd := false, fault := 0 }
    else d.updChannel ch fun k => { k with state := .running }

/-- Ends the running command early with a status; no further descriptor runs. -/
def Dev.dmaStop (d : Dev) (ch : Nat) (st : Code) : Dev := (d.updRun ch fun r => { r with desc := [], fault := st }).dmaNext ch

/-! ## Descriptors (R340 to R342, R349) -/

def unitOf (swap : BitVec 3) : Nat := match swap.toNat with
  | 1 => 2 | 2 => 4 | 3 => 8 | 4 => 4 | _ => 1

/-- The descriptor of 64 bytes at an address; `bad` where a field is out of range. -/
def descOf (va : BitVec 64) (bs : List Byte) : Desc :=
  let b2 := leAt bs 2 1
  let op := bits (leAt bs 1 1) 0 4
  let swap := BitVec.ofNat 3 (bits b2 0 3)
  let n := leAt bs 4 4
  { va := va, op := BitVec.ofNat 4 op, swap := swap, barrier := BitVec.ofNat 2 (bits b2 3 2), noAlloc := bit b2 5, length := n,
    src := BitVec.ofNat 64 (leAt bs 8 8), dst := BitVec.ofNat 64 (leAt bs 16 8), next := BitVec.ofNat 64 (leAt bs 24 8),
    pattern := BitVec.ofNat 64 (leAt bs 32 8),
    bad := decide (1 < op) || decide (4 < swap.toNat) || decide (bits b2 3 2 = 3) || decide (n = 0) || decide (2 ^ 30 < n) ||
      (decide (op = 1) && decide (swap ≠ 0)) || decide (n % unitOf swap ≠ 0) }

/-- A COPY whose ranges overlap. -/
def Desc.overlaps (x : Desc) : Bool :=
  decide (x.op = 0) && decide (x.src.toNat < x.dst.toNat + x.length) && decide (x.dst.toNat < x.src.toNat + x.length)

/-- DESCRIPTOR_FETCH: up to four descriptors ahead, none past a barrier; one that cannot be read ends the chain (R349). -/
def Dev.dmaFetch (d : Dev) (ch : Nat) : Dev :=
  let k := d.channel ch
  match k.run with
  | none => d
  | some r =>
    let waits := match r.desc.getLast? with
      | some x => decide (x.barrier = 1) || decide (x.barrier = 2)
      | none => false
    if k.state ≠ .running ∨ r.chainEnd = true ∨ r.fault ≠ 0 ∨ r.freezing = true ∨ 5 ≤ r.desc.length ∨ r.maxDesc ≤ r.fetched ∨ waits = true then d
    else
      let aligned := decide (r.nextVa.toNat % 64 = 0)
      let lost := aligned && !d.reaches r.fn r.nextVa.toNat
      let d := if lost then d.markHostLost r.fn r.serial else d
      let (v, d) := if aligned then d.vread (agentDma ch) r.fn false (some 5) r.nextVa.toNat 64 else ({ ok := false, poison := false, bytes := [] }, d)
      if aligned = false ∨ lost = true ∨ v.ok = false ∨ v.poison = true ∨ leAt v.bytes 0 1 ≠ 1 then
        let d := d.updRun ch fun r => { r with fault := 0x202 }
        if r.desc.isEmpty then d.dmaNext ch else d
      else
        let x := descOf r.nextVa v.bytes
        d.updRun ch fun r => { r with desc := r.desc ++ [x], fetched := r.fetched + 1, nextVa := x.next, chainEnd := decide (x.next = 0) }

def execDescriptorFetch (ch : Nat) (s : State) : Out := s.run fun d => if 64 ≤ ch then d else d.dmaFetch ch

/-! ## Lines (R341 to R344, R346 to R348, R350, R352) -/

/-- What an access of a channel finds. -/
inductive DmaAccess where
  | done (bs : List Byte) (poison : Bool)
  /-- A bus error at an address. -/
  | error (va : Nat)
  /-- Lost to a link that is down. -/
  | lost

/-- A read within one line. -/
def Dev.dmaReadChunk (d : Dev) (ch : Nat) (r : DmaRun) (stream : Bool) (va n : Nat) : DmaAccess × Dev :=
  match d.translate r.fn va with
  | .device .. => let (v, d) := d.vreadChunk (agentDma ch) r.fn stream (some 5) va n; (.done v.bytes v.poison, d)
  | .bus a _ _ closed =>
    if !d.mayTransmit r.fn then (.lost, d)
    else if closed || NSet.has d.host.memFail (a / 128) then (.error va, d)
    else let (v, d) := d.hostRead r.fn a n; (.done v.1 v.2, d)
  | _ => (.error va, d)

def Dev.dmaRead (d : Dev) (ch : Nat) (r : DmaRun) (stream : Bool) (va n : Nat) : DmaAccess × Dev :=
  (lineChunks va n).foldl (fun (acc : DmaAccess × Dev) c =>
    match acc.1 with
    | .done bs p =>
      match acc.2.dmaReadChunk ch r stream c.1 c.2 with
      | (.done b q, d) => (.done (bs ++ b) (p || q), d)
      | e => e
    | _ => acc) (.done [] false, d)

/-- A write within one line; a reduction window takes whole aligned lines only (R344). -/
def Dev.dmaWrite (d : Dev) (ch : Nat) (r : DmaRun) (stream : Bool) (va : Nat) (bs : List Byte) (poison : Bool) : DmaAccess × Dev :=
  match d.translate r.fn va with
  | .device pa _ ro =>
    if ro then (.error va, d) else (.done [] false, (d.writeHome (agentDma ch) r.fn 5 stream pa bs poison).2)
  | .bus a peer ro closed =>
    if ro then (.error va, d)
    else if !d.mayTransmit r.fn then (.lost, d)
    else
      let d := if closed then d else d.hostWrite r.fn a bs poison
      (.done [] false, d.updRun ch fun r => match peer with
        | none => { r with hostRec := some a }
        | some g => { r with peerRecs := recordPeer r.peerRecs g a })
  | .window g off =>
    match d.group? g with
    | some grp =>
      if va % 128 ≠ 0 ∨ bs.length ≠ 128 then (.error va, d)
      else (.done [] false, d.contribute g (off / grp.payload) (off % grp.payload / 128) bs poison (agentDma ch))
    | none => (.error va, d)
  | _ => (.error va, d)

/-- Bytes of units rearranged (R342). -/
def swapUnit (swap : BitVec 3) (bs : List Byte) : List Byte :=
  match swap.toNat with
  | 1 | 2 | 3 => bs.reverse
  | 4 => bs.drop 2 ++ bs.take 2
  | _ => bs
def swapBytes (swap : BitVec 3) (bs : List Byte) : List Byte :=
  let u := unitOf swap
  ((List.range (bs.length / u)).map fun i => swapUnit swap ((bs.drop (u * i)).take u)).flatten

/-- The bytes of destination offsets o to o + k − 1. -/
def Dev.dmaSource (d : Dev) (ch : Nat) (r : DmaRun) (x : Desc) (o k : Nat) : DmaAccess × Dev :=
  if x.op = 1 then (.done ((List.range k).map fun i => BitVec.ofNat 8 (x.pattern.toNat / 2 ^ (8 * ((o + i) % 8)))) false, d)
  else
    let u := unitOf x.swap
    let lo := o / u * u
    let hi := alignUp (o + k) u
    match d.dmaRead ch r x.noAlloc (x.src.toNat + lo) (hi - lo) with
    | (.done bs p, d) => (.done (((swapBytes x.swap bs).drop (o - lo)).take k) p, d)
    | e => e

/-- The descriptor in execution is finished: its fields are written, it is counted, and its barrier begins or the chain goes on. -/
def Dev.dmaDone (d : Dev) (ch : Nat) (st : Code) (bad lost : Bool) : Dev :=
  match (d.channel ch).run with
  | none => d
  | some r =>
    match r.desc with
    | [] => d
    | x :: rest =>
      let flags := 1 + 2 * boolNat bad + 4 * boolNat lost + 8 * boolNat r.poison
      let d := (d.dmaWrite ch r false (x.va.toNat + 40) (leBytes 2 st.toNat ++ leBytes 2 flags ++ leBytes 4 r.doneBytes) false).2
      let d := d.count (dmaCounter ch 0x08) 1
      let d := if bad then d.count (dmaCounter ch 0x10) 1 else d
      let barrier := if x.barrier = 3 then 0 else x.barrier
      let d := d.updRun ch fun r =>
        { r with desc := rest, doneBytes := 0, poison := false, processed := r.processed + 1, bad := r.bad + boolNat bad,
                 poisoned := r.poisoned + boolNat r.poison }
      match barrier.toNat, (d.channel ch).run with
      | 1, _ => d.updChannel ch fun k => { k with state := .confirming }
      | 2, some r => d.dmaConfirm ch r
      | _, _ => d.dmaNext ch

/-- A bus error: the descriptor is marked bad, or in compatibility mode the channel halts at the failing line, which ends the command as by ABORT
while its facet quiesces (R373). -/
def Dev.dmaError (d : Dev) (ch va : Nat) (write : Bool) : Dev :=
  let k := d.channel ch
  match k.run with
  | none => d
  | some r =>
    if !k.compat then d.dmaDone ch 0x208 true false
    else
      let info := 0x208 + 0x10000 * boolNat write + 2 ^ 32 * (r.processed % 2 ^ 32)
      let d := d.setChannel ch
        { k with state := .halted, errAddr := BitVec.ofNat 64 (alignDown va 128), errStatus := 0x208, errDir := write, errPos := BitVec.ofNat 32 r.processed }
      let d := (d.count (dmaCounter ch 0x18) 1).glint r.fn 0x201 ch (alignDown va 128) info
      if (d.facet r.fn).state = .quiescing then d.dmaStop ch 0x207 else d

/-- The bytes of the next destination line of a descriptor. -/
def Desc.step (x : Desc) (o : Nat) : Nat := min (128 - (x.dst.toNat + o) % 128) (x.length - o)

/-- The next line of the descriptor in execution. -/
def Dev.dmaLine (d : Dev) (ch : Nat) (r : DmaRun) (x : Desc) : Dev :=
  let o := r.doneBytes
  let k := x.step o
  let host (d : Dev) : Dev := (d.markHostLost r.fn r.serial).dmaDone ch 0x108 false true
  match d.dmaSource ch r x o k with
  | (.lost, d) => host d
  | (.error va, d) => d.dmaError ch va false
  | (.done bs p, d) =>
    match d.dmaWrite ch r x.noAlloc (x.dst.toNat + o) bs p with
    | (.lost, d) => host d
    | (.error va, d) => d.dmaError ch va true
    | (.done _ _, d) =>
      let d := (d.count (dmaCounter ch 0) k).updRun ch fun r => { r with doneBytes := o + k, poison := r.poison || p }
      if o + k < x.length then d else d.dmaDone ch (if r.poison || p then 0x204 else 0) false false

/-! ## Arbitration and the rate limit (R354, R357) -/

/-- The class of a channel's running command. -/
def Dev.runClass (d : Dev) (r : DmaRun) : Nat := (((d.facet r.fn).cmd? r.serial).map Cmd.cls).getD 3

/-- The bytes of a channel's head request; none where its limit or its state holds it back. -/
def Channel.head (k : Channel) : Option Nat :=
  match k.run with
  | none => none
  | some r =>
    match r.desc with
    | [] => none
    | x :: _ =>
      let n := x.step r.doneBytes
      if k.state ≠ .running ∨ x.bad = true ∨ x.overlaps = true ∨ (k.actRate ≠ 0 ∧ k.tokens < n) then none else some n

/-- The channels of a complex that have a head request, with their class. -/
def Dev.heads (d : Dev) (complex : Nat) : List (Nat × Nat) :=
  ((List.range 16).map (16 * complex + ·)).filterMap fun n =>
    match (d.channel n).head, (d.channel n).run with
    | some _, some r => some (n, d.runClass r)
    | _, _ => none

/-- The channel that the next grant of a complex goes to. -/
def Dev.granted (d : Dev) (complex : Nat) : Option Nat :=
  let hs := d.heads complex
  match leastBy (fun e => ((d.channel e.1).promoted).getD 0) (hs.filter fun e => (d.channel e.1).promoted.isSome) with
  | some e => some e.1
  | none =>
    match leastBy Prod.snd hs with
    | none => none
    | some (_, cls) =>
      let next := Tab.get 0 d.dmaGrants (4 * complex + cls)
      let mine := hs.filter fun e => decide (e.2 = cls)
      (leastBy (fun e => (e.1 + 64 - next) % 64) mine).map Prod.fst

/-- The channel is granted: the other head requests of its complex are passed, a committed pair takes effect, and its tokens are spent. -/
def Dev.grant (d : Dev) (ch n : Nat) : Dev :=
  let complex := ch / 16
  let others := ((d.heads complex).map Prod.fst).filter fun c => decide (c ≠ ch)
  let cls := (((d.channel ch).run.map d.runClass)).getD 3
  let d := Dev.forEach others (fun d c => d.updChannel c fun k => { k with passedBy := k.passedBy + 1 }) d
  let d := { d with dmaGrants := Tab.set 0 d.dmaGrants (4 * complex + cls) (ch + 1) }
  d.updChannel ch fun k =>
    let tokens := if k.actRate = 0 then k.tokens else k.tokens - n
    let k := { k with passedBy := 0, promoted := none, tokens := tokens }
    match k.commit with
    | none => k
    | some (rate, burst) => { k with actRate := rate, actBurst := burst, commit := none, tokens := min k.tokens (1024 * burst.toNat) }

/-- The head of a channel's chain would write a 17th peer region: with its next line, or with its own fields as it ends (R226). -/
def Dev.dmaHeld (d : Dev) (r : DmaRun) (x : Desc) : Bool :=
  let n := x.step r.doneBytes
  let bad := x.bad || x.overlaps
  let line := if bad then [] else [x.dst.toNat + r.doneBytes]
  let fields := if bad || decide (x.length ≤ r.doneBytes + n) then [x.va.toNat + 40] else []
  (heldAt (d.peerRegion r.fn) (r.peerRecs.map PeerRec.region) (line ++ fields)).isSome

/-- The channel waits until its oldest recorded region is confirmed; without a link the read is lost, and the command is host-lost. -/
def Dev.dmaHold (d : Dev) (ch : Nat) (r : DmaRun) : Dev :=
  match r.peerRecs with
  | [] => d
  | e :: rest =>
    let d := d.count (dmaCounter ch 0x28) 1
    if !d.mayTransmit r.fn then (d.markHostLost r.fn r.serial).updRun ch fun r => { r with peerRecs := rest }
    else ((d.send (.confirmRead e.addr)).updChannel ch fun k => { k with state := .confirming }).updRun ch fun r =>
      { r with peerRecs := rest, confirms := [e.region + 1], held := true }

/-- DMA_LINE_COMPLETE: the channel's head request is granted in its turn and its line completes; a descriptor out of range, or one that
overlaps, is marked bad without a line. Log 49, DEDUCED. -/
def Dev.dmaLineComplete (d : Dev) (ch : Nat) : Dev :=
  let k := d.channel ch
  match k.run with
  | none => d
  | some r =>
    match r.desc with
    | [] => d
    | x :: _ =>
      if k.state ≠ .running then d
      else if d.dmaHeld r x then d.dmaHold ch r
      else if x.bad then d.dmaDone ch 0x3 true false
      else if x.overlaps then d.dmaDone ch 0x205 true false
      else
        match k.head with
        | none => d
        | some n => if d.granted (ch / 16) = some ch then (d.grant ch n).dmaLine ch r x else d

def execDmaLineComplete (ch : Nat) (s : State) : Out := s.run fun d => if 64 ≤ ch then d else d.dmaLineComplete ch

/-- A far-tier write of the channel has no CMP_ACK yet (R217). -/
def Dev.dmaFarOut (d : Dev) (ch : Nat) : Bool := d.farPorts.any fun p => p.2.writes.any fun w => decide (w.agent = agentDma ch)

/-- DESCRIPTOR_CONFIRMED: every CMP_ACK and every confirmation of the barrier has come; one that failed ends the command (R345). -/
def execDescriptorConfirmed (ch : Nat) (s : State) : Out :=
  s.run fun d =>
    let k := d.channel ch
    match k.run with
    | none => d
    | some r =>
      if 64 ≤ ch ∨ k.state ≠ .confirming ∨ r.confirms ≠ [] ∨ (r.held = false ∧ d.dmaFarOut ch = true) then d
      else if r.confirmFailed && decide (r.fault = 0) then d.dmaStop ch 0x670
      else if r.held then (d.updChannel ch fun k => { k with state := .running }).updRun ch fun r => { r with held := false }
      else d.dmaNext ch

/-- HEAD_PROMOTE: 48 grants have passed the head request. -/
def execHeadPromote (ch : Nat) (s : State) : Out :=
  s.run fun d =>
    let k := d.channel ch
    if 64 ≤ ch ∨ k.head = none ∨ k.passedBy < 48 ∨ k.promoted ≠ none then d
    else
      let order := (d.channels.map fun e => (e.2.promoted.map (· + 1)).getD 0).foldl max 0
      (d.updChannel ch fun k => { k with promoted := some order }).count (dmaCounter ch 0x20) 1

/-- TOKEN_BUCKET_REFILL: some nanoseconds at RATE, which is bytes a nanosecond. -/
def execTokenBucketRefill (ch ns : Nat) (s : State) : Out :=
  s.run fun d => if 64 ≤ ch then d else
    d.updChannel ch fun k => { k with tokens := min (1024 * k.actBurst.toNat) (k.tokens + k.actRate.toNat * ns) }

/-! ## Actions and the commit (R351, R357) -/

/-- A write of DMA_CH_CTRL by a function: the action, or NOT_HALTED. -/
def Dev.dmaAction (d : Dev) (fn ch : Nat) (halted : Dev → Dev) : Dev :=
  let k := d.channel ch
  if 64 ≤ ch ∨ k.owner ≠ fn ∨ d.barOpen fn = false then d
  else if k.state ≠ .halted then d.updChannel ch fun k => { k with cfgErr := k.cfgErr ||| 2 }
  else halted d

def Dev.dmaRetry (d : Dev) (ch : Nat) : Dev := d.updChannel ch fun k => { k with state := .running }
def Dev.dmaSkip (d : Dev) (ch : Nat) : Dev := d.dmaDone ch 0x208 true false
def Dev.dmaAbort (d : Dev) (ch : Nat) : Dev := d.dmaStop ch 0x207

def execActionRetry (fn ch : Nat) (s : State) : Out := s.run fun d => d.dmaAction fn ch fun d => d.dmaRetry ch
def execActionSkip (fn ch : Nat) (s : State) : Out := s.run fun d => d.dmaAction fn ch fun d => d.dmaSkip ch
def execActionAbort (fn ch : Nat) (s : State) : Out := s.run fun d => d.dmaAction fn ch fun d => d.dmaAbort ch

/-- A write of DMA_CH_COMMIT: RATE and BURST as they stand take effect together at the next grant; a commit that changes the pair is
journaled. -/
def Dev.dmaCommit (d : Dev) (fn ch : Nat) : Dev :=
  let k := d.channel ch
  if 64 ≤ ch ∨ k.owner ≠ fn ∨ d.barOpen fn = false then d
  else d.journaled fn (0x10000C + 0x100 * ch) 1 (decide ((k.rate, k.burst) ≠ k.commit.getD (k.actRate, k.actBurst)))
    fun d => d.updChannel ch fun k => { k with commit := some (k.rate, k.burst) }

def execCommit (fn ch : Nat) (s : State) : Out := s.run fun d => d.dmaCommit fn ch

end Sys2Proof.Machine
end

