-- ==== Sys2Proof/Machine/Memory.lean ====
section
/-! DEFINITION. Memory instructions (R56 to R59, R67, R118, R120, R131 to R136, R147, R224, R226, R230, R427, R428). The memory pipe performs an instruction's accesses at its issue, in ascending ray order (log 13, DESIGN CHOICE). -/

namespace Sys2Proof.Machine

/-! ## Widths and checks -/

/-- The width in bytes of MOD[2:0]; none for 5 to 7. -/
def memWidth (f : KFields) : Option Nat :=
  match f.mod.toNat % 8 with
  | 0 => some 1 | 1 => some 2 | 2 => some 4 | 3 => some 8 | 4 => some 16
  | _ => none

def memBytes (f : KFields) : Nat := (memWidth f).getD 1
def widthTraps (f : KFields) : List Trap := trapIf (memWidth f).isNone illegal

/-- The rays that execute (R53). -/
def Ctx.memRays (c : Ctx) (f : KFields) : List Nat := maskRays (c.mask f.msk)

/-- A destination of `n` bytes a ray. -/
def Ctx.dataDstTraps (c : Ctx) (spec n : Nat) : List Trap := if n ≤ 4 then c.rDstTraps spec else c.groupTraps spec (n / 4)
/-- A source of `n` bytes a ray. -/
def Ctx.dataSrcTraps (c : Ctx) (spec n : Nat) : List Trap := if n ≤ 4 then c.rSrcTraps spec else c.groupTraps spec (n / 4)
def Ctx.dataPoison (c : Ctx) (spec n : Nat) : Bool := if n ≤ 4 then c.rPoison spec else c.groupPoison spec (n / 4)

/-- The register rows of a field. -/
def fieldRows (spec n : Nat) : List Nat := if spec < 0xC0 then (List.range n).map (spec + ·) else []
/-- Registers of `n` bytes a ray. -/
def dataRegs (n : Nat) : Nat := (n + 3) / 4

/-- The checks of one local access (R59, R67). -/
def Ctx.localTraps (c : Ctx) (a n : Nat) : List Trap :=
  trapIf (decide (a % n ≠ 0)) (mkTrap .misaligned a) ++ trapIf (c.localTarget a n).isNone (mkTrap .scratchRange a)

/-- What a global access does: read, write, or an atomic, which device memory alone takes (R71, R230). -/
inductive AccessKind where
  | read | write | atomic

/-- The address lies in a region of address space beyond its mapping. -/
def Dev.beyondMap (d : Dev) (f va : Nat) : Bool :=
  match d.translate f va with
  | .beyond => true
  | _ => false

/-- The translation and permission checks of one global access of `n` bytes. -/
def Dev.globalTraps (d : Dev) (c : Ctx) (kind : AccessKind) (a n : Nat) : List Trap :=
  let fault (t : Cause) : List Trap := [mkTrap t a]
  let beyond := d.beyondMap c.launch.facet (a + n - 1)
  match d.translate c.launch.facet a with
  | .unmapped => fault .pageFault
  | .beyond => fault .protection
  | .window _ _ => fault .protection
  | .device _ _ ro =>
    match kind with
    | .read => []
    | .write | .atomic => if ro then fault .protection else []
  | .bus _ _ ro _ =>
    match kind with
    | .read => if beyond = true then fault .protection else []
    | .write => if (ro || beyond) = true then fault .protection else []
    | .atomic => fault .protection

def alignTraps (a n : Nat) : List Trap := trapIf (decide (a % n ≠ 0)) (mkTrap .misaligned a)

/-! ## Local accesses -/

/-- Writes what each ray loaded: `n` bytes a ray, in registers from DST; ZERO discards it. -/
def Dev.loadRegs (d : Dev) (c : Ctx) (spec n : Nat) (vals : List (Nat × List Byte)) (poison : Bool) : Dev :=
  if 0xC0 ≤ spec then d
  else
    d.updBeam c.ref fun b =>
      (List.range (dataRegs n)).foldl (fun (b : Beam) j =>
        b.writeRow (spec + j) (vals.map fun v => (v.1, BitVec.ofNat 32 (leAt v.2 (4 * j) (min 4 n)))) poison) b

/-- The core and physical address of a local access. -/
def Dev.localAt (d : Dev) (c : Ctx) (a n : Nat) : Option (Nat × Nat) :=
  (c.localTarget a n).bind fun t => d.scratchAt c.ref.launch t.1 t.2

/-- Moves of tiles that the access must wait for (R98). -/
def Dev.localBusy (d : Dev) (c : Ctx) (a n : Nat) (stores : Bool) : Bool :=
  match c.localTarget a n with
  | some (i, off) => d.scratchBusy c.ref.launch i off n stores
  | none => false

/-- Reads a local address: its bytes and the poison of its bank row. -/
def Dev.localRead (d : Dev) (c : Ctx) (a n : Nat) : List Byte × Bool × Dev :=
  match d.localAt c a n with
  | none => (leBytes n 0, false, d)
  | some (core, p) =>
    let d := d.laParity core (p / 128)
    let (bs, poison) := (d.core core).laRead p n
    (bs, poison, d)

/-- Stores bytes at local addresses, in ray order, each core's in one operation. -/
def Dev.localStore (d : Dev) (c : Ctx) (stores : List (Nat × List Byte)) (poison : Bool) : Dev :=
  let cells := (stores.map fun e =>
    match d.localAt c e.1 e.2.length with
    | none => []
    | some (core, p) => ((List.range e.2.length).zip e.2).map fun b => (core, p + b.1, b.2)).flatten
  Dev.forEach (NSet.addAll [] (cells.map Prod.fst)) (fun d core =>
    let mine := (cells.filter fun e => decide (e.1 = core)).map Prod.snd
    d.updCore core fun k => k.laStore mine (if poison then mine.map fun e => e.1 / 128 else [])) d

/-- Poison in an address register that a ray uses (R116). -/
def addrPoison (poisoned : Bool) (rays : List Nat) (spec : Nat) : List Trap := trapIf (poisoned && !rays.isEmpty) (poisonReg 1 spec)

/-- LDL (R56). -/
def execLdl (b : BeamRef) (f : KFields) (s : State) : Out :=
  s.run fun d => d.issue b (fun _ => fieldRows f.a.toNat 1) fun d c =>
    let n := memBytes f
    let rays := c.memRays f
    let addr (ray : Nat) : Nat := (c.localAddr f ray).toNat
    checked (c.mskTraps f.msk ++ widthTraps f ++ c.rSrcTraps f.a.toNat ++ c.dataDstTraps f.dst.toNat n ++
        (rays.map fun r => c.localTraps (addr r) n).flatten ++ addrPoison (c.rPoison f.a.toNat) rays f.a.toNat)
      (if rays.any fun r => d.localBusy c (addr r) n false then .hold
       else
        let (vals, poison, d) := rays.foldl (fun (acc : List (Nat × List Byte) × Bool × Dev) r =>
          let (bs, p, d) := acc.2.2.localRead c (addr r) n
          (acc.1 ++ [(r, bs)], acc.2.1 || p, d)) ([], false, d)
        .done ((d.loadRegs c f.dst.toNat n vals poison).next c))

/-- STL (R56). -/
def execStl (b : BeamRef) (f : KFields) (s : State) : Out :=
  s.run fun d => d.issue b (fun _ => fieldRows f.a.toNat 1 ++ fieldRows f.b.toNat (dataRegs (memBytes f))) fun d c =>
    let n := memBytes f
    let rays := c.memRays f
    let addr (ray : Nat) : Nat := (c.localAddr f ray).toNat
    checked (c.mskTraps f.msk ++ widthTraps f ++ c.rSrcTraps f.a.toNat ++ c.dataSrcTraps f.b.toNat n ++
        (rays.map fun r => c.localTraps (addr r) n).flatten ++ addrPoison (c.rPoison f.a.toNat) rays f.a.toNat)
      (if rays.any fun r => d.localBusy c (addr r) n true then .hold
       else .done ((d.localStore c (rays.map fun r => (addr r, c.rBytes f.b.toNat r n)) (c.dataPoison f.b.toNat n)).next c))

/-- The operands of an atomic of a ray: X, and Y of a compare-and-swap (R57). -/
def Ctx.atomX (c : Ctx) (f : KFields) (ray : Nat) : BitVec 32 := c.rVal f.b.toNat ray
def Ctx.atomY (c : Ctx) (f : KFields) (ray : Nat) : BitVec 32 := c.beam.gGet (f.b.toNat + 1) ray
def atomRegs (f : KFields) : Nat := if f.mod = 8 then 2 else 1

/-- The specifier and operation checks of ATOML and ATOMG. -/
def Ctx.atomTraps (c : Ctx) (f : KFields) : List Trap :=
  trapIf (decide (8 < f.mod.toNat)) illegal ++ c.rDstTraps f.dst.toNat ++
    (if f.mod = 8 then c.groupTraps f.b.toNat 2 else c.rSrcTraps f.b.toNat)

def Ctx.atomPoison (c : Ctx) (f : KFields) : Bool := if f.mod = 8 then c.groupPoison f.b.toNat 2 else c.rPoison f.b.toNat

/-- ATOML (R57): in ascending ray order; a word of a poisoned bank row is not performed; a poisoned operand poisons the bank row
(log 24, DEDUCED). -/
def execAtoml (b : BeamRef) (f : KFields) (s : State) : Out :=
  s.run fun d => d.issue b (fun _ => fieldRows f.a.toNat 1 ++ fieldRows f.b.toNat (atomRegs f)) fun d c =>
    let rays := c.memRays f
    let addr (ray : Nat) : Nat := (c.localAddr f ray).toNat
    checked (c.mskTraps f.msk ++ c.rSrcTraps f.a.toNat ++ c.atomTraps f ++
        (rays.map fun r => c.localTraps (addr r) 4).flatten ++ addrPoison (c.rPoison f.a.toNat) rays f.a.toNat)
      (if rays.any fun r => d.localBusy c (addr r) 4 true then .hold
       else
        let (vals, poison, d) := rays.foldl (fun (acc : List (Nat × List Byte) × Bool × Dev) r =>
          let (bs, p, d) := acc.2.2.localRead c (addr r) 4
          let new := atomicOp f.mod (BitVec.ofNat 32 (leNat bs)) (c.atomX f r) (c.atomY f r)
          let d := if p then d else d.localStore c [(addr r, leBytes 4 new.toNat)] (c.atomPoison f)
          (acc.1 ++ [(r, bs)], acc.2.1 || p, d)) ([], false, d)
        .done ((d.loadRegs c f.dst.toNat 4 vals poison).next c))

/-! ## Global accesses through the L1 (R119, R120, R147) -/

/-- A read of a beam within one line: through the L1 for device memory where the core has one, else at the point of coherence. -/
def Dev.coreRead (d : Dev) (c : Ctx) (va n : Nat) : ReadResult × Dev :=
  let core := c.block.core
  match d.translate c.launch.facet va with
  | .device pa cls _ =>
    let line := pa / 128
    if shareSets (d.core core).split = 0 then d.beamRead c va n
    else
      let d := d.l1Parity core line
      match (d.core core).l1? line with
      | some l =>
        ({ bytes := (l.data.drop (pa % 128)).take n, poison := false, ok := true }, d.updCore core fun k => k.l1Put l)
      | none =>
        let (m, d) := d.l1Request .rdS core c.launch.facet cls line
        ({ bytes := (m.data.drop (pa % 128)).take n, poison := m.poison, ok := true }, d)
  | _ => d.beamRead c va n

/-- Writes bytes into an L1 line that the core owns. -/
def Dev.l1Patch (d : Dev) (core line : Nat) (cells : List (Nat × Byte)) : Dev :=
  match (d.core core).l1? line with
  | some l => d.updCore core fun k => k.l1Put { l with state := .modified, data := patchLine l.data cells }
  | none => d

/-- Bytes at a line's home (WR_NC); a poisoned write first gives up the L1's own copy (R427, R428). -/
def Dev.storeHome (d : Dev) (c : Ctx) (cls line : Nat) (cells : List (Nat × Byte)) (poison : Bool) : Dev :=
  let core := c.block.core
  let d := match (d.core core).l1? line with
    | some l =>
      if poison then
        let d := d.updCore core fun k => k.l1Drop line
        if decide (l.state = L1State.modified) then (d.post { mkMsg .wb core line with data := l.data }).settle line
        else (d.post (mkMsg .evc core line)).settle line
      else d
    | none => d
  ((d.access { mkReq .wrNc core c.launch.facet cls line with bytes := cells, poison := poison }).2).notePoison c.launch.id poison

/-- The stores of one instruction to one line of device memory. -/
def Dev.storeLine (d : Dev) (c : Ctx) (cls line : Nat) (cells : List (Nat × Byte)) (poison : Bool) : Dev :=
  let core := c.block.core
  let d := d.l1Parity core line
  if poison || decide (shareSets (d.core core).split = 0) then d.storeHome c cls line cells poison
  else
    let full := (List.range 128).all fun i => cells.any fun e => decide (e.1 = i)
    match (d.core core).l1? line with
    | some l =>
      if decide (l.state = .shared) then
        let (m, d) := d.l1Request .upg core c.launch.facet cls line
        if m.poison then d.storeHome c cls line cells false else d.l1Patch core line cells
      else d.l1Patch core line cells
    | none =>
      let (m, d) := d.l1Request (if full then .own else .rdU) core c.launch.facet cls line
      if m.poison then d.storeHome c cls line cells false else d.l1Patch core line cells

/-- The stores of an instruction to global addresses, in ray order: one operation for each line of device memory. -/
def Dev.globalStore (d : Dev) (c : Ctx) (stores : List (Nat × List Byte)) (poison : Bool) : Dev :=
  let lineOf (va : Nat) : Option (Nat × Nat × Nat) := match d.translate c.launch.facet va with
    | .device pa cls _ => some (pa, cls, pa / 128)
    | _ => none
  let cells (line : Nat) : List (Nat × Byte) := (stores.map fun e =>
    match lineOf e.1 with
    | some (pa, _, l) => if l = line then ((List.range e.2.length).zip e.2).map fun b => (pa % 128 + b.1, b.2) else []
    | none => []).flatten
  let go := stores.foldl (fun (acc : List Nat × Dev) e =>
    match lineOf e.1 with
    | none => (acc.1, acc.2.beamWrite c e.1 e.2 poison)
    | some (_, cls, line) =>
      if acc.1.contains line then acc else (line :: acc.1, acc.2.storeLine c cls line (cells line) poison)) ([], d)
  go.2

/-- LDG and LDV share their checks and their registers; `read` performs one ray's access. -/
def Dev.globalLoad (d : Dev) (b : BeamRef) (f : KFields) (read : Dev → Ctx → Nat → Nat → ReadResult × Dev) : Dev :=
  d.issue b (fun _ => fieldRows f.a.toNat 2) fun d c =>
    let n := memBytes f
    let rays := c.memRays f
    let addr (ray : Nat) : Nat := (c.globalAddr f ray).toNat
    checked (c.mskTraps f.msk ++ widthTraps f ++ c.groupTraps f.a.toNat 2 ++ c.dataDstTraps f.dst.toNat n ++
        (rays.map fun r => alignTraps (addr r) n ++ d.globalTraps c .read (addr r) n).flatten ++
        addrPoison (c.groupPoison f.a.toNat 2) rays f.a.toNat)
      (let (vals, poison, d) := rays.foldl (fun (acc : List (Nat × List Byte) × Bool × Dev) r =>
          let (v, d) := read acc.2.2 c (addr r) n
          (acc.1 ++ [(r, v.bytes)], acc.2.1 || v.poison, d)) ([], false, d)
       .done ((d.loadRegs c f.dst.toNat n vals poison).next c))

/-- LDG (R56, R120). -/
def execLdg (b : BeamRef) (f : KFields) (s : State) : Out := s.run fun d => d.globalLoad b f Dev.coreRead

/-- LDV (R224): at the point of coherence. -/
def execLdv (b : BeamRef) (f : KFields) (s : State) : Out := s.run fun d => d.globalLoad b f Dev.beamRead

/-- STG (R56, R120): the stores that a 17th peer region holds follow its confirmation (R226). -/
def execStg (b : BeamRef) (f : KFields) (s : State) : Out :=
  s.run fun d => d.issue b (fun _ => fieldRows f.a.toNat 2 ++ fieldRows f.b.toNat (dataRegs (memBytes f))) fun d c =>
    let n := memBytes f
    let rays := c.memRays f
    let addr (ray : Nat) : Nat := (c.globalAddr f ray).toNat
    checked (c.mskTraps f.msk ++ widthTraps f ++ c.groupTraps f.a.toNat 2 ++ c.dataSrcTraps f.b.toNat n ++
        (rays.map fun r => alignTraps (addr r) n ++ d.globalTraps c .write (addr r) n).flatten ++
        addrPoison (c.groupPoison f.a.toNat 2) rays f.a.toNat)
      (let left := rays.drop c.beam.stored
       let store (rays : List Nat) : Dev := d.globalStore c (rays.map fun r => (addr r, c.rBytes f.b.toNat r n)) (c.dataPoison f.b.toNat n)
       match d.heldStores c (left.map addr) with
       | none => .done (((store left).updBeam c.ref fun m => { m with stored := 0 }).next c)
       | some i => .part (((store (left.take i)).updBeam c.ref fun m => { m with stored := m.stored + i }).confirmOldest c))

/-- One ray's atomic at the home (R148, R230): a poisoned operand writes the new word as a poisoned write (log 24, DEDUCED). -/
def Dev.atomHome (d : Dev) (c : Ctx) (f : KFields) (ray a : Nat) : List Byte × Bool × Dev :=
  match d.translate c.launch.facet a with
  | .device pa cls _ =>
    let line := pa / 128
    let req := { mkReq .atom c.block.core c.launch.facet cls line with
                   bytes := [(pa % 128, 0)], op := f.mod, x := c.atomX f ray, y := c.atomY f ray }
    if c.atomPoison f then
      let (r, d) := d.beamRead c a 4
      if r.poison then (r.bytes, true, d)
      else
        let new := atomicOp f.mod (BitVec.ofNat 32 (leNat r.bytes)) (c.atomX f ray) (c.atomY f ray)
        (r.bytes, false, d.storeHome c cls line (((List.range 4).zip (leBytes 4 new.toNat)).map fun e => (pa % 128 + e.1, e.2)) true)
    else
      let (m, d) := d.access req
      (if m.poison then (m.data.drop (pa % 128)).take 4 else m.data.take 4, m.poison, d)
  | _ => (leBytes 4 0, false, d)

/-- ATOMG (R57, R230). -/
def execAtomg (b : BeamRef) (f : KFields) (s : State) : Out :=
  s.run fun d => d.issue b (fun _ => fieldRows f.a.toNat 2 ++ fieldRows f.b.toNat (atomRegs f)) fun d c =>
    let rays := c.memRays f
    let addr (ray : Nat) : Nat := (c.globalAddr f ray).toNat
    checked (c.mskTraps f.msk ++ c.groupTraps f.a.toNat 2 ++ c.atomTraps f ++
        (rays.map fun r => alignTraps (addr r) 4 ++ d.globalTraps c .atomic (addr r) 4).flatten ++
        addrPoison (c.groupPoison f.a.toNat 2) rays f.a.toNat)
      (let (vals, poison, d) := rays.foldl (fun (acc : List (Nat × List Byte) × Bool × Dev) r =>
          let (bs, p, d) := acc.2.2.atomHome c f r (addr r)
          (acc.1 ++ [(r, bs)], acc.2.1 || p, d)) ([], false, d)
       .done ((d.loadRegs c f.dst.toNat 4 vals poison).next c))

/-! ## Scalar loads and stores -/

/-- The specifier checks of LDS and STS: of 16 bytes, the register and its successor are scalar registers (log 25, DEDUCED). -/
def scalarDataTraps (n spec : Nat) (dst : Bool) : List Trap :=
  trapIf ((if dst then sDstBad spec else sSrcBad spec) || (decide (n = 16) && decide (0xEF ≤ spec))) illegal

/-- LDS (R56): through the L1; poison into a scalar register raises POISON (R428). -/
def execLds (b : BeamRef) (f : KFields) (s : State) : Out :=
  s.run fun d => d.issue b (fun _ => []) fun d c =>
    let n := memBytes f
    let a := (c.scalarAddr f).toNat
    checked (widthTraps f ++ trapIf (sSrcBad f.a.toNat) illegal ++ scalarDataTraps n f.dst.toNat true ++ alignTraps a n ++
        d.globalTraps c .read a n)
      (let (v, d) := d.coreRead c a n
       if v.poison then .trap (mkTrap .poison a)
       else .done ((d.updBeam c.ref fun m =>
        let m := m.sWrite f.dst.toNat (BitVec.ofNat 64 (leAt v.bytes 0 (min n 8)))
        if n = 16 then m.sWrite (f.dst.toNat + 1) (BitVec.ofNat 64 (leAt v.bytes 8 8)) else m).next c))

/-- STS (R56). -/
def execSts (b : BeamRef) (f : KFields) (s : State) : Out :=
  s.run fun d => d.issue b (fun _ => []) fun d c =>
    let n := memBytes f
    let a := (c.scalarAddr f).toNat
    let bytes := (leBytes 8 (c.sVal f.b.toNat).toNat ++ leBytes 8 (c.sVal (f.b.toNat + 1)).toNat).take n
    checked (widthTraps f ++ trapIf (sSrcBad f.a.toNat) illegal ++ scalarDataTraps n f.b.toNat false ++ alignTraps a n ++
        d.globalTraps c .write a n)
      (if (d.heldStores c [a]).isSome then .part (d.confirmOldest c) else .done ((d.globalStore c [(a, bytes)] false).next c))

/-! ## Asynchronous copies -/

/-- The checks of each line of a copy's global range: CPS alone may write a reduction window (R176). -/
def Dev.copyTraps (d : Dev) (c : Ctx) (store : Bool) (va len : Nat) : List Trap :=
  ((List.range (len / 128)).map fun i =>
    let a := va + 128 * i
    match d.translate c.launch.facet a with
    | .window _ _ => if store then [] else [mkTrap .protection a]
    | _ => d.globalTraps c (if store then .write else .read) a 128).flatten

/-- CPA and CPS (R56, R58): s[DST] is the local address, s[SRC_A] the global one, s[SRC_B] the length; IMM is not added (log 26, DEDUCED).
With 16 copies outstanding nothing issues, not even a copy of length 0 or one that a check would stop; of a bad length and a misaligned
address, DETAIL holds the length (log 62, DEDUCED). -/
def Dev.startCopy (d : Dev) (b : BeamRef) (f : KFields) (toScratch : Bool) : Dev :=
  d.issue b (fun _ => []) fun d c =>
    let loc := (c.sVal f.dst.toNat).toNat
    let glob := c.sVal f.a.toNat
    let len := (c.sVal f.b.toNat).toNat
    let badLen := decide (len % 128 ≠ 0) || decide (1048576 < len)
    let moved := if badLen then 0 else len
    if 16 ≤ c.beam.copies.length then .hold
    else checked (trapIf (sSrcBad f.dst.toNat || sSrcBad f.a.toNat || sSrcBad f.b.toNat) illegal ++
        trapIf badLen { cause := .misaligned, detail := len, reg := false, length := true } ++ alignTraps glob.toNat 128 ++
        alignTraps loc 128 ++ trapIf (decide (moved ≠ 0) && (c.localTarget loc moved).isNone) (mkTrap .scratchRange loc) ++
        d.copyTraps c (!toScratch) glob.toNat moved)
      (if len = 0 then .done (d.next c)
       else if d.localBusy c loc len toScratch then .hold
       else .done ((d.updBeam c.ref fun m =>
          { m with copies := m.copies ++ [{ toScratch := toScratch, glob := glob, loc := loc, len := len }] }).next c))

def execCpa (b : BeamRef) (f : KFields) (s : State) : Out := s.run fun d => d.startCopy b f true
def execCps (b : BeamRef) (f : KFields) (s : State) : Out := s.run fun d => d.startCopy b f false

/-- ASYNC_COPY_COMPLETE (R58): an outstanding copy's lines move, and its slot is free; the last one of a block whose beams have ended ends
the block. -/
def execAsyncCopyComplete (b : BeamRef) (copy : Nat) (s : State) : Out :=
  s.run fun d =>
    match d.launch? b.launch with
    | none => d
    | some l => ((d.copyDone b copy).charge d).blockEnds l b.block

/-! ## Prefetch and cache control -/

/-- PREF (R56): the line of each ray's address that is device memory is fetched into its slice; no address faults. A poisoned address
register raises POISON (R116) all the same (log 62, DEDUCED). -/
def execPref (b : BeamRef) (f : KFields) (s : State) : Out :=
  s.run fun d => d.issue b (fun _ => fieldRows f.a.toNat 2) fun d c =>
    let rays := c.memRays f
    checked (c.mskTraps f.msk ++ c.groupTraps f.a.toNat 2 ++ addrPoison (c.groupPoison f.a.toNat 2) rays f.a.toNat)
      (.done ((Dev.forEach rays (fun d r =>
        match d.translate c.launch.facet (c.globalAddr f r).toNat with
        | .device pa cls _ => (d.access (mkReq .pref c.block.core c.launch.facet cls (pa / 128))).2
        | _ => d) d).next c))

/-- CCTL (R131): `op` is MOD; the lines are acted on in ascending ray order, and pins and unpins return a status. -/
def Dev.cacheControl (d : Dev) (b : BeamRef) (f : KFields) (op : BitVec 4) : Dev :=
  d.issue b (fun _ => fieldRows f.a.toNat 2) fun d c =>
    let rays := c.memRays f
    let status := decide (op = 1) || decide (op = 2) || decide (op = 4)
    let kind : AccessKind := if op = 3 then .read else .write
    let addr (ray : Nat) : Nat := (c.globalAddr f ray).toNat
    checked (c.mskTraps f.msk ++ c.groupTraps f.a.toNat 2 ++ (if status then c.rDstTraps f.dst.toNat else []) ++
        (rays.map fun r => d.globalTraps c kind (addr r) 1).flatten ++ addrPoison (c.groupPoison f.a.toNat 2) rays f.a.toNat)
      (let (vals, d) := rays.foldl (fun (acc : List (Nat × List Byte) × Dev) r =>
          match acc.2.translate c.launch.facet (addr r) with
          | .device pa cls _ =>
            let (m, d) := acc.2.access { mkReq .cctl c.block.core c.launch.facet cls (pa / 128) with op := op }
            (acc.1 ++ [(r, leBytes 4 m.status.toNat)], d)
          | _ => (acc.1 ++ [(r, leBytes 4 0x613)], acc.2)) ([], d)
       .done ((if status then d.loadRegs c f.dst.toNat 4 vals false else d).next c))

def execCctlCullet (b : BeamRef) (f : KFields) (s : State) : Out := s.run fun d => d.cacheControl b f 0
def execCctlPin (b : BeamRef) (f : KFields) (s : State) : Out := s.run fun d => d.cacheControl b f 1
def execCctlUnpin (b : BeamRef) (f : KFields) (s : State) : Out := s.run fun d => d.cacheControl b f 2
def execCctlWriteBack (b : BeamRef) (f : KFields) (s : State) : Out := s.run fun d => d.cacheControl b f 3
def execCctlPinRetain (b : BeamRef) (f : KFields) (s : State) : Out := s.run fun d => d.cacheControl b f 4

end Sys2Proof.Machine
end

