-- ==== Sys2Proof/Machine/Matrix.lean ====
section
/-! DEFINITION. The matrix instructions' issue, with their checks (R89 to R100), and the completion of a queued one with its residue check (R98, R115). -/

namespace Sys2Proof.Machine

/-! ## Checks (R97, R99, R100) -/

/-- A tile specifier above 23, and a tile beyond TILE_REGS. -/
def Ctx.tileSpec (c : Ctx) (t : Nat) : List Trap :=
  trapIf (decide (23 < t)) illegal ++ trapIf (decide (t ≤ 23) && decide (c.launch.params.tileRegs ≤ t)) regRange

/-- What every class 0x4 instruction is checked for. -/
def Ctx.classTraps (c : Ctx) (f : KFields) : List Trap :=
  trapIf (coreIsVector c.block.core || decide (f.msk ≠ 0)) illegal ++
    trapIf (decide (c.beam.path ≠ ~~~ c.beam.exited)) (mkTrap .partialBeamMatrix 0)

/-- A destination quad: DST a multiple of 4, its tiles, and no operand tile inside it. -/
def Ctx.quadTraps (c : Ctx) (dst : Nat) (operands : List Nat) : List Trap :=
  trapIf (decide (dst % 4 ≠ 0)) illegal ++ c.tileSpec dst ++ (if dst ≤ 20 then c.tileSpec (dst + 3) else []) ++
    trapIf (operands.any fun t => decide (dst ≤ t) && decide (t < dst + 4)) illegal

/-- The highest scale slot that an operand row uses (R88). -/
def MFormat.slots (m : MFormat) (sparse : Bool) : Nat := (m.groups sparse - 1) / 8

/-- MMA and MMAS. -/
def Ctx.mmaTraps (c : Ctx) (f : KFields) (sparse : Bool) : List Trap :=
  let second (t : Nat) : List Nat := if sparse then [t, t + 1] else [t]
  let tiles := second f.a.toNat ++ second f.b.toNat ++ scaleTiles f
  c.classTraps f ++ (tiles.map c.tileSpec).flatten ++ c.quadTraps f.dst.toNat tiles ++
  match mformat f.mod.toNat with
  | none => [illegal]
  | some m =>
    trapIf (m.mx && (decide (15 < immASlot f + m.slots sparse) || decide (15 < immBSlot f + m.slots sparse))) illegal

def noMod (f : KFields) : List Trap := trapIf (decide (f.mod ≠ 0)) illegal

def Ctx.mbinTraps (c : Ctx) (f : KFields) : List Trap :=
  c.classTraps f ++ noMod f ++ c.tileSpec f.a.toNat ++ c.tileSpec f.b.toNat ++ c.quadTraps f.dst.toNat [f.a.toNat, f.b.toNat]

def Ctx.mbintTraps (c : Ctx) (f : KFields) : List Trap :=
  let operands := [f.a.toNat, f.b.toNat, immThr f]
  c.classTraps f ++ noMod f ++ (operands.map c.tileSpec).flatten ++ c.tileSpec f.dst.toNat ++
    trapIf (operands.contains f.dst.toNat) illegal

def Ctx.mzeroTraps (c : Ctx) (f : KFields) : List Trap :=
  c.classTraps f ++ noMod f ++ (if f.imm.getLsbD 0 then c.quadTraps f.dst.toNat [] else c.tileSpec f.dst.toNat)

/-- MLD and MST: SRC_A and SRC_B name scalar registers as R52 encodes them elsewhere, special registers included; DETAIL is the first row's
address that fails (R72). Log 38, DEDUCED. -/
def Ctx.moveTraps (c : Ctx) (f : KFields) : List Trap :=
  let base := (c.scalarAddr f).toNat
  let stride := (c.sVal f.b.toNat).toNat % 2 ^ 32
  let row (r : Nat) : Nat := base + r * stride
  let bad (r : Nat) : Bool := decide (c.launch.params.scratchBytes < row r + 128) || decide (0x01000000 < row r + 128)
  c.classTraps f ++ noMod f ++ c.tileSpec f.dst.toNat ++ c.sTraps f.a.toNat ++ c.sTraps f.b.toNat ++
    trapIf (decide (base % 128 ≠ 0)) (mkTrap .misaligned base) ++
    trapIf (decide (stride % 128 ≠ 0)) (mkTrap .misaligned (row 1)) ++
    ((List.range 128).map fun r => trapIf (bad r) (mkTrap .scratchRange (row r))).flatten

/-! ## Issue (R98) -/

/-- Issues a class 0x4 instruction: not ready while its queue is full or its issue is gated; else it takes a place in the queue. -/
def Dev.issueMatrix (d : Dev) (i : Instr) (r : BeamRef) (f : KFields) (move : Bool) (traps : Ctx → List Trap) : Dev :=
  d.issue r (fun _ => []) fun d c =>
    let core := c.block.core
    let q (k : Core) : List QEntry := if move then k.movQ else k.matQ
    if !coreIsVector core && (decide (4 ≤ (q (d.core core)).length) || d.matrixGated core) then .hold
    else checked (traps c) (
      let entry (k : Core) : QEntry :=
        { instr := i, beam := r, seq := k.nextSeq, base := (c.scalarAddr f).toNat, stride := (c.sVal f.b.toNat).toNat % 2 ^ 32 }
      .done ((d.updCore core fun k =>
        if move then { k with movQ := k.movQ ++ [entry k] } else { k with matQ := k.matQ ++ [entry k] }).next c))

def execMma (b : BeamRef) (f : KFields) (s : State) : Out := s.run fun d => d.issueMatrix (.mma b f) b f false fun c => c.mmaTraps f false
def execMmas (b : BeamRef) (f : KFields) (s : State) : Out := s.run fun d => d.issueMatrix (.mmas b f) b f false fun c => c.mmaTraps f true
def execMbin (b : BeamRef) (f : KFields) (s : State) : Out := s.run fun d => d.issueMatrix (.mbin b f) b f false fun c => c.mbinTraps f
def execMbint (b : BeamRef) (f : KFields) (s : State) : Out := s.run fun d => d.issueMatrix (.mbint b f) b f false fun c => c.mbintTraps f
def execMld (b : BeamRef) (f : KFields) (s : State) : Out := s.run fun d => d.issueMatrix (.mld b f) b f true fun c => c.moveTraps f
def execMst (b : BeamRef) (f : KFields) (s : State) : Out := s.run fun d => d.issueMatrix (.mst b f) b f true fun c => c.moveTraps f
def execMzero (b : BeamRef) (f : KFields) (s : State) : Out := s.run fun d => d.issueMatrix (.mzero b f) b f false fun c => c.mzeroTraps f

/-! ## Completion (R98, R115, R423) -/

/-- The facet of an entry's block. -/
def Dev.entryFacet (d : Dev) (e : QEntry) : Nat :=
  match d.block? e.beam.launch e.beam.block with
  | some b => b.facet
  | none => 0

/-- What a work unit's check leaves in the counters, the glints and the core's score: a mismatch that the re-execution cured, or one that
persisted (source 2 matrix, 3 vector) (R115, R423, R431, R438). -/
def Dev.workUnit (d : Dev) (core facet source : Nat) (mismatch failed : Bool) : Dev :=
  if !mismatch then d
  else if failed then ((d.count 0x609008 1).poisonOrigin source true core facet).scoreUp core 16
  else ((d.count 0x609000 1).corrected).scoreUp core 1

/-- The matrix instructions whose results are checked modulo 7 (R115). -/
def residueUnit (i : Instr) : Bool :=
  match i with
  | .mma .. | .mmas .. | .mbin .. | .mbint .. => true
  | _ => false

/-- The engine beats of an instruction of the compute queue (R90). -/
def engineBeats (i : Instr) : Nat :=
  match i with
  | .mma .. | .mmas .. => 256
  | .mbin _ f | .mbint _ f => if immHalfK f then 32 else 64
  | .mzero _ f => if f.imm.getLsbD 0 then 4 else 1
  | _ => 0

/-- The row's beat counter advances by the beats of an instruction that completes in one of its engines, where the row's handshake runs: not
while its issue is gated for droop, nor in a die that is DARK (R34, R35; log 63, DESIGN CHOICE). -/
def Dev.countBeats (d : Dev) (core : Nat) (i : Instr) : Dev :=
  if NSet.has (d.die (coreDie core)).droop (coreRow core) || decide ((d.die (coreDie core)).state = .dark) then d
  else { d with beats := Tab.set 0 d.beats (coreRow core) (Tab.get 0 d.beats (coreRow core) + BitVec.ofNat 64 (engineBeats i)) }

/-- MATRIX_INSTRUCTION_COMPLETE: the head of the compute or move queue commits, once every earlier access it waits for is done.
`fails` are the outputs (row, column) whose check failed again on the re-execution; a move has no check. -/
def Dev.matrixComplete (d : Dev) (core : Nat) (move mismatch : Bool) (fails : List (Nat × Nat)) : Dev :=
  let k := d.core core
  match if move then k.movQ else k.matQ with
  | [] => d
  | e :: rest =>
    if k.entries.any fun w => e.waitsFor w then d
    else
      let facet := d.entryFacet e
      let before := d
      let d := d.tileParity e
      let mismatch := mismatch && residueUnit e.instr
      let failed := mismatch && !fails.isEmpty
      let d := d.matrixCommit e (if failed then fails else [])
      let d := d.updCore core fun k => if move then { k with movQ := rest } else { k with matQ := rest }
      ((d.charge before).workUnit core facet 2 mismatch failed).countBeats core e.instr

def execMatrixInstructionComplete (core : Nat) (move mismatch : Bool) (fails : List (Nat × Nat)) (s : State) : Out :=
  s.run fun d => d.matrixComplete core move mismatch fails

end Sys2Proof.Machine
end

