-- ==== Sys2Proof/Machine/PowerOps.lean ====
section
/-! DEFINITION. The shared operations of power control: guaranteed beat rates, the pacer ceiling in order with its rail, AVSBus requests, and waking a die (R32, R33, R394, R398 to R402, R411, R412). -/

namespace Sys2Proof.Machine

/-! ## Rates and rails (R32, R394) -/

/-- 10 M beats/s, the unit of PACER and RATE (R414, R419). -/
def rateUnit : Rat := 10000000

/-- The tabulated rails in mV, and the guaranteed rates of R32 in 10 M beats/s in its three columns. -/
def railTable : List (Nat × Nat × Nat × Nat) :=
  [(650, 90, 87, 84), (700, 106, 103, 100), (750, 123, 120, 116), (800, 131, 127, 123), (850, 144, 140, 135)]

/-- The guaranteed beat rate at a rail voltage and a junction temperature: that of the highest tabulated rail at or below it, in the first
column at or above the temperature, or the last column (R32, R394); 0 below the table. -/
def guaranteed (mv temp : Nat) : Rat :=
  let column (e : Nat × Nat × Nat × Nat) : Nat := if temp ≤ 60 then e.2.1 else if temp ≤ 85 then e.2.2.1 else e.2.2.2
  match (railTable.filter fun e => decide (e.1 ≤ mv)).getLast? with
  | some e => (column e : Rat) * rateUnit
  | none => 0

/-- The lowest tabulated rail with a property; 850 mV where none has it. -/
def lowestRail (ok : Nat → Bool) : Nat := ((railTable.map Prod.fst).find? ok).getD 850

/-- The rail target for a ceiling at a temperature (R394). -/
def railFor (c : Rat) (temp : Nat) : Nat := lowestRail fun mv => decide (c ≤ guaranteed mv temp)

/-- The fixed rate R_fix in beats/s (R398). -/
def Power.fixRate (p : Power) : Rat := (p.fixedRate : Rat) * rateUnit

/-- c_max of a die (R33, R393, R398, R404). -/
def Dev.cMax (d : Dev) (n : Nat) : Rat :=
  if d.power.fixed then d.power.fixRate
  else if (d.die n).thermal = 1 then 120 * rateUnit
  else 150 * rateUnit

/-- The rail target of an ON die, for the ceiling it has or waits for (R394, R398). -/
def Dev.railTarget (d : Dev) (n : Nat) : Nat :=
  let k := d.die n
  if d.power.fixed then railFor d.power.fixRate 100 else railFor (k.wanted.getD k.ceiling) k.temp

/-! ## AVSBus requests (R399, R402) -/

/-- Sends a request; where one is outstanding the target waits in place of any other; where a row of the rail is gated for droop it is
deferred. A faulted rail gets none (R400). -/
def Dev.requestRail (d : Dev) (n mv : Nat) : Dev :=
  let r := d.rail n
  if r.fault then d
  else if r.outstanding.isSome then d.updRail n fun r => { r with waiting := if r.outstanding = some mv then none else some mv }
  else if r.acked = mv then (d.updRail n fun r => { r with waiting := none }).updDie n fun k => { k with deferred := false }
  else if decide (n < 12) && !(d.die n).droop.isEmpty then
    let d := if (d.die n).deferred then d else d.count 0x608008 1
    (d.updRail n fun r => { r with waiting := some mv }).updDie n fun k => { k with deferred := true }
  else
    (d.updRail n fun r => { r with outstanding := some mv, waiting := none, resent := false }).updDie n fun k => { k with deferred := false }

/-- The voltage that a rail surely has: the lower of the acknowledged one and the outstanding target (R394, R401). -/
def Rail.sure (r : Rail) : Nat := min r.acked (r.outstanding.getD r.acked)

/-! ## The ceiling (R393, R394, R400) -/

/-- Writes C_d; a change is traced (R467). -/
def Dev.writeCeiling (d : Dev) (n : Nat) (c : Rat) (wanted : Option Rat) : Dev :=
  let old := (d.die n).ceiling
  let d := d.updDie n fun k =>
    { k with ceiling := c, wanted := wanted, missed := k.missed && decide (c < d.power.fixRate) }
  if c = old then d else d.trace 1 n (c / rateUnit).floor.toNat

/-- Moves C_d. A fall takes effect at once; a rise above what the rail guarantees waits for a higher rail, where there is one and the
rail is not faulted. At thermal step 2 it does not rise (R404). -/
def Dev.setCeiling (d : Dev) (n : Nat) (c : Rat) : Dev :=
  let k := d.die n
  let c := if k.thermal = 2 then min c k.ceiling else c
  let r := d.rail n
  let g := guaranteed r.sure k.temp
  if c ≤ k.ceiling then d.writeCeiling n c none
  else if r.fault then d.writeCeiling n (max k.ceiling (min c g)) none
  else if c ≤ g ∨ railFor c k.temp ≤ r.sure then d.writeCeiling n c none
  else d.writeCeiling n (max k.ceiling (min c g)) (some c)

/-! ## Power states of a die (R405, R410 to R412) -/

/-- STATE of a die changes and is traced. -/
def Dev.dieState (d : Dev) (n : Nat) (st : DieState) : Dev :=
  let code := match st with
    | .on => 0 | .dim => 1 | .dark => 2 | .transition => 3
  if (d.die n).state = st then d else (d.updDie n fun k => { k with state := st }).trace 0 n code

/-- Exit from DARK begins (R411 step 1). -/
def Dev.beginDarkExit (d : Dev) (n : Nat) : Dev :=
  if (d.die n).state = .dark then
    ((d.dieState n .transition).updDie n fun k => { k with entering := false }).requestRail n 650
  else d

/-- A wake event for a die: a DARK die begins its exit; one on its way to DARK latches the event, which is counted (R412). -/
def Dev.wakeDie (d : Dev) (n : Nat) : Dev :=
  let k := d.die n
  if k.state = .dark then d.beginDarkExit n
  else if k.state = .transition ∧ k.entering then (d.count 0x608030 1).updDie n fun k => { k with wakeLatch := true }
  else d

end Sys2Proof.Machine
end

