-- ==== Sys2Proof/Machine/Lehr.lean ====
section
/-! DEFINITION. The lehr: corpora and their blocks (R234 to R243), starting and stopping (R244 to R246), circulation and scoring (R247 to R252, R264), riders (R254 to R259), results, rerank and hand-off (R258 to R262). -/

namespace Sys2Proof.Machine

/-! ## Corpora (R234 to R241) -/

/-- Codes of a full block (R234). -/
def blockCodes (i8 : Bool) : Nat := if i8 then 65536 else 262144
def attrBytes (i8 : Bool) : Nat := if i8 then 524288 else 2097152

def Lehr.corpus? (l : Lehr) (c : Nat) : Option Corpus := l.corpora.find? fun x => decide (x.num = c)
def Lehr.updCorpus (l : Lehr) (c : Nat) (g : Corpus → Corpus) : Lehr :=
  { l with corpora := updFirst (fun x => decide (x.num = c)) g l.corpora }
def Corpus.block? (x : Corpus) (n : Nat) : Option CorpusBlock := x.blocks.find? fun b => decide (b.number = n)

/-- A rider of an epoch is scored against the block (R241). -/
def CorpusBlock.inEpoch (b : CorpusBlock) (e : Nat) : Bool :=
  decide (b.added ≤ e) && (match b.retired with
    | none => true
    | some r => decide (e < r))

/-- The pages of a range are mapped in the manager's space, READ_ONLY, in device memory: what kinds they are (far, LOCAL). -/
def Dev.roPages (d : Dev) (va n : Nat) : Option (List (Bool × Bool)) :=
  ((List.range ((va + n + pageBytes - 1) / pageBytes - va / pageBytes)).map (va / pageBytes + ·)).foldl (fun acc v =>
    acc.bind fun l =>
      match (d.facet 0).pages.find? fun p => decide (p.va = v) with
      | some p => if p.ro then some (l ++ [(!frameIsHbm p.frame, d.lineLocal (p.frame * pageLines))]) else none
      | none => none) (some [])

/-- A block entry that R239 and R240 allow; `number` and `epoch` are the block's. -/
def Dev.readBlockEntry (d : Dev) (i8 : Bool) (bs : List Byte) (number epoch : Nat) : Option CorpusBlock :=
  let code := leAt bs 0 8
  let attr := leAt bs 8 8
  let rerank := leAt bs 16 8
  let count := bits (leAt bs 24 4) 0 19
  if code % 16777216 ≠ 0 ∨ attr % attrBytes i8 ≠ 0 ∨ rerank % 4096 ≠ 0 ∨ count = 0 ∨ blockCodes i8 < count then none
  else
    match d.roPages code (count * codeBytes i8), d.roPages attr (8 * count), d.roPages rerank (if rerank = 0 then 0 else 1024 * count) with
    | some kinds, some _, some _ =>
      if kinds.all (fun k => !k.1 && !k.2) || kinds.all (fun k => k.1) then
        some { number := number, code := code, attr := attr, rerank := rerank, count := count, far := kinds.all (fun k => k.1),
               added := epoch, retired := none }
      else none
    | _, _, _ => none

/-- The blocks of a table in the manager's device memory (R239): a table that is not there, or cannot be read, is a field out of range. -/
def Dev.readBlocks (d : Dev) (i8 : Bool) (table n first epoch : Nat) : Except Code (List CorpusBlock) × Dev :=
  let (r, d) := d.gread 0 table (32 * n)
  if !d.deviceRange 0 table (32 * n) false || !r.ok || r.poison then (.error 0x3, d)
  else
    (((List.range n).foldl (fun acc i =>
      match acc with
      | .error e => .error e
      | .ok l =>
        match d.readBlockEntry i8 ((r.bytes.drop (32 * i)).take 32) (first + i) epoch with
        | some b => .ok (l ++ [b])
        | none => .error 0x30A) (.ok [])), d)

def corpusResponse (c epoch first : Nat) : List Byte :=
  [1, BitVec.ofNat 8 c, 0, 0] ++ leBytes 4 epoch ++ leBytes 4 first ++ leBytes 4 0

/-- CORPUS_REGISTER, code 0x0300; the new corpus takes the lowest free number. -/
def execCorpusRegister (fn : Nat) (s : State) : Out :=
  s.run fun d => d.mbxRun fn 0x0300 (ofSender fn) fun d p =>
    let i8 := bit (leAt p 1 1) 0
    let n := leAt p 4 4
    let table := leAt p 8 8
    if n = 0 ∨ 65536 < n ∨ table % 32 ≠ 0 then .refuse 0x3 []
    else
      match (List.range 16).find? fun c => (d.lehr.corpus? c).isNone with
      | none => .refuse 0x309 []
      | some c =>
        if d.stackFailed then .refuse 0x653 []
        else
          match d.readBlocks i8 table n 0 1 with
          | (.error st, _) => .refuse st []
          | (.ok blocks, d) =>
            let x : Corpus := { num := c, i8 := i8, access := BitVec.ofNat 64 (leAt p 16 8), epoch := 1, active := 1, blocks := blocks,
                                nextBlock := n, retiring := none }
            .ok (d.updLehr fun l => { l with corpora := l.corpora ++ [x] }) (corpusResponse c 1 0)

/-- An epoch takes effect at the next block boundary: at once where no block is being swept (R241). -/
def Lehr.settleEpoch (l : Lehr) (c : Nat) : Lehr :=
  if l.current.isSome then l else l.updCorpus c fun x => { x with active := x.epoch }

/-- CORPUS_APPEND, code 0x0301. -/
def execCorpusAppend (fn : Nat) (s : State) : Out :=
  s.run fun d => d.mbxRun fn 0x0301 (ofSender fn) fun d p =>
    let c := bits (leAt p 1 1) 0 4
    let n := leAt p 4 4
    let table := leAt p 8 8
    if n = 0 ∨ 65536 < n ∨ table % 32 ≠ 0 then .refuse 0x3 []
    else
      match d.lehr.corpus? c with
      | none => .refuse 0x303 []
      | some x =>
        if d.stackFailed then .refuse 0x653 []
        else if 2 ^ 40 / blockCodes x.i8 ≤ x.nextBlock + n then .refuse 0x30A []
        else
          match d.readBlocks x.i8 table n x.nextBlock (x.epoch + 1) with
          | (.error st, _) => .refuse st []
          | (.ok blocks, d) =>
            .ok (d.updLehr fun l => (l.updCorpus c fun x =>
                { x with epoch := x.epoch + 1, blocks := x.blocks ++ blocks, nextBlock := x.nextBlock + n }).settleEpoch c)
              (corpusResponse c (x.epoch + 1) x.nextBlock)

/-! ## Riders and seats (R249, R256) -/

def Lehr.rider? (l : Lehr) (id : Nat) : Option Rider := l.riders.find? fun r => decide (r.id = id)
def Lehr.updRider (l : Lehr) (id : Nat) (g : Rider → Rider) : Lehr :=
  { l with riders := updFirst (fun r => decide (r.id = id)) g l.riders }
def Dev.updRider (d : Dev) (id : Nat) (g : Rider → Rider) : Dev := d.updLehr fun l => l.updRider id g
def Rider.isAboard (r : Rider) : Bool := decide (r.state = .aboard)
def Rider.isWaiting (r : Rider) : Bool := decide (r.state = .waiting)
def Rider.present (r : Rider) : Bool := r.isAboard || r.isWaiting
/-- k′ (R251). -/
def Rider.kPrime (r : Rider) : Nat := (r.k + 15) / 16 * 16
/-- A corpus is active (R247). -/
def Lehr.isActive (l : Lehr) (c : Nat) : Bool := l.riders.any fun r => r.present && decide (r.corpus = c)

/-- The lehr dies, and the least. -/
def Lehr.bases (l : Lehr) : List Nat := [0, 1, 2, 3].filter fun b => l.dies.getLsbD b

/-- The rider is scored against the block of its corpus. -/
def Rider.takes (r : Rider) (c : Nat) (b : CorpusBlock) : Bool :=
  r.isAboard && r.ending.isNone && decide (r.corpus = c) && b.inEpoch r.epoch && !NSet.has r.scored b.number

/-- Blocks that circulate: of the epoch in effect, and retired ones while a rider of an earlier epoch is aboard (R241). -/
def Lehr.circulates (l : Lehr) (x : Corpus) (b : CorpusBlock) : Bool :=
  decide (b.added ≤ x.active) &&
  (match b.retired with
    | none => true
    | some e => decide (x.active < e) || l.riders.any fun r => r.isAboard && decide (r.corpus = x.num) && decide (r.epoch < e))

/-- The circle (R247): the circulating blocks of the active corpora, by corpus and block number. -/
def Lehr.circle (l : Lehr) : List (Nat × CorpusBlock) :=
  ((sortBy (fun (a b : Corpus) => decide (a.num ≤ b.num)) (l.corpora.filter fun x => l.isActive x.num)).map fun x =>
    ((x.blocks.filter (l.circulates x)).map fun b => (x.num, b))).flatten

/-- The end of a rider: its RIDE completes, then the cancels that waited for it (R259). -/
def Dev.endRider (d : Dev) (r : Rider) (st : Code) (result : Nat) : Dev :=
  let d := d.updLehr fun l => { l with riders := l.riders.filter fun v => decide (v.id ≠ r.id), mergeWait := l.mergeWait.erase r.id }
  let d := d.endCmd r.facet r.serial st result
  Dev.forEach r.cancels (fun d c => d.endCmd r.facet c 0 0) d

/-! ## Retiring (R241) -/

/-- Completes a CORPUS_RETIRE, and releases its blocks, once no rider of an earlier epoch is aboard. -/
def Dev.retireCheck (d : Dev) (c : Nat) : Dev :=
  match d.lehr.corpus? c with
  | none => d
  | some x =>
    match x.retiring with
    | none => d
    | some (fn, e) =>
      if decide (x.active < e) || d.lehr.riders.any (fun r => r.isAboard && decide (r.corpus = c) && decide (r.epoch < e)) then d
      else
        (d.updLehr fun l => l.updCorpus c fun x =>
          { x with retiring := none, blocks := x.blocks.filter fun b => match b.retired with
              | none => true
              | some r => decide (e < r) }).mbxFinish fn 0 (leBytes 4 1 ++ leBytes 4 e)

/-- CORPUS_RETIRE, code 0x0302. -/
def execCorpusRetire (fn : Nat) (s : State) : Out :=
  s.run fun d =>
    let d := d.mbxRun fn 0x0302 (ofSender fn) fun d p =>
      let c := bits (leAt p 1 1) 0 4
      let n := leAt p 4 4
      let first := leAt p 8 4
      match d.lehr.corpus? c with
      | none => .refuse 0x303 []
      | some x =>
        let inRun (b : CorpusBlock) : Bool := decide (first ≤ b.number) && decide (b.number < first + n)
        let run := x.blocks.filter inRun
        if n = 0 then .refuse 0x3 []
        else if run.length ≠ n ∨ run.any (fun b => b.retired.isSome) then .refuse 0x30A []
        else
          let e := x.epoch + 1
          .wait (d.updLehr fun l => (l.updCorpus c fun x =>
            { x with epoch := e, retiring := some (fn, e),
                     blocks := updAll inRun (fun b => { b with retired := some e }) x.blocks }).settleEpoch c)
    Dev.forEach (List.range 16) (fun d c => d.retireCheck c) d

/-- CORPUS_DEREGISTER, code 0x0303. -/
def execCorpusDeregister (fn : Nat) (s : State) : Out :=
  s.run fun d => d.mbxRun fn 0x0303 (ofSender fn) fun d p =>
    let c := bits (leAt p 1 1) 0 4
    if (d.lehr.corpus? c).isNone then .refuse 0x303 []
    else if d.lehr.isActive c then .refuse 0x308 []
    else .ok (d.updLehr fun l => { l with corpora := l.corpora.filter fun x => decide (x.num ≠ c),
                                          staged := l.staged.filter fun g => decide (g.corpus ≠ c) }) []

/-! ## Starting and stopping (R244 to R246) -/

/-- LEHR_START, code 0x0304: it completes when its cores are free, their slots evicted and their blocks switched out (R77, R78, R244). -/
def execLehrStart (fn : Nat) (s : State) : Out :=
  s.run fun d => d.mbxRun fn 0x0304 (ofSender fn) fun d p =>
    let dies : BitVec 4 := BitVec.ofNat 4 (leAt p 1 1)
    let held := d.facetsThere.any fun f => (d.facet f).quota.partition && (basesCores dies).any fun c => d.coreOfFacet f c
    if dies = 0 then .refuse 0x3 []
    else if d.lehr.held then .refuse 0x30D []
    else if held then .refuse 0x30C []
    else if d.hbmFree 0 < 128 then .refuse 0x650 []
    else if [0, 1, 2, 3].any (fun b => decide (2097152 < d.storeUsed b + lehrStore dies b)) then .refuse 0x631 []
    else
      let d := d.updLehr fun l => { l with starting := some fn, dies := dies, current := none, groups := [], copies := 0, reported := [] }
      let d := Dev.forEach ((List.range 12).filter fun n => dies.getLsbD (dieBase n)) Dev.wakeDie d
      let d := Dev.forEach (basesCores dies) (fun d c => d.slotLosesCore c) d
      if d.lehrFree then .ok d.lehrTakes [] else .wait (d.standSwitch (basesCores dies))

/-- The lehr gives back its cores, its ring and its root store. -/
def Dev.lehrEnds (d : Dev) : Dev :=
  d.updLehr fun l =>
    { l with running := false, starting := none, dies := 0, current := none, cands := [], staged := [], lost := [], stall := false,
             groups := [], copies := 0, slots := [], tiles := [], reported := [], stopping := none }

/-- LEHR_STOP, code 0x0305. -/
def execLehrStop (fn : Nat) (s : State) : Out :=
  s.run fun d => d.mbxRun fn 0x0305 (ofSender fn) fun d p =>
    let force := bit (leAt p 1 1) 0
    if !d.lehr.running then .ok d []
    else if !force && d.lehr.riders.any Rider.present then .refuse 0x30E []
    else
      let d := Dev.forEach (d.lehr.riders.filter Rider.isWaiting) (fun d r => d.endRider r 0x305 0) d
      if d.lehr.riders.any Rider.isAboard then
        .wait (d.updLehr fun l =>
          { l with stopping := some fn, riders := updAll (fun r => r.isAboard && r.ending.isNone) (fun r => { r with ending := some 0x305 }) l.riders })
      else .ok d.lehrEnds []

/-- CNT_LEHR_STATE (R266). -/
def Lehr.stateWord (l : Lehr) : Nat :=
  boolNat l.running + 2 * l.dies.toNat + 32 * countIf Rider.isAboard l.riders + 65536 * countIf Rider.isWaiting l.riders +
    2 ^ 32 * ((List.range 16).map fun c => if l.isActive c then 2 ^ c else 0).sum

/-- LEHR_STATUS, code 0x0306. -/
def execLehrStatus (fn : Nat) (s : State) : Out :=
  s.run fun d => d.mbxRun fn 0x0306 (ofSender fn) fun d _ =>
    let (c, b) := d.lehr.current.getD (0, 0)
    let epoch := if d.lehr.current.isSome then ((d.lehr.corpus? c).map Corpus.active).getD 0 else 0
    .ok d (leBytes 8 1 ++ leBytes 8 d.lehr.stateWord ++ leBytes 4 c ++ leBytes 4 b ++ leBytes 4 epoch ++ leBytes 4 0)

/-! ## Scoring (R234 to R237, R248 to R252, R264) -/

/-- KEY of a code for a query (R234). -/
def lehrKey (i8 : Bool) (code query : List Byte) : Nat :=
  if i8 then
    (0x400000 - ((code.zip query).map fun e => signed e.1.toNat 8 * signed e.2.toNat 8).sum).toNat
  else ((code.zip query).map fun e => popcount (e.1 ^^^ e.2).toNat 8).sum

/-- The predicate of R237 on an attribute word. -/
def Rider.passes (r : Rider) (w : Nat) : Bool :=
  let date := bits w 0 20
  let kind := bits w 20 4
  let cls : BitVec 32 := BitVec.ofNat 32 (bits w 24 32)
  !bit w 63 &&
    (decide (r.cutoff = 0xFFFFF) ||
      (decide (date ≠ 0xFFFFF) && (if r.dateIncl then decide (date ≤ r.cutoff.toNat) else decide (date < r.cutoff.toNat)))) &&
    r.kindMask.getLsbD kind && (decide (r.classAny = 0) || decide (cls &&& r.classAny ≠ 0)) && decide (cls &&& r.classNone = 0)

/-- Lehr rows (R249): rows of lehr dies with eight matrix cores that are not retired. -/
def Dev.lehrRows (d : Dev) : List Nat :=
  (List.range 96).filter fun r => d.lehr.dies.getLsbD (r / 24) && !d.dieResets (r / 8) && (kindCores false r).all fun c => !d.coreRetired c
/-- A base die's vector cores that are not retired, in logical order: V_b is their number (R251). -/
def Dev.lehrVectors (d : Dev) (base : Nat) : List Nat :=
  allCores.filter fun c => coreIsVector c && decide (coreBase c = base) && !d.coreRetired c
/-- The vector core of a seat on a base die (R251). -/
def Dev.listCore (d : Dev) (base seat : Nat) : Nat :=
  let cs := d.lehrVectors base
  cs.getD (seat % cs.length) 1024

/-- Every partial list of the riders aboard stands in its vector core, which a retirement may have changed (R251, R439 step 3). -/
def Dev.placeLists (d : Dev) : Dev :=
  let place (r : Rider) : Rider := { r with lists := r.lists.map fun p => { p with core := d.listCore p.die r.seat } }
  d.updLehr fun l => { l with riders := updAll Rider.isAboard place l.riders }

def Rider.list (r : Rider) (die : Nat) : List Nat := ((r.lists.find? fun p => decide (p.die = die)).map PartialList.entries).getD []
def Rider.updList (r : Rider) (die : Nat) (g : PartialList → PartialList) : Rider :=
  { r with lists := updFirst (fun p => decide (p.die = die)) g r.lists }

/-- A lehr instruction on a core (source 2 matrix, 3 vector): a mismatch re-executes it once, is counted and charged; the answer is the rows
whose check fails again (R115, R263, R423). -/
def Dev.lehrUnit (d : Dev) (core source : Nat) : List Nat × Dev :=
  match d.strikes.lehr.find? fun e => decide (e.1 = core) with
  | none => ([], d)
  | some e =>
    let d := { d with strikes := { d.strikes with lehr := eraseFirst (fun v => decide (v.1 = core)) d.strikes.lehr } }
    (e.2, d.workUnit core 0 source true (!e.2.isEmpty))

/-- Reads of the lehr (R248): corpus stream traffic of the manager's addresses. -/
def Dev.lehrRead (d : Dev) (va n : Nat) : ReadResult × Dev := d.vread agentLehr 0 true (some 3) va n

/-- The code bytes of a block line by line, and the numbers of its poisoned lines. -/
def Dev.readCodes (d : Dev) (i8 : Bool) (b : CorpusBlock) : (List Byte × NSet) × Dev :=
  (lineChunks b.code (b.count * codeBytes i8)).foldl (fun acc c =>
    let (r, d) := acc.2.lehrRead c.1 c.2
    ((acc.1.1 ++ r.bytes, if r.poison || !r.ok then NSet.add acc.1.2 ((c.1 - b.code) / 128) else acc.1.2), d)) (([], []), d)

/-- A code's lines are poisoned. -/
def codeLost (i8 : Bool) (bad : NSet) (p : Nat) : Bool :=
  if i8 then NSet.has bad (2 * p) || NSet.has bad (2 * p + 1) else NSet.has bad (p / 2)

/-- Counts a rider's unscored codes. -/
def Dev.unscored (d : Dev) (id n : Nat) : Dev :=
  match d.lehr.rider? id with
  | none => d
  | some r => if n = 0 then d else (d.updRider id fun r => { r with unscored := r.unscored + n }).countF r.facet 0x604030 n

/-- The threshold of a rider on a die (R250). -/
def Rider.threshold (r : Rider) (die : Nat) : Nat :=
  let l := r.list die
  if l.length < r.kPrime then 0xFFFFFFFF else (l.getLast?.getD 0) / 2 ^ 40

/-- Peak share of a stack that its throttle admits (R204). -/
def Stack.share (x : Stack) : Rat := (4 - x.throttle.toNat : Nat) / 4
/-- Gb/s a pin of a stack's rate code (R187, R188). -/
def Stack.pinRate (x : Stack) : Rat := ([(64 : Rat) / 10, 8, (96 : Rat) / 10, 10]).getD x.rate.toNat 10

/-- HBM streaming reads in bytes a nanosecond: twelve times the slowest stack's (R200). -/
def Dev.streamRate (d : Dev) : Rat :=
  ((List.range 12).map fun n => (d.stack n).pinRate * (d.stack n).share).foldl min 10 / 10 * 28260

/-- Beats a nanosecond of the slowest of some compute dies (R393). -/
def Dev.beatRate (d : Dev) (dies : List Nat) : Rat := (dies.map fun n => (d.die n).ceiling).foldl min 1500000000 / 1000000000

/-- The limits of R253, at the beat rates and the throttles that stand: the candidates set the block's time. -/
def Dev.candidateBound (d : Dev) (i8 far : Bool) (count : Nat) (cands : List (Nat × Nat × Nat)) : Bool :=
  let total := cands.length
  let memory : Rat := if far then ((count * codeBytes i8 : Nat) : Rat) / 200 else ((count * codeBytes i8 + 128 * total : Nat) : Rat) / d.streamRate
  let scored : Rat := (d.lehrRows.length * d.lehr.copies : Nat) * (if i8 then (1 : Rat) / 4 else 4) * d.beatRate (d.lehrRows.map (· / 8))
  let matrix : Rat := if scored = 0 then 0 else (count : Rat) / scored
  d.lehr.bases.any fun b =>
    let mine := countIf (fun e => decide (e.2.1 = b)) cands
    let cores := d.lehrVectors b
    let rate : Rat := (cores.length : Rat) * (1 / 4 : Rat) * d.beatRate (cores.map coreDie)
    let t : Rat := if rate = 0 then 0 else (mine : Rat) / rate
    decide (memory < t) && decide (matrix < t)

/-- The matrix slots of the lehr rows for the block that starts: each group's copies, with the query codes and thresholds of its seats
(R249). A moved group's rows are written anew. -/
def Lehr.placeSeats (l : Lehr) : Lehr :=
  let seats (g : Nat) : List SeatRow := (l.riders.filter fun r => r.isAboard && decide (r.seat / 128 = g)).map fun r =>
    { seat := r.seat, query := r.query, thresholds := r.thresholds }
  { l with slots := (((List.range l.groups.length).zip l.groups).map fun e =>
      (List.range l.copies).map fun c => { slot := l.copies * e.1 + c, group := e.2, copy := c, seats := seats e.2 }).flatten }

/-- A block is cut into code tiles (R248): tile n of the circulation goes to lehr row n mod N_rows and copy (n div N_rows) mod f, multicast to
the cores of that copy's slots (R249). `first` is the circulation's number of the block's first tile. -/
def Dev.codeTiles (d : Dev) (i8 : Bool) (count first : Nat) (codes : List Byte) (bad : NSet) : List CodeTile :=
  let rows := d.lehrRows
  (List.range ((count + 127) / 128)).map fun t =>
    let n := min 128 (count - 128 * t)
    let row := rows.getD ((first + t) % rows.length) (24 * d.lehr.bases.headD 0)
    let copy := (first + t) / rows.length % d.lehr.copies
    let code (i : Nat) : List Byte := (codes.drop (codeBytes i8 * (128 * t + i))).take (codeBytes i8)
    let low (i : Nat) : List Byte := if i8 then (code i).take 128 else code i ++ List.replicate 64 0
    { first := 128 * t, count := n, row := row, copy := copy,
      cores := (d.lehr.slots.filter fun s => decide (s.copy = copy)).map fun s => (kindCores false row).getD s.slot 0,
      low := ((List.range n).map low).flatten, high := if i8 then ((List.range n).map fun i => (code i).drop 128).flatten else [],
      poison := (List.range n).filter fun i => codeLost i8 bad (128 * t + i) }

/-- The code in a row of a tile or a tile pair. -/
def CodeTile.code (t : CodeTile) (i8 : Bool) (i : Nat) : List Byte :=
  if i8 then (t.low.drop (128 * i)).take 128 ++ (t.high.drop (128 * i)).take 128 else (t.low.drop (128 * i)).take 64

/-- A seat's query is scored against a tile on a core: the entries whose KEY is at or below its threshold are candidates (R250); the rows in
`fails` are unscored, as are poisoned ones. -/
def Dev.scoreSeat (d : Dev) (i8 : Bool) (base : Nat) (t : CodeTile) (fails : List Nat) (r : Rider) (seat : SeatRow) : Dev :=
  let lost (i : Nat) : Bool := NSet.has t.poison i || fails.contains i
  let die := t.row / 24
  let new := (List.range t.count).filterMap fun i =>
    if lost i then none
    else
      let key := lehrKey i8 (t.code i8 i) seat.query
      if key ≤ Tab.get 0 seat.thresholds die then some (r.id, die, key * 2 ^ 40 + (base + t.first + i)) else none
  let d := (d.unscored r.id (countIf lost (List.range t.count))).updLehr fun l => { l with cands := l.cands ++ new }
  (d.updRider r.id fun r => { r with candidates := r.candidates + new.length }).countF r.facet 0x604020 new.length

/-- A tile is scored in every slot of its copy. -/
def Dev.scoreTile (d : Dev) (i8 : Bool) (c : Nat) (b : CorpusBlock) (t : CodeTile) : Dev :=
  Dev.forEach (d.lehr.slots.filter fun s => decide (s.copy = t.copy)) (fun d s =>
    let (fails, d) := d.lehrUnit ((kindCores false t.row).getD s.slot 0) 2
    Dev.forEach s.seats (fun d seat =>
      match d.lehr.riders.find? fun r => r.takes c b && decide (r.seat = seat.seat) with
      | none => d
      | some r => d.scoreSeat i8 (b.number * blockCodes i8) t fails r seat) d) d

/-- A block starts (R248 to R250, R256): thresholds are fixed, its codes are read, cut into tiles and scored, and the candidates go on their
way to the vector cores. -/
def Dev.startBlock (d : Dev) (c : Nat) (b : CorpusBlock) : Dev :=
  match d.lehr.corpus? c with
  | none => d
  | some x =>
    let circle := d.lehr.circle
    let first := ((circle.find? fun e => decide (e.1 = c)).map fun e => decide (e.2.number = b.number)).getD false
    let before := ((circle.takeWhile fun e => !(decide (e.1 = c) && decide (e.2.number = b.number))).map fun e => (e.2.count + 127) / 128).sum
    let promote (r : Rider) : Rider := { r with starts := r.starts + 1, promoted := r.promoted || decide (2 ≤ r.starts + 1) }
    let d := d.updLehr fun l => Lehr.placeSeats
      { l with current := some (c, b.number), lost := [],
               riders := l.riders.map fun r =>
                 if r.isWaiting && first && decide (r.corpus = c) then promote r
                 else if r.isAboard then { r with thresholds := l.bases.foldl (fun t die => Tab.set 0 t die (r.threshold die)) [] }
                 else r }
    let ((codes, bad), d) := match d.lehr.staged.find? fun g => decide (g.corpus = c) && decide (g.block = b.number) with
      | some g => ((g.bytes, g.bad), d)
      | none => d.readCodes x.i8 b
    let tiles := d.codeTiles x.i8 b.count before codes bad
    let d := d.updLehr fun l => { l with tiles := tiles, lost := (List.range b.count).filter fun p => codeLost x.i8 bad p }
    let d := Dev.forEach tiles (fun d t => d.scoreTile x.i8 c b t) d
    d.updLehr fun l => { l with stall := d.candidateBound x.i8 b.far b.count l.cands }

/-- A vector core takes a candidate (R251): attribute word, predicate, merge; a merge whose check fails again poisons the list (R423). -/
def Dev.takeCandidate (d : Dev) (cand : Nat × Nat × Nat) : Dev :=
  let (id, die, entry) := cand
  let d := d.updLehr fun l => { l with cands := eraseFirst (fun e => decide (e = cand)) l.cands }
  match d.lehr.rider? id with
  | none => d
  | some r =>
    match d.lehr.corpus? r.corpus with
    | none => d
    | some x =>
      let index := entry % 2 ^ 40
      let p := index % blockCodes x.i8
      match x.block? (index / blockCodes x.i8) with
      | none => d
      | some b =>
        let (line, d) := d.lehrRead (b.attr + alignDown (8 * p) 128) 128
        let (fails, d) := d.lehrUnit (d.listCore die r.seat) 3
        if line.poison || !line.ok then (d.unscored id 1).updLehr fun l => { l with lost := NSet.add l.lost p }
        else if !r.passes (leAt line.bytes (8 * p % 128) 8) then d
        else d.updRider id fun r => r.updList die fun v =>
          { v with entries := (insertBy (fun a b => decide (a ≤ b)) entry v.entries).take r.kPrime, poison := v.poison || !fails.isEmpty }

/-- CANDIDATE_MERGE: the oldest candidate of a seat on a die. -/
def execCandidateMerge (seat die : Nat) (s : State) : Out :=
  s.run fun d =>
    match d.lehr.riders.find? fun r => r.isAboard && decide (r.seat = seat) with
    | none => d
    | some r =>
      match d.lehr.cands.find? fun e => decide (e.1 = r.id) && decide (e.2.1 = die) with
      | none => d
      | some e => d.takeCandidate e

/-! ## Block boundaries (R247, R249, R256, R258) -/

/-- The block being swept ends: the last candidates are taken, its riders have been scored against it, and a poisoned block is
reported once in a circulation (R264). -/
def Dev.endBlock (d : Dev) : Dev :=
  match d.lehr.current with
  | none => d
  | some (c, n) =>
    let d := Dev.forEach d.lehr.cands (fun d e => d.takeCandidate e) d
    let d := match (d.lehr.corpus? c).bind fun x => x.block? n with
      | none => d
      | some b => d.updLehr fun l =>
          { l with riders := updAll (fun r => r.takes c b) (fun r => { r with scored := NSet.add r.scored n }) l.riders }
    let lost := d.lehr.lost
    let told := lost.isEmpty || d.lehr.reported.contains (c, n)
    let d := if told then d else d.glint 0 0x301 n c lost.length
    let d := d.count 0x604008 1
    let d := if d.lehr.stall then d.count 0x604028 1 else d
    d.updLehr fun l =>
      { l with tiles := [], reported := if told then l.reported else l.reported ++ [(c, n)], lost := [], stall := false,
               staged := l.staged.filter fun g => !(decide (g.corpus = c) && decide (g.block = n)) }

/-- A rider has been scored against every block of its epoch. -/
def Lehr.finished (l : Lehr) (r : Rider) : Bool :=
  match l.corpus? r.corpus with
  | none => true
  | some x => x.blocks.all fun b => !b.inEpoch r.epoch || NSet.has r.scored b.number

/-- The groups 448 to 495 in use by leaving riders. -/
def Lehr.busyGroups (l : Lehr) : List Nat := l.riders.filterMap Rider.group

/-- A list of k′ entries as it stands in memory. -/
def entryBytes (k' : Nat) (l : List Nat) : List Byte := ((l ++ List.replicate (k' - l.length) emptyEntry).map (leBytes 8)).flatten

/-- A rider's merge takes a group (R258): top-k merge, one contributor a lehr die, P = 8k′, its root on the die that holds the group's
reservation (R244); no facet's window leads to it. Log 47, DEDUCED. -/
def Dev.openMerge (d : Dev) (r : Rider) (num : Nat) : Dev :=
  let n := r.lists.length
  let dies := r.lists.map PartialList.die
  let g : RedGroup :=
    { num := num, facet := r.facet, op := 3, n := n, payload := 8 * r.kPrime, window := 2 ^ 64, dest := r.resultVa + 128, done := 0,
      root := dies.getD ((num - 448) / (48 / n)) 0, reserved := 0, rounds := 0, nodes := [], filled := [], overrun := false, poisoned := false,
      doneOwed := none, phaseRounds := 0, intervals := [], lags := [], dies := [] }
  { d with groups := d.groups ++ [g] }.updRider r.id fun r => { r with group := some num }

/-- A rider that leaves begins its merge: on one lehr die at once, otherwise in a group, or waiting for one (R258). -/
def Dev.beginLeave (d : Dev) (r : Rider) : Dev :=
  let merged := sortBy (fun a b => decide (a ≤ b)) ((r.lists.map PartialList.entries).flatten)
  let d := d.updRider r.id fun r => { r with state := .merging, result := merged.take r.kPrime, poisoned := r.lists.any PartialList.poison }
  if r.lists.length < 2 then d
  else match (List.range 48).map (448 + ·) |>.find? fun g => !d.lehr.busyGroups.contains g with
    | some g => d.openMerge r g
    | none => d.updLehr fun l => { l with mergeWait := l.mergeWait ++ [r.id] }

/-- Riders leave, in seat order (R258, R259). -/
def Dev.leave (d : Dev) : Dev :=
  Dev.forEach (sortBy (fun (a b : Rider) => decide (a.seat ≤ b.seat)) (d.lehr.riders.filter Rider.isAboard)) (fun d r =>
    match r.ending with
    | some st => d.endRider r st 0
    | none => if d.lehr.finished r then d.beginLeave r else d) d

/-- The queue's order (R256): effective class, then acceptance. Log 47, DEDUCED. -/
def Rider.boardKey (r : Rider) : Nat := (if r.promoted then 0 else r.cls) * 2 ^ 64 + r.accepted

/-- The head of the queue boards the lowest free seat, until the queue or the seats run out. Log 47, DEDUCED. -/
def Lehr.board (l : Lehr) : Nat → Lehr × Nat
  | 0 => (l, 0)
  | fuel + 1 =>
    match leastBy Rider.boardKey (l.riders.filter Rider.isWaiting),
        (List.range 1024).find? (fun s => !l.riders.any fun r => r.isAboard && decide (r.seat = s)) with
    | some r, some seat =>
      let epoch := ((l.corpus? r.corpus).map Corpus.active).getD 1
      let lists := l.bases.map fun die => { die := die, core := 0, entries := [], poison := false }
      let (l, n) := (l.updRider r.id fun r => { r with state := .aboard, seat := seat, epoch := epoch, scored := [], lists := lists, thresholds := [] }).board fuel
      (l, n + 1)
    | _, _ => (l, 0)

/-- The occupied rider groups and f (R249). -/
def Lehr.fixGroups (l : Lehr) : Lehr :=
  let groups := (List.range 8).filter fun g => l.riders.any fun r => r.isAboard && decide (r.seat / 128 = g)
  { l with groups := groups, copies := if groups.isEmpty then 0 else 8 / groups.length }

/-- A block of the circle comes after the one being swept. -/
def afterBlock (now : Nat × Nat) (e : Nat × CorpusBlock) : Bool := decide (now.1 < e.1) || (decide (now.1 = e.1) && decide (now.2 < e.2.number))

/-- The successor of a block in the circle; the answer's flag tells that a circulation ends. -/
def Lehr.successor (l : Lehr) (now : Option (Nat × Nat)) : Option ((Nat × CorpusBlock) × Bool) :=
  let circle := l.circle
  match now with
  | none => circle.head?.map fun e => (e, false)
  | some (c, n) =>
    match circle.find? (afterBlock (c, n)) with
    | some e => some (e, false)
    | none => circle.head?.map fun e => (e, true)

/-- A block boundary: the next block, and the lehr as it stands before that block starts. A pass ends with the last block of the circle, also
where the circle is empty then (R247, R266). -/
def Dev.boundary (d : Dev) : Option (Nat × CorpusBlock) × Dev :=
  let now := d.lehr.current
  let last := match now with
    | none => false
    | some n => !d.lehr.circle.any (afterBlock n)
  let d := d.endBlock
  let d := d.updLehr fun l => { l with corpora := l.corpora.map fun x => { x with active := x.epoch } }
  let d := d.leave
  let d := Dev.forEach (List.range 16) (fun d c => d.retireCheck c) d
  match d.lehr.stopping with
  | some fn => (none, (d.lehrEnds).mbxFinish fn 0 [])
  | none =>
    let (l, n) := d.lehr.board d.lehr.riders.length
    let d := ({ d with lehr := l.fixGroups } : Dev).placeLists
    let d := d.count 0x604018 n
    match d.lehr.successor now with
    | none =>
      let d := if last then d.count 0x604010 1 else d
      (none, d.updLehr fun l => { l with current := none, slots := [], reported := [] })
    | some (e, wraps) =>
      let d := if wraps then (d.count 0x604010 1).updLehr fun l => { l with reported := [] } else d
      (some e, d)

/-- A far block stands in the staging ring. -/
def Lehr.isStaged (l : Lehr) (c n : Nat) : Bool := l.staged.any fun g => decide (g.corpus = c) && decide (g.block = n)

/-- BLOCK_BOUNDARY: a lehr that starts and whose cores are free runs; else the streamer finishes a block and starts the next, which waits for staging where it is a far block. -/
def execBlockBoundary (s : State) : Out :=
  s.run fun d =>
    if !d.lehr.running then d.lehrReady
    else
      match d.boundary with
      | (none, e) => e
      | (some (c, b), e) => if b.far && !e.lehr.isStaged c b.number then d else e.startBlock c b

/-- The far block to stage next: the one that the next boundary starts, else one of the 16 blocks ahead in the circle. Log 47, DEDUCED. -/
def Dev.stageNext (d : Dev) : Option (Nat × CorpusBlock) :=
  let circle := d.lehr.circle
  let after := match d.lehr.current with
    | none => circle
    | some n => circle.filter (afterBlock n) ++ circle.filter fun e => !afterBlock n e
  ((d.boundary.1).toList ++ after.take 16).find? fun e => e.2.far && !d.lehr.isStaged e.1 e.2.number

/-- FAR_BLOCK_STAGED (R248). -/
def execFarBlockStaged (s : State) : Out :=
  s.run fun d =>
    if !d.lehr.running then d
    else
      match d.stageNext with
      | none => d
      | some (c, b) =>
        match d.lehr.corpus? c with
        | none => d
        | some x =>
          let ((bs, bad), d) := d.readCodes x.i8 b
          d.updLehr fun l => { l with staged := l.staged ++ [{ corpus := c, block := b.number, bytes := bs, bad := bad }] }

/-! ## Results, rerank and hand-off (R258, R260, R262) -/

/-- COUNT of a result. -/
def Rider.count (r : Rider) : Nat := min r.k r.result.length

/-- The status of a RIDE that rode to its end (R430). -/
def Rider.status (r : Rider) : Code := if r.poisoned then 0x680 else 0

/-- The result header (R258). -/
def Rider.header (r : Rider) : List Byte :=
  [1, BitVec.ofNat 8 (boolNat (decide (r.unscored ≠ 0)) + 2 * boolNat r.poisoned)] ++ leBytes 2 r.count ++ leBytes 4 r.epoch ++ leBytes 4 r.scored.length ++
    leBytes 4 r.unscored ++ leBytes 8 r.candidates ++ leBytes 104 0

/-- A group is free again: the next waiting rider takes it. -/
def Dev.passGroup (d : Dev) (num : Nat) : Dev :=
  let d := d.closeGroup num
  match d.lehr.mergeWait.filterMap d.lehr.rider? with
  | [] => d
  | r :: _ => (d.openMerge r num).updLehr fun l => { l with mergeWait := l.mergeWait.erase r.id }

/-- The lists of a rider are contributed to its group, the nodes that wait for a lost sibling go on, and the root writes the lines; the answer
tells whether one is poisoned (R178, R181, R258). -/
def Dev.mergeLists (d : Dev) (r : Rider) (num : Nat) : Bool × Dev :=
  let d := Dev.forEach ((List.range r.lists.length).zip r.lists) (fun d e =>
    let bytes := entryBytes r.kPrime e.2.entries
    Dev.forEach (List.range (r.kPrime / 16)) (fun d l =>
      d.contribute num e.1 l ((bytes.drop (128 * l)).take 128) e.2.poison e.2.core) d) d
  let d := Dev.redFlush num 64 d
  let owed (d : Dev) : Option Bool := (d.group? num).bind fun g => g.doneOwed.map Prod.fst
  let d := if (owed d).isSome then d else d.forceRound num
  ((owed d).getD true, d.count 0x602180 1)

/-- RIDER_RESULT_MERGED: the list and its header are written; the RIDE completes or its gather runs. -/
def execRiderResultMerged (rider : Nat) (s : State) : Out :=
  s.run fun d =>
    match d.lehr.rider? rider with
    | none => d
    | some r =>
      if r.state ≠ .merging ∨ d.lehr.mergeWait.contains rider = true then d
      else
        let mapped := d.deviceRange r.facet r.resultVa (128 + 8 * r.kPrime) true
        let d := match r.group with
          | none =>
            if mapped then
              (d.vwrite agentLehr r.facet true (some 3) (r.resultVa + 128) (entryBytes r.kPrime r.result) r.poisoned).2
            else d
          | some g =>
            let (poisoned, d) := if mapped then d.mergeLists r g else (r.poisoned, d)
            (d.updRider rider fun r => { r with group := none, poisoned := poisoned }).passGroup g
        if !mapped then d.endRider r 0x30B 0
        else
          let r := (d.lehr.rider? rider).getD r
          let d := d.gwrite r.facet r.resultVa r.header
          if r.rerank then d.updRider rider fun r => { r with state := .gathering } else d.endRider r r.status r.count

/-- One record of the gather (R260): the entry, and its dot product where there is a vector. -/
def Dev.gatherEntry (d : Dev) (r : Rider) (query : Option (List Byte)) (entry : Nat) : (Nat × Option Int) × Dev :=
  let index := entry % 2 ^ 40
  match query, d.lehr.corpus? r.corpus with
  | some q, some x =>
    match x.block? (index / blockCodes x.i8) with
    | none => ((entry, none), d)
    | some b =>
      if b.rerank = 0 then ((entry, none), d)
      else
        let (v, d) := d.lehrRead (b.rerank + 1024 * (index % blockCodes x.i8)) 1024
        if v.poison || !v.ok then ((entry, none), d)
        else ((entry, some (((v.bytes.zip q).map fun e => signed e.1.toNat 8 * signed e.2.toNat 8).sum)), d)
  | _, _ => ((entry, none), d)

def gatherRecord (e : Nat × Option Int) : List Byte :=
  leBytes 8 e.1 ++ leBytes 4 ((e.2.map fun v => (v % 4294967296).toNat).getD 0) ++ leBytes 4 (boolNat e.2.isNone)

/-- By DOT descending, then INDEX ascending. -/
def gatherBefore (a b : Nat × Option Int) : Bool :=
  let x := a.2.getD 0
  let y := b.2.getD 0
  decide (y < x) || (decide (x = y) && decide (a.1 % 2 ^ 40 ≤ b.1 % 2 ^ 40))

/-- Offers a rerank result to a session (R262, R283). -/
def Dev.handOff (d : Dev) (r : Rider) : Option Dev :=
  match d.sessionOf r.facet r.session.toNat with
  | none => none
  | some x =>
    if 4 ≤ x.shortlists.length ∨ x.closing.isSome then none
    else some (((d.updSession x.num fun s => { s with shortlists := s.shortlists ++ [(r.rerankVa, r.count)] }).sessionActive x.num).queueRestore x)

/-- RERANK_GATHER_DONE. -/
def execRerankGatherDone (rider : Nat) (s : State) : Out :=
  s.run fun d =>
    match d.lehr.rider? rider with
    | none => d
    | some r =>
      if r.state ≠ .gathering then d
      else
        let (q, d) := d.vread agentLehr r.facet true (some 3) r.fullqVa 1024
        let query := if q.ok && !q.poison then some q.bytes else none
        let (recs, d) := (r.result.take r.count).foldl (fun (acc : List (Nat × Option Int) × Dev) e =>
          let (v, d) := acc.2.gatherEntry r query e
          (acc.1 ++ [v], d)) ([], d)
        let with_ := sortBy gatherBefore (recs.filter fun e => e.2.isSome)
        let without := recs.filter fun e => e.2.isNone
        let head := [1, 0] ++ leBytes 2 recs.length ++ leBytes 2 without.length ++ leBytes 122 0
        let d := (d.vwrite agentLehr r.facet true (some 3) r.rerankVa (head ++ ((with_ ++ without).map gatherRecord).flatten) false).2
        let d := d.count 0x604038 1
        if !r.handoff then d.endRider r r.status r.count
        else
          match d.handOff r with
          | some d => d.endRider r r.status r.count
          | none => d.endRider r 0x307 r.count

/-! ## RIDE and RIDE_CANCEL (R254, R255, R259) -/

def Dev.ridersOf (d : Dev) (f : Nat) : Nat := countIf (fun r => r.present && decide (r.facet = f)) d.lehr.riders

/-- The rider of a descriptor. -/
def riderOf (f : Nat) (c : Cmd) (id accepted cls : Nat) (bs query : List Byte) : Rider :=
  let flags := leAt bs 10 1
  { id := id, facet := f, serial := c.serial, corpus := bits (leAt bs 1 1) 0 4, cls := max (bits (leAt bs 1 1) 4 2) cls,
    k := bits (leAt bs 2 2) 0 13, dateIncl := bit (leAt bs 1 1) 6, cutoff := BitVec.ofNat 20 (leAt bs 4 4),
    kindMask := BitVec.ofNat 16 (leAt bs 8 2), classAny := BitVec.ofNat 32 (leAt bs 12 4), classNone := BitVec.ofNat 32 (leAt bs 16 4),
    rerank := bit flags 0, handoff := bit flags 1, session := BitVec.ofNat 32 (leAt bs 20 4), resultVa := leAt bs 24 8,
    rerankVa := leAt bs 32 8, fullqVa := leAt bs 40 8, query := query, state := .waiting, accepted := accepted, starts := 0,
    promoted := false, seat := 0, epoch := 0, scored := [], lists := [], thresholds := [], candidates := 0, unscored := 0,
    ending := none, cancels := [], result := [], poisoned := false, group := none }

/-- Its fields are in range and its areas mapped as R254 asks. -/
def Dev.riderOk (d : Dev) (r : Rider) : Bool :=
  decide (1 ≤ r.k) && decide (r.k ≤ 4096) && (r.rerank || !r.handoff) && decide (r.resultVa % 128 = 0) &&
    d.deviceRange r.facet r.resultVa (128 + 8 * r.kPrime) true &&
    (!r.rerank || (decide (r.rerankVa % 128 = 0) && d.deviceRange r.facet r.rerankVa (128 + 16 * r.k) true &&
      d.deviceRange r.facet r.fullqVa 1024 true))

def startRide (d : Dev) (f : Nat) (c : Cmd) : Started :=
  if !d.lehr.running || d.lehr.stopping.isSome then .refused 0x302
  else
    match c.copied with
    | none => .refused 0x3
    | some bs =>
      if leAt bs 0 1 ≠ 1 then .refused 0x2
      else match d.lehr.corpus? (bits (leAt bs 1 1) 0 4) with
      | none => .refused 0x303
      | some x =>
        if !x.access.getLsbD f then .refused 0x303
        else
          let rider := riderOf f c d.lehr.nextRider d.nextAccept (d.facet f).quota.maxClass (bs.take 64) ((bs.drop 64).take (codeBytes x.i8))
          if bs.length < 64 + codeBytes x.i8 ∨ d.riderOk rider = false then .refused 0x3
          else if (d.facet f).quota.riders ≤ d.ridersOf f then .refused 0x304
          else if 4096 ≤ countIf Rider.isWaiting d.lehr.riders then .refused 0x301
          else
            .running (({ d with nextAccept := d.nextAccept + 1 } : Dev).updLehr fun l =>
              { l with riders := l.riders ++ [rider], nextRider := l.nextRider + 1 })

def execRide (fn w : Nat) (s : State) : Out := s.run fun d => d.takeRecord fn w (fun t => decide (t = 4)) startRide

def startRideCancel (d : Dev) (f : Nat) (c : Cmd) : Started :=
  match (d.facet f).target c 4 with
  | none => .refused 0x103
  | some t =>
    match d.lehr.riders.find? fun r => r.present && decide (r.facet = f) && decide (r.serial = t.serial) with
    | none => .refused 0x306
    | some r =>
      if r.isWaiting then .ended (d.endRider r 0x305 0) 0 0
      else .running (d.updRider r.id fun r => { r with ending := some (r.ending.getD 0x305), cancels := r.cancels ++ [c.serial] })

def execRideCancel (fn w : Nat) (s : State) : Out := s.run fun d => d.takeRecord fn w (fun t => decide (t = 5)) startRideCancel

end Sys2Proof.Machine
end

