-- ==== Sys2Proof/Machine/Serving.lean ====
section
/-! DEFINITION. Serving: sessions (R268 to R273), models and the hot set (R274 to R282), GENERATE and the steps of a batch (R283 to R287). -/

namespace Sys2Proof.Machine

/-! ## Sessions (R268 to R273) -/

/-- A number from a free value among candidates: the manual leaves the choice to the gaffer. -/
def Dev.choose (d : Dev) (cands : List Nat) : Nat × Dev :=
  let (v, d) := d.fresh
  ((cands[v.toNat % cands.length]?).getD 0, d)

/-- Opens a session of a model on a free number, resident; one that is IDLE is spilled where the table is full. Log 48, DEDUCED. -/
def Dev.openSession (d : Dev) (f model cls : Nat) : Nat × Dev :=
  let d := if d.residentSessions < 4096 then d else match d.spillVictim with
    | some v => d.spill v.num
    | none => d
  let (num, d) := d.choose ((List.range 65536).filter fun n => (d.session? n).isNone)
  let s : Session :=
    { num := num, gen := Tab.get 0 d.serving.gens num, facet := f, model := model, cls := cls, spilled := false, activity := 0, seqs := [],
      shortlists := [], closing := none }
  (s.id, d.updServing fun v => { v with sessions := v.sessions ++ [s] })

/-- The model entry and the reference that a facet's handle names (R275). -/
def Dev.modelOf (d : Dev) (f handle : Nat) : Option (Model × ModelRef) :=
  d.serving.models.findSome? fun m =>
    (m.refs.find? fun r => decide (r.facet = f) && decide (r.handle.toNat = handle)).map fun r => (m, r)

/-- SESSION_OPEN, code 0x0100. -/
def execSessionOpen (fn : Nat) (s : State) : Out :=
  s.run fun d => d.mbxRun fn 0x0100 (ofSender fn) fun d p =>
    let x := d.facet fn
    if x.quota.sessions ≤ d.openSessions fn ∨ 65536 ≤ d.serving.sessions.length then .refuse 0x123 []
    else
      match d.modelOf fn (leAt p 4 4) with
      | none => .refuse 0x403 []
      | some (m, _) =>
        if 4096 ≤ d.residentSessions ∧ d.spillVictim = none then .refuse 0x120 []
        else
          let (id, d) := d.openSession fn m.num (max (bits (leAt p 1 1) 0 2) x.quota.maxClass)
          .ok d (leBytes 4 1 ++ leBytes 4 id)

/-- SESSION_CLOSE, code 0x0101: with FORCE and a joined sequence it completes at the step boundary. -/
def execSessionClose (fn : Nat) (s : State) : Out :=
  s.run fun d => d.mbxRun fn 0x0101 (ofSender fn) fun d p =>
    match d.sessionOf fn (leAt p 4 4) with
    | none => .refuse 0x121 []
    | some x =>
      if !x.quiet && !bit (leAt p 1 1) 0 then .refuse 0x122 []
      else
        let (closed, d) := d.closeSession x.num (some fn)
        if closed then .ok d [] else .wait d

/-- The state code of R272. -/
def Session.state (s : Session) : Nat := if s.spilled then 2 else if s.quiet then 0 else 1

/-- SESSION_STATUS, code 0x0102. -/
def execSessionStatus (fn : Nat) (s : State) : Out :=
  s.run fun d => d.mbxRun fn 0x0102 (ofSender fn) fun d p =>
    match d.sessionOf fn (leAt p 4 4) with
    | none => .refuse 0x121 []
    | some x => .ok d (leBytes 1 1 ++ leBytes 1 x.state ++ leBytes 1 x.pending ++ leBytes 1 x.shortlists.length ++ leBytes 4 0 ++
        leBytes 8 x.activity)

/-- SESSION_RESTORE: the head of the restore queue comes back; an IDLE session is spilled where the table is full. -/
def Dev.sessionRestore (d : Dev) : Dev :=
  match d.serving.restoreQ with
  | [] => d
  | n :: rest =>
    let back (d : Dev) : Dev := ((d.updServing fun v => { v with restoreQ := rest }).updSession n fun s => { s with spilled := false }).count 0x605020 1
    if d.residentSessions < 4096 then back d
    else match d.spillVictim with
      | none => d
      | some v => back (d.spill v.num)

def execSessionRestore (s : State) : Out := s.run Dev.sessionRestore

/-! ## Models (R274 to R276, R434, R437) -/

/-- The bytes of a golden source, where all of them read without poison. -/
def Dev.readSource (d : Dev) (src : Source) (n : Nat) : Option (List Byte) × Dev :=
  if src.tier = 2 then
    let (r, d) := (lineChunks src.addr n).foldl (fun (acc : (List Byte × Bool) × Dev) c =>
      let (r, d) := acc.2.hostRead src.facet c.1 c.2
      ((acc.1.1 ++ r.1, acc.1.2 || r.2), d)) (([], false), d)
    (if r.2 then none else some r.1, d)
  else
    let (r, d) := d.gread src.facet src.addr n
    (if r.ok && !r.poison then some r.bytes else none, d)

/-- The image from the first source that reads clean and matches the digest, with the source's number from 1. -/
def Dev.findImage (digest : BitVec 256) (n : Nat) : List Source → Nat → Dev → Option (List Byte × Nat) × Dev
  | [], _, d => (none, d)
  | src :: rest, i, d =>
    match d.readSource src n with
    | (some bs, d) => if Config.shake256 bs = digest then (some (bs, i), d) else Dev.findImage digest n rest (i + 1) d
    | (none, d) => Dev.findImage digest n rest (i + 1) d

/-- The sources of R279's order: those in HBM first. -/
def Model.loadOrder (m : Model) : List Source :=
  (m.sources.filter fun x => decide (x.tier = 0)) ++ m.sources.filter fun x => decide (x.tier ≠ 0)

/-- A warm copy of an image stands in HBM frames that the gaffer holds; entries with equal digests share it (R275). None where no stripe has its
pages. -/
def Dev.addWarm (d : Dev) (digest : BitVec 256) (image : List Byte) : Option Dev :=
  if (d.warmOf digest).isSome then some d
  else (d.pickPages 0 false false 0 (pagesOf image.length)).map fun e =>
    let w : WarmCopy := { digest := digest, bytes := image.length, frames := e.1 }
    (e.2.updServing fun v => { v with warms := v.warms ++ [w] }).writeWarm w image

/-- The warm copy of a digest is freed. -/
def Dev.freeWarm (d : Dev) (digest : BitVec 256) : Dev :=
  match d.warmOf digest with
  | none => d
  | some w =>
    (Dev.forEach w.frames Dev.freeFrame d).updServing fun v => { v with warms := v.warms.filter fun w => decide (w.digest ≠ digest) }

/-- A warm copy ends with the last reference that asked for it (R275). -/
def Dev.trimWarm (d : Dev) (digest : BitVec 256) : Dev := if d.keepsWarm digest none then d else d.freeWarm digest

/-- Drops a facet's reference of a handle; an entry ends with its last one (R275). -/
def Dev.dropRef (d : Dev) (num f : Nat) (handle : BitVec 32) : Dev :=
  let d := d.updModel num fun m =>
    { m with refs := m.refs.filter (fun r => !(decide (r.facet = f) && decide (r.handle = handle))),
             sources := m.sources.filter (fun x => decide (x.facet ≠ f)) }
  match d.model? num with
  | none => d
  | some m =>
    let d := if !m.refs.isEmpty then d
      else
        let d := match d.slotOf num with
          | some s => d.releaseSlot s.num
          | none => d
        (d.dropAsk num).updServing fun v => { v with models := v.models.filter fun m => decide (m.num ≠ num) }
    d.trimWarm m.digest

/-- Source i of a MODEL_REGISTER request. -/
def sourceAt (f : Nat) (p : List Byte) (i : Nat) : Source :=
  { facet := f, addr := leAt p (64 + 16 * i) 8, tier := bits (leAt p (72 + 16 * i) 1) 0 2 }

/-- The compiled program at an address: the 64 bytes of its header state its length (log 17, DESIGN CHOICE). -/
def Dev.readProgram (d : Dev) (f va : Nat) : Option (List Byte) × Dev :=
  let (h, d) := d.gread f va 64
  if !h.ok || h.poison || !d.isDevice f va 64 then (none, d)
  else
    let n := Config.programBytes h.bytes
    let (r, d) := d.gread f va n
    (if r.ok && !r.poison && d.isDevice f va n then some r.bytes else none, d)

def Dev.matrixCoresLeft (d : Dev) : Nat := 768 - countIf (fun c => decide (c < 768)) d.errors.retired

/-- A handle that the facet has not in use: a free value. -/
def Dev.newHandle (d : Dev) (f : Nat) : BitVec 32 × Dev :=
  let (v, d) := d.fresh
  let free (n : Nat) : Bool := (d.modelOf f (n % 4294967296)).isNone
  (BitVec.ofNat 32 ((findUp free 257 (v.toNat % 4294967296)).getD 0), d)

/-- Adds a facet's reference to an entry; a source of a facet stands once. -/
def Model.addRef (m : Model) (r : ModelRef) (srcs : List Source) : Model :=
  { m with refs := m.refs ++ [r], sources := m.sources ++ srcs }

/-- The entry that a registration shares: equal digest and program; a partition's entries are its own (R275, R282). Log 45, DEDUCED. -/
def Dev.sharedEntry (d : Dev) (f : Nat) (digest : BitVec 256) (program : List Byte) : Option Model :=
  let partition := (d.facet f).quota.partition
  d.serving.models.find? fun m =>
    decide (m.digest = digest) && decide (m.program = program) && (m.partition == partition) && (!partition || m.hasRef f)

/-- MODEL_REGISTER's own effect, its checks passed: the warm copy, the entry, the reference, the handle, and whether the entry was shared. None where
no stripe has the pages of the warm copy. Log 45, DEDUCED. -/
def Dev.registerModel (d : Dev) (f : Nat) (p program image : List Byte) : Option ((BitVec 32 × Bool × Nat) × Dev) :=
  let digest := BitVec.ofNat 256 (leAt p 16 32)
  let cold := bit (leAt p 1 1) 2
  let srcs := (List.range (bits (leAt p 1 1) 0 2)).map (sourceAt f p)
  (if cold then some d else d.addWarm digest image).map fun d =>
    let d := d.updServing fun v =>
      { v with models := updAll (fun m => m.lost && decide (m.digest = digest)) (fun m => { m with lost := false }) v.models }
    let found := d.sharedEntry f digest program
    match found.bind fun m => (m.ref? f).map fun r => (m, r) with
    | some (m, r) =>
      ((r.handle, true, m.num), d.updModel m.num fun m =>
        { m with refs := updAll (fun r => decide (r.facet = f)) (fun r => { r with cold := r.cold && cold }) m.refs })
    | none =>
      let (handle, d) := d.newHandle f
      let ref : ModelRef :=
        { facet := f, handle := handle, cold := cold, program := leAt p 8 8, maxContext := leAt p 4 4, kvBytes := leAt p 56 4,
          order := d.serving.nextOrder, pinned := false, pinOrder := 0 }
      let d := d.updServing fun v => { v with nextOrder := v.nextOrder + 1 }
      match found with
      | some m => ((handle, true, m.num), d.updModel m.num fun m => m.addRef ref srcs)
      | none =>
        let num := d.serving.nextModel
        let m : Model :=
          { num := num, digest := digest, program := program, sources := srcs, refs := [ref], weightBytes := leAt p 48 8,
            lost := false, damaged := false, damagedCores := [], partition := (d.facet f).quota.partition }
        ((handle, false, num), d.updServing fun v => { v with models := v.models ++ [m], nextModel := num + 1 })

/-- The fields of MODEL_REGISTER are in range. -/
def registerFieldsOk (p : List Byte) : Bool :=
  let n := bits (leAt p 1 1) 0 2
  let ctx := leAt p 4 4
  decide (1 ≤ n) && decide (64 ≤ ctx) && decide (ctx ≤ 32768) && decide (ctx % 64 = 0) && decide (leAt p 56 4 % 128 = 0) &&
    (List.range n).all fun i => decide ((sourceAt 0 p i).tier ≠ 3)

/-! ## Pins (R281) -/

def Dev.isHot (d : Dev) (model : Nat) : Bool := ((d.slotOf model).map Slot.loaded).getD false

/-- A new pin of a facet stays within its share, and at most 15 slots are pinned. -/
def Dev.pinFits (d : Dev) (f : Nat) (m : Model) : Bool :=
  decide (d.pinnedCores f + ((m.cores : Nat) : Rat) / (m.facets.length : Rat) ≤ ((d.facet f).quota.share : Rat)) &&
    (m.pinnedBy || decide (countIf Model.pinnedBy d.serving.models < 15))

/-- MODEL_PIN, code 0x0202: it completes once the slot is loaded. Log 48, DEDUCED. -/
def execModelPin (fn : Nat) (s : State) : Out :=
  s.run fun d => d.mbxRun fn 0x0202 (ofSender fn) fun d p =>
    match d.modelOf fn (leAt p 4 4) with
    | none => .refuse 0x403 []
    | some (m, r) =>
      if m.lost then .refuse 0x406 []
      else if !r.pinned && !d.pinFits fn m then .refuse 0x407 []
      else
        let n := d.serving.nextOrder
        let d := if r.pinned then d else
          (d.updServing fun v => { v with nextOrder := n + 1 }).updModel m.num fun m =>
            { m with refs := updAll (fun r => decide (r.facet = fn)) (fun r => { r with pinned := true, pinOrder := n }) m.refs }
        if d.isHot m.num then .ok d [] else .wait (d.askSlot m.num)

/-- MODEL_UNPIN, code 0x0203. -/
def execModelUnpin (fn : Nat) (s : State) : Out :=
  s.run fun d => d.mbxRun fn 0x0203 (ofSender fn) fun d p =>
    match d.modelOf fn (leAt p 4 4) with
    | none => .refuse 0x403 []
    | some (m, _) => .ok (d.updModel m.num fun m =>
        { m with refs := updAll (fun r => decide (r.facet = fn)) (fun r => { r with pinned := false }) m.refs }) []

/-- MODEL_STATUS, code 0x0204: 0 cold, 1 warm, 2 hot, 3 lost; the slot; the references. -/
def execModelStatus (fn : Nat) (s : State) : Out :=
  s.run fun d => d.mbxRun fn 0x0204 (ofSender fn) fun d p =>
    match d.modelOf fn (leAt p 4 4) with
    | none => .refuse 0x403 []
    | some (m, _) =>
      let st := if m.lost then 3 else if d.isHot m.num then 2 else boolNat (d.warmOf m.digest).isSome
      let slot := match d.slotOf m.num with
        | some x => if x.num < 16 then x.num else 255
        | none => 255
      .ok d (leBytes 1 1 ++ leBytes 1 st ++ leBytes 2 slot ++ leBytes 4 m.refs.length)

/-- The MODEL_PIN commands that wait for a model complete. Log 48, DEDUCED. -/
def Dev.finishPins (d : Dev) (model : Nat) (st : Code) : Dev :=
  Dev.forEach d.facetsThere (fun d f =>
    let b := (d.facet f).mailbox
    if b.accepted && decide (b.command = 0x0202) && decide (((d.modelOf f (leAt b.payload 4 4)).map fun e => e.1.num) = some model) then
      d.mbxFinish f st []
    else d) d

/-! ## Slots (R277 to R280) -/

/-- A core takes a slot's work, at CACHE_SHARE code 2 (R277). -/
def Dev.takeSlotCore (d : Dev) (c : Nat) : Dev :=
  let d := d.takeCore c slotWork
  let d := if (d.core c).split = 2 then d else d.flushL1 c
  d.updCore c fun k => { k with split := 2, splitBy := none }

/-- SLOT_ACQUIRE: a model that waits takes a free slot and cores, evictable slots evicted first (R280 steps 1 and 2); its load begins. -/
def Dev.slotAcquire (d : Dev) (model : Nat) : Dev :=
  match d.model? model, d.serving.slotQ.find? fun a => decide (a.model = model) with
  | some m, some a =>
    let w := d.loadOf m a
    if !d.gafferServes || !d.mayPlace w false [] then d
    else
      let e := Dev.evictUntil m 17 d
      match e.slotNumFor m, e.slotCores m.owner m.cores with
      | some num, some cores =>
        let e := Dev.forEach cores Dev.takeSlotCore e
        let e := ((({ e with nextAccept := e.nextAccept + 1 } : Dev).dropAsk model).updServing fun v =>
          { v with slots := v.slots ++ [{ num := num, model := model, cores := cores, loaded := false, loadOrder := e.nextAccept,
                                          lastStep := 0, stepping := false, reload := [] }] })
        e.passOver false w.accepted
      | _, _ => d
  | _, _ => d

def execSlotAcquire (model : Nat) (s : State) : Out := s.run fun d => d.slotAcquire model

/-- Writes the parts of an image into banks 0 to 8 of a slot's cores. -/
def Dev.writeWeights (d : Dev) (cores only : NSet) (image : List Byte) : Dev :=
  Dev.forEach ((List.range cores.length).zip cores) (fun d e =>
    if only.contains e.2 then
      d.updCore e.2 fun k => { k with la := Mem.write (Mem.clear k.la 0 slotBytes) 0 ((image.drop (slotBytes * e.1)).take slotBytes),
                                      laPoison := NSet.clear k.laPoison 0 (slotBytes / 128) }
    else d) d

/-- The weights for a load or a repair (R279, R434): from a clean warm copy, number 0; else from the first golden source that matches,
which then rewrites the warm copy. -/
def Dev.weights (d : Dev) (m : Model) : Option (List Byte × Nat) × Dev :=
  let fromSources (d : Dev) : Option (List Byte × Nat) × Dev :=
    match d.findImage m.digest m.weightBytes m.loadOrder 1 with
    | (none, d) => (none, d)
    | (some (image, i), d) => (some (image, i), match d.warmOf m.digest with
      | some w => d.writeWarm w image
      | none => d)
  match d.warmOf m.digest with
  | none => fromSources d
  | some w => match d.readWarm w with
    | (some image, d) => (some (image, 0), d)
    | (none, d) => fromSources d

/-- SLOT_LOAD_COMPLETE: the weights stand in the slot's cores, or those of its cores that were gated (R407), and the gaffer pins a hot slot's warm copy
and sets its cores' retention marks (R134, R277); or every source failed and the model's sequences end (R279). -/
def Dev.slotLoaded (d : Dev) (num : Nat) : Dev :=
  match d.slot? num with
  | none => d
  | some s =>
    match d.model? s.model with
    | none => d
    | some m =>
      if (s.loaded && s.reload.isEmpty) || s.cores.any fun c => (d.core c).gated then d
      else
        match d.weights m with
        | (none, d) => ((d.endSequences m.num 3 0x406).releaseSlot num).finishPins m.num 0x406
        | (some (image, _), d) =>
          let d := d.writeWeights s.cores (if s.loaded then s.reload else s.cores) image
          let d := d.updSlot num fun s => { s with loaded := true, reload := [] }
          let d := if s.loaded then d else d.count 0x605028 1
          let d := match d.warmOf m.digest with
            | some w => if !s.loaded && decide (num < 16) then d.pinWarm w 1 else d
            | none => d
          let d := if num < 16 then { d with cache := { d.cache with retain := NSet.addAll d.cache.retain s.cores } } else d
          d.finishPins m.num 0

def execSlotLoadComplete (slot : Nat) (s : State) : Out := s.run fun d => d.slotLoaded slot

/-! ## MODEL_REGISTER, MODEL_DEREGISTER (R275, R276, R282) -/

/-- Pages that the registration would charge: none for COLD, or where the facet uses the warm copy already. -/
def Dev.registerCharge (d : Dev) (f : Nat) (p : List Byte) : Nat :=
  let digest := BitVec.ofNat 256 (leAt p 16 32)
  if bit (leAt p 1 1) 2 || (d.keepsWarm digest (some f) && (d.warmOf digest).isSome) then 0 else pagesOf (leAt p 48 8)

/-- A partition's cores hold its models and one more of so many cores (R282). -/
def Dev.partitionHolds (d : Dev) (f cores : Nat) : Bool :=
  !(d.facet f).quota.partition || decide (d.partitionNeed f + cores ≤ d.partitionCores f)

/-- A partition's model loads into its own cores as it is registered, or when they are free (R282). -/
def Dev.loadsNow (d : Dev) (f model : Nat) : Dev := if (d.facet f).quota.partition then (d.askSlot model).slotAcquire model else d

/-- MODEL_REGISTER, code 0x0200. -/
def execModelRegister (fn : Nat) (s : State) : Out :=
  s.run fun d => d.mbxRun fn 0x0200 (ofSender fn) fun d p =>
    let srcs := (List.range (bits (leAt p 1 1) 0 2)).map (sourceAt fn p)
    let weights := leAt p 48 8
    let digest := BitVec.ofNat 256 (leAt p 16 32)
    let cores := (weights + slotBytes - 1) / slotBytes
    if !registerFieldsOk p then .refuse 0x3 []
    else if d.stackFailed then .refuse 0x653 []
    else
      match d.readProgram fn (leAt p 8 8) with
      | (none, _) => .refuse 0x3 []
      | (some program, d) =>
        let fresh := decide (d.sharedEntry fn digest program = none)
        if d.matrixCoresLeft < cores then .refuse 0x405 []
        else if fresh && decide (256 ≤ d.serving.models.length) then .refuse 0x401 []
        else if d.hbmFree fn < d.registerCharge fn p then .refuse 0x650 []
        else
          match d.findImage digest weights srcs 1 with
          | (none, _) => .refuse 0x402 []
          | (some (image, _), d) =>
            if fresh && !d.partitionHolds fn cores then .refuse 0x408 []
            else match d.registerModel fn p program image with
              | none => .refuse 0x654 []
              | some ((handle, shared, num), d) =>
                .ok (d.loadsNow fn num) (leBytes 1 1 ++ leBytes 3 (boolNat shared) ++ leBytes 4 handle.toNat ++ leBytes 8 cores)

/-- MODEL_DEREGISTER, code 0x0201. -/
def execModelDeregister (fn : Nat) (s : State) : Out :=
  s.run fun d => d.mbxRun fn 0x0201 (ofSender fn) fun d p =>
    match d.modelOf fn (leAt p 4 4) with
    | none => .refuse 0x403 []
    | some (m, r) =>
      if d.serving.sessions.any fun s => decide (s.facet = fn) && decide (s.model = m.num) then .refuse 0x404 []
      else .ok (d.dropRef m.num fn r.handle) []

/-! ## GENERATE (R283, R284, R437) -/

/-- The fields of a sequence descriptor are in range. -/
def sequenceOk (bs : List Byte) (maxContext : Nat) : Bool :=
  decide (1 ≤ leAt bs 8 4) && decide (1 ≤ leAt bs 12 4) && decide (leAt bs 12 4 ≤ 65536) && decide (leAt bs 24 8 % 64 = 0) &&
    decide (leAt bs 8 4 + leAt bs 12 4 ≤ maxContext)

def Sequence.pages (q : Sequence) : Nat := (q.prompt + q.maxNew + 63) / 64

/-- A sequence as its descriptor gives it. -/
def sequenceOf (f : Nat) (c : Cmd) (accepted : Nat) (bs : List Byte) : Sequence :=
  { serial := c.serial, facet := f, prompt := leAt bs 8 4, maxNew := leAt bs 12 4, promptVa := leAt bs 16 8, outVa := leAt bs 24 8,
    stop := BitVec.ofNat 32 (leAt bs 32 4), desc := bs, shortlist := none, shortBytes := [], promptBytes := [], joined := false, joinOrder := 0,
    prefill := 0, made := 0, lastToken := 0, cancelled := false, poisonedRow := false, kvPages := 0, accepted := accepted, passed := 0 }

def startGenerate (d : Dev) (f : Nat) (c : Cmd) : Started :=
  match c.copied with
  | none => .refused 0x3
  | some bs =>
    if leAt bs 0 1 ≠ 1 then .refused 0x2
    else match d.sessionOf f (leAt bs 4 4) with
    | none => .refused 0x121
    | some x =>
      match d.model? x.model with
      | none => .refused 0x121
      | some m =>
        let q := sequenceOf f c d.nextAccept bs
        if x.closing.isSome then .refused 0x121
        else if !sequenceOk bs (((m.ref? f).map ModelRef.maxContext).getD 0) then .refused 0x3
        else if 4 ≤ x.pending then .refused 0x124
        else if m.lost then .ended d 0x406 0
        else if d.hbmQuota f < pagesOf (q.pages * 64 * m.kvFor f) then .ended d 0x125 0
        else
          let d := ({ d with nextAccept := d.nextAccept + 1 } : Dev).updSession x.num fun s => { s with seqs := s.seqs ++ [q] }
          let d := d.sessionActive x.num
          .running ((d.queueRestore x).askSlot m.num)

def execGenerate (fn w : Nat) (s : State) : Out := s.run fun d => d.takeRecord fn w (fun t => decide (t = 6)) startGenerate

/-! ## Steps (R285 to R287, R289, R395, R430, R435) -/

def Dev.updSeq (d : Dev) (num serial : Nat) (g : Sequence → Sequence) : Dev :=
  d.updSession num fun s => { s with seqs := updFirst (fun q => decide (q.serial = serial)) g s.seqs }

/-- The batch in join order. -/
def Dev.joinedInOrder (d : Dev) (model : Nat) : List (Session × Sequence) :=
  sortBy (fun a b => decide (a.2.joinOrder ≤ b.2.joinOrder)) (d.batch model)

/-- One sequence generates its next token. -/
def Dev.decodeOne (d : Dev) (m : Model) (num : Nat) (q : Sequence) : Dev :=
  let t := Config.token m.digest m.program q.desc q.promptBytes q.shortBytes q.made
  let d := d.outputWrite m.num q.facet (q.outVa + 64 + 4 * q.made) (leBytes 4 t.toNat)
  (d.updSeq num q.serial fun q => { q with made := q.made + 1, lastToken := t }).countF q.facet 0x605010 1

/-- A prefill chunk: whole KV pages of the prompt, within what is left of the step's budget; its tokens and the budget left. -/
def Dev.prefillOne (budget : Nat) (d : Dev) (num : Nat) (q : Sequence) : Nat × Dev :=
  let n := min (q.prompt - q.prefill) (budget / 64 * 64)
  let (r, d) := d.gread q.facet (q.promptVa + 4 * q.prefill) (4 * n)
  (budget - n, d.updSeq num q.serial fun q =>
    { q with prefill := q.prefill + n, promptBytes := q.promptBytes ++ r.bytes, poisonedRow := q.poisonedRow || r.poison || !r.ok })

/-- The work of the step that ends: every sequence whose prefill was complete decodes a token, and the rest of the prefill goes on. -/
def Dev.runStep (d : Dev) (m : Model) : Dev :=
  ((d.joinedInOrder m.num).foldl (fun (acc : Nat × Dev) e =>
    if e.2.poisonedRow then acc
    else if e.2.prefill < e.2.prompt then acc.2.prefillOne acc.1 e.1.num e.2
    else (acc.1, acc.2.decodeOne m e.1.num e.2)) (256, d)).2

/-- How a sequence has ended: its END code and status. -/
def Sequence.endCode (q : Sequence) : Option (Nat × Code) :=
  if q.cancelled then some (2, 0x126)
  else if 1 ≤ q.made ∧ q.stop ≠ 0xFFFFFFFF ∧ q.lastToken = q.stop then some (0, 0)
  else if q.made = q.maxNew then some (1, 0)
  else if q.poisonedRow then some (2, 0x680)
  else none

/-- Sequences that ended leave, and those of a facet that is being frozen leave the batch with their position and pages (R373); closes
that waited for them complete. -/
def Dev.leaveStep (d : Dev) (model : Nat) : Dev :=
  (Dev.forEach (d.batch model) (fun d e =>
    match e.2.endCode with
    | some (stop, st) => d.endSequence e.1.num e.2.serial stop st
    | none => if (d.facet e.2.facet).freezing then d.updSeq e.1.num e.2.serial fun q => { q with joined := false } else d) d).closesDone model

/-- The facet's sequences may join: it is not frozen, and not being frozen. -/
def Dev.joinsAllowed (d : Dev) (f : Nat) : Bool :=
  let x := d.facet f
  !x.freezing && (decide (x.state = .running) || decide (x.state = .quiescing))

/-- The sequences that wait to join, in the order of R290: the first of each resident session that runs none. -/
def Dev.joiners (d : Dev) (model : Nat) : List (Session × Sequence) :=
  let eff (e : Session × Sequence) : Nat := if 64 ≤ e.2.passed then 0 else e.1.cls
  sortBy (fun a b => decide (eff a < eff b) || (decide (eff a = eff b) && decide (a.2.accepted ≤ b.2.accepted)))
    ((d.serving.sessions.filter fun s => decide (s.model = model) && !s.spilled && s.closing.isNone && d.joinsAllowed s.facet).filterMap fun s =>
      if s.seqs.any Sequence.joined then none else s.seqs.head?.map fun q => (s, q))

/-- The pages of a sequence fit the facet's free quota. -/
def Dev.kvFits (d : Dev) (f bytes : Nat) : Bool :=
  decide (d.hbmUsed f - pagesOf (d.kvBytes f) + pagesOf (d.kvBytes f + bytes) ≤ d.hbmQuota f)

/-- One sequence joins, where the batch has room and its pages can be reserved. With USE_SHORTLIST it takes the session's oldest
shortlist. -/
def Dev.joinOne (d : Dev) (m : Model) (s : Session) (q : Sequence) : Dev :=
  if 256 ≤ (d.batch m.num).length ∨ (q.kvPages = 0 ∧ d.kvFits q.facet (q.pages * 64 * m.kvFor q.facet) = false) then d
  else
    let takes := bit (leAt q.desc 1 1) 0 && decide (q.kvPages = 0)
    let list := if takes then s.shortlists.head? else q.shortlist
    let (bs, d) := match takes, list with
      | true, some (va, n) => let (r, d) := d.gread q.facet va (128 + 16 * n); (r.bytes, d)
      | _, _ => (q.shortBytes, d)
    let d := if takes then d.updSession s.num fun s => { s with shortlists := s.shortlists.drop 1 } else d
    let n := d.serving.nextOrder
    let d := (d.updServing fun v => { v with nextOrder := n + 1 }).updSeq s.num q.serial fun q =>
      { q with joined := true, joinOrder := n, kvPages := q.pages, shortlist := list, shortBytes := bs }
    d.passOver false q.accepted

/-- STEP_BOUNDARY: the running step ends, sequences leave and join, and the next step is launched on a slot that is loaded, undamaged
and awake. -/
def Dev.stepBoundary (d : Dev) (num : Nat) : Dev :=
  match d.slot? num with
  | none => d
  | some s =>
    match d.model? s.model with
    | none => d
    | some m =>
      if !s.loaded || m.damaged then d
      else
        let ran := (d.joinedInOrder m.num).map fun e => e.1.num
        let d := if !s.stepping then d else
          let d := (d.runStep m).count 0x605008 1
          let d := Dev.forEach ran Dev.sessionActive d
          let d := d.updSlot num fun x => { x with lastStep := d.serving.activity }
          let dies := NSet.addAll [] (s.cores.map coreDie)
          if 2 ≤ dies.length then d.phasePoint dies none else d
        let d := d.leaveStep m.num
        let d := Dev.forEach (d.joiners m.num) (fun d e => d.joinOne m e.1 e.2) d
        let awake := s.reload.isEmpty && s.cores.all fun c => !(d.core c).gated
        d.updSlot num fun x => { x with stepping := awake && !(d.batch m.num).isEmpty }

def execStepBoundary (slot : Nat) (s : State) : Out := s.run fun d => d.stepBoundary slot

end Sys2Proof.Machine
end

