-- ==== Sys2Proof/Machine/Records.lean ====
section
/-! DEFINITION. Records and completions: NOP and undefined types (R314), when a completion is due (R232, R314, R317) and when an ordered command starts (R313), interrupt moderation (R319). -/

namespace Sys2Proof.Machine

/-! ## Starts (R313, R314) -/

def startNop (d : Dev) (_ : Nat) (_ : Cmd) : Started := .ended d 0 0

/-- The start of a command by its TYPE. -/
def startOf (typ : Nat) : Dev → Nat → Cmd → Started :=
  match typ with
  | 0 => startNop
  | 1 => startLaunch
  | 2 => startReplay
  | 3 => startAbort
  | 4 => startRide
  | 5 => startRideCancel
  | 6 => startGenerate
  | 7 => startDma
  | _ => fun _ _ _ => .refused 0x1

/-- CMD_NOP: a record of TYPE 0. -/
def execCmdNop (fn w : Nat) (s : State) : Out := s.run fun d => d.takeRecord fn w (fun t => decide (t = 0)) startNop

/-- UNSUPPORTED_RECORD: a record of an undefined TYPE. -/
def execUnsupportedRecord (fn w : Nat) (s : State) : Out :=
  s.run fun d => d.takeRecord fn w (fun t => decide (7 < t)) fun _ _ _ => .refused 0x1

/-! ## Completions (R217, R226, R232, R314, R317) -/

/-- A far-tier write of the command's agents has no CMP_ACK yet. -/
def Dev.farWritesOut (d : Dev) (f : Nat) (c : Cmd) : Bool :=
  let mine (w : FarWrite) : Bool :=
    if c.typ = 1 then coreValid w.agent && decide (d.lineFacet w.line = f)
    else decide (c.typ = 7) && decide (2048 ≤ w.agent) && decide (w.agent < 2112) && decide ((d.channel (w.agent - 2048)).owner = f)
  decide (c.barrier ≠ 0) && d.farPorts.any fun p => p.2.writes.any mine

/-- An ABORT waits for the completion of the LAUNCH that it names. Log 42, DEDUCED. -/
def Facet.abortWaits (x : Facet) (c : Cmd) : Bool :=
  decide (c.typ = 3) && x.cmds.any fun o => o.occupies && !o.dropped && decide (o.typ = 1) && decide (o.id.toNat = leAt c.args 0 2) &&
    decide (o.gen.toNat = leAt c.args 2 1) && (decide (o.state = .running) || decide (o.state = .ended))

/-- COMMAND_COMPLETE: an ordered command whose turn has come starts; an ended one whose barrier is met has its completion due. -/
def Dev.commandComplete (d : Dev) (f serial : Nat) : Dev :=
  match (d.facet f).cmd? serial with
  | none => d
  | some c =>
    if c.state = .waiting then d.startCmd f serial (startOf c.typ.toNat)
    else if c.state ≠ .ended ∨ c.confirms ≠ [] ∨ d.farWritesOut f c = true ∨ (d.facet f).abortWaits c = true then d
    else d.completionDue f serial

def execCommandComplete (fn serial : Nat) (s : State) : Out := s.run fun d => d.commandComplete fn serial

/-- IRQ_MOD_DELAY: MOD_DELAY has passed since the first unsignalled record. -/
def Dev.irqDelay (d : Dev) (f n : Nat) : Dev :=
  let r := (d.facet f).ring n
  if !r.registered || !r.irqEn || decide (r.unsignalled = 0) then d
  else (d.updFacet f fun x => x.updRing n fun r => { r with unsignalled := 0 }).msix f r.vector

def execIrqModDelay (fn ring : Nat) (s : State) : Out := s.run fun d => d.irqDelay fn ring

end Sys2Proof.Machine
end

