-- ==== Sys2Proof/Machine/Registers.lean ====
section
/-! DEFINITION. The BAR0 registers: what a read gives (R2, R22 to R25, R34, R154 to R158, R185, R186, R210 to R214, R266, R297, R303 to R305, R329 to R334, R355 to R360, R386, R387, R416 to R422, R441 to R444, R473 to R476, R489, R490, R497, R498, R517, R521) and what a write does by each field's access code (R8 to R12). -/

namespace Sys2Proof.Machine

/-! ## Packing -/

/-- A register value from its fields: lowest bit and value. -/
def pack (fields : List (Nat × Nat)) : Nat := (fields.map fun e => e.2 * 2 ^ e.1).sum

/-- 32 bits of a bitmap: bit j tells of number `lo + j`. -/
def bitmap32 (lo : Nat) (p : Nat → Bool) : Nat := ((List.range 32).map fun j => if p (lo + j) then 2 ^ j else 0).sum

/-- A rational quantity rounded down, below a bound. -/
def floorNat (q : Rat) (bound : Nat) : Nat := q.floor.toNat % bound

/-! ## Identity (R2, R22 to R25, R489, R497, R498) -/

def Dev.readId (d : Dev) (fn off : Nat) : Nat :=
  if off = 0x8 then pack [(0, d.ifRange.1), (16, d.ifRange.2)]
  else if off = 0x10 then pack [(0, if d.part48 then 0x1248 else 0x1264), (16, 1), (28, 1)]
  else if off = 0x20 then pack [(0, 4), (4, 12), (10, 8), (14, 8), (18, 2), (21, 12)]
  else if off = 0x30 then
    pack [(0, d.boot.cause.toNat), (3, d.boot.bank), (4, boolNat d.boot.fallback), (5, boolNat d.boot.recovery),
          (6, d.boot.failStep.toNat), (10, d.boot.failDies.toNat)]
  else if off = 0x40 then if fn = 0 then 0x11111111 else 0x10111111
  else if off = 0x44 then 1
  else if 0x100 ≤ off ∧ off < 0x280 then (Tab.get 0x48 d.rowMap ((off - 0x100) / 4)).toNat
  else if 0x300 ≤ off ∧ off < 0x360 then bitmap32 (8 * (off - 0x300)) d.coreRetired
  else if 0x360 ≤ off ∧ off < 0x378 then bitmap32 (1024 + 8 * (off - 0x360)) d.coreRetired
  else 0

/-! ## Mailbox (R303 to R305) -/

def Mailbox.ctrlWord (m : Mailbox) : Nat := pack [(0, boolNat m.go), (1, boolNat m.irqEn), (2, m.vector.toNat)]
def Mailbox.statusWord (m : Mailbox) : Nat :=
  pack [(0, boolNat m.done), (1, boolNat m.busy), (2, boolNat m.dropped), (16, m.status.toNat)]

def Dev.readMbx (d : Dev) (fn off : Nat) : Nat :=
  let m := (d.facet fn).mailbox
  if off = 0x1000 then m.ctrlWord
  else if off = 0x1004 then m.statusWord
  else if 0x2000 ≤ off ∧ off < 0x3000 then leNat (Mem.read m.buf (off - 0x2000) 4)
  else 0

/-! ## Intake (R301, R329 to R333) -/

def Window.cfgWord (w : Window) : Nat := pack [(0, boolNat w.enable), (1, w.ring)]

def Dev.readInt (d : Dev) (fn off : Nat) : Nat :=
  let x := d.facet fn
  if off < 0x10040 then (x.window ((off - 0x10000) / 4)).cfgWord
  else if off < 0x10080 then (x.window ((off - 0x10040) / 4)).head
  else if 0x10100 ≤ off ∧ off ≤ 0x10140 then (x.ring ((off - 0x10100) / 4)).head
  else if off = 0x10180 then
    pack [(0, boolNat x.attached), (1, boolNat x.ringsVoid), (2, x.held), (15, d.host.rate.toNat), (18, d.host.width.toNat)]
  else if off = 0x10184 then x.cfgErr.toNat
  else if 0x18000 ≤ off ∧ off < 0x18200 then (x.msixWord ((off - 0x18000) / 4)).toNat
  else if off = 0x19000 then bitmap32 0 fun v => NSet.has x.pba v
  else 0

/-! ## DMA (R355 to R360) -/

def chanStateCode : ChanState → Nat
  | .idle => 0 | .running => 1 | .halted => 2 | .confirming => 3

/-- A register group of a channel as a function sees it: the holder's, and the manager's reads. Log 50, DEDUCED. -/
def Dev.readDma (d : Dev) (fn off : Nat) : Nat :=
  let ch := (off - 0x100000) / 0x100
  let k := d.channel ch
  if 64 ≤ ch ∨ (fn ≠ 0 ∧ k.owner ≠ fn) then 0
  else
    let cmd := if k.state = .idle then none else k.run.bind fun r => (d.facet r.fn).cmd? r.serial
    match off % 0x100 with
    | 0x00 => pack [(0, boolNat k.compat), (8, k.owner)]
    | 0x08 => pack [(0, k.rate.toNat), (16, k.burst.toNat)]
    | 0x10 => pack [(0, chanStateCode k.state), (2, k.queue.length), (16, (cmd.map fun c => c.id.toNat).getD 0)]
    | 0x14 => (cmd.map fun c => c.gen.toNat).getD 0
    | 0x18 => k.errAddr.toNat % 2 ^ 32
    | 0x1C => k.errAddr.toNat / 2 ^ 32
    | 0x20 => pack [(0, k.errStatus.toNat), (16, boolNat k.errDir)]
    | 0x24 => k.errPos.toNat
    | 0x28 => k.cfgErr.toNat
    | _ => 0

/-! ## Cache and memory (R155 to R158, R185, R210 to R213, R441 to R443) -/

/-- The largest number of pinned ways in any set of a slice. -/
def Dev.pinWaysMax (d : Dev) (x : Slice) : Nat :=
  let sets := (x.ways.filter fun w => w.pin.isSome).map fun w => d.homeSet w.line
  (sets.map fun n => sets.count n).foldl max 0

def Dev.sliceStatus (d : Dev) (n : Nat) : Nat :=
  let x := d.slice n
  pack [(0, boolNat x.missMode), (1, boolNat x.hold), (2, x.cause.toNat), (4, d.pinWaysMax x), (8, min 256 x.entries)]

/-- MEM_D2D_STATUS_n (R185). -/
def Dev.portStatus (d : Dev) (n : Nat) : Nat :=
  let p := d.port n
  pack [(0, portStateCode p.state), (2, p.ab.lanes), (9, p.ba.lanes), (16, p.ab.spares), (19, p.ba.spares), (22, boolNat (d.takesDetour n)),
        (25, boolNat p.severed)]

def Stack.statusWord (k : Stack) (gib : Nat) : Nat :=
  pack [(0, k.state.toNat), (2, k.rate.toNat), (4, k.declared.toNat), (6, k.temp.toNat), (14, k.throttle.toNat),
        (16, boolNat k.refresh2x), (17, gib)]

def FarPort.statusWord (p : FarPort) : Nat :=
  pack [(0, p.state.toNat), (3, p.rate.toNat), (5, p.width.toNat), (7, boolNat p.ide), (8, p.capacity), (21, boolNat !p.marked.isEmpty)]

def CacheRegs.ctrlWord (c : CacheRegs) : Nat := pack [(0, c.pinCap.toNat), (4, c.homeTimeout.toNat)]
def Errors.ctrlWord (e : Errors) : Nat := pack [(0, boolNat e.autoRetire), (1, e.retireScore.toNat), (12, e.ceThresh.toNat)]

def Dev.readCache (d : Dev) (off : Nat) : Nat :=
  if off = 0x200000 then d.cache.ctrlWord
  else if off = 0x200008 then d.cache.cfgErr.toNat
  else if 0x200100 ≤ off ∧ off < 0x200160 then
    bitmap32 (8 * (off - 0x200100)) fun c => NSet.has d.cache.retain c && !d.coreRetired c
  else if 0x201000 ≤ off ∧ off < 0x202800 then
    if (off - 0x201000) % 0x40 = 0 then d.sliceStatus ((off - 0x201000) / 0x40)
    else if (off - 0x201000) % 0x40 = 4 then 0
    else if off % 8 = 0 then (d.counter off).toNat % 2 ^ 32
    else (d.counter (off - 4)).toNat / 2 ^ 32
  else if 0x204000 ≤ off ∧ off < 0x204018 then d.portStatus ((off - 0x204000) / 4)
  else if off = 0x205000 then d.wbatch.toNat
  else if off = 0x205008 then boolNat d.memCfgErr
  else if 0x205100 ≤ off ∧ off < 0x205130 then (d.stack ((off - 0x205100) / 4)).statusWord d.stackGiB
  else if 0x205200 ≤ off ∧ off < 0x205220 then if off % 8 = 0 then (d.farPort ((off - 0x205200) / 8)).statusWord else 0
  else if off = 0x206000 then d.errors.ctrlWord
  else if off = 0x206004 then d.errors.cfgErr.toNat
  else if off = 0x206008 then
    pack [(0, d.errors.logSource.toNat), (4, d.errors.logFacet.toNat), (10, d.errors.logCore.toNat), (21, boolNat d.errors.logValid)]
  else if off = 0x206010 then d.errors.logAddr.toNat % 2 ^ 32
  else if off = 0x206014 then d.errors.logAddr.toNat / 2 ^ 32
  else if 0x207000 ≤ off ∧ off < 0x207C00 then Tab.get 0 d.errors.scores ((off - 0x207000) / 4)
  else if 0x207C00 ≤ off ∧ off < 0x207F00 then Tab.get 0 d.errors.scores (1024 + (off - 0x207C00) / 4)
  else 0

/-! ## Power (R416 to R421, R490, R517) -/

def dieStateCode : DieState → Nat
  | .on => 0 | .dim => 1 | .dark => 2 | .transition => 3

def Power.ctrlWord (p : Power) : Nat := pack [(0, boolNat p.dimEn), (1, boolNat p.pkgDarkEn), (2, p.droopMargin.toNat)]

/-- The 64 bits of PWR_STATUS (R418). -/
def Power.statusWord (p : Power) : Nat :=
  pack [(0, p.cap), (12, boolNat p.fixed), (13, p.fixedRate), (21, p.pkg.toNat), (23, p.inputW), (35, floorNat (p.gain * 256) 512),
        (44, boolNat p.calLimit)]

/-- The 64 bits of PWR_DIE_n (R419). -/
def Dev.dieWord (d : Dev) (n : Nat) : Nat :=
  let k := d.die n
  let r := d.rail n
  pack [(0, dieStateCode k.state), (2, if k.state = .dark then 0 else r.acked), (12, k.temp), (20, floorNat (k.ceiling / 10000000) 256),
        (28, floorNat k.alloc 1024), (38, floorNat k.estimate 1024), (48, k.thermal), (50, boolNat !k.droop.isEmpty),
        (51, boolNat r.fault), (52, boolNat k.deferred)]

/-- The 64 bits of PWR_BASE_n (R420). -/
def Dev.baseWord (d : Dev) (n : Nat) : Nat :=
  let k := d.base n
  let r := d.rail (12 + n)
  pack [(0, if d.power.pkg = 2 then 2 else 0), (2, r.acked), (12, k.temp), (20, floorNat k.estimate 1024), (30, boolNat r.fault)]

/-- The 64 bits of PWR_MODULE (R517). -/
def Power.moduleWord (p : Power) : Nat :=
  pack [(0, p.inlet.toNat), (8, p.outlet.toNat), (16, p.inputDv.toNat), (28, p.inputDa.toNat), (40, p.slotId.toNat), (43, boolNat p.coolantWarn)]

/-- One half of a 64-bit register. -/
def half (v off : Nat) : Nat := if off % 8 = 0 then v % 2 ^ 32 else v / 2 ^ 32 % 2 ^ 32

def Dev.readPower (d : Dev) (off : Nat) : Nat :=
  let p := d.power
  if off = 0x300000 then p.ctrlWord
  else if off = 0x300004 then p.idleUs.toNat
  else if off = 0x300008 then p.cfgErr.toNat
  else if 0x300010 ≤ off ∧ off < 0x300018 then half p.statusWord off
  else if off = 0x300020 then boolNat p.perstWarm
  else if 0x300030 ≤ off ∧ off < 0x300038 then half p.moduleWord off
  else if 0x300100 ≤ off ∧ off < 0x300160 then half (d.dieWord ((off - 0x300100) / 8)) off
  else if 0x300180 ≤ off ∧ off < 0x3001A0 then half (d.baseWord ((off - 0x300180) / 8)) off
  else if 0x300200 ≤ off ∧ off < 0x300260 then
    let k := d.die ((off - 0x300200) / 8)
    if off % 8 = 0 then floorNat k.lag (2 ^ 32) else k.phases.toNat
  else if 0x300300 ≤ off ∧ off < 0x300360 then bitmap32 (8 * (off - 0x300300)) fun c => (d.core c).gated
  else if 0x300360 ≤ off ∧ off < 0x300378 then bitmap32 (1024 + 8 * (off - 0x300360)) fun c => (d.core c).gated
  else 0

/-! ## Facets (R386, R387) -/

def facetStateCode : FacetState → Nat
  | .absent => 0 | .running => 1 | .quiescing => 2 | .quiesced => 3 | .frozen => 4 | .resetting => 5

/-- The DMA_MASK of a facet; facet 0's is every channel that no other quota grants (R336, R365). -/
def Dev.dmaMask (d : Dev) (f : Nat) : Nat := ((List.range 64).map fun ch => if d.maskOwner ch = f then 2 ^ ch else 0).sum

/-- A word of a facet's register group. -/
def Dev.readFacet (d : Dev) (f off : Nat) : Nat :=
  let x := d.facet f
  let q := x.quota
  if x.state = .absent then 0
  else if off = 0x00 then
    pack [(0, facetStateCode x.state), (3, boolNat q.partition), (4, q.maxClass), (6, q.weight), (13, boolNat x.log.on),
          (14, boolNat x.log.sideB), (15, x.overBits.toNat)]
  else if off = 0x04 then x.aborted.toNat
  else if off = 0x08 then d.hbmQuota f
  else if off = 0x0C then d.hbmUsed f
  else if 0x10 ≤ off ∧ off < 0x18 then half (pack [(0, q.sessions), (17, d.openSessions f), (34, q.riders), (47, d.ridersOf f)]) off
  else if 0x18 ≤ off ∧ off < 0x20 then half (d.dmaMask f) off
  else if off = 0x20 then pack [(0, q.share), (10, floorNat (d.hotCores f) 1024)]
  else if 0x40 ≤ off ∧ off < 0xA0 then bitmap32 (8 * (off - 0x40)) (d.coreOfFacet f)
  else if 0xA0 ≤ off ∧ off < 0xB8 then bitmap32 (1024 + 8 * (off - 0xA0)) (d.coreOfFacet f)
  else 0

def Dev.readFct (d : Dev) (off : Nat) : Nat :=
  if off = 0x400000 then bitmap32 0 d.facetExists
  else if off = 0x400004 then bitmap32 32 d.facetExists
  else if 0x401000 ≤ off ∧ off < 0x405000 then d.readFacet ((off - 0x401000) / 0x100) (off % 0x100)
  else 0

/-! ## Security (R473 to R476) -/

/-- The 64 bits of SEC_STATUS (R473). -/
def Dev.secStatus (d : Dev) : Nat :=
  let x := d.security
  pack [(0, x.lifecycle.toNat), (2, BitVec.toNat x.debug), (4, x.haltFacet), (10, d.boot.bank), (11, d.runningBank.svn.toNat), (19, x.svnFused.toNat),
        (27, x.transitions), (33, boolNat x.ideLink), (34, boolNat x.owner.isSome)]

/-- Beams parked with DEBUG_HALT. -/
def Dev.haltedBeams (d : Dev) : Nat :=
  let count (b : Block) : Nat := countIf (fun m => decide (m.status = .parked .debugHalt)) b.beams
  (d.blocks.map count).sum + (d.saved.map fun v => count v.block).sum

def Security.signsCheckpoint (x : Security) : Bool := ((x.signings.head?).map Signing.isCheckpoint).getD false

def Dev.readSec (d : Dev) (off : Nat) : Nat :=
  let x := d.security
  if 0x500000 ≤ off ∧ off < 0x500008 then half d.secStatus off
  else if off = 0x500008 then boolNat x.requireIde
  else if 0x500010 ≤ off ∧ off < 0x500018 then half x.seq off
  else if 0x500018 ≤ off ∧ off < 0x500020 then half x.acked off
  else if off = 0x500020 then pack [(0, boolNat x.signsCheckpoint), (1, boolNat x.nearFull)]
  else if off = 0x500024 then min x.lost 0xFFFFFFFF
  else if off = 0x501000 then
    pack [(0, d.haltedBeams), (16, boolNat (x.trace.isSome && decide (x.debug ≠ 0))), (17, boolNat (decide (x.debug = 3)))]
  else 0

/-! ## Counters (R34, R154, R266, R297) -/

/-- The counters that follow the facet scoping of R154. -/
def scopedCounter (off : Nat) : Bool :=
  (decide (0x601000 ≤ off) && decide (off < 0x601080)) ||
  [0x604020, 0x604030, 0x605010, 0x605038, 0x606000, 0x606008, 0x606028].contains off

/-- CNT_SRV_STATE (R297). -/
def Dev.servingState (d : Dev) : Nat :=
  let slots := d.serving.slots.filter fun s => decide (s.num < 16)
  let pinned (s : Slot) : Bool := ((d.model? s.model).map Model.pinnedBy).getD false
  pack [(0, d.residentSessions), (13, d.serving.sessions.length), (30, slots.length), (35, countIf pinned slots),
        (39, countIf (fun c => slots.any fun s => NSet.has s.cores c) (List.range 768))]

/-- A performance counter as a function reads it; a channel's counters are seen as its registers are. -/
def Dev.readCounter (d : Dev) (fn off : Nat) : Nat :=
  if off < 0x600300 then (Tab.get 0 d.beats ((off - 0x600000) / 8)).toNat
  else if off = 0x604000 then d.lehr.stateWord
  else if off = 0x605000 then d.servingState
  else if 0x607000 ≤ off ∧ off < 0x608000 ∧ fn ≠ 0 ∧ (d.channel ((off - 0x607000) / 0x40)).owner ≠ fn then 0
  else if scopedCounter off ∧ fn ≠ 0 then (Tab.get 0 d.facetCounters (facetKey fn off)).toNat
  else (d.counter off).toNat

/-! ## Reads (R12, R34) -/

/-- A 32-bit word of BAR0 as a function reads it; an address outside the blocks reads zero. -/
def Dev.word (d : Dev) (fn off : Nat) : Nat :=
  if off < 0x1000 then d.readId fn off
  else if off < 0x10000 then d.readMbx fn off
  else if off < 0x20000 then d.readInt fn off
  else if 0x100000 ≤ off ∧ off < 0x104000 then d.readDma fn off
  else if 0x200000 ≤ off ∧ off < 0x208000 then d.readCache off
  else if 0x300000 ≤ off ∧ off < 0x301000 then d.readPower off
  else if 0x400000 ≤ off ∧ off < 0x500000 then if fn = 0 then d.readFct off else 0
  else if 0x500000 ≤ off ∧ off < 0x600000 then d.readSec off
  else if 0x600000 ≤ off ∧ off < 0x610000 then half (d.readCounter fn (off / 8 * 8)) off
  else 0

/-- The 64-bit registers, by the offset of their low word (R34 and the tables of R521). -/
def isWide (off : Nat) : Bool :=
  decide (off % 8 = 0) &&
  (decide (off = 0x40) ||
   (decide (0x100000 ≤ off) && decide (off < 0x104000) && [0x10, 0x18, 0x20].contains (off % 0x100)) ||
   (decide (0x201000 ≤ off) && decide (off < 0x202800)) || (decide (0x205200 ≤ off) && decide (off < 0x205220)) ||
   decide (off = 0x206010) || [0x300010, 0x300030].contains off || (decide (0x300100 ≤ off) && decide (off < 0x300160)) ||
   (decide (0x300180 ≤ off) && decide (off < 0x3001A0)) || (decide (0x300200 ≤ off) && decide (off < 0x300260)) || decide (off = 0x400000) ||
   (decide (0x401000 ≤ off) && decide (off < 0x405000) && [0x00, 0x08, 0x10, 0x18].contains (off % 0x100)) ||
   [0x500000, 0x500010, 0x500018, 0x500020].contains off || (decide (0x600000 ≤ off) && decide (off < 0x610000)))

/-- The answer to a read leaves, where the function may send. -/
def Dev.readAnswer (d : Dev) (fn v : Nat) : Dev := if d.mayTransmit fn then d.send (.readValue (BitVec.ofNat 64 v)) else d

/-- A read that reaches no BAR ends in Unsupported Request. -/
def Dev.barRead (d : Dev) (fn : Nat) (k : Dev → Dev) : Dev :=
  if !d.host.linkUp then d else if d.barOpen fn then k d else d.send .unsupportedRequest

/-- LOW_WORD_READ: a 32-bit read; of a 64-bit register's low word it loads the function's latch with the high word. A 64-bit read (`wide`)
gives both halves at one instant and leaves the latch as it is. -/
def execLowWordRead (fn : Nat) (at_ : RegRead) (s : State) : Out :=
  s.run fun d => d.barRead fn fun d =>
    let off := at_.offset / 4 * 4
    if at_.wide then d.readAnswer fn (d.word fn off + 2 ^ 32 * d.word fn (off + 4))
    else
    let d := if isWide off then { d with latches := Tab.set 0 d.latches (facetKey fn off) (d.word fn (off + 4) + 1) } else d
    d.readAnswer fn (d.word fn off)

/-- HIGH_WORD_READ: the latched high word, which empties the latch, or the current one. -/
def execHighWordRead (fn offset : Nat) (s : State) : Out :=
  s.run fun d => d.barRead fn fun d =>
    let off := offset / 4 * 4
    let low := off - 4
    if 4 ≤ off ∧ isWide low = true then
      match Tab.get 0 d.latches (facetKey fn low) with
      | 0 => d.readAnswer fn (d.word fn off)
      | v + 1 => ({ d with latches := Tab.set 0 d.latches (facetKey fn low) 0 } : Dev).readAnswer fn v
    else d.readAnswer fn (d.word fn off)

/-! ## Writes of the intake block (R301, R329, R331, R333) -/

def Facet.flagCfg (x : Facet) (bit : BitVec 3) : Facet := { x with cfgErr := x.cfgErr ||| bit }

/-- A write of INT_WIN_CFG_w: RING first while the window is stopped, then ENABLE. -/
def Facet.writeWinCfg (x : Facet) (n : Nat) (v : BitVec 32) : Facet :=
  let w := x.window n
  let ring := (v.extractLsb' 1 4).toNat
  let x := if !w.enable then x.updWindow n fun w => { w with ring := ring }
           else if ring = w.ring then x else x.flagCfg 1
  if !v.getLsbD 0 then x.updWindow n fun w => { w with enable := false }
  else if (x.ring (x.window n).ring).registered then x.updWindow n fun w => { w with enable := true }
  else x.flagCfg 2

/-- A write of INT_CQ_HEAD_r, or of INT_GQ_HEAD with ring 16: the records passed are consumed, and held ones are written. -/
def Dev.writeHead (d : Dev) (fn n : Nat) (v : BitVec 32) : Dev :=
  let x := d.facet fn
  let r := x.ring n
  let h := (v.extractLsb' 0 16).toNat
  let passed := (h + r.entries - r.head) % r.entries
  if !r.registered then if h = 0 then d else d.updFacet fn fun x => x.flagCfg 4
  else if r.entries ≤ h ∨ r.written.length < passed then d.updFacet fn fun x => x.flagCfg 4
  else
    let done := if n = 16 then [] else r.written.take passed
    (d.updFacet fn fun x =>
      (done.foldl Facet.consume x).updRing n fun r => { r with head := h, written := r.written.drop passed }).flushRings fn

/-- A write of the MSI-X table; a vector that becomes unmasked with its PBA bit set is sent (R319, as PCIe defines). -/
def Dev.writeMsix (d : Dev) (fn i : Nat) (v : BitVec 32) : Dev :=
  let d := d.updFacet fn fun x => x.setMsixWord i v
  if i % 4 = 3 ∧ v.getLsbD 0 = false ∧ NSet.has (d.facet fn).pba (i / 4) = true then
    (d.updFacet fn fun x => { x with pba := NSet.del x.pba (i / 4) }).msix fn (i / 4)
  else d

def Dev.writeInt (d : Dev) (fn off : Nat) (v : BitVec 32) : Dev :=
  if off < 0x10040 then d.updFacet fn fun x => x.writeWinCfg ((off - 0x10000) / 4) v
  else if 0x10100 ≤ off ∧ off ≤ 0x10140 then d.writeHead fn ((off - 0x10100) / 4) v
  else if off = 0x10184 then d.updFacet fn fun x => { x with cfgErr := x.cfgErr &&& ~~~(v.extractLsb' 0 3) }
  else if 0x18000 ≤ off ∧ off < 0x18200 then d.writeMsix fn ((off - 0x18000) / 4) v
  else d

/-! ## Writes of the other blocks -/

/-- MBX_STATUS and MBX_BUF (R304 to R306). -/
def Dev.writeMbx (d : Dev) (fn off : Nat) (v : BitVec 32) : Dev :=
  if off = 0x1000 then d.writeMbxCtrl fn v
  else if off = 0x1004 then
    d.updFacet fn fun x => { x with mailbox := { x.mailbox with done := x.mailbox.done && !v.getLsbD 0, dropped := x.mailbox.dropped && !v.getLsbD 2 } }
  else if 0x2000 ≤ off ∧ off < 0x3000 then
    d.updFacet fn fun x =>
      let m := x.mailbox
      { x with mailbox := if m.busy then { m with dropped := true } else { m with buf := Mem.write m.buf (off - 0x2000) (leBytes 4 v.toNat) } }
  else d

/-- A channel's registers, by the function that holds it (R355 to R357, R360). -/
def Dev.writeDma (d : Dev) (fn off : Nat) (v : BitVec 32) : Dev :=
  let ch := (off - 0x100000) / 0x100
  let k := d.channel ch
  if 64 ≤ ch ∨ k.owner ≠ fn then d
  else
    match off % 0x100 with
    | 0x00 =>
      if v.getLsbD 0 = k.compat then d
      else if k.state = .idle ∧ k.queue.isEmpty = true then d.updChannel ch fun k => { k with compat := v.getLsbD 0 }
      else d.updChannel ch fun k => { k with cfgErr := k.cfgErr ||| 1 }
    | 0x04 =>
      match (v.extractLsb' 0 2).toNat with
      | 1 => d.dmaAction fn ch fun d => d.dmaRetry ch
      | 2 => d.dmaAction fn ch fun d => d.dmaSkip ch
      | 3 => d.dmaAction fn ch fun d => d.dmaAbort ch
      | _ => d
    | 0x08 =>
      let rate := v.extractLsb' 0 7
      let burst := v.extractLsb' 16 13
      let rateOk := decide (rate ≤ 64)
      let burstOk := decide (1 ≤ burst) && decide (burst ≤ 4096)
      d.updChannel ch fun k =>
        { k with rate := if rateOk then rate else k.rate, burst := if burstOk then burst else k.burst,
                 cfgErr := if rateOk && burstOk then k.cfgErr else k.cfgErr ||| 4 }
    | 0x0C => if v.getLsbD 0 then d.dmaCommit fn ch else d
    | 0x28 => d.updChannel ch fun k => { k with cfgErr := k.cfgErr &&& ~~~(v.extractLsb' 0 3) }
    | _ => d

/-- Every counter returns to 0; a beat counter keeps its value (R34, R154). -/
def Dev.clearCounters (d : Dev) : Dev := { d with counters := [], facetCounters := [] }

/-- CCH_CTRL (R155). -/
def Dev.writeCchCtrl (d : Dev) (v : BitVec 32) : Dev :=
  let cap := v.extractLsb' 0 4
  let time := v.extractLsb' 4 8
  let capOk := decide (cap ≤ 12)
  let timeOk := decide (50 ≤ time) && decide (time ≤ 200)
  let c := d.cache
  let d := { d with cache :=
      { c with pinCap := if capOk then cap else c.pinCap, homeTimeout := if timeOk then time else c.homeTimeout,
               cfgErr := c.cfgErr ||| (if capOk then 0 else 1) ||| (if timeOk then 0 else 2) } }
  if v.getLsbD 12 then d.clearCounters else d

/-- CCH_LA_RETAIN_n: the marks of the cores in the writer's quota (R124, R157). -/
def Dev.writeRetain (d : Dev) (fn n : Nat) (v : BitVec 32) : Dev :=
  let put (s : NSet) (j : Nat) : NSet :=
    let c := 32 * n + j
    if d.coreOfFacet fn c && !d.coreRetired c then NSet.put s c (v.getLsbD j) else s
  { d with cache := { d.cache with retain := (List.range 32).foldl put d.cache.retain } }

/-- The cache and memory block, which only the manager's BAR0 writes but for the retention marks (R155, R156, R210, R211, R441, R442). -/
def Dev.writeCache (d : Dev) (fn off : Nat) (v : BitVec 32) : Dev :=
  if 0x200100 ≤ off ∧ off < 0x200160 then d.writeRetain fn ((off - 0x200100) / 4) v
  else if fn ≠ 0 then d
  else if off = 0x200000 then d.writeCchCtrl v
  else if off = 0x200008 then { d with cache := { d.cache with cfgErr := d.cache.cfgErr &&& ~~~(v.extractLsb' 0 3) } }
  else if off = 0x205000 then if v.extractLsb' 0 2 = 3 then { d with memCfgErr := true } else { d with wbatch := v.extractLsb' 0 2 }
  else if off = 0x205008 then { d with memCfgErr := d.memCfgErr && !v.getLsbD 0 }
  else if off = 0x206000 then
    let score := v.extractLsb' 1 11
    let ce := v.extractLsb' 12 12
    let scoreOk := decide (16 ≤ score) && decide (score ≤ 1024)
    let ceOk := decide (1 ≤ ce)
    d.updErrors fun e =>
      { e with autoRetire := v.getLsbD 0, retireScore := if scoreOk then score else e.retireScore, ceThresh := if ceOk then ce else e.ceThresh,
               cfgErr := e.cfgErr ||| (if scoreOk then 0 else 1) ||| (if ceOk then 0 else 2) }
  else if off = 0x206004 then d.updErrors fun e => { e with cfgErr := e.cfgErr &&& ~~~(v.extractLsb' 0 2) }
  else if off = 0x206008 then d.updErrors fun e => { e with logValid := e.logValid && !v.getLsbD 21 }
  else d

/-- The power block, which only the manager's BAR0 writes (R416, R417, R490). -/
def Dev.writePower (d : Dev) (fn off : Nat) (v : BitVec 32) : Dev :=
  if fn ≠ 0 then d
  else if off = 0x300000 then
    let margin := v.extractLsb' 2 4
    let ok := decide (4 ≤ margin)
    d.updPower fun p =>
      { p with dimEn := v.getLsbD 0, pkgDarkEn := v.getLsbD 1, droopMargin := if ok then margin else p.droopMargin,
               cfgErr := if ok then p.cfgErr else p.cfgErr ||| 1 }
  else if off = 0x300004 then
    let idle := v.extractLsb' 0 20
    let ok := decide (10 ≤ idle) && decide (idle ≤ 1000000)
    d.updPower fun p => { p with idleUs := if ok then idle else p.idleUs, cfgErr := if ok then p.cfgErr else p.cfgErr ||| 2 }
  else if off = 0x300008 then d.updPower fun p => { p with cfgErr := p.cfgErr &&& ~~~(v.extractLsb' 0 2) }
  else if off = 0x300020 then d.updPower fun p => { p with perstWarm := v.getLsbD 0 }
  else d

/-- A 32-bit write of BAR0, by the access codes (R8, R12). -/
def Dev.writeBar0 (d : Dev) (fn off : Nat) (v : BitVec 32) : Dev :=
  if 0x1000 ≤ off ∧ off < 0x10000 then d.writeMbx fn off v
  else if 0x10000 ≤ off ∧ off < 0x20000 then d.writeInt fn off v
  else if 0x100000 ≤ off ∧ off < 0x104000 then d.writeDma fn off v
  else if 0x200000 ≤ off ∧ off < 0x208000 then d.writeCache fn off v
  else if 0x300000 ≤ off ∧ off < 0x301000 then d.writePower fn off v
  else if off = 0x500008 ∧ fn = 0 then d.updSecurity fun x => { x with requireIde := v.getLsbD 0 }
  else d

/-- The LIVE and HALTED bits of a 32-bit register, whose change the journal records (R458). -/
def journalMask (off : Nat) : BitVec 32 :=
  if 0x10000 ≤ off ∧ off < 0x10040 then 0x1E
  else if 0x100000 ≤ off ∧ off < 0x104000 ∧ off % 0x100 = 0 then 0x1
  else if off = 0x200000 then 0xFFF
  else if 0x200100 ≤ off ∧ off < 0x200160 then 0xFFFFFFFF
  else if off = 0x205000 then 0x3
  else if off = 0x206000 then 0xFFFFFF
  else if off = 0x300000 then 0x3F
  else if off = 0x300004 then 0xFFFFF
  else if off = 0x300020 ∨ off = 0x500008 then 0x1
  else 0

/-- A 32-bit register write, journaled where it changes a LIVE or HALTED field; the entry holds the register's new value. -/
def Dev.writeWord (d : Dev) (fn off : Nat) (v : BitVec 32) : Dev :=
  let mask := journalMask off
  if mask = 0 then d.writeBar0 fn off v
  else
    let new := BitVec.ofNat 32 ((d.writeBar0 fn off v).word fn off)
    d.journaled fn off new.toNat (decide (BitVec.ofNat 32 (d.word fn off) &&& mask ≠ new &&& mask)) fun d => d.writeBar0 fn off v

/-- A write that reaches a function's BAR0. -/
def Dev.barWrite (d : Dev) (fn : Nat) (k : Dev → Dev) : Dev := if d.barOpen fn then k d else d

/-- REGISTER_WRITE: a 64-bit write acts on both halves. -/
def execRegisterWrite (fn offset : Nat) (wide : Bool) (value : BitVec 64) (s : State) : Out :=
  s.run fun d => d.barWrite fn fun d =>
    let off := offset / 4 * 4
    let d := d.writeWord fn off (value.extractLsb' 0 32)
    if wide then d.writeWord fn (off + 4) (value.extractLsb' 32 32) else d

/-- INT_WIN_CFG_WRITE. -/
def execIntWinCfgWrite (fn n : Nat) (value : BitVec 32) (s : State) : Out :=
  s.run fun d => if 16 ≤ n then d else d.barWrite fn fun d => d.writeWord fn (0x10000 + 4 * n) value

/-- INT_CQ_HEAD_WRITE. -/
def execIntCqHeadWrite (fn n : Nat) (value : BitVec 32) (s : State) : Out :=
  s.run fun d => if 16 ≤ n then d else d.barWrite fn fun d => d.writeHead fn n value

/-- INT_GQ_HEAD_WRITE. -/
def execIntGqHeadWrite (fn : Nat) (value : BitVec 32) (s : State) : Out :=
  s.run fun d => d.barWrite fn fun d => d.writeHead fn 16 value

/-- CNT_CLEAR: only the manager's write clears. -/
def execCntClear (fn : Nat) (s : State) : Out :=
  s.run fun d => d.barWrite fn fun d => if fn = 0 then d.clearCounters else d

/-- CCH_LA_RETAIN_WRITE. -/
def execCchLaRetainWrite (fn n : Nat) (value : BitVec 32) (s : State) : Out :=
  s.run fun d => if 24 ≤ n then d else d.barWrite fn fun d => d.writeWord fn (0x200100 + 4 * n) value

end Sys2Proof.Machine
end

