-- ==== Sys2Proof/Machine/Link.lean ====
section
/-! DEFINITION. The host link: link-down and what it costs (R326, R352), link-up, retrain and degradation (R298, R299, R325, R479), BAR4 resizes (R302, R328), completion timeouts (R346), and far-tier write completions (R217). -/

namespace Sys2Proof.Machine

/-! ## Link-down (R326) -/

/-- A facet's address leads to host or peer memory. -/
def Dev.onBusSide (d : Dev) (f va : Nat) : Bool :=
  match d.translate f va with
  | .bus .. => true
  | _ => false

/-- Some byte of a range does. -/
def Dev.rangeOnBus (d : Dev) (f va n : Nat) : Bool :=
  (List.range (n / pageBytes + 2)).any fun i => d.onBusSide f (min (va + i * pageBytes) (va + n - 1))

/-- The descriptor in execution reads or writes host or peer memory. -/
def Dev.descOnBus (d : Dev) (f : Nat) (x : Desc) : Bool :=
  !x.bad && !x.overlaps && ((decide (x.op = 0) && d.rangeOnBus f x.src.toNat x.length) || d.rangeOnBus f x.dst.toNat x.length)

/-- A channel at link-down: its descriptor in execution is host-lost, a halted one leaves HALTED as by ABORT, a fetch from host memory
fails, and outstanding confirmation reads are lost (R326, R352). The mappings still stand when this is asked. Log 31, DEDUCED. -/
def Dev.dmaLinkDown (d : Dev) (ch : Nat) : Dev :=
  let k := d.channel ch
  match k.run with
  | none => d
  | some r =>
    let d := if r.confirms.isEmpty then d else (d.markHostLost r.fn r.serial).updRun ch fun r => { r with confirms := [] }
    let fetchLost := !r.chainEnd && decide (r.fault = 0) && decide (r.fetched < r.maxDesc) && !r.freezing && d.onBusSide r.fn r.nextVa.toNat
    let d := if fetchLost then (d.markHostLost r.fn r.serial).updRun ch fun r => { r with fault := 0x202 } else d
    match r.desc with
    | [] => if fetchLost && decide (k.state = .running) then d.dmaNext ch else d
    | x :: _ =>
      if !d.descOnBus r.fn x || !(decide (k.state = .running) || decide (k.state = .halted)) then d
      else
        let d := d.markHostLost r.fn r.serial
        if k.state = .halted then d.dmaAbort ch else d.dmaDone ch 0x108 false true

/-- Fences whose confirmation reads are out end; their launches are host-lost. -/
def Dev.fencesLinkDown (d : Dev) : Dev :=
  let waits (b : Block) : Bool := b.beams.any fun m => !m.fenceWait.isEmpty
  let d := Dev.forEach (d.blocks.filter waits) (fun d b =>
    match d.launch? b.launch with
    | some l => d.markHostLost l.facet l.cmd
    | none => d) d
  { d with blocks := d.blocks.map fun b => { b with beams := b.beams.map fun m => { m with fenceWait := [] } } }

/-- A facet at link-down (R326 steps 2 to 4): commands whose confirmation reads are out are host-lost; rings, bus mappings, keyed
apertures and windows go; plain apertures wait for HELLO (R328); one LINK_DOWN glint is held. Log 31, DEDUCED. -/
def Facet.linkDown (x : Facet) : Facet :=
  let lost (c : Cmd) : Bool := !c.confirms.isEmpty && !c.hostLost
  let n := countIf lost x.cmds
  let lose (c : Cmd) : Cmd :=
    if c.confirms.isEmpty then c else { c with confirms := [], hostLost := true, status := if c.state = .ended then 0x108 else c.status }
  let x := { x with cmds := x.cmds.map lose, lostCount := x.lostCount + n }
  let x := x.cancelRings.zeroWindows
  { x with buses := [], apertures := x.apertures.filter fun a => !a.keyed, ringsVoid := true, bar4AtDown := if x.plainPending then x.bar4AtDown else x.bar4,
           plainPending := true }

/-- The link goes down, by DL_Down or PERST#. Log 31, DEDUCED. -/
def Dev.linkLost (d : Dev) : Dev :=
  if !d.host.linkUp then d
  else
    let d := d.count 0x606018 1
    let d := d.updHost fun h => { h with linkUp := false, rate := 0, width := 0 }
    let d := d.updSecurity fun x => { x with ideLink := false }
    let there := d.facetsThere
    let d := Dev.forEach there (fun d f => d.updFacet f fun x => { x with linkDownHeld := true }) d
    let d := Dev.forEach (List.range 64) Dev.dmaLinkDown d
    let d := d.fencesLinkDown
    Dev.forEach there (fun d f => d.updFacet f Facet.linkDown) d

/-- LINK_DOWN. -/
def execLinkDown (s : State) : Out := s.run Dev.linkLost

/-! ## Link-up (R298, R326 step 5, R479) -/

/-- The reset size of a function's BAR4 (R301). -/
def bar4Reset (fn : Nat) : Nat := if fn = 0 then 68719476736 else 4294967296

/-- Configuration space, NumVFs and the MSI-X tables return to their reset values. -/
def Dev.configReset (d : Dev) : Dev :=
  let d := d.updHost fun h => { h with numVFs := 0, memEnable := [], msixEnable := [] }
  Dev.forEach (List.range 64) (fun d f => d.updFacet f fun x => { x with msix := [], pba := [], bar4 := bar4Reset f }) d

/-- A rate code of R332 and a width of R298. -/
def linkShapeOk (rate width : Nat) : Bool := decide (rate ≤ 6) && [4, 8, 16].contains width

/-- LINK_UP: the port trains once PERST# is deasserted and boot step 2 has completed. -/
def execLinkUp (rate width : Nat) (s : State) : Out :=
  s.run fun d =>
    if d.host.linkUp || d.host.perst || decide (d.boot.step < 3) || !linkShapeOk rate width then d
    else d.configReset.updHost fun h => { h with linkUp := true, rate := BitVec.ofNat 3 rate, width := BitVec.ofNat 5 width }

/-- LINK_RETRAIN: a transparent retrain is counted. -/
def execLinkRetrain (s : State) : Out := s.run fun d => if d.host.linkUp then d.count 0x606010 1 else d

/-- LINK_DEGRADED: the link settles below 128 GT/s or narrower than x16. -/
def execLinkDegraded (rate width : Nat) (s : State) : Out :=
  s.run fun d =>
    if !d.host.linkUp || !linkShapeOk rate width || (decide (rate = 6) && decide (width = 16)) then d
    else (d.updHost fun h => { h with rate := BitVec.ofNat 3 rate, width := BitVec.ofNat 5 width }).glint 0 0x103 rate width 0

/-! ## BAR4 (R301, R302, R328) -/

/-- A size that a function's BAR4 can take. -/
def bar4SizeOk (fn size : Nat) : Bool :=
  decide (2 ^ Nat.log2 size = size) && decide (2 ^ 30 ≤ size) && decide (size ≤ if fn = 0 then 2 ^ 40 else 2 ^ 36)

/-- A resize cancels every aperture mapping; between a link-down and the next HELLO the plain ones stay recorded. -/
def Facet.resizeBar4 (x : Facet) (size : Nat) : Facet :=
  if size = x.bar4 then x
  else { x with bar4 := size, apertures := if x.plainPending then x.apertures.filter fun a => !a.keyed else [] }

/-- BAR4_RESIZE. -/
def execBar4Resize (fn size : Nat) (s : State) : Out :=
  s.run fun d =>
    if !d.host.linkUp || decide (d.boot.step ≠ 9) || decide (64 ≤ fn) || !bar4SizeOk fn size || (d.boot.recovery && decide (fn ≠ 0)) then d
    else d.updFacet fn fun x => x.resizeBar4 size

/-! ## Reads that get no completion (R226, R345, R346) -/

/-- COMPLETION_TIMEOUT: the confirmation reads of the agent fail, or the channel's access to host or peer memory is a bus error. -/
def execCompletionTimeout (agent : ConfirmAgent) (s : State) : Out :=
  s.run fun d =>
    match agent with
    | .beam b =>
      match d.ctx? b with
      | some c => Dev.forEach c.beam.fenceWait (fun d r => d.confirmDone agent r false) d
      | none => d
    | .command fn serial =>
      match (d.facet fn).cmd? serial with
      | some c => Dev.forEach c.confirms (fun d r => d.confirmDone agent r false) d
      | none => d
    | .channel ch =>
      let k := d.channel ch
      match k.run with
      | none => d
      | some r =>
        if k.state = .confirming then Dev.forEach r.confirms (fun d g => d.confirmDone agent g false) d
        else if k.state ≠ .running then d
        else
          match r.desc with
          | [] =>
            if !r.chainEnd && decide (r.fault = 0) && decide (r.fetched < r.maxDesc) && d.onBusSide r.fn r.nextVa.toNat then d.dmaStop ch 0x202 else d
          | x :: _ =>
            let src := x.src.toNat + r.doneBytes
            if x.bad = false ∧ x.overlaps = false ∧ x.op = 0 ∧ d.onBusSide r.fn src = true then d.dmaError ch src false else d

/-- FAR_WRITE_COMPLETE: the memory device has completed a write. -/
def execFarWriteComplete (line : Nat) (s : State) : Out := s.run fun d => d.farWriteDone line

end Sys2Proof.Machine
end

