-- ==== Sys2Proof/Machine/Facets.lean ====
section
/-! DEFINITION. Facets (R362 to R385): quotas, creation and resizing, quiesce, the reset actions, reset, destroy and FLR, resume, dirty logging and query. -/

namespace Sys2Proof.Machine

/-! ## Quota blocks (R364, R365, R369, R370) -/

/-- The quota block at a payload's start. -/
def quotaOf (p : List Byte) : Quota :=
  { partition := bit (leAt p 1 1) 6, maxClass := bits (leAt p 2 1) 0 2, weight := bits (leAt p 3 1) 0 7, hbmPages := leAt p 4 4,
    sessions := bits (leAt p 8 4) 0 17, riders := bits (leAt p 12 2) 0 13, dmaMask := BitVec.ofNat 64 (leAt p 16 8),
    share := bits (leAt p 24 2) 0 10, mCores := BitVec.ofNat 768 (leAt p 32 96), vCores := BitVec.ofNat 192 (leAt p 128 24) }

def Quota.inRange (q : Quota) : Bool :=
  decide (1 ≤ q.weight) && decide (q.weight ≤ 64) && decide (q.sessions ≤ 65536) && decide (q.riders ≤ 5120) && decide (q.share ≤ 768) &&
    (!q.partition || decide (q.share = 0))

/-- The cores of a mask pair, by CORE number. -/
def Quota.hasCore (q : Quota) (c : Nat) : Bool := if coreIsVector c then q.vCores.getLsbD (coreNum c) else q.mCores.getLsbD c
def Quota.cores (q : Quota) : NSet := allCores.filter q.hasCore

/-- The quotas of two facets overlap as R365 forbids. -/
def Quota.clashes (q o : Quota) : Bool :=
  ((q.partition || o.partition) && (decide (q.mCores &&& o.mCores ≠ 0) || decide (q.vCores &&& o.vCores ≠ 0))) ||
    decide (q.dmaMask &&& o.dmaMask ≠ 0)

/-- The checks of R370 after the fields and the number of facets, for facet f, whose reservation is `old` pages now. Log 29, DEDUCED. -/
def Dev.quotaCheck (d : Dev) (f : Nat) (q : Quota) (old : Nat) : Option Code :=
  if q.cores.any d.coreRetired then some 0x640
  else if d.facetsThere.any fun g => decide (g ≠ 0) && decide (g ≠ f) && q.clashes (d.facet g).quota then some 0x511
  else if q.partition && q.cores.any d.isLehrCore then some 0x512
  else if d.hbmFree 0 < q.hbmPages - old then some 0x513
  else none

/-- The bytes of a quota block (R369). -/
def Dev.quotaBytes (d : Dev) (f : Nat) : List Byte :=
  let q := (d.facet f).quota
  let mask (lo n : Nat) : List Byte :=
    (List.range n).map fun i => BitVec.ofNat 8 (((List.range 8).map fun j => if d.coreOfFacet f (lo + 8 * i + j) then 2 ^ j else 0).sum)
  [1, BitVec.ofNat 8 (f + 64 * boolNat q.partition), BitVec.ofNat 8 q.maxClass, BitVec.ofNat 8 q.weight] ++ leBytes 4 (d.hbmQuota f) ++
    leBytes 4 q.sessions ++ leBytes 4 q.riders ++ leBytes 8 (d.dmaMask f) ++ leBytes 8 q.share ++ mask 0 96 ++ mask 1024 24 ++ leBytes 8 0

/-! ## Channels (R336, R372) -/

/-- Moves a channel's queued commands, in order, to the held channel of their facet with the fewest queued; where the facet holds none
they end with DMA_NO_CHANNEL. -/
def Dev.moveQueue (d : Dev) (ch : Nat) : Dev :=
  let q := (d.channel ch).queue
  Dev.forEach q (fun d e =>
    match d.leastQueued e.fn with
    | some n => d.updChannel n fun k => { k with queue := k.queue ++ [e] }
    | none => d.endCmd e.fn e.serial 0x203 0) (d.updChannel ch fun k => { k with queue := [] })

/-- Every channel passes to the facet whose quota grants it, once its running command has completed. -/
def Dev.assignChannels (d : Dev) : Dev :=
  let moved := (List.range 64).filter fun ch => decide ((d.channel ch).owner ≠ d.maskOwner ch)
  let d := Dev.forEach (List.range 64) (fun d ch => d.updChannel ch fun k => { k with leaving := decide (k.owner ≠ d.maskOwner ch) }) d
  Dev.forEach moved (fun d ch =>
    let d := d.moveQueue ch
    if (d.channel ch).run.isSome then d
    else d.updChannel ch fun k => { k with owner := d.maskOwner ch, leaving := false }) d

/-! ## Cores that change hands (R124, R282, R365, R372) -/

/-- The retention marks of cores that leave a facet are cleared. -/
def Dev.clearRetains (d : Dev) (cores : NSet) : Dev := Dev.forEach cores Dev.clearRetain d

/-- Hot slots leave the cores of a partition. -/
def Dev.clearSlots (d : Dev) (cores : NSet) : Dev :=
  Dev.forEach cores (fun d c => if d.serving.slots.any fun s => decide (s.num < 16) && NSet.has s.cores c then d.slotLosesCore c else d) d

/-! ## FACET_CREATE (R368 to R371) -/

/-- A facet may be created now (R463, R464). -/
def Dev.createRefusal (d : Dev) : Option Code :=
  if d.security.lifecycle = 0 ∨ d.security.lifecycle = 3 then some 0x803 else if d.security.debug = 3 then some 0x806 else none

/-- The facet number that a request names, or the lowest free one for 0. -/
def Dev.newFacet (d : Dev) (asked : Nat) : Option Nat :=
  if asked ≠ 0 then some asked else (List.range 63).map (· + 1) |>.find? fun f => !d.facetExists f

/-- The record of a facet as creation makes it; what belongs to the function stays. -/
def Facet.created (x : Facet) (q : Quota) : Facet :=
  { Facet.reset with mailbox := x.mailbox, nextSerial := x.nextSerial, msix := x.msix, pba := x.pba, bar4 := x.bar4, bar4AtDown := x.bar4, state := .running, quota := q }

/-- A facet restarts its own counters (R154). -/
def Dev.clearFacetCounters (d : Dev) (f : Nat) : Dev := { d with facetCounters := d.facetCounters.filter fun e => decide (e.1 / 16777216 ≠ f) }

/-- Creates facet f with a quota. -/
def Dev.createFacet (d : Dev) (f : Nat) (q : Quota) : Dev :=
  let d := (d.updFacet f fun x => x.created q).clearFacetCounters f
  let d := if q.partition then (d.clearRetains q.cores).clearSlots q.cores else d
  d.assignChannels

/-- FACET_CREATE, code 0x0500. Log 29, DEDUCED. -/
def execFacetCreate (fn : Nat) (s : State) : Out :=
  s.run fun d => d.mbxRun fn 0x0500 ofFacetField fun d p =>
    let q := quotaOf p
    let asked := bits (leAt p 1 1) 0 6
    match d.createRefusal with
    | some st => .refuse st []
    | none =>
      if !q.inRange then .refuse 0x3 []
      else if asked ≠ 0 ∧ d.facetExists asked = true then .refuse 0x502 []
      else match d.newFacet asked with
        | none => .refuse 0x510 []
        | some f =>
          match d.quotaCheck f q 0 with
          | some st => .refuse st []
          | none => .ok (d.createFacet f q) ([1, BitVec.ofNat 8 f] ++ leBytes 6 0)

/-! ## Targets (R363, R368) -/

/-- The facet that a command names, in a state that it allows; or the refusal. -/
def Dev.facetTarget (d : Dev) (p : List Byte) (allowed : FacetState → Bool) : Except Code Nat :=
  let f := bits (leAt p 1 1) 0 6
  if f = 0 then .error 0x3
  else if !d.facetExists f then .error 0x503
  else if !allowed (d.facet f).state then .error 0x502
  else .ok f

def FacetState.isStopped : FacetState → Bool
  | .quiesced | .frozen => true
  | _ => false

/-! ## FACET_RESIZE (R372) -/

/-- The items above their quota, in the order of FCT_STATE.OVER. -/
def Dev.overNow (d : Dev) (f : Nat) : BitVec 6 :=
  let q := (d.facet f).quota
  let cores := d.blocks.any fun b => decide (b.facet = f) && !q.hasCore b.core
  let channels := (List.range 64).any fun ch => decide ((d.channel ch).owner = f) && (d.channel ch).leaving
  BitVec.ofNat 6 (boolNat cores + 2 * boolNat (decide (q.hbmPages < d.hbmUsed f)) + 4 * boolNat (decide (q.sessions < d.openSessions f)) +
    8 * boolNat (decide (q.riders < d.ridersOf f)) + 16 * boolNat channels + 32 * boolNat (decide ((q.share : Rat) < d.pinnedCores f)))

/-- Releases a facet's pins, most recent first, until their total is within its share. -/
def Dev.releasePins (d : Dev) (f : Nat) : Nat → Dev
  | 0 => d
  | fuel + 1 =>
    if d.pinnedCores f ≤ ((d.facet f).quota.share : Rat) then d
    else
      let pins := (d.serving.models.map fun m => (m.refs.filter fun r => decide (r.facet = f) && r.pinned).map fun r => (m.num, r.pinOrder)).flatten
      match leastBy (fun e => d.serving.nextOrder - e.2) pins with
      | none => d
      | some (num, _) =>
        (d.updModel num fun m => { m with refs := updAll (fun r => decide (r.facet = f)) (fun r => { r with pinned := false }) m.refs }).releasePins f fuel

/-- The blocks of a facet on cores that it has lost are switched out, whole clusters together. -/
def Dev.saveLost (d : Dev) (f : Nat) (cores : NSet) : Dev :=
  d.standSwitch (d.clusterCores 8 (cores.filter fun c => (d.blocksOn c).any fun b => decide (b.facet = f)))

/-- Applies a new quota. Log 50, DEDUCED. -/
def Dev.resizeFacet (d : Dev) (f : Nat) (q : Quota) (preempt : Bool) : Dev :=
  let old := (d.facet f).quota
  let removed := old.cores.filter fun c => !q.hasCore c
  let added := q.cores.filter fun c => !old.hasCore c
  let d := d.updFacet f fun x => { x with quota := q }
  let d := d.clearRetains removed
  let d := if q.partition then (d.clearRetains added).clearSlots added else d
  let d := if q.partition then Dev.forEach removed (fun d c =>
      if d.serving.slots.any fun s => decide (16 ≤ s.num) && NSet.has s.cores c then d.slotLosesCore c else d) d else d
  let d := if preempt then (d.saveLost f removed).releasePins f 256 else d
  let d := d.assignChannels
  d.updFacet f fun x => { x with overBits := d.overNow f }

/-- FACET_RESIZE, code 0x0502. -/
def execFacetResize (fn : Nat) (s : State) : Out :=
  s.run fun d => d.mbxRun fn 0x0502 ofFacetField fun d p =>
    match d.facetTarget p fun _ => true with
    | .error st => .refuse st []
    | .ok f =>
      let old := (d.facet f).quota
      let q := { quotaOf p with partition := old.partition }
      if !q.inRange then .refuse 0x3 []
      else match d.quotaCheck f q old.hbmPages with
        | some st => .refuse st []
        | none =>
          if q.partition && decide (countIf (fun c => decide (c < 768)) q.cores < d.partitionNeed f) then .refuse 0x408 []
          else .ok (d.resizeFacet f q (bit (leAt p 1 1) 7)) []

/-- OVER_CLEARED: items whose use has fallen within the quota clear; the last one is reported. -/
def Dev.overCleared (d : Dev) (f : Nat) : Dev :=
  let x := d.facet f
  let now := x.overBits &&& d.overNow f
  if f = 0 ∨ x.overBits = 0 then d
  else
    let d := d.updFacet f fun x => { x with overBits := now }
    if now = 0 then d.glint 0 0x501 f 2 0 else d

def execOverCleared (facet : Nat) (s : State) : Out := s.run fun d => d.overCleared facet

/-! ## Ending a facet's work (R373) -/

/-- A command has neither ended nor completed. -/
def Cmd.unfinished (c : Cmd) : Bool := decide (c.state = .waiting) || decide (c.state = .running)

/-- Commands of a facet that a forced end ends. -/
def Facet.unfinished (x : Facet) : Nat := countIf (fun c => c.unfinished && !c.dropped) x.cmds

/-- A sequence is removed; with `header`, its output header is written as for a cancelled one. -/
def Dev.removeSequence (d : Dev) (num : Nat) (q : Sequence) (st : Code) (header : Bool) : Dev :=
  if header then d.endSequence num q.serial 2 st
  else (d.updSession num fun s => { s with seqs := eraseFirst (fun v => decide (v.serial = q.serial)) s.seqs }).endCmd q.facet q.serial st q.made

/-- The DMA commands of a facet end: the running ones issue no more lines. -/
def Dev.endDma (d : Dev) (f : Nat) (st : Code) : Dev :=
  Dev.forEach (List.range 64) (fun d ch =>
    let mine := (d.channel ch).queue.filter fun q => decide (q.fn = f)
    let d := d.updChannel ch fun k => { k with queue := k.queue.filter fun q => decide (q.fn ≠ f) }
    let d := Dev.forEach mine (fun d q => d.endCmd f q.serial st 0) d
    match (d.channel ch).run with
    | some r => if r.fn = f then (d.updRun ch fun r => { r with desc := [], fault := st, confirms := [] }).dmaFinish ch else d
    | none => d) d

/-- A rider is removed as a cancel removes it (R259, R373): aboard, it leaves at the next block boundary; one that is already leaving goes on,
and under a reset, which unmaps its areas, it goes at once. -/
def Dev.removeRider (d : Dev) (r : Rider) (st : Code) (quiesce : Bool) : Dev :=
  if r.isAboard then d.updRider r.id fun r => { r with ending := some (r.ending.getD st) }
  else if quiesce && !(r.isWaiting || decide (r.state = .frozen)) then d
  else
    let d := d.endRider r st 0
    match r.group with
    | some g => d.passGroup g
    | none => d

/-- The FLR column of R373: everything of the facet ends with a status. -/
def Dev.endWork (d : Dev) (f : Nat) (st : Code) (header : Bool) : Dev :=
  let d := Dev.forEach (d.launches.filter fun l => decide (l.facet = f)) (fun d l => d.endLaunch l.id st) d
  let d := Dev.forEach (d.lehr.riders.filter fun r => decide (r.facet = f)) (fun d r => d.removeRider r st header) d
  let d := Dev.forEach (d.serving.sessions.filter fun s => decide (s.facet = f)) (fun d s =>
    Dev.forEach s.seqs (fun d q => d.removeSequence s.num q st header) d) d
  let d := if header then Dev.forEach d.serving.models (fun d m => d.closesDone m.num) d else d
  let d := d.endDma f st
  let d := Dev.forEach (d.groups.filter fun g => decide (g.facet = f) && decide (g.num < 448)) (fun d g => d.closeGroup g.num) d
  let rides := d.lehr.riders.filter fun r => header && decide (r.facet = f)
  let left (c : Cmd) : Bool := c.unfinished && !rides.any fun r => decide (r.serial = c.serial) || r.cancels.contains c.serial
  let d := Dev.forEach ((d.facet f).cmds.filter left) (fun d c => d.endCmd f c.serial st 0) d
  Dev.forEach (List.range 16) Dev.retireCheck d

/-! ## FACET_QUIESCE (R373, R374) -/

/-- Bytes of a freeze's store: whole saves of the resident blocks, and the blocks saved already. -/
def Dev.storeBytes (d : Dev) (f : Nat) : Nat :=
  ((d.blocks.filter fun b => decide (b.facet = f)).map fun b =>
    match d.launch? b.launch with
    | some l => l.wholeSize
    | none => 0).sum + ((d.saved.filter fun v => decide (v.block.facet = f)).map SavedBlock.size).sum

/-- The channels that a facet has halted end as by ABORT. -/
def Dev.abortHalted (d : Dev) (f : Nat) : Dev :=
  Dev.forEach ((List.range 64).filter fun ch =>
    let k := d.channel ch
    decide (k.state = .halted) && ((k.run.map fun r => decide (r.fn = f)).getD false)) Dev.dmaAbort d

/-- What a freeze does at once: saved blocks pass to the store, waiting riders leave the queue, running DMA commands are told to stop,
and open reduction rounds are poisoned. -/
def Dev.freezeWork (d : Dev) (f : Nat) : Dev :=
  let d := { d with saved := updAll (fun v => decide (v.block.facet = f)) (fun v => { v with frozen := true }) d.saved }
  let d := d.updLehr fun l =>
    { l with riders := updAll (fun r => decide (r.facet = f) && r.isWaiting) (fun r => { r with state := .frozen }) l.riders }
  let d := Dev.forEach (List.range 64) (fun d ch =>
    match (d.channel ch).run with
    | some r =>
      if r.fn ≠ f then d
      else
        let d := d.updRun ch fun r => { r with freezing := true }
        if (d.channel ch).state = .running ∧ r.desc = [] then d.dmaNext ch else d
    | none => d) d
  { d with groups := updAll (fun g => decide (g.facet = f) && !g.filled.isEmpty) (fun g => { g with poisoned := true }) d.groups }

/-- The facet's work has ended, or has been saved. -/
def Dev.workStopped (d : Dev) (f : Nat) : Bool :=
  let x := d.facet f
  if x.freezing then
    d.blocks.all (fun b => decide (b.facet ≠ f)) &&
    d.lehr.riders.all (fun r => decide (r.facet ≠ f) || decide (r.state = .frozen)) &&
    d.serving.sessions.all (fun s => decide (s.facet ≠ f) || s.seqs.all fun q => !q.joined) &&
    d.channels.all (fun e => match e.2.run with
      | some r => decide (r.fn ≠ f) || decide (e.2.state = .idle)
      | none => true)
  else x.cmds.all fun c => !c.unfinished

/-- QUIESCE's response: the commands that it ended, at offset 4. -/
def quiesceResponse (n : Nat) : List Byte := leBytes 4 1 ++ leBytes 4 n

/-- The quiesce in progress is over: the facet's new state, and the command's completion. -/
def Dev.quiesceEnds (d : Dev) (f : Nat) : Dev :=
  let x := d.facet f
  let d := d.updFacet f fun x => { x with state := if x.freezing then .frozen else .quiesced, freezing := false, quiescer := none }
  match x.quiescer with
  | some fn => d.mbxFinish fn 0 (quiesceResponse x.endedCount)
  | none => d

/-- FACET_QUIESCE, code 0x0503. -/
def execFacetQuiesce (fn : Nat) (s : State) : Out :=
  s.run fun d => d.mbxRun fn 0x0503 ofFacetField fun d p =>
    let freeze := bit (leAt p 2 1) 0
    let limit := leAt p 4 2
    match d.facetTarget p fun t => decide (t = .running) with
    | .error st => .refuse st []
    | .ok f =>
      let store := pagesOf (d.storeBytes f)
      let quiescing (d : Dev) : Dev := (d.updFacet f fun x =>
        { x with state := .quiescing, freezing := freeze, limitMs := limit, endedCount := 0, quiescer := some fn,
                 storePages := if freeze then store else x.storePages })
      if 60000 < limit then .refuse 0x3 []
      else if freeze && decide (d.hbmFree 0 < store) then .refuse 0x650 []
      else if freeze then .wait (((quiescing d).abortHalted f).freezeWork f)
      else if limit = 0 then
        let n := (d.facet f).unfinished
        let d := (quiescing d).endWork f 0x516 true
        if d.workStopped f then .ok (d.updFacet f fun x => { x with state := .quiesced, quiescer := none }) (quiesceResponse n)
        else .wait (d.updFacet f fun x => { x with endedCount := n })
      else .wait ((quiescing d).abortHalted f)

/-- A freeze completes the rounds that are still open, and their done words are written (R373). -/
def Dev.finishRounds (d : Dev) (f : Nat) : Dev :=
  Dev.forEach ((d.groups.filter fun g => decide (g.facet = f) && decide (g.num < 448)).map RedGroup.num) (fun d n => ((d.doneWord n).forceRound n).doneWord n) d

/-- QUIESCE_DONE. -/
def execQuiesceDone (facet : Nat) (s : State) : Out :=
  s.run fun d =>
    if (d.facet facet).state = .quiescing ∧ d.workStopped facet = true then
      (if (d.facet facet).freezing then d.finishRounds facet else d).quiesceEnds facet
    else d

/-- QUIESCE_LIMIT: LIMIT_MS of a drain has passed. -/
def execQuiesceLimit (facet : Nat) (s : State) : Out :=
  s.run fun d =>
    let x := d.facet facet
    if x.state ≠ .quiescing ∨ x.freezing = true then d
    else
      let d := (d.endWork facet 0x516 true).updFacet facet fun v => { v with endedCount := x.unfinished }
      if d.workStopped facet then d.quiesceEnds facet else d

/-! ## The reset actions (R375, R378) -/

/-- A page of facet 0 holds data of a block of a registered corpus. -/
def Dev.pageOfCorpus (d : Dev) (p : PageMap) : Bool :=
  d.lehr.corpora.any fun x => x.blocks.any fun b => (b.ranges x.i8).any fun r =>
    decide (p.va * pageBytes < r.1 + r.2) && decide (r.1 < (p.va + 1) * pageBytes)

/-- A command of the function's own mailbox that waits for work which the reset ends, completes. -/
def Dev.endMailbox (d : Dev) (f : Nat) (st : Code) : Dev :=
  let m := (d.facet f).mailbox
  if m.accepted && [0x0101, 0x0202].contains m.command then d.mbxFinish f st [] else d

/-- The reset actions on a facet; the commands that end carry `st`, and their completions are discarded. The gaffer's own pins as facet 0, and the marks
of the hot set's cores, stay (R378; log 31, DEDUCED). -/
def Dev.resetActions (d : Dev) (f : Nat) (st : Code) : Dev :=
  let n := (d.facet f).unfinished
  let d := (d.voidConsent f).endWork f st false
  let d := d.dropFarWaits (fun w => decide (w.fn = f)) st
  let d := d.endMailbox f st
  let d := Dev.forEach (d.serving.sessions.filter fun s => decide (s.facet = f)) (fun d s => d.dropSession s.num) d
  let d := Dev.forEach d.serving.models (fun d m => Dev.forEach (m.refs.filter fun r => decide (r.facet = f)) (fun d r => d.dropRef m.num f r.handle) d) d
  let gaffers (line : Nat) : Bool := decide (f = 0) && d.serving.warms.any fun w => w.frames.contains (line / pageLines)
  let d := { d with slices := d.slices.map fun (e : Nat × Slice) =>
    (e.1, { e.2 with ways := updAll (fun w => decide (w.pin = some f) && !gaffers w.line) (fun w => { w with pin := none, retained := false }) e.2.ways }) }
  let hot (c : Nat) : Bool := decide (f = 0) && d.serving.slots.any fun s => decide (s.num < 16) && NSet.has s.cores c
  let d := d.clearRetains ((List.range 768).filter fun c => d.coreOfFacet f c && !hot c)
  let d := d.releasePages f fun p => !(decide (f = 0) && d.pageOfCorpus p)
  let d := d.updFacet f fun x =>
    { ((x.cancelRings).zeroWindows) with
      cmds := [], genBase := x.genBase + 1, credential := none, hello := false, attached := false, ringsVoid := true, buses := [],
      apertures := [], plainPending := false, bar4AtDown := x.bar4, glintLost := false, linkDownHeld := false, lostCount := 0, rewritten := 0,
      freezing := false, storePages := 0, aborted := BitVec.ofNat 16 (min n 0xFFFF) }
  d.clearFacetCounters f

/-! ## FACET_RESET, FACET_DESTROY (R376) -/

/-- FACET_RESET, code 0x0505. -/
def execFacetReset (fn : Nat) (s : State) : Out :=
  s.run fun d => d.mbxRun fn 0x0505 ofFacetField fun d p =>
    match d.facetTarget p FacetState.isStopped with
    | .error st => .refuse st []
    | .ok f => .ok ((d.resetActions f 0x516).updFacet f fun x => { x with state := .quiesced }) []

/-- The facet goes: its quota, its channels and its corpus access. -/
def Dev.destroyFacet (d : Dev) (f : Nat) : Dev :=
  let d := d.resetActions f 0x516
  let d := d.updFacet f fun x => { x.created Quota.zero with state := .absent }
  let d := d.updLehr fun l =>
    { l with corpora := l.corpora.map fun c => { c with access := c.access &&& ~~~ BitVec.ofNat 64 (2 ^ f) } }
  d.assignChannels

/-- FACET_DESTROY, code 0x0501. -/
def execFacetDestroy (fn : Nat) (s : State) : Out :=
  s.run fun d => d.mbxRun fn 0x0501 ofFacetField fun d p =>
    match d.facetTarget p FacetState.isStopped with
    | .error st => .refuse st []
    | .ok f => .ok (d.destroyFacet f) []

/-! ## FLR (R306, R377, R378) -/

/-- The function's configuration returns to its reset values; a mailbox command that the gaffer has not accepted is abandoned, and the
response of one that it has is discarded. -/
def Dev.functionReset (d : Dev) (fn : Nat) : Dev :=
  let d := d.updHost fun h =>
    { h with memEnable := if fn = 0 then [] else NSet.del h.memEnable fn, msixEnable := if fn = 0 then [] else NSet.del h.msixEnable fn,
             numVFs := if fn = 0 then 0 else h.numVFs }
  let d := Dev.forEach (if fn = 0 then List.range 64 else [fn]) (fun d f => d.updFacet f fun x => { x with msix := [], pba := [] }) d
  d.updFacet fn fun x =>
    { x with bar4 := bar4Reset fn, bar4AtDown := bar4Reset fn, apertures := [],
             mailbox := { x.mailbox with go := false, busy := false, discard := x.mailbox.accepted } }

/-- FLR of a function: what it sends is discarded while the facet is reset. -/
def Dev.flrOf (d : Dev) (fn : Nat) : Dev :=
  if !d.facetExists fn then d.functionReset fn
  else
    let x := d.facet fn
    let d := d.auditEvent fn false 2 fn 0
    let d := d.updHost fun h => { h with flr := NSet.add h.flr fn }
    let d := match x.quiescer with
      | some m => d.mbxFinish m 0x515 []
      | none => d
    let d := d.updFacet fn fun x => { x with mailbox := { x.mailbox with discard := x.mailbox.accepted } }
    let d := (d.resetActions fn 0x515).functionReset fn
    let d := d.updFacet fn fun v => { v with state := if x.state.isStopped then .quiesced else .running, quiescer := none }
    let d := d.updHost fun h => { h with flr := NSet.del h.flr fn }
    d.glint 0 0x501 fn 1 x.unfinished

def execFlr (fn : Nat) (s : State) : Out :=
  s.run fun d => if d.onBus fn && decide (d.boot.step = 9) && (!d.boot.recovery || decide (fn = 0)) then d.flrOf fn else d

/-! ## FACET_RESUME (R381) -/

/-- Frozen riders re-enter the boarding queue in their saved order; one whose corpus is not registered or not granted completes. -/
def Dev.resumeRiders (d : Dev) (f : Nat) : Dev :=
  let mine := sortBy (fun a b => decide (a.accepted ≤ b.accepted)) (d.lehr.riders.filter fun r => decide (r.facet = f) && decide (r.state = .frozen))
  Dev.forEach mine (fun d r =>
    let granted := ((d.lehr.corpus? r.corpus).map fun x => x.access.getLsbD f).getD false
    if !granted then d.endRider r 0x303 0
    else
      let n := d.nextAccept
      ({ d with nextAccept := n + 1 } : Dev).updRider r.id fun r =>
        { r with state := .waiting, accepted := n, starts := 0, promoted := false }) d

/-- Parked DMA commands go on at their next descriptor. -/
def Dev.resumeDma (d : Dev) (f : Nat) : Dev :=
  Dev.forEach (List.range 64) (fun d ch =>
    match (d.channel ch).run with
    | some r =>
      if r.fn = f ∧ r.freezing = true then
        (d.updRun ch fun r => { r with freezing := false }).updChannel ch fun k => { k with state := .running }
      else d
    | none => d) d

/-- FACET_RESUME, code 0x0504. -/
def execFacetResume (fn : Nat) (s : State) : Out :=
  s.run fun d => d.mbxRun fn 0x0504 ofFacetField fun d p =>
    match d.facetTarget p FacetState.isStopped with
    | .error st => .refuse st []
    | .ok f => .ok (((d.updFacet f fun x => { x with state := .running }).resumeRiders f).resumeDma f) []

/-! ## FACET_DIRTY_LOG (R382, R383) -/

/-- FACET_DIRTY_LOG, code 0x0508. -/
def execFacetDirtyLog (fn : Nat) (s : State) : Out :=
  s.run fun d => d.mbxRun fn 0x0508 ofFacetField fun d p =>
    match d.facetTarget p fun _ => true with
    | .error st => .refuse st []
    | .ok f =>
      let l := (d.facet f).log
      let op := bits (leAt p 2 1) 0 2
      let report := leBytes 8 1 ++ leBytes 8 l.shadow.length
      let base := leAt p 24 8
      let size := leAt p 32 8
      if op = 3 then .refuse 0x3 []
      else if op = 0 then
        if l.on then .refuse 0x518 []
        else if leAt p 8 8 % 8 ≠ 0 ∨ leAt p 16 8 % 8 ≠ 0 ∨ base % 4096 ≠ 0 ∨ size % 4096 ≠ 0 ∨ 2 ^ 40 < size then .refuse 0x3 []
        else
          let e := d.updFacet f fun x =>
            { x with log := { on := true, sideB := false, bitmapA := leAt p 8 8, bitmapB := leAt p 16 8, base := base, size := size, shadow := [] } }
          if e.hbmQuota 0 < e.hbmUsed 0 then .refuse 0x650 [] else .ok e []
      else if !l.on then .refuse 0x518 []
      else if op = 1 then .ok (d.updFacet f fun x => { x with log := { x.log with sideB := !x.log.sideB, shadow := [] } }) report
      else .ok (d.updFacet f fun x => { x with log := DirtyLog.off }) report

/-! ## FACET_QUERY (R363) -/

/-- FACET_QUERY, code 0x0509. -/
def execFacetQuery (fn : Nat) (s : State) : Out :=
  s.run fun d => d.mbxRun fn 0x0509 ofFacetField fun d p =>
    let f := bits (leAt p 1 1) 0 6
    if fn ≠ 0 ∧ f ≠ fn then .refuse 0x5 []
    else if !d.facetExists f then .refuse 0x503 []
    else .ok d (d.quotaBytes f)

end Sys2Proof.Machine
end

