-- ==== Sys2Proof/Machine/FacetImage.lean ====
section
/-! DEFINITION. FACET_SAVE and FACET_RESTORE: the sealed image of a frozen facet and what it holds (R379, R380, R456; log 16, DESIGN CHOICE). -/

namespace Sys2Proof.Config

/-- The facet that an image from another module holds, once its seal opens under a key: the body's layout is not in the manual
(R379, R456; log 16, DESIGN CHOICE). -/
opaque foreignImage : (key : BitVec 256) → (body : List Byte) → Option Machine.Image

end Sys2Proof.Config

namespace Sys2Proof.Machine

/-! ## Headers and seals -/

/-- The first 16 bytes of an image header, which the sealing key covers. -/
def imageHead (f : Nat) (ifSel : Code) (part bytes : Nat) : List Byte :=
  [1, BitVec.ofNat 8 f] ++ leBytes 2 ifSel.toNat ++ leBytes 4 part ++ leBytes 8 bytes

/-- The sealing key: the digest of the migration key followed by header bytes 0 to 15. -/
def Dev.sealKey (d : Dev) (head : List Byte) : BitVec 256 := Config.shake256 (digestBytes (d.security.migration.getD 0) ++ head)

/-- A facet's saved blocks. -/
def Dev.savedOfFacet (d : Dev) (f : Nat) : List SavedBlock := d.saved.filter fun v => decide (v.block.facet = f)

/-- The bytes of a facet's image: header, IV and tag, pages, saved blocks, sessions, and intake state. -/
def Dev.imageBytes (d : Dev) (f : Nat) : Nat :=
  64 + 28 + pageBytes * (d.facet f).pages.length + ((d.savedOfFacet f).map SavedBlock.size).sum + 256 * d.openSessions f +
    Config.imageIntakeBytes

/-! ## FACET_SAVE -/

/-- The contents of a facet's pages, by virtual address, once the caches have written them back. -/
def Dev.pageContents (d : Dev) (f : Nat) : (Mem × NSet) × Dev :=
  let pages := (d.facet f).pages
  let d := Dev.forEach pages (fun d p => d.flushPage f p.frame) d
  let bytes := pages.foldl (fun (m : Mem) p => Mem.paste m (p.va * pageBytes) (Mem.slice d.mem (p.frame * pageBytes) pageBytes)) []
  let poison := pages.foldl (fun (s : NSet) p =>
    NSet.addAll s (((List.range pageLines).filter fun i => d.linePoisoned (p.frame * pageLines + i)).map (p.va * pageLines + ·))) []
  ((bytes, poison), d)

/-- What the sealed body holds. -/
def Dev.imageOf (d : Dev) (f : Nat) (digest key : BitVec 256) (contents : Mem × NSet) : Image :=
  let x := d.facet f
  let launches := d.launches.filter fun l => decide (l.facet = f)
  let mine (fn : Nat) : Bool := decide (fn = f)
  let runs := d.channels.filterMap fun e => e.2.run.bind fun r => if mine r.fn then some (e.1, r) else none
  { digest := digest, key := key, ifSel := x.ifSel, facet := x, launches := launches, saved := d.savedOfFacet f,
    sessions := d.serving.sessions.filter fun s => mine s.facet,
    models := (d.serving.models.filter fun m => m.hasRef f).map fun m =>
      { m with refs := m.refs.filter (fun r => mine r.facet), sources := m.sources.filter (fun s => mine s.facet) },
    riders := d.lehr.riders.filter fun r => mine r.facet,
    dma := runs, queued := (d.channels.map fun e => e.2.queue.filter fun q => mine q.fn).flatten,
    clusters := d.clusters.filter fun c => launches.any fun l => decide (l.id = c.launch),
    groups := d.groups.filter fun g => mine g.facet, bytes := contents.1, poison := contents.2,
    pages := x.pages.length }

/-- FACET_SAVE, code 0x0506. -/
def execFacetSave (fn : Nat) (s : State) : Out :=
  s.run fun d => d.mbxRun fn 0x0506 ofFacetField fun d p =>
    match d.facetTarget p fun t => decide (t = .frozen) with
    | .error st => .refuse st []
    | .ok f =>
      let n := d.imageBytes f
      let response := leBytes 8 1 ++ leBytes 8 n
      if d.security.lifecycle ≠ 2 then .refuse 0x803 []
      else if bit (leAt p 2 1) 0 then .ok d response
      else
        let (id, d) := d.fresh256
        let body := (List.range (n - 64)).map (Config.sealedByte id)
        let head := imageHead f (d.facet f).ifSel (d.readId 0 0x10) n
        let digest := Config.shake256 body
        let (contents, d) := d.pageContents f
        let header := head ++ digestBytes digest ++ leBytes 4 (d.hbmUsed f) ++ leBytes 12 0
        let (written, e) := d.vwrite agentGaffer 0 false none (leAt p 8 8) (header ++ body) false
        if !written then .refuse 0x3 []
        else .ok { e with images := e.images ++ [d.imageOf f digest (d.sealKey head) contents] } response

/-! ## FACET_RESTORE -/

/-- The header and body of the image at an address, where the header's fields and the digest are right. -/
def Dev.readImage (d : Dev) (va : Nat) : Option (List Byte × List Byte) × Dev :=
  let (h, d) := d.gread 0 va 64
  let n := leAt h.bytes 8 8
  if !h.ok || h.poison || decide (leAt h.bytes 0 1 ≠ 1) || decide (n < 64) then (none, d)
  else
    let (b, d) := d.gread 0 (va + 64) (n - 64)
    if b.ok && !b.poison && decide ((Config.shake256 b.bytes).toNat = leAt h.bytes 16 32) then (some (h.bytes, b.bytes), d) else (none, d)

/-- The facet behind the seal: an image of this module's, else another's. -/
def Dev.unseal (d : Dev) (header body : List Byte) : Option Image :=
  let key := d.sealKey (header.take 16)
  match d.images.find? fun i => decide (i.key = key) && decide (i.digest.toNat = leAt header 16 32) with
  | some i => some i
  | none => Config.foreignImage key body

/-- Frames for an image's pages, and their contents. -/
def Dev.restorePages (d : Dev) (f : Nat) (i : Image) : Option Dev :=
  let hbm := i.facet.pages.filter fun p => frameIsHbm p.frame
  let far := i.facet.pages.filter fun p => !frameIsHbm p.frame
  match d.pickPages f false false 0 hbm.length with
  | none => none
  | some (hf, d) =>
    match (if far.isEmpty then some ([], d) else d.pickPages f true false 0x1F far.length) with
    | none => none
    | some (ff, d) =>
      if !ff.all (frameScrubbed d) then none
      else
        let placed := (hbm.zip hf ++ far.zip ff).map fun e => (e.1.va, { e.1 with frame := e.2 })
        let pages := sortBy (fun (a b : PageMap) => decide (a.va ≤ b.va)) (placed.map Prod.snd)
        some (pages.foldl (fun (d : Dev) p =>
          let lines := ((List.range pageLines).filter fun k => NSet.has i.poison (p.va * pageLines + k)).map (p.frame * pageLines + ·)
          { d with mem := Mem.paste (Mem.clear d.mem (p.frame * pageBytes) pageBytes) (p.frame * pageBytes) (Mem.slice i.bytes (p.va * pageBytes) pageBytes),
                   memPoison := NSet.addAll (NSet.clear d.memPoison (p.frame * pageLines) pageLines) lines })
          (d.updFacet f fun x => { x with pages := pages }))

/-- One model is registered again from its recorded sources; the entry's new number. -/
def Dev.restoreModel (d : Dev) (f : Nat) (m : Model) : Except Code (Nat × Dev) :=
  let srcs := m.sources.map fun s => { s with facet := f }
  match m.refs.head? with
  | none => .error 0x403
  | some r =>
    let found := d.sharedEntry f m.digest m.program
    let ref := { r with facet := f }
    if d.matrixCoresLeft < m.cores then .error 0x405
    else if 256 ≤ d.serving.models.length ∧ found = none then .error 0x401
    else if !r.cold && decide (d.hbmFree f < pagesOf m.weightBytes) then .error 0x650
    else if decide (found = none) && !d.partitionHolds f m.cores then .error 0x408
    else
      match d.findImage m.digest m.weightBytes srcs 1 with
      | (none, _) => .error 0x402
      | (some (image, _), d) =>
        match if r.cold then some d else d.addWarm m.digest image with
        | none => .error 0x654
        | some d =>
          match found with
          | some e => .ok (e.num, d.updModel e.num fun e => e.addRef ref srcs)
          | none =>
            let num := d.serving.nextModel
            let e : Model :=
              { m with num := num, refs := [ref], sources := srcs, lost := false, damaged := false, damagedCores := [],
                       partition := (d.facet f).quota.partition }
            .ok (num, (d.updServing fun v => { v with models := v.models ++ [e], nextModel := num + 1 }).loadsNow f num)

/-- Every model, with the list of old and new entry numbers. -/
def Dev.restoreModels (d : Dev) (f : Nat) : List Model → Except Code (List (Nat × Nat) × Dev)
  | [] => .ok ([], d)
  | m :: rest =>
    match d.restoreModel f m with
    | .error st => .error st
    | .ok (num, d) =>
      match Dev.restoreModels d f rest with
      | .error st => .error st
      | .ok (map, d) => .ok ((m.num, num) :: map, d)

/-- Sessions come back under their own numbers, beyond 4,096 resident ones as spilled. -/
def Dev.restoreSessions (d : Dev) (f : Nat) (map : List (Nat × Nat)) (l : List Session) : Dev :=
  Dev.forEach l (fun d s =>
    let s := { s with facet := f, model := ((map.find? fun e => decide (e.1 = s.model)).map Prod.snd).getD 0, closing := none,
                      spilled := s.spilled || decide (4096 ≤ d.residentSessions), seqs := s.seqs.map fun q => { q with facet := f } }
    d.updServing fun v => { v with sessions := v.sessions ++ [s] }) d

/-- Launches and their saved blocks come back under new numbers, in their saved order. -/
def Dev.restoreLaunches (d : Dev) (f : Nat) (i : Image) : Dev :=
  let old := sortBy (fun (a b : Launch) => decide (a.accepted ≤ b.accepted)) i.launches
  let place (id : Nat) : Nat := old.findIdx fun l => decide (l.id = id)
  let launch (l : Launch) : Launch := { l with id := d.nextLaunch + place l.id, facet := f, accepted := d.nextAccept + place l.id }
  let block (b : Block) : Block := { b with launch := d.nextLaunch + place b.launch, facet := f }
  let saved := i.saved.map fun v => { v with block := block v.block, frozen := true, accepted := d.nextAccept + place v.block.launch }
  { d with launches := d.launches ++ old.map launch, saved := d.saved ++ saved,
           clusters := d.clusters ++ i.clusters.map (fun c => { c with launch := d.nextLaunch + place c.launch }),
           nextLaunch := d.nextLaunch + old.length, nextAccept := d.nextAccept + old.length }

/-- Frozen riders come back, out of the queue. -/
def Dev.restoreRiders (d : Dev) (f : Nat) (l : List Rider) : Dev :=
  Dev.forEach l (fun d r =>
    d.updLehr fun v => { v with riders := v.riders ++ [{ r with id := v.nextRider, facet := f, state := .frozen }], nextRider := v.nextRider + 1 }) d

/-- DMA positions come back, each to its own channel where the facet holds it free, else to another that it holds free. -/
def Dev.restoreDma (d : Dev) (f : Nat) (i : Image) : Dev :=
  let region (r : Nat) : Nat := alignDown r pageBytes + f
  let d := Dev.forEach i.dma (fun d e =>
    let free (ch : Nat) : Bool := (d.channel ch).holds f && (d.channel ch).run.isNone
    let run := { e.2 with fn := f, peerRecs := e.2.peerRecs.map fun p => { p with region := region p.region }, freezing := true }
    match (e.1 :: List.range 64).find? free with
    | some ch => d.updChannel ch fun k => { k with run := some run }
    | none => d.endCmd f e.2.serial 0x203 0) d
  Dev.forEach i.queued (fun d q =>
    let n := d.nextAccept
    match d.leastQueued f with
    | some ch => ({ d with nextAccept := n + 1 } : Dev).updChannel ch fun k => { k with queue := k.queue ++ [{ q with fn := f, accepted := n }] }
    | none => d.endCmd f q.serial 0x203 0) d

/-- The record of the restored facet: as saved, with the function's own parts and the new quota. -/
def Facet.restored (now : Facet) (q : Quota) (x : Facet) (store : Nat) : Facet :=
  { x with state := .frozen, quota := q, overBits := 0, aborted := 0, mailbox := now.mailbox, msix := now.msix, pba := now.pba, bar4 := now.bar4,
           bar4AtDown := now.bar4AtDown, consent := none, pages := now.pages, log := DirtyLog.off, storePages := store, freezing := false, endedCount := 0,
           quiescer := none }

/-- The restore itself, its header and quota checked; a step that fails gives its status. -/
def Dev.restoreFacet (d : Dev) (f : Nat) (q : Quota) (i : Image) (pathsOpen : Bool) : Except Code Dev :=
  let peers := countIf BusMap.peer i.facet.buses
  let store := pagesOf (i.saved.map SavedBlock.size).sum
  let d := d.createFacet f q
  if decide (peers ≠ 0) && !(pathsOpen && d.host.linkUp) then .error 0x670
  else if 64 < d.peerMappings + peers then .error 0x671
  else if d.stackFailed && (decide (store ≠ 0) || i.facet.pages.any (fun p => frameIsHbm p.frame) || !i.models.isEmpty) then .error 0x653
  else if d.hbmFree 0 < store then .error 0x650
  else if i.sessions.any fun s => (d.session? s.num).isSome then .error 0x120
  else if i.groups.any fun g => (d.group? g.num).isSome then .error 0x630
  else match d.restorePages f i with
    | none => .error 0x654
    | some d =>
      let d := d.updFacet f fun x => x.restored q i.facet store
      match d.restoreModels f i.models with
      | .error st => .error st
      | .ok (map, d) =>
        let d := ((d.restoreSessions f map i.sessions).restoreLaunches f i).restoreRiders f i.riders
        let d := d.restoreDma f i
        .ok { d with groups := d.groups ++ i.groups.map fun g => { g with facet := f } }

/-- FACET_RESTORE, code 0x0507; `pathsOpen` is what the tests of its peer mappings find. -/
def execFacetRestore (fn : Nat) (pathsOpen : Bool) (s : State) : Out :=
  s.run fun d => d.mbxRun fn 0x0507 ofFacetField fun d p =>
    let f := bits (leAt p 1 1) 0 6
    let block := p.drop 16
    let q := quotaOf block
    if d.facetExists f then .refuse 0x502 []
    else match d.createRefusal with
      | some st => .refuse st []
      | none =>
        match d.readImage (leAt p 8 8) with
        | (none, _) => .refuse 0x517 []
        | (some (header, body), d) =>
          match d.unseal header body with
          | none => .refuse 0x517 []
          | some i =>
            let (lo, hi) := d.ifRange
            let ifSel := leAt header 2 2
            if ifSel < lo ∨ hi < ifSel ∨ q.hbmPages < leAt header 48 4 then .refuse 0x517 []
            else if leAt block 0 1 ≠ 1 then .refuse 0x2 []
            else if !q.inRange then .refuse 0x3 []
            else if (d.newFacet 0).isNone then .refuse 0x510 []
            else match d.quotaCheck f q 0 with
              | some st => .refuse st []
              | none =>
                match d.restoreFacet f q i pathsOpen with
                | .error st => .refuse st []
                | .ok d => .ok d []

end Sys2Proof.Machine
end

