-- ==== Sys2Proof/Machine/ResetOps.lean ====
section
/-! DEFINITION. What every reset keeps and clears: loss of power, the start of a cold boot and of a warm boot (R462, R477, R483, R504, R505). -/

namespace Sys2Proof.Machine

/-- The entries of a table at and above a number. -/
def Tab.above {α : Type} (t : Tab α) (lo : Nat) : Tab α := t.filter fun e => decide (lo ≤ e.1)

/-- The journal as module flash restores it: it goes on from the last checkpointed entry (R462; log 7, DESIGN CHOICE). -/
def Security.fromFlash (x : Security) : Security :=
  let (last, digest) := ((x.checkpoints.head?).map fun c => (c.last, c.digest)).getD (0, 0)
  { Security.reset with
    lifecycle := x.lifecycle, svnFused := x.svnFused, transitions := x.transitions, banks := x.banks, owner := x.owner,
    migration := x.migration, checkpoints := x.checkpoints, seq := last, acked := last, lastDigest := digest }

/-- What the resets that clear everything keep: fuses, the spare map, retirements and module flash; the attached memory devices' contents
until they are scrubbed; the levels of the input pins; the host's memory and what was sent to it (R483). -/
def Dev.kept (d : Dev) : Dev :=
  { Dev.reset with
    part48 := d.part48, rowMap := d.rowMap,
    mem := Tab.above d.mem farBase, memPoison := d.memPoison.filter fun l => decide (farBase / 128 ≤ l),
    errors := { Errors.reset with retired := d.errors.retired, fatalRecords := d.errors.fatalRecords },
    security := d.security.fromFlash,
    boot := { Boot.reset with inputGood := d.boot.inputGood, fuseOpen := d.boot.fuseOpen, step := 0, activated := d.boot.activated,
                              expired := d.boot.expired, triedFirst := d.boot.triedFirst, retried := d.boot.retried },
    host := { HostLink.reset with perst := d.host.perst, mem := d.host.mem, memPoison := d.host.memPoison, memFail := d.host.memFail },
    images := d.images, sent := d.sent, freeCount := d.freeCount }

/-- The device loses every rail that feeds its dies and memories (R404, R505): boot step 0, everything volatile gone. -/
def Dev.powerLost (d : Dev) : Dev := d.kept

/-- A cold reset starts a boot at step 1; SLOT_ID is sampled (R477, R478, R512). -/
def Dev.coldBoot (d : Dev) (slotId : BitVec 3) : Dev :=
  let d := d.kept
  { d with boot := { d.boot with inputGood := true, fuseOpen := false, step := 1, cause := 0 },
           power := { d.power with slotId := slotId } }

/-- A warm reset starts a boot at step 2: the always-on domain keeps the journal, PERST_WARM, SLOT_ID and the over-current alert; the base rails
stand at their boot voltage (R477, R483, R507). -/
def Dev.warmBoot (d : Dev) (cause : BitVec 3) : Dev :=
  let x := d.security
  let p := d.power
  let k := d.kept
  { k with
    boot := { k.boot with step := 2, cause := cause },
    power := { k.power with perstWarm := p.perstWarm, slotId := p.slotId, overcurrent := p.overcurrent,
                            rails := [12, 13, 14, 15].map fun n => (n, { Rail.reset with acked := 750 }) },
    host := { k.host with ocAlert := d.host.ocAlert },
    security := { k.security with journal := x.journal, seq := x.seq, lastDigest := x.lastDigest, acked := x.acked, lost := x.lost,
                                  sinceCheckpoint := x.sinceCheckpoint } }

/-- The compute dies are powered and the boot is not in recovery mode (R478, R481). -/
def Dev.diesUp (d : Dev) : Bool := decide (8 ≤ d.boot.step) && !d.boot.recovery

end Sys2Proof.Machine
end

