-- ==== Sys2Proof/Machine/Power.lean ====
section
/-! DEFINITION. Power (R388 to R422): estimation, calibration, the budget, rails, droop, over-current and thermal limits, and the commands of R414. Power states stand in PowerStates. -/

namespace Sys2Proof.Machine

/-! ## Estimation and the pacer (R390, R393) -/

/-- Dynamic energy of a die's last period in pJ at 0.75 V (R390). -/
def activityEnergy (x : Activity) (compute : Bool) : Rat :=
  let n (k w : Nat) : Rat := (k * w : Nat)
  if compute then
    n x.matrixBeats 1300 + n x.binBeats 1100 + n x.laneOps 2 + n x.rfRows 50 + n x.laRows 60 + n x.meshFlits 25
  else n x.sliceAcc 40 + n x.hbmLines 1700 + n x.serialFlits 450

/-- The estimate of die n over 4 µs in W: weighted activity at its rail with the gain, the fused leakage, and 30 W more on BD0. -/
def Dev.estimatePower (d : Dev) (n : Nat) (x : Activity) : Rat :=
  let rail := (d.rail n).acked
  let temp := if n < 12 then (d.die n).temp else (d.base (n - 12)).temp
  let scale : Rat := (rail : Rat) / 750
  let dynamic := activityEnergy x (decide (n < 12)) / 4000000 * scale * scale * d.power.gain
  dynamic + (Config.leakage n rail temp : Rat) / 1000 + (if n = 12 then 30 else 0)

/-- R393: the ceiling after a period with estimate e. -/
def Dev.pacerMove (d : Dev) (n : Nat) (e : Rat) : Dev :=
  let k := d.die n
  let c := k.ceiling
  let cMax := d.cMax n
  let next : Rat :=
    if k.alloc < e then max (c * (98 / 100)) (10 * rateUnit)
    else if e < k.alloc * (95 / 100) ∧ k.thermal ≠ 2 then min (c * (101 / 100)) cMax
    else c
  let d := if k.alloc < e ∧ next < c then d.count 0x608018 1 else d
  d.setCeiling n (min next cMax)

/-- A 4 µs estimation period begins: the LIVE fields of the block come into force (R8, R416). -/
def Power.takeLive (p : Power) : Power :=
  { p with actDimEn := p.dimEn, actPkgDarkEn := p.pkgDarkEn, actDroopMargin := p.droopMargin, actIdleUs := p.idleUs }

/-- POWER_ESTIMATE: die 0 to 11 is a compute die, 12 to 15 a base die. -/
def execPowerEstimate (die : Nat) (activity : Activity) (s : State) : Out :=
  s.run fun d =>
    if 16 ≤ die ∨ !d.diesUp then d
    else
      let e := d.estimatePower die activity
      let d := d.updPower Power.takeLive
      if die < 12 then (d.updDie die fun k => { k with periods := (e :: k.periods).take 250 }).pacerMove die e
      else d.updBase (die - 12) fun k => { k with periods := (e :: k.periods).take 250 }

/-! ## Calibration and the cap's correction (R391, R392) -/

/-- The sum of all die estimates over the last 1 ms. -/
def Dev.estimateSum (d : Dev) : Rat :=
  ((List.range 12).map fun n => (d.die n).estimate).sum + ((List.range 4).map fun b => (d.base b).estimate).sum

/-- The step of G: measured over modelled input power within 5 %; where nothing is modelled the manual states no quotient, so a free value
within the limits (log 18, DESIGN CHOICE). -/
def Dev.gainStep (d : Dev) (measured : Rat) : Rat × Dev :=
  let sum := d.estimateSum
  let modelled : Rat := sum / ((Config.efficiency sum.floor.toNat : Rat) / 1000)
  if modelled = 0 then
    let (v, d) := d.fresh
    (95 / 100 + ((v.toNat % 1001 : Nat) : Rat) / 10000, d)
  else (max (95 / 100) (min (105 / 100) (measured / modelled)), d)

def Dev.calibrate (d : Dev) (decivolts deciamps : Nat) : Dev :=
  let measured : Rat := ((decivolts * deciamps : Nat) : Rat) / 100
  let (step, d) := d.gainStep measured
  let gain := max (80 / 100) (min (125 / 100) (d.power.gain * step))
  let limit := decide (gain = 80 / 100) || decide (gain = 125 / 100)
  let reached := limit && !d.power.calLimit
  let exceeds : Bool := decide ((d.power.cap : Rat) < measured)
  let lowers := exceeds && decide (2 ≤ d.power.overWindows)
  let d := d.updPower fun p =>
    { p with gain := gain, calLimit := limit, inputW := decivolts * deciamps / 100, inputDv := BitVec.ofNat 12 decivolts,
             inputDa := BitVec.ofNat 12 deciamps, overWindows := if exceeds then min 2 (p.overWindows + 1) else 0 }
  let d := if reached then d.glint 0 0x705 0 (gain * 256).floor.toNat 0 else d
  let d := if lowers then Dev.forEach (List.range 12) (fun d n => d.setCeiling n ((d.die n).ceiling * (90 / 100))) d else d
  { d with origins := [] }

/-- CALIBRATE: the input voltage and current of the window in 0.1 V and 0.1 A. The end of the millisecond also ends the coalescing of
poison origins (log 20, DEDUCED). -/
def execCalibrate (decivolts deciamps : Nat) (s : State) : Out :=
  s.run fun d => if !d.diesUp then d else d.calibrate decivolts deciamps

/-! ## The budget (R395, R396, R398) -/

/-- Step 4 of R396. -/
def Dev.moveMultipliers (d : Dev) : Dev :=
  let dies := List.range 12
  let late := dies.filter fun n => decide ((d.die n).state = .on) && decide ((d.die n).lagAge < 10)
  if dies.all fun n => decide (10 ≤ (d.die n).lagAge) then
    Dev.forEach dies (fun d n => d.updDie n fun k =>
      { k with mult := if k.mult < 1 then min 1 (k.mult + 2 / 100) else max 1 (k.mult - 2 / 100) }) d
  else
    match late with
    | [] => d
    | first :: rest =>
      let most := rest.foldl (fun a n => if (d.die a).lag < (d.die n).lag then n else a) first
      let least := rest.foldl (fun a n => if (d.die n).lag < (d.die a).lag then n else a) first
      if (d.die most).lag ≤ 2000 ∨ (d.die most).lag < (d.die least).lag + 2000 then d
      else
        (d.updDie most fun k => { k with mult := min (150 / 100) (k.mult + 2 / 100) }).updDie least fun k =>
          { k with mult := max (50 / 100) (k.mult - 2 / 100) }

/-- Step 5 of R396: allocation that dies at their maximum do not use goes to those below it. -/
def Dev.poolBudget (d : Dev) : Dev :=
  let on := (List.range 12).filter fun n => decide ((d.die n).state = .on)
  let givers := on.filter fun n => decide (d.cMax n ≤ (d.die n).ceiling) && decide ((d.die n).estimate * (105 / 100) < (d.die n).alloc)
  let takers := on.filter fun n => decide ((d.die n).ceiling < d.cMax n)
  let pool := (givers.map fun n => (d.die n).alloc - (d.die n).estimate * (105 / 100)).sum
  let d := Dev.forEach givers (fun d n => d.updDie n fun k => { k with alloc := k.estimate * (105 / 100) }) d
  Dev.forEach takers (fun d n => d.updDie n fun k => { k with alloc := k.alloc + pool / (takers.length : Rat) }) d

/-- Steps 1 to 3 of R396. A die in TRANSITION keeps its allocation. -/
def Dev.divideBudget (d : Dev) : Dev :=
  let bases := ((List.range 4).map fun b => (d.base b).estimate).sum
  let comp : Rat := max 0 ((d.power.cap : Rat) - bases - (Config.conversionLoss d.power.cap : Rat))
  let dim := (List.range 12).filter fun n => decide ((d.die n).state = .dim)
  let on := (List.range 12).filter fun n => decide ((d.die n).state = .on)
  let rest := max 0 (comp - (dim.map fun n => (d.die n).estimate * (105 / 100)).sum)
  let total := (on.map fun n => (d.die n).mult).sum
  Dev.forEach (List.range 12) (fun d n => d.updDie n fun k =>
    { k with alloc := match k.state with
        | .dark => 0
        | .dim => k.estimate * (105 / 100)
        | .on => rest * k.mult / total
        | .transition => k.alloc }) d

/-- The end of a 1 ms window in fixed-rate mode: a die that the cap or a thermal step held below R_fix all through is counted and
reported (R398); the next window begins. -/
def Dev.fixedMiss (d : Dev) : Dev :=
  if !d.power.fixed then d
  else
    Dev.forEach (List.range 12) (fun d n =>
      let k := d.die n
      let d := if k.missed && k.wanted.isNone && !(d.rail n).fault && (decide (k.state = .on) || decide (k.state = .dim)) then
          (d.count 0x608040 1).glint 0 0x702 n (k.ceiling / rateUnit).floor.toNat 0
        else d
      d.updDie n fun k => { k with missed := decide (k.ceiling < d.power.fixRate) }) d

/-- BUDGET_DISTRIBUTE. -/
def execBudgetDistribute (s : State) : Out :=
  s.run fun d =>
    if !d.diesUp then d
    else
      let d := (d.updPower fun p => { p with cap := p.nextCap }).divideBudget
      let d := if d.power.fixed then d else d.moveMultipliers.poolBudget
      let d := Dev.forEach (List.range 12) (fun d n => d.updDie n fun k => { k with lagAge := min 10 (k.lagAge + 1) }) d
      d.fixedMiss

/-! ## Rails (R394, R399, R400) -/

/-- RAIL_UPDATE: the targets of a base die's ON compute dies. -/
def execRailUpdate (base : Nat) (s : State) : Out :=
  s.run fun d =>
    if 4 ≤ base ∨ !d.diesUp then d
    else
      Dev.forEach [3 * base, 3 * base + 1, 3 * base + 2] (fun d n =>
        if (d.die n).state = .on then d.requestRail n (d.railTarget n) else d) d

/-- The acknowledgement of an outstanding request: gating that waited for it lifts, and the request that waits is sent. -/
def Dev.railAcked (d : Dev) (n : Nat) : Dev :=
  match (d.rail n).outstanding with
  | none => d
  | some mv =>
    let next := (d.rail n).waiting
    let d := (d.count 0x608010 1).updRail n fun r => { r with acked := mv, outstanding := none, waiting := none, resent := false }
    let d := if n < 12 then d.updDie n fun k => { k with droop := k.droop.filter fun r => !NSet.has k.cleared r, cleared := [] } else d
    match next with
    | some t => d.requestRail n t
    | none => d

/-- The last request of a die on its way to or from DARK, whose acknowledgement is the step of R410 or R411 itself. -/
def Dev.lastOfTransition (d : Dev) (n : Nat) : Bool :=
  decide (n < 12) && decide ((d.die n).state = .transition) && decide ((d.rail n).outstanding = some (if (d.die n).entering then 0 else 650))

/-- AVS_ACK: C_d may rise once the rail is there. -/
def execAvsAck (rail : Nat) (s : State) : Out :=
  s.run fun d =>
    if 16 ≤ rail ∨ d.lastOfTransition rail then d
    else
      let d := d.railAcked rail
      if 12 ≤ rail then d
      else match (d.die rail).wanted with
        | some c => d.setCeiling rail c
        | none => d

/-- The second attempt has failed (R400). A die that was entering DARK or is in DIM is ON; one that was leaving DARK has no good power
and stays in TRANSITION. -/
def Dev.railFails (d : Dev) (n : Nat) : Dev :=
  let d := d.updRail n fun r => { r with fault := true, outstanding := none, waiting := none, resent := false }
  let d := if n < 12 then
      let g := guaranteed (d.rail n).acked (d.die n).temp
      let d := d.writeCeiling n (min (d.die n).ceiling g) none
      let d := d.updDie n fun k =>
        { k with deferred := false, droop := k.droop.filter fun r => !NSet.has k.cleared r, cleared := [] }
      let k := d.die n
      if k.state = .dim ∨ (k.state = .transition ∧ k.entering) then (d.dieState n .on).updDie n fun k => { k with entering := false, wakeLatch := false }
      else d
    else d
  d.glint 0 0x704 n (d.rail n).acked 0

/-- AVS_TIMEOUT. -/
def execAvsTimeout (rail : Nat) (s : State) : Out :=
  s.run fun d =>
    if 16 ≤ rail ∨ (d.rail rail).outstanding.isNone then d
    else if (d.rail rail).resent then d.railFails rail
    else d.updRail rail fun r => { r with resent := true }

/-! ## Droop (R401, R402) -/

/-- The die is powered and out of its clamps. -/
def Dev.dieRuns (d : Dev) (n : Nat) : Bool :=
  d.diesUp && (decide ((d.die n).state = .on) || decide ((d.die n).state = .dim))

/-- DROOP_TRIP: matrix issue of the row is gated. -/
def execDroopTrip (row : Nat) (s : State) : Out :=
  s.run fun d =>
    if 96 ≤ row ∨ !d.dieRuns (row / 8) then d
    else (d.count 0x608000 1).updDie (row / 8) fun k => { k with droop := NSet.add k.droop row, cleared := NSet.del k.cleared row }

/-- DROOP_CLEAR: gating lifts, or waits for the outstanding request; a deferred request is sent once every row has cleared. -/
def execDroopClear (row : Nat) (s : State) : Out :=
  s.run fun d =>
    let n := row / 8
    if 96 ≤ row ∨ !NSet.has (d.die n).droop row then d
    else if (d.rail n).outstanding.isSome then d.updDie n fun k => { k with cleared := NSet.add k.cleared row }
    else
      let d := d.updDie n fun k => { k with droop := NSet.del k.droop row }
      if !(d.die n).droop.isEmpty then d
      else match (d.rail n).waiting with
        | some mv => d.requestRail n mv
        | none => d

/-! ## Over-current (R403, R506) -/

/-- OVERCURRENT_ASSERT. -/
def execOvercurrentAssert (s : State) : Out :=
  s.run fun d =>
    if d.power.overcurrent || decide (d.boot.step = 0) then d
    else
      let d := (d.updPower fun p => { p with overcurrent := true }).updHost fun h => { h with ocAlert := true }
      let d := Dev.forEach (List.range 12) (fun d n => d.setCeiling n ((d.die n).ceiling * (75 / 100))) d
      (d.count 0x608038 1).glint 0 0x703 0 d.power.inputW 0

/-- OVERCURRENT_DEASSERT. -/
def execOvercurrentDeassert (s : State) : Out :=
  s.run fun d => (d.updPower fun p => { p with overcurrent := false }).updHost fun h => { h with ocAlert := false }

/-! ## Temperature (R404) -/

/-- The active step after a reading, from the active step before it. -/
def thermalAfter (old temp : Nat) : Nat :=
  let active (k enter leave : Nat) : Bool := decide (enter ≤ temp) || (decide (k ≤ old) && decide (leave ≤ temp))
  if active 3 110 100 then 3 else if active 2 100 98 then 2 else if active 1 95 93 then 1 else 0

/-- The step in force on a compute die: its own, or its base die's from step 2 up. -/
def Dev.applyThermal (d : Dev) (n : Nat) : Dev :=
  let base := (d.base (dieBase n)).thermal
  let k := d.die n
  let new := max k.ownThermal (if 2 ≤ base then base else 0)
  if new = k.thermal then d else (d.updDie n fun k => { k with thermal := new }).trace 2 n new

/-- What follows a die's step from `old` to `new`: the count of R422 and a DIE_THERMAL glint for each of steps 2 and 3 entered. -/
def Dev.thermalMoved (d : Dev) (n old new temp : Nat) : Dev :=
  let d := d.count 0x608020 (if old ≤ new then new - old else old - new)
  Dev.forEach ([2, 3].filter fun k => decide (old < k) && decide (k ≤ new)) (fun d k => d.glint 0 0x701 n k temp) d

/-- The thermal trip: every rail but the always-on ones goes, and THERMTRIP# stays low until input good deasserts. -/
def Dev.thermalTrip (d : Dev) : Dev := d.powerLost.updHost fun h => { h with thermTrip := true }

/-- DIE_TEMP_READ: eight sensors of a compute die, six of a base die (12 to 15). -/
def Dev.dieTempRead (d : Dev) (n : Nat) (sensors : List Nat) : Dev :=
  let temp := sensors.foldl max 0
  if 120 ≤ temp then d.thermalTrip
  else if n < 12 then
    let old := (d.die n).ownThermal
    let new := thermalAfter old temp
    ((d.updDie n fun k => { k with temp := temp, ownThermal := new }).thermalMoved n old new temp).applyThermal n
  else
    let b := n - 12
    let old := (d.base b).thermal
    let new := thermalAfter old temp
    let d := (d.updBase b fun k => { k with temp := temp, thermal := new }).thermalMoved n old new temp
    Dev.forEach [3 * b, 3 * b + 1, 3 * b + 2] Dev.applyThermal d

def execDieTempRead (die : Nat) (sensors : List Nat) (s : State) : Out :=
  s.run fun d =>
    if (die < 12 ∧ sensors.length = 8 ∧ d.dieRuns die = true) ∨ (12 ≤ die ∧ die < 16 ∧ sensors.length = 6 ∧ 2 ≤ d.boot.step) then
      d.dieTempRead die sensors
    else d

/-- THERMAL_THROTTLE_STEP. -/
def execThermalThrottleStep (die : Nat) (s : State) : Out :=
  s.run fun d =>
    let k := d.die die
    if 12 ≤ die ∨ k.thermal ≠ 2 ∨ (k.temp < 100 ∧ (d.base (dieBase die)).temp < 100) then d
    else d.setCeiling die (k.ceiling * (95 / 100))

/-! ## Commands (R414) -/

/-- POWER_SET_CAP, code 0x0400. -/
def execPowerSetCap (fn : Nat) (s : State) : Out :=
  s.run fun d => d.mbxRun fn 0x0400 (ofSender fn) fun d p =>
    let cap := bits (leAt p 2 2) 0 12
    if cap < 800 ∨ 2800 < cap then .refuse 0x3 []
    else .ok (d.updPower fun x => { x with nextCap := cap }) []

/-- The new mode of R398; a die in DIM returns to ON in fixed-rate mode, and the command is a wake event (R412). -/
def Dev.setPowerMode (d : Dev) (fixed : Bool) (rate : Nat) : Dev :=
  let d := d.updPower fun x => { x with fixed := fixed, fixedRate := if fixed then rate else x.fixedRate }
  Dev.forEach (List.range 12) (fun d n =>
    let d := if fixed && decide ((d.die n).state = .dim) then d.dieState n .on else d
    (d.updDie n fun k => { k with missed := false }).wakeDie n) d

/-- POWER_SET_MODE, code 0x0401. -/
def execPowerSetMode (fn : Nat) (s : State) : Out :=
  s.run fun d => d.mbxRun fn 0x0401 (ofSender fn) fun d p =>
    let fixed := bit (leAt p 1 1) 0
    let rate := leAt p 2 1
    if fixed = true ∧ (rate < 10 ∨ 150 < rate) then .refuse 0x3 []
    else if fixed = true ∧ 136 ≤ rate then .refuse 0x701 []
    else .ok (d.setPowerMode fixed rate) []

/-- POWER_STATUS, code 0x0402. -/
def execPowerStatus (fn : Nat) (s : State) : Out :=
  s.run fun d => d.mbxRun fn 0x0402 (ofSender fn) fun d _ =>
    .ok d (leBytes 8 1 ++ leBytes 8 d.power.statusWord ++ ((List.range 12).map fun n => leBytes 8 (d.dieWord n)).flatten)

/-- The response of POWER_LAG_REPORT. -/
def RedGroup.lagReport (g : RedGroup) : List Byte :=
  let mean := if g.intervals.isEmpty then 0 else g.intervals.sum / g.intervals.length
  let lag (n : Nat) : Nat := min (Tab.get (0 : Rat) g.lags n).floor.toNat 0xFFFFFFFF
  leBytes 4 1 ++ leBytes 4 g.phaseRounds ++ leBytes 4 mean ++ leBytes 4 0 ++ ((List.range 12).map fun n => leBytes 4 (lag n)).flatten

/-- POWER_LAG_REPORT, code 0x0403. -/
def execPowerLagReport (fn : Nat) (s : State) : Out :=
  s.run fun d => d.mbxRun fn 0x0403 (ofSender fn) fun d p =>
    let n := bits (leAt p 2 2) 0 9
    match d.group? n with
    | some g => if 448 ≤ n then .refuse 0x633 [] else .ok d g.lagReport
    | none => .refuse 0x633 []

end Sys2Proof.Machine
end

