-- ==== Sys2Proof/Machine/PowerStates.lean ====
section
/-! DEFINITION. Power states (R405 to R413, R449, R469): DIM, core gating, DARK and package DARK. -/

namespace Sys2Proof.Machine

/-- A block of a facet stands on a die. -/
def Dev.facetOnDie (d : Dev) (f n : Nat) : Bool := d.blocks.any fun b => decide (b.facet = f) && decide (coreDie b.core = n)

/-- The debug level lets no die enter DIM (R469). -/
def Dev.debugFull (d : Dev) : Bool := decide (d.security.debug = 3)
/-- The debug level keeps a die out of DARK (R408, R469). -/
def Dev.debugKeeps (d : Dev) (n : Nat) : Bool :=
  d.debugFull || (decide (d.security.debug = 2) && d.facetOnDie d.security.haltFacet n)

/-! ## DIM (R405) -/

/-- Issue occupancy: the share of core-beats in which the die's active cores issued; 0 where there was no beat. -/
def occupancy (issued beats : Nat) : Rat := (issued : Rat) / (beats : Rat)

/-- The DIM rail for an occupancy, and the ceiling that goes with it. -/
def Dev.dimSet (d : Dev) (n : Nat) (occ : Rat) : Dev :=
  let k := d.die n
  let rail := lowestRail fun mv => decide (occ * k.ceiling ≤ 80 / 100 * guaranteed mv k.temp)
  (d.setCeiling n (guaranteed rail k.temp)).requestRail n rail

/-- DIM_UPDATE: the 1 ms that ends had this occupancy. -/
def execDimUpdate (die issued beats : Nat) (s : State) : Out :=
  s.run fun d =>
    let k := d.die die
    let occ := occupancy issued beats
    let may := d.power.actDimEn && !d.power.fixed && !(d.rail die).fault && !d.debugFull
    if 12 ≤ die ∨ !d.diesUp then d
    else if k.state = .dim then if may then d.dimSet die occ else d.dieState die .on
    else if k.state = .on ∧ may = true ∧ occ < 25 / 100 then (d.dieState die .dim).dimSet die occ
    else d

/-- DIM_EXIT: the occupancy of the last 100 µs exceeds 90 %, or a block of class 0 stands on the die. -/
def execDimExit (die issued beats : Nat) (s : State) : Out :=
  s.run fun d =>
    let first := d.blocks.any fun b => decide (coreDie b.core = die) && (((d.launch? b.launch).map fun l => decide (l.cls = 0)).getD false)
    if die < 12 ∧ (d.die die).state = .dim ∧ (90 / 100 < occupancy issued beats ∨ first = true) then d.dieState die .on else d

/-! ## Core gating (R406, R407) -/

/-- A core loses power: its L1 is flushed, and its local array goes but for marked retention banks 0 and 1, its first MiB (R124, R406). Log 5, DESIGN CHOICE. Log 60, DEDUCED. -/
def Dev.gateCore (d : Dev) (c : Nat) : Dev :=
  let keeps := NSet.has d.cache.retain c
  let inBanks (row : Nat) : Bool := keeps && decide (row < 8192)
  let d := (d.flushL1 c).updCore c fun k =>
    { k with gated := true, la := if keeps then k.la.filter fun e => decide (e.1 < 1048576) else [],
             laPoison := k.laPoison.filter inBanks }
  let d := { d with strikes := { d.strikes with la := d.strikes.la.filter fun e => decide (e.1 ≠ c) || inBanks e.2 } }
  { d with serving := { d.serving with slots := updAll (fun s => NSet.has s.cores c) (fun s => { s with reload := NSet.add s.reload c }) d.serving.slots } }

/-- A core may be gated: it holds no block and no lehr work, and its slot is evictable. -/
def Dev.mayGate (d : Dev) (c : Nat) : Bool :=
  coreValid c && !(d.core c).gated && d.dieRuns (coreDie c) && (d.blocksOn c).isEmpty && !d.isLehrCore c &&
    !d.dieResets (coreDie c) && !(d.core c).switchReq &&
    d.serving.slots.all fun s => !NSet.has s.cores c || (s.loaded && d.evictable s)

/-- CORE_IDLE_GATE. -/
def execCoreIdleGate (core : Nat) (s : State) : Out :=
  s.run fun d => if d.mayGate core then (d.count 0x608028 1).gateCore core else d

/-- CORE_WAKE: a core of a running die wakes; a DARK die begins its exit, and for one that enters DARK the event is latched (R411, R412). -/
def execCoreWake (core : Nat) (s : State) : Out :=
  s.run fun d =>
    if !coreValid core || !(d.core core).gated then d
    else if d.dieRuns (coreDie core) then d.updCore core fun k => { k with gated := false }
    else d.wakeDie (coreDie core)

/-! ## DARK (R408 to R412) -/

/-- DARK_ENTRY: steps 1 to 5 of R410, up to the request for rail off. Log 60, DEDUCED. -/
def execDarkEntry (die : Nat) (s : State) : Out :=
  s.run fun d =>
    if 12 ≤ die ∨ !d.dieRuns die ∨ !(dieCores die).all (fun c => (d.core c).gated) ∨ d.isLehrDie (dieBase die) = true ∨
        (d.rail die).fault = true ∨ d.debugKeeps die = true ∨ d.dieResets die = true then d
    else
      ((d.dieState die .transition).updDie die fun k => { k with entering := true, wakeLatch := false, wanted := none }).requestRail die 0

/-- DARK_ENTRY_COMPLETE: the rail is off; a latched wake begins exit at once. -/
def execDarkEntryComplete (die : Nat) (s : State) : Out :=
  s.run fun d =>
    let k := d.die die
    if 12 ≤ die ∨ k.state ≠ .transition ∨ k.entering = false ∨ (d.rail die).outstanding ≠ some 0 then d
    else
      let d := (d.railAcked die).updRail die fun r => { r with outstanding := none, waiting := none }
      let d := (d.updDie die fun k => { k with entering := false, droop := [], cleared := [], deferred := false }).dieState die .dark
      if k.wakeLatch then d.beginDarkExit die else d

/-- DARK_EXIT: an event needs one of the die's cores. -/
def execDarkExit (die : Nat) (s : State) : Out :=
  s.run fun d => if die < 12 then d.beginDarkExit die else d

/-- A core that work needs: it holds a block, a slot that loads, or lehr work. -/
def Dev.coreNeeded (d : Dev) (c : Nat) : Bool :=
  !(d.blocksOn c).isEmpty || d.isLehrCore c || d.serving.slots.any fun s => NSet.has s.cores c && !s.loaded

/-- A die's power is good at 0.65 V: it is ON, the cores that work needs wake, and the ceiling waits for the rail that it wants. -/
def Dev.dieComesOn (d : Dev) (n : Nat) : Dev :=
  let d := (d.updDie n fun k => { k with wakeLatch := false, entering := false }).dieState n .on
  let d := Dev.forEach ((dieCores n).filter d.coreNeeded) (fun d c => d.updCore c fun k => { k with gated := false }) d
  let c := (d.die n).ceiling
  let g := guaranteed (d.rail n).acked (d.die n).temp
  let d := if g < c then d.writeCeiling n g (some c) else d
  d.requestRail n (d.railTarget n)

/-- A DEBUG_SET to FULL that waits for the dies completes once every die is ON (R469). -/
def Dev.fullEntered (d : Dev) : Dev :=
  if d.debugFull && decide ((d.facet 0).mailbox.command = 0x0809) && (List.range 12).all fun n => decide ((d.die n).state = .on) then
    d.mbxFinish 0 0 []
  else d

/-- DARK_EXIT_COMPLETE. -/
def execDarkExitComplete (die : Nat) (s : State) : Out :=
  s.run fun d =>
    let k := d.die die
    if 12 ≤ die ∨ k.state ≠ .transition ∨ k.entering = true ∨ (d.rail die).outstanding ≠ some 650 then d
    else ((d.railAcked die).dieComesOn die).fullEntered

/-! ## Package DARK (R413, R449) -/

/-- The conditions of R413, the 2 ms and the BAR4 requests apart. -/
def Dev.mayPackageDark (d : Dev) : Bool :=
  decide (d.boot.step = 9) && !d.boot.recovery && d.power.actPkgDarkEn && decide (d.power.pkg = 0) && !d.debugFull && !d.lehr.held &&
    (List.range 12).all (fun n => decide ((d.die n).state = .dark)) &&
    d.channels.all (fun e => e.2.run.isNone && e.2.queue.isEmpty) &&
    d.slices.all (fun e => e.2.txns.isEmpty && e.2.waiting.isEmpty && e.2.channel.isEmpty) && d.net.isEmpty

/-- A slice writes back and drops every line but the retained ones of way 0, and its directory powers off. -/
def Dev.darkSlice (d : Dev) (n : Nat) : Dev :=
  let gone := ((d.slice n).ways.filter fun w => !(w.retained && decide (w.way = 0))).map Way.line
  (Dev.forEach gone Dev.evictWay d).updSlice n fun x => { x with dir := [] }

/-- PACKAGE_DARK_ENTRY. The pair ports are off: DOWN, with no active lane. Log 60, DEDUCED. -/
def execPackageDarkEntry (s : State) : Out :=
  s.run fun d =>
    if !d.mayPackageDark then d
    else
      let d := Dev.forEach (d.slices.map Prod.fst) Dev.darkSlice d
      let d := Dev.forEach (List.range 6) (fun d n => d.updPort n fun p =>
        p.trainedAs .down 0) d
      let d := Dev.forEach [12, 13, 14, 15] (fun d n => d.requestRail n 600) d
      (d.updPower fun p => { p with pkg := 2 }).trace 0 16 2

/-- PACKAGE_DARK_EXIT: a mailbox GO, an intake record, a BAR4 request or a far-tier event. -/
def execPackageDarkExit (s : State) : Out :=
  s.run fun d =>
    if d.power.pkg ≠ 2 then d
    else
      let d := Dev.forEach [12, 13, 14, 15] (fun d n => d.requestRail n 750) d
      (d.updPower fun p => { p with pkg := 3 }).trace 0 16 3

/-- All six pair ports end a training: 0 at full width, 1 at half width, else not at all (R169). A pair is severed only once every port has
ended (R163). -/
def Dev.portsTrained (d : Dev) (how : List (BitVec 2)) : Dev :=
  let state (n : Nat) : PortState × Nat := match (how.getD n 2).toNat with
    | 0 => (.up, 64)
    | 1 => (.degraded, 32)
    | _ => (.down, 0)
  (Dev.forEach (List.range 6) (fun d n => d.updPort n fun p => p.trainedAs (state n).1 (state n).2) d).portsMoved (List.range 6)
    ((List.range 6).filter fun n => decide ((state n).1 ≠ .up))

/-- A servitor whose memory does not match is reloaded: journaled and reported before any facet's work runs (R449). -/
def Dev.remeasured (d : Dev) (base : Nat) : Dev := (d.auditEvent 0 true 5 base 0).glint 0 0x802 base 0 0

/-- PACKAGE_DARK_EXIT_COMPLETE: how each pair port trains, and whether each servitor, of BD1 to BD3, matches; then the held BAR4 requests and the
waiting mailbox commands are served. -/
def execPackageDarkExitComplete (ports : List (BitVec 2)) (servitorsMatch : List Bool) (s : State) : Out :=
  s.run fun d =>
    let ready := [12, 13, 14, 15].all fun n => decide ((d.rail n).acked = 750) || (d.rail n).fault
    if d.power.pkg ≠ 3 ∨ !ready ∨ ports.length ≠ 6 ∨ servitorsMatch.length ≠ 3 then d
    else
      let d := (Dev.forEach (List.range 6) (fun d n => d.count (d2dCounter n 0x10) 1) d).portsTrained ports
      let d := Dev.forEach ([1, 2, 3].filter fun b => !(servitorsMatch.getD (b - 1) true)) Dev.remeasured d
      let d := (d.updPower fun p => { p with pkg := 0 }).trace 0 16 0
      let held := d.heldBar4
      let d := Dev.forEach held Dev.performHeld ({ d with heldBar4 := [] } : Dev)
      Dev.forEach d.facetsThere Dev.mbxSettle d

end Sys2Proof.Machine
end

