-- ==== Sys2Proof/Machine/Reset.lean ====
section
/-! DEFINITION. Resets and boot (R477 to R490, R504 to R506, R512): the pins, the boot steps, the warm-reset triggers, and die resets. -/

namespace Sys2Proof.Machine

/-! ## Power and pins (R477, R504 to R506, R512) -/

/-- INPUT_GOOD: a cold reset starts. -/
def execInputGood (slotId : BitVec 3) (s : State) : Out :=
  s.run fun d => if d.boot.inputGood then d else d.coldBoot slotId

/-- Input good deasserts: the rails go in the order of R505, and THERMTRIP# and OC_ALERT# with the always-on rails. -/
def Dev.inputLost (d : Dev) (fuse : Bool) : Dev :=
  if d.boot.inputGood then d.powerLost.updBoot fun b => { b with inputGood := false, fuseOpen := fuse } else d

/-- INPUT_GOOD_DEASSERT. -/
def execInputGoodDeassert (s : State) : Out := s.run fun d => d.inputLost false

/-- EFUSE_OPEN: input good deasserts, and the fuse stays open until the input has been removed. -/
def execEfuseOpen (s : State) : Out := s.run fun d => d.inputLost true

/-- A warm-reset trigger; without power it has no effect (R505). -/
def Dev.warmTrigger (d : Dev) (cause : BitVec 3) : Dev := if d.boot.step = 0 then d else d.warmBoot cause

/-- WARM_RST: a low level of this many µs ends; shorter than 10 µs it is ignored. -/
def execWarmRst (lowUs : Nat) (s : State) : Out := s.run fun d => if lowUs < 10 then d else d.warmTrigger 1

/-- WARM_RESET: the delay of R487 and R514 ends. -/
def execWarmReset (s : State) : Out :=
  s.run fun d => match d.boot.warmDue with
    | some cause => d.warmTrigger cause
    | none => d

/-- PERST_ASSERT: a warm reset where PERST_WARM is 1, else a reset of the port (R326). -/
def execPerstAssert (s : State) : Out :=
  s.run fun d =>
    if d.host.perst then d
    else if d.power.perstWarm && decide (d.boot.step ≠ 0) then (d.updHost fun h => { h with perst := true }).warmTrigger 5
    else d.linkLost.updHost fun h => { h with perst := true }

/-- PERST_DEASSERT. -/
def execPerstDeassert (s : State) : Out := s.run fun d => d.updHost fun h => { h with perst := false }

/-! ## Boot (R478 to R482) -/

/-- The boot stops at a step for some base dies: recovery mode goes on with step 8 (R481, R482). Log 58, DEDUCED. -/
def Dev.enterRecovery (d : Dev) (step : Nat) (dies : BitVec 4) : Dev :=
  d.updBoot fun b => { b with recovery := true, failStep := BitVec.ofNat 4 step, failDies := dies, step := 8 }

def Dev.bootTo (d : Dev) (step : Nat) : Dev := d.updBoot fun b => { b with step := step }

/-- The bank that step 3 tries first (R480). Log 58, DEDUCED. -/
def Dev.firstBank (d : Dev) : Nat :=
  let b := d.boot
  if !b.expired then b.activated
  else
    let other := 1 - b.triedFirst
    if other = b.activated ∧ (d.bankOf b.activated).proven = false ∧ b.retried = true then 1 - b.activated else other

/-- Step 3 starts: the bank it tries first is recorded. -/
def Dev.startStep3 (d : Dev) : Dev :=
  let first := d.firstBank
  let again := d.boot.expired && decide (first = d.boot.activated) && !(d.bankOf first).proven
  d.updBoot fun b => { b with step := 3, triedFirst := first, retried := b.retried || again }

/-- A bank that boots: marked usable, and not below the fused SVN (R447). -/
def Dev.bankBoots (d : Dev) (n : Nat) : Bool := (d.bankOf n).usable && decide (d.security.svnFused ≤ (d.bankOf n).svn)

/-- Step 3: the first bank, the other one, or recovery mode. Log 58, DEDUCED. -/
def Dev.bootBank (d : Dev) : Dev :=
  let first := d.boot.triedFirst
  let run (n : Nat) : Dev := d.updBoot fun b => { b with bank := n, fallback := decide (n ≠ b.activated), step := 4 }
  if d.bankBoots first then run first else if d.bankBoots (1 - first) then run (1 - first) else d.enterRecovery 0 0

/-- The base dies of a list, as bits. -/
def dieBits (p : Nat → Bool) : BitVec 4 := BitVec.ofNat 4 (((List.range 4).map fun b => if p b then 2 ^ b else 0).sum)

/-- Step 4: the servitors of BD1 to BD3. -/
def Dev.bootServitors (d : Dev) (ready : List Bool) : Dev :=
  if ready.length ≠ 3 then d
  else if ready.all id then d.bootTo 5
  else d.enterRecovery 4 (dieBits fun b => decide (b ≠ 0) && !(ready.getD (b - 1) true))

/-- Step 5: how each pair port ends. -/
def Dev.bootPorts (d : Dev) (ends : List (BitVec 2)) : Dev :=
  if ends.length ≠ 6 then d
  else
    let d := d.portsTrained ends
    let cutOff (b : Nat) : Bool :=
      (List.range 6).all fun n => (decide (portEndA n ≠ b) && decide (portEndB n ≠ b)) || decide ((d.port n).state = .down)
    if (List.range 4).any cutOff then d.enterRecovery 5 (dieBits cutOff) else d.bootTo 6

/-- The rates of R188 in 0.1 Gb/s by code. -/
def stackRate (code : Nat) : Nat := [64, 80, 96, 100].getD code 100

/-- A stack trains at the highest rate that its declaration allows and at which its training succeeds; else it is FAILED (R188, R189). -/
def Dev.trainStack (d : Dev) (n declared : Nat) (trains : List Nat) : Dev :=
  match [3, 2, 1, 0].find? fun c => decide (stackRate c ≤ declared) with
  | none => (d.updStack n fun k => { k with state := 2, declared := 0, rate := 0 }).glint 0 0x603 n 0 0
  | some top =>
    match [3, 2, 1, 0].find? fun c => decide (c ≤ top) && trains.contains (stackRate c) with
    | some c => d.updStack n fun k => { k with state := 0, declared := BitVec.ofNat 2 top, rate := BitVec.ofNat 2 c }
    | none => (d.updStack n fun k => { k with state := 2, declared := BitVec.ofNat 2 top, rate := 0 }).glint 0 0x603 n 0 0

/-- Step 6: the stacks train, and all HBM is zeroed. -/
def Dev.bootStacks (d : Dev) (rates : List (Nat × List Nat)) : Dev :=
  if rates.length ≠ 12 then d
  else
    let d := Dev.forEach (List.range 12) (fun d n => d.trainStack n (rates.getD n (0, [])).1 (rates.getD n (0, [])).2) d
    { d.bootTo 7 with mem := Tab.above d.mem farBase, memPoison := d.memPoison.filter fun l => decide (farBase / 128 ≤ l) }

/-- A slice is in the mode of R140 for a die set that is up. -/
def Dev.serviceMode (d : Dev) (n : Nat) : Dev :=
  let down := d.recovering (n / 24)
  d.updSlice n fun x => { x with missMode := down, cause := if down then 3 else 0, hold := false }

/-- Step 7: the compute dies are ON at 0.65 V with zeroed arrays, and the slices are in multicast mode. -/
def Dev.bootDies (d : Dev) : Dev :=
  let d := Dev.forEach (List.range 12) (fun d n => d.updRail n fun _ => { Rail.reset with acked := 650 }) d
  Dev.forEach (List.range 96) Dev.serviceMode ({ d.bootTo 8 with cores := [] } : Dev)

/-- The SEQ of the last checkpointed entry. -/
def Security.lastCheckpointed (x : Security) : Nat := ((x.checkpoints.head?).map Checkpoint.last).getD 0

/-- Step 8: with the link up, the device is ready; a boot that is not in recovery mode clears the watchdog's record. -/
def Dev.bootReady (d : Dev) : Dev :=
  if !d.host.linkUp then d
  else
    let d := (d.auditEvent 0 true 1 0 d.security.lastCheckpointed).bootTo 9
    if d.boot.recovery then d
    else
      let n := d.boot.bank
      let d := d.updBoot fun b => { b with expired := false, retried := false }
      d.updSecurity fun x => { x with banks := Tab.upd Bank.reset x.banks n fun b => { b with proven := true } }

/-- BOOT_STEP_COMPLETE. -/
def execBootStepComplete (report : BootReport) (s : State) : Out :=
  s.run fun d =>
    match d.boot.step with
    | 1 => (Dev.forEach [12, 13, 14, 15] (fun d n => d.updRail n fun r => { r with acked := 750 }) d).bootTo 2
    | 2 => d.startStep3
    | 3 => d.bootBank
    | 4 => d.bootServitors report.servitors
    | 5 => d.bootPorts report.portEnds
    | 6 => d.bootStacks report.stackRates
    | 7 => d.bootDies
    | 8 => d.bootReady
    | _ => d

/-- BOOT_WATCHDOG: it runs from the start of step 3 until step 8 completes. -/
def execBootWatchdog (s : State) : Out :=
  s.run fun d =>
    if d.boot.step < 3 ∨ 8 < d.boot.step then d
    else (d.updBoot fun b => { b with expired := true }).warmTrigger 4

/-! ## DEVICE_RESET (R487) -/

/-- DEVICE_RESET, code 0x0700. -/
def execDeviceReset (fn : Nat) (s : State) : Out :=
  s.run fun d => d.mbxRun fn 0x0700 (ofSender fn) fun d p =>
    if !bit (leAt p 1 1) 0 && d.facetsThere.any (fun f => decide (f ≠ 0)) then .refuse 0x805 []
    else .ok (d.updBoot fun b => { b with warmDue := some (b.warmDue.getD 3) }) []

/-! ## Die reset (R485, R486) -/

/-- The gaffer holds the slices of a base die for a mode change. -/
def Dev.holdSlices (d : Dev) (base : Nat) (miss : Bool) : Dev :=
  Dev.forEach ((List.range 24).map fun i => 24 * base + i) (fun d n => d.updSlice n fun x =>
    if x.missMode = miss then x else { x with hold := true, nextMode := miss, nextCause := if miss then 3 else 0 }) d

/-- The slices of a base die are all in a mode. -/
def Dev.slicesIn (d : Dev) (base : Nat) (miss : Bool) : Bool :=
  (List.range 24).all fun i => (d.slice (24 * base + i)).missMode == miss

def Dev.updDieReset (d : Dev) (g : DieReset → DieReset) : Dev := d.updBoot fun b => { b with dieReset := b.dieReset.map g }

/-- A die reset starts (step 1): a DARK die powers up at once, any other is at step 2. The gaffer's own is journaled as the command with
SELF set. -/
def Dev.startDieReset (d : Dev) (die : Nat) (fn : Option Nat) : Dev :=
  let d := if fn.isNone then d.audit 1 0 true 0x701 0 (BitVec.ofNat 64 die) 0 else d
  let dark := decide ((d.die die).state = .dark)
  let d := d.updBoot fun b => { b with dieReset := some { die := die, step := if dark then 6 else 2, lost := 0, facets := [], fn := fn } }
  if dark then d.beginDarkExit die else d

/-- Step 2: the blocks that cannot be read are lost and their launches aborted, the others are saved whole, and every slot on the die is
evicted. -/
def Dev.clearDie (d : Dev) (die : Nat) (unread : List (Nat × Nat)) : Dev :=
  let mine := d.blocks.filter fun b => decide (coreDie b.core = die)
  let lost := d.launches.filter fun l => mine.any fun b => decide (b.launch = l.id) && unread.contains (b.launch, b.index)
  let d := Dev.forEach lost (fun d l => d.endLaunch l.id 0x163) d
  let d := Dev.forEach (dieCores die) (fun d c => ((d.saveCore c true false).slotLosesCore c).clearRetain c) d
  d.updDieReset fun r => { r with lost := r.lost + lost.length, facets := NSet.addAll r.facets (lost.map Launch.facet) }

/-- Step 4 with a die that does not answer: transactions that wait for its cores time out, the lines that a core of it held modified become P,
and the directories lose its cores. -/
def Dev.forgetDie (d : Dev) (die : Nat) : Dev :=
  let mine (c : Nat) : Bool := decide (coreDie c = die)
  let stuck := (d.slices.map fun e => (e.2.txns.filter fun t => t.snoops.any mine).map fun t => t.req.line).flatten
  let d := Dev.forEach stuck Dev.homeTimeout d
  let modified (c : Nat) : List Nat :=
    ((d.core c).l1.filter fun l => decide (l.state = .modified)).map L1Line.line ++ (d.core c).wbuf.map Prod.fst
  let dirty := ((dieCores die).map modified).flatten
  let d := Dev.forEach dirty Dev.poisonLine d
  let d := { d with net := d.net.filterMap fun m => m.keep (m.dests.filter fun e => !(coreValid e.1 && mine e.1)) }
  let out (e : DirEntry) : DirEntry :=
    { e with owner := e.owner.filter fun c => !mine c, sharers := e.sharers.filter fun c => !mine c,
             rows := e.rows.filter fun r => decide (r / 8 ≠ die) }
  Dev.forEach (d.slices.map Prod.fst) (fun d n => d.updSlice n fun x => x.dir.foldr (fun e x => Slice.setDir x (out e)) x) d

/-- Step 4: the L1s of the die are empty. -/
def Dev.flushDie (d : Dev) (die : Nat) (answers : Bool) : Dev :=
  let d := if answers then Dev.forEach (dieCores die) Dev.flushL1 d else d.forgetDie die
  Dev.forEach (dieCores die) (fun d c => d.updCore c fun k => { k with l1 := [], wbuf := [], reqs := [], heldSnoops := [] }) d

/-- The cores of a die that has powered up are as after reset. -/
def Dev.freshDie (d : Dev) (die : Nat) : Dev :=
  let d := { d with strikes := { d.strikes with la := d.strikes.la.filter fun e => decide (coreDie e.1 ≠ die) } }
  Dev.forEach (dieCores die) (fun d c => d.setCore c Core.reset) d

/-- The waiting reset of another die starts. -/
def Dev.nextDieReset (d : Dev) : Dev :=
  match d.boot.dieResetQ with
  | [] => d
  | n :: rest => (d.updBoot fun b => { b with dieResetQ := rest }).startDieReset n none

/-- Step 7: the die's cores are back in their pools, the reset is reported, and what waited for it goes on. -/
def Dev.endDieReset (d : Dev) (r : DieReset) : Dev :=
  let d := d.updBoot fun b => { b with dieReset := none }
  let d := Dev.forEach (0 :: r.facets.filter fun f => decide (f ≠ 0)) (fun d f => d.glint f 0x710 r.die r.lost (boolNat r.fn.isNone)) d
  let waiting := d.errors.retireWait.filter fun c => decide (coreDie c = r.die)
  let d := d.updErrors fun e => { e with retireWait := e.retireWait.filter fun c => decide (coreDie c ≠ r.die) }
  let d := Dev.forEach waiting Dev.retireCore d
  let d := match r.fn with
    | some fn => d.mbxFinish fn 0 (leBytes 4 1 ++ leBytes 4 r.lost)
    | none => d
  d.nextDieReset

/-- A rail reaches what the reset asked of it; a faulted rail is left as it is (R400; log 51, DEDUCED). -/
def Dev.railReady (d : Dev) (n mv : Nat) : Bool := (d.rail n).fault || decide ((d.rail n).outstanding = some mv)

/-- DIE_RESET_STEP_DONE: the step under way completes and the next starts. `unread` are the blocks, by launch and index, whose state could
not be read (step 2); `answers` says whether the die flushed its L1s (step 4). -/
def Dev.dieResetStep (d : Dev) (r : DieReset) (unread : List (Nat × Nat)) (answers : Bool) : Dev :=
  let goto (k : Nat) (d : Dev) : Dev := d.updDieReset fun r => { r with step := k }
  let base := dieBase r.die
  match r.step with
  | 2 => goto 3 ((d.clearDie r.die unread).holdSlices base true)
  | 3 => if d.slicesIn base true then goto 4 d else d
  | 4 => 
    let d := (d.flushDie r.die answers).dieState r.die .transition
    goto 5 ((d.updDie r.die fun k => { k with entering := true, wanted := none }).requestRail r.die 0)
  | 5 =>
    if !d.railReady r.die 0 then d
    else
      let d := if (d.rail r.die).fault then d else (d.railAcked r.die).updRail r.die fun x => { x with outstanding := none, waiting := none }
      let d := d.updDie r.die fun k => { k with entering := false, droop := [], cleared := [], deferred := false }
      goto 6 (d.requestRail r.die 650)
  | 6 =>
    if !d.railReady r.die 650 then d
    else
      let d := if (d.rail r.die).fault then d else d.railAcked r.die
      goto 7 (((d.freshDie r.die).dieComesOn r.die).holdSlices base (d.portsDown base))
  | _ => if d.slicesIn base (d.portsDown base) then d.endDieReset r else d

def execDieResetStepDone (unread : List (Nat × Nat)) (answers : Bool) (s : State) : Out :=
  s.run fun d => match d.boot.dieReset with
    | some r => d.dieResetStep r unread answers
    | none => d

/-- DIE_RESET, code 0x0701. -/
def execDieReset (fn : Nat) (s : State) : Out :=
  s.run fun d => d.mbxRun fn 0x0701 (ofSender fn) fun d p =>
    let die := bits (leAt p 1 1) 0 4
    if 11 < die then .refuse 0x3 []
    else if d.boot.dieReset.isSome then .refuse 0x710 []
    else .wait (d.startDieReset die (some fn))

/-- VP_HANDSHAKE_TIMEOUT: the gaffer resets the die on its own, behind the die reset that runs. -/
def execVpHandshakeTimeout (die : Nat) (s : State) : Out :=
  s.run fun d =>
    if 12 ≤ die ∨ !d.dieRuns die ∨ d.dieResets die = true ∨ !d.gafferServes then d
    else if d.boot.dieReset.isSome then d.updBoot fun b => { b with dieResetQ := b.dieResetQ ++ [die] }
    else d.startDieReset die none

end Sys2Proof.Machine
end

