-- ==== Sys2Proof/Machine/Security.lean ====
section
/-! DEFINITION. Security (R445 to R463, R470, R471): attestation and signing, firmware banks, keys, lifecycle transitions, and the audit commands. -/

namespace Sys2Proof.Machine

/-! ## Attestation (R450 to R452) -/

/-- FACET_MEAS: over the quota block and the digests of the facet's models in registration order; zero where the function has no facet. -/
def Dev.facetMeasurement (d : Dev) (f : Nat) : BitVec 256 :=
  if !d.facetExists f then 0
  else
    let mine := (d.serving.models.map fun m => (m.refs.filter fun r => decide (r.facet = f)).map fun r => (r.order, m.digest)).flatten
    let models := sortBy (fun a b => decide (a.1 ≤ b.1)) mine
    Config.shake256 (d.quotaBytes f ++ (models.map fun e => digestBytes e.2).flatten)

/-- The body of an attestation report, with the values that stand when its signing completes (log 53, DEDUCED). -/
def Dev.reportBody (d : Dev) (fn : Nat) (nonce : BitVec 256) : List Byte × Dev :=
  let (version, d) := d.fwVersion
  let x := d.security
  let bank := d.runningBank
  ([1, BitVec.ofNat 8 (x.lifecycle.toNat + 4 * BitVec.toNat x.debug), BitVec.ofNat 8 fn, 0] ++ leBytes 4 (d.readId 0 0x10) ++ leBytes 4 version ++
    [bank.svn, x.svnFused, 0, 0] ++ digestBytes nonce ++ digestBytes Config.deviceId ++ digestBytes Config.romMeasurement ++
    digestBytes bank.measurement ++ digestBytes Config.wrappingKeyDigest ++ digestBytes (x.owner.getD 0) ++ digestBytes x.lastDigest ++
    leBytes 8 x.seq ++ digestBytes (d.facetMeasurement fn) ++ leBytes 232 0, d)

/-- The identity key's signature over a body: 49,856 bytes. -/
def signatureOf (body : List Byte) : List Byte := (List.range 49856).map (Config.identitySignature body)

/-- A report or a checkpoint is asked for; where nothing is being signed its signing starts. -/
def Dev.askReport (d : Dev) (fn : Nat) (doe : Bool) (nonce : BitVec 256) (dest : Nat) : Dev :=
  d.updSecurity fun x => { x with signings := x.signings ++ [.report fn doe nonce dest] }

/-- The signing that is done leaves, and the next one starts (R452). -/
def Dev.popSigning (d : Dev) : Dev :=
  d.updSecurity fun x => ({ x with signings := x.signings.drop 1, covers := none } : Security).startSigning

/-- Completes the mailbox command of a function that waits with this code. -/
def Dev.finishCode (d : Dev) (fn code : Nat) (payload : List Byte) : Dev :=
  if (d.facet fn).mailbox.command = code then d.mbxFinish fn 0 payload else d

/-- The 128-byte body of a checkpoint (R461). -/
def Checkpoint.body (c : Checkpoint) : List Byte :=
  [1, BitVec.ofNat 8 c.lifecycle.toNat, 0, 0] ++ leBytes 4 c.fwVersion.toNat ++ leBytes 8 c.first ++ leBytes 8 c.last ++ leBytes 8 c.lost ++
    digestBytes c.digest ++ digestBytes Config.deviceId ++ digestBytes c.nonce
def Checkpoint.bytes (c : Checkpoint) : List Byte := c.body ++ signatureOf c.body

/-- A checkpoint is signed: module flash keeps the newest 64, and it is journaled. -/
def Dev.checkpointSigned (d : Dev) (fn : Option Nat) (nonce : BitVec 256) (dest : Nat) : Dev :=
  let (version, d) := d.fwVersion
  let x := d.security
  let (last, lost, digest) := x.covers.getD (x.seq, x.lost, x.lastDigest)
  let c : Checkpoint := { first := x.lastCheckpointed + 1, last := last, lost := lost, digest := digest, nonce := nonce,
                          lifecycle := x.lifecycle, fwVersion := BitVec.ofNat 32 version }
  let d := d.popSigning
  let d := d.auditEvent (fn.getD 0) fn.isNone 6 0 last
  let d := d.updSecurity fun x => { x with checkpoints := (c :: x.checkpoints).take 64 }
  match fn with
  | some f => (d.gwrite f dest c.bytes).finishCode f 0x080F (leBytes 8 1 ++ leBytes 8 last)
  | none => d

/-- SIGNING_COMPLETE. -/
def Dev.signingComplete (d : Dev) : Dev :=
  match d.security.signings with
  | [] => d
  | .report fn doe nonce dest :: _ =>
    let (body, d) := d.reportBody fn nonce
    let d := d.popSigning
    let report := body ++ signatureOf body
    if doe then if d.host.linkUp then d.send (.doe fn report) else d
    else (d.gwrite fn dest report).finishCode fn 0x0800 (leBytes 8 1 ++ leBytes 8 50368)
  | .checkpoint fn nonce dest :: _ => d.checkpointSigned fn nonce dest

def execSigningComplete (s : State) : Out := s.run Dev.signingComplete

/-- A range of a facet's memory takes writes. -/
def Dev.writable (d : Dev) (f va n : Nat) : Bool :=
  (lineChunks va n).all fun c => match d.translate f c.1 with
    | .device _ _ ro => !ro
    | .bus _ _ ro _ => !ro
    | _ => false

/-- ATTEST_REPORT, code 0x0800. -/
def execAttestReport (fn : Nat) (s : State) : Out :=
  s.run fun d => d.mbxRun fn 0x0800 (ofSender fn) fun d p =>
    let dest := leAt p 48 8
    if dest % 64 ≠ 0 ∨ !d.writable fn dest 50368 then .refuse 0x3 []
    else .wait (d.askReport fn false (BitVec.ofNat 256 (leAt p 16 32)) dest)

def identityChain : List Byte := (List.range Config.identityChainBytes).map Config.identityChainByte

/-- IDENTITY_CHAIN, code 0x0801. -/
def execIdentityChain (fn : Nat) (s : State) : Out :=
  s.run fun d => d.mbxRun fn 0x0801 (ofSender fn) fun d p =>
    let (written, e) := d.vwrite agentGaffer fn false none (leAt p 8 8) identityChain false
    if !written then .refuse 0x3 [] else .ok e (leBytes 8 1 ++ leBytes 8 Config.identityChainBytes)

/-- The function's DOE mailbox takes a request: it is on the bus, the gaffer runs, and no report request of it waits. -/
def Dev.doeOpen (d : Dev) (fn : Nat) : Bool :=
  d.onBus fn && decide (d.boot.step = 9) && !NSet.has d.host.flr fn &&
    d.security.signings.all fun g => match g with
      | .report f doe _ _ => !(doe && decide (f = fn))
      | .checkpoint .. => true

/-- DOE_REPORT_REQUEST. -/
def execDoeReportRequest (fn : Nat) (nonce : BitVec 256) (s : State) : Out :=
  s.run fun d => if d.doeOpen fn then d.askReport fn true nonce 0 else d

/-- DOE_CHAIN_REQUEST. -/
def execDoeChainRequest (fn : Nat) (s : State) : Out :=
  s.run fun d => if d.doeOpen fn then d.send (.doe fn identityChain) else d

/-! ## Firmware (R446 to R448) -/

/-- The bank that does not run. -/
def Dev.idleBank (d : Dev) : Nat := 1 - d.boot.bank
def Dev.setBank (d : Dev) (n : Nat) (b : Bank) : Dev := d.updSecurity fun x => { x with banks := Tab.set Bank.reset x.banks n b }

/-- The image's fields are consistent and its signature verifies under the vendor root (R446, R447; the SVN apart). -/
def imageSigned (image : List Byte) : Bool :=
  let n := 256 + leAt image 12 4
  let pub := (image.drop 16).take 64
  decide (leAt image 0 1 = 1) && decide (image.length = n + 29792) && decide (leAt image 84 4 ≤ 524288) && decide (leAt image 84 4 ≤ leAt image 12 4) &&
    decide (Config.shake256 pub = Config.vendorRootDigest) && Config.signatureOk pub (image.take n) (image.drop n)

/-- The bank that holds an image. -/
def bankOfImage (image : List Byte) (usable : Bool) : Bank :=
  { usable := usable, version := BitVec.ofNat 32 (leAt image 4 4), svn := BitVec.ofNat 8 (leAt image 8 1), ifMin := BitVec.ofNat 16 (leAt image 80 2),
    ifMax := BitVec.ofNat 16 (leAt image 82 2), measurement := Config.shake256 (image.take (256 + leAt image 12 4)), proven := false }

/-- FW_STAGE, code 0x0802. A refused image leaves the bank marked unusable. -/
def execFwStage (fn : Nat) (s : State) : Out :=
  s.run fun d => d.mbxRun fn 0x0802 (ofSender fn) fun d p =>
    let n := leAt p 16 8
    if 33554432 < n then .outcome (d.setBank d.idleBank { d.bankOf d.idleBank with usable := false }) 0x801
    else
      let (r, d) := d.gread fn (leAt p 8 8) n
      if !r.ok then .refuse 0x3 []
      else
        let svn : BitVec 8 := BitVec.ofNat 8 (leAt r.bytes 8 1)
        if r.poison || !imageSigned r.bytes then .outcome (d.setBank d.idleBank (bankOfImage r.bytes false)) 0x801
        else if svn < d.security.svnFused then .outcome (d.setBank d.idleBank (bankOfImage r.bytes false)) 0x802
        else .ok (d.setBank d.idleBank (bankOfImage r.bytes true)) []

/-- FW_ACTIVATE, code 0x0803. -/
def execFwActivate (fn : Nat) (s : State) : Out :=
  s.run fun d => d.mbxRun fn 0x0803 (ofSender fn) fun d p =>
    let n := bits (leAt p 1 1) 0 1
    if (d.bankOf n).usable then .ok (d.updBoot fun b => { b with activated := n, retried := false }) [] else .refuse 0x801 []

/-- FW_COMMIT_SVN, code 0x0804. -/
def execFwCommitSvn (fn : Nat) (s : State) : Out :=
  s.run fun d => d.mbxRun fn 0x0804 (ofSender fn) fun d _ =>
    let svn := d.runningBank.svn
    let new := if d.security.svnFused ≤ svn then svn else d.security.svnFused
    .ok (d.updSecurity fun x => { x with svnFused := new }) ([1, new] ++ leBytes 6 0)

/-! ## Link encryption keys (R453) -/

/-- Link IDE is active once a set holds both directions' keys (log 54, DEDUCED). -/
def Dev.linkKeyed (d : Dev) (set : Nat) : Bool :=
  d.host.linkUp && [2 * set, 2 * set + 1].all fun i => d.security.ideKeys.any fun e => decide (e.1 = i)

/-- IDE_KEY_SET, code 0x0810. -/
def execIdeKeySet (fn : Nat) (s : State) : Out :=
  s.run fun d => d.mbxRun fn 0x0810 (ofSender fn) fun d p =>
    let stream := bits (leAt p 1 1) 0 4
    let set := bits (leAt p 2 1) 0 1
    if 8 < stream then .refuse 0x3 []
    else match Config.unwrapKey ((p.drop 8).take 1608) with
      | none => .refuse 0x80B []
      | some key =>
        let d := d.updSecurity fun x => { x with ideKeys := Tab.put x.ideKeys (4 * stream + 2 * set + bits (leAt p 2 1) 1 1) key }
        let active := stream = 0 ∧ d.linkKeyed set = true
        .ok (if active then d.updSecurity fun x => { x with ideLink := true } else d) []

/-! ## Lifecycle (R463, R470) -/

/-- The purposes of a signed bundle. -/
def forInstall : Nat := 0
def forRelease : Nat := 1
def forReturn : Nat := 2
def forOwnedReturn : Nat := 3
def forUnlock : Nat := 4
def forTest : Nat := 5

/-- The bundle at SRC_VA, of BYTES; none where it is not mapped. A poisoned one verifies under no key. -/
def Dev.readBundle (d : Dev) (fn va n : Nat) : Option (List Byte × Bool) × Dev :=
  let (r, d) := d.gread fn va n
  (if r.ok then some (r.bytes, !r.poison) else none, d)

/-- The bundle is rightly signed over the nonce that is valid now. -/
def Dev.authorised (d : Dev) (purpose : Nat) (owner : BitVec 256) (b : List Byte × Bool) : Bool :=
  b.2 && match d.security.nonce with
    | some nonce => Config.bundleOk purpose owner nonce b.1
    | none => false

/-- WORK_PRESENT of R463. -/
def Dev.workPresent (d : Dev) : Bool :=
  d.facetsThere.any (fun f => decide (f ≠ 0)) || !d.lehr.corpora.isEmpty || !d.serving.models.isEmpty || d.lehr.held

/-- A lifecycle transition: journaled, a fuse row burnt, the debug level NONE, the nonce used. Log 59, DEDUCED. -/
def Dev.lifecycleTo (d : Dev) (fn : Nat) (new : BitVec 2) : Dev :=
  let d := d.endHalt
  let d := d.auditEvent fn false 4 new.toNat d.security.lifecycle.toNat
  d.updSecurity fun x => { x with lifecycle := new, transitions := x.transitions + 1, debug := 0, haltFacet := 0, nonce := none }

/-- The erase of R470: facet 0's state in any memory, all HBM, the slices and arrays, the tenant and owner keys; of the journal the
always-on ring stays. Log 59, DEDUCED. -/
def Dev.erase (d : Dev) : Dev :=
  let d := d.resetActions 0 0x516
  let d := { d with
    mem := Tab.above d.mem farBase, memPoison := d.memPoison.filter fun l => decide (farBase / 128 ≤ l),
    slices := d.slices.map fun (e : Nat × Slice) => (e.1, { e.2 with ways := [], dir := [] }),
    cores := d.cores.map fun (e : Nat × Core) => (e.1, { e.2 with la := [], laPoison := [], l1 := [], wbuf := [] }),
    cache := { d.cache with retain := [] },
    facets := d.facets.map fun (e : Nat × Facet) => (e.1, { e.2 with credential := none, consent := none }) }
  d.updSecurity fun x => { x with owner := none, migration := none, ideKeys := [], ideLink := false, journal := x.journal.take 1024 }

/-- OWNER_INSTALL, code 0x0805. Log 59, DEDUCED. -/
def execOwnerInstall (fn : Nat) (s : State) : Out :=
  s.run fun d => d.mbxRun fn 0x0805 (ofSender fn) fun d p =>
    let x := d.security
    if x.lifecycle ≠ 1 then .refuse 0x803 []
    else if 32 ≤ x.transitions then .refuse 0x808 []
    else match d.readBundle fn (leAt p 8 8) (leAt p 16 8) with
      | (none, _) => .refuse 0x3 []
      | (some b, d) =>
        if !d.authorised forInstall (Config.bundleOwner b.1) b then .refuse 0x804 []
        else
          let svn := Config.bundleMinSvn b.1
          .ok ((d.lifecycleTo fn 2).updSecurity fun x =>
            { x with owner := some (Config.bundleOwner b.1), migration := some (Config.bundleMigrationKey b.1),
                     svnFused := if x.svnFused ≤ svn then svn else x.svnFused }) []

/-- OWNER_RELEASE, code 0x0806. -/
def execOwnerRelease (fn : Nat) (s : State) : Out :=
  s.run fun d => d.mbxRun fn 0x0806 (ofSender fn) fun d p =>
    let x := d.security
    if x.lifecycle ≠ 2 then .refuse 0x803 []
    else if 32 ≤ x.transitions then .refuse 0x808 []
    else if d.workPresent then .refuse 0x805 []
    else match d.readBundle fn (leAt p 8 8) (leAt p 16 8) with
      | (none, _) => .refuse 0x3 []
      | (some b, d) =>
        if !d.authorised forRelease (x.owner.getD 0) b then .refuse 0x804 [] else .ok (d.lifecycleTo fn 1).erase []

/-- RETURN_CHALLENGE, code 0x0807. -/
def execReturnChallenge (fn : Nat) (s : State) : Out :=
  s.run fun d => d.mbxRun fn 0x0807 (ofSender fn) fun d _ =>
    let (nonce, d) := d.fresh256
    .ok (d.updSecurity fun x => { x with nonce := some nonce }) (leBytes 16 1 ++ digestBytes nonce)

/-- LIFECYCLE_RETURN, code 0x0808: the erase, and a final checkpoint. -/
def execLifecycleReturn (fn : Nat) (s : State) : Out :=
  s.run fun d => d.mbxRun fn 0x0808 (ofSender fn) fun d p =>
    let x := d.security
    if ¬ (x.lifecycle = 1 ∨ x.lifecycle = 2) then .refuse 0x803 []
    else if 32 ≤ x.transitions then .refuse 0x808 []
    else if d.workPresent then .refuse 0x805 []
    else match d.readBundle fn (leAt p 8 8) (leAt p 16 8) with
      | (none, _) => .refuse 0x3 []
      | (some b, d) =>
        let purpose := if x.lifecycle = 2 then forOwnedReturn else forReturn
        if !d.authorised purpose (x.owner.getD 0) b then .refuse 0x804 []
        else .ok ((d.lifecycleTo fn 3).erase.updSecurity fun x => (x.dueCheckpoint none 0 0).startSigning) []

/-! ## Audit (R460, R461, R471) -/

/-- Journal entries by SEQ; none where one of them has been overwritten or is not yet written. -/
def Security.entries (x : Security) (first count : Nat) : Option (List AuditEntry) :=
  if count = 0 then some []
  else if first + count ≤ x.seq + 1 ∧ x.seq < first + x.journal.length then some ((x.journal.drop (x.seq + 1 - first - count)).take count).reverse
  else none

/-- AUDIT_READ, code 0x080D: entries by SEQ, or the signed checkpoints of module flash, FIRST 0 being the oldest (log 55, DEDUCED). -/
def execAuditRead (fn : Nat) (s : State) : Out :=
  s.run fun d => d.mbxRun fn 0x080D (ofSender fn) fun d p =>
    let x := d.security
    let first := leAt p 8 8
    let count := leAt p 16 8
    let kept := x.checkpoints.reverse
    let bytes : Option (List Byte) :=
      if bit (leAt p 1 1) 0 then
        if first + count ≤ kept.length then some (((kept.drop first).take count).map Checkpoint.bytes).flatten else none
      else (x.entries first count).map fun l => (l.map AuditEntry.bytes).flatten
    match bytes with
    | none => .refuse 0x80A []
    | some bs =>
      let (written, e) := d.vwrite agentGaffer fn false none (leAt p 24 8) bs false
      if !written then .refuse 0x3 [] else .ok e (leBytes 8 1 ++ leBytes 8 count)

/-- AUDIT_ACK, code 0x080E. -/
def execAuditAck (fn : Nat) (s : State) : Out :=
  s.run fun d => d.mbxRun fn 0x080E (ofSender fn) fun d p =>
    let n := leAt p 8 8
    if d.security.seq < n then .refuse 0x3 [] else .ok (d.updSecurity fun x => { x with acked := max x.acked n }) []

/-- AUDIT_CHECKPOINT, code 0x080F. -/
def execAuditCheckpoint (fn : Nat) (s : State) : Out :=
  s.run fun d => d.mbxRun fn 0x080F (ofSender fn) fun d p =>
    let dest := leAt p 48 8
    if !d.writable fn dest 49984 then .refuse 0x3 []
    else .wait (d.updSecurity fun x => (x.dueCheckpoint (some fn) (BitVec.ofNat 256 (leAt p 16 32)) dest).startSigning)

end Sys2Proof.Machine
end

