-- ==== Sys2Proof/Machine/Debug.lean ====
section
/-! DEFINITION. Debug (R464 to R469, R471): levels, consent, DEBUG_BEAM, the trace ring, and the capabilities of FULL. -/

namespace Sys2Proof.Config

/-! Layouts that the manual does not give (R466, R468; log 9, DESIGN CHOICE): what DEBUG_BEAM READ writes of a beam, and what a dump writes of a core's register
file and beams, an L1, a slice's ways and tags, and a slice's directory. -/

opaque beamImage : Machine.Beam → List Byte
opaque dumpBeams : List Machine.Block → List Byte
opaque dumpL1 : List Machine.L1Line → List Byte
opaque dumpWays : List Machine.Way → List Byte
opaque dumpDirectory : List Machine.DirEntry → List Byte

end Sys2Proof.Config

namespace Sys2Proof.Machine

/-! ## Levels (R464, R465, R469) -/

/-- The lifecycle states that permit a level. -/
def levelPermitted (lifecycle level : BitVec 2) : Bool :=
  match level.toNat with
  | 2 => decide (lifecycle = 1) || decide (lifecycle = 2)
  | 3 => decide (lifecycle = 1) || decide (lifecycle = 3)
  | _ => true

/-- Every compute die is ON. -/
def Dev.allDiesOn (d : Dev) : Bool := (List.range 12).all fun n => decide ((d.die n).state = .on)

/-- The level in force changes; HALT on another facet, or another level, ends the HALT before it. -/
def Dev.setLevel (d : Dev) (level : BitVec 2) (f : Nat) : Dev :=
  if level = 2 then
    if decide (d.security.debug = 2) && decide (d.security.haltFacet = f) then d
    else ((d.endHalt).updSecurity fun x => { x with debug := 2, haltFacet := f }).glint f 0x801 f 1 0
  else d.endHalt.updSecurity fun x => { x with debug := level, haltFacet := 0 }

/-- FULL: the nonce is used, no die stays in DIM, and every DARK one wakes (R412, R469). -/
def Dev.enterFull (d : Dev) : Dev :=
  let d := (d.setLevel 3 0).updSecurity fun x => { x with nonce := none }
  Dev.forEach (List.range 12) (fun d n => (if (d.die n).state = .dim then d.dieState n .on else d).wakeDie n) d

/-- DEBUG_SET, code 0x0809. To FULL it completes once every die is ON. -/
def execDebugSet (fn : Nat) (s : State) : Out :=
  s.run fun d => d.mbxRun fn 0x0809 (ofSender fn) fun d p =>
    let level : BitVec 2 := BitVec.ofNat 2 (leAt p 1 1)
    let f := bits (leAt p 2 1) 0 6
    if !levelPermitted d.security.lifecycle level then .refuse 0x806 []
    else if level = 2 then
      if (d.facet f).consent = some (BitVec.ofNat 64 (leAt p 8 8)) then .ok (d.setLevel 2 f) [] else .refuse 0x807 []
    else if level = 3 then
      if d.facetsThere.any (fun f => decide (f ≠ 0)) || d.lehr.held then .refuse 0x805 []
      else match d.readBundle fn (leAt p 16 8) (leAt p 24 8) with
        | (none, _) => .refuse 0x3 []
        | (some b, d) =>
          if !d.authorised forUnlock 0 b then .refuse 0x804 []
          else
            let d := d.enterFull
            if d.allDiesOn then .ok d [] else .wait d
    else .ok (d.setLevel level 0) []

/-- DEBUG_CONSENT, code 0x080A. -/
def execDebugConsent (fn : Nat) (s : State) : Out :=
  s.run fun d => d.mbxRun fn 0x080A (ofSender fn) fun d p =>
    if bit (leAt p 1 1) 0 then .ok (d.voidConsent fn) (leBytes 8 1 ++ leBytes 8 0)
    else
      let (token, d) := d.fresh
      .ok (d.updFacet fn fun x => { x with consent := some token }) (leBytes 8 1 ++ leBytes 8 token.toNat)

/-! ## DEBUG_BEAM (R466) -/

/-- The launch of a facet that a command identifier and its generation name. -/
def Dev.namedLaunch (d : Dev) (f id gen : Nat) : Option Launch :=
  d.launches.find? fun l => decide (l.facet = f) && match (d.facet f).cmd? l.cmd with
    | some c => decide (c.id.toNat = id) && decide (c.gen.toNat = gen)
    | none => false

/-- Beams of a launch with a property, resident and saved. -/
def Dev.launchBeams (d : Dev) (id : Nat) (p : Beam → Bool) : Nat :=
  let n (b : Block) : Nat := if b.launch = id then countIf p b.beams else 0
  (d.blocks.map n).sum + (d.saved.map fun v => n v.block).sum

/-- A beam that HALT reaches: it neither is parked nor has ended. -/
def Beam.haltable (m : Beam) : Bool :=
  match m.status with
  | .parked _ | .ended => false
  | _ => true
/-- A beam that DEBUG_HALT parked. -/
def Beam.halted (m : Beam) : Bool := decide (m.status = .parked .debugHalt)

/-- HALT: every beam of the launch has a halt waiting; those that would issue next park. -/
def Dev.haltLaunch (d : Dev) (l : Launch) : Dev :=
  let mark (b : Block) : Block :=
    if b.launch = l.id then { b with beams := b.beams.map fun m => if m.haltable then { m with haltPending := true } else m } else b
  let d := { d with blocks := d.blocks.map mark, saved := d.saved.map fun v => { v with block := mark v.block } }
  Dev.forEach (List.range (l.params.gridBlocks / l.params.cluster + 1)) (fun d c => d.haltsDue l c) d

/-- STEP: a halted beam goes on for one instruction. -/
def Dev.stepBeam (d : Dev) (l : Launch) (b : Block) (i : Nat) : Dev :=
  d.updBeam { launch := l.id, block := b.index, beam := i } fun m =>
    if m.halted then { m.resume (d.barrierGone l b) with debugStep := true } else m

/-- DEBUG_BEAM, code 0x080B. -/
def execDebugBeam (fn : Nat) (s : State) : Out :=
  s.run fun d => d.mbxRun fn 0x080B (ofSender fn) fun d p =>
    let f := d.security.haltFacet
    let response (n : Nat) : List Byte := leBytes 8 1 ++ leBytes 8 n
    if d.security.debug ≠ 2 then .refuse 0x806 []
    else match d.namedLaunch f (leAt p 4 2) (leAt p 6 1) with
      | none => .refuse 0x806 []
      | some l =>
        let i := bits (leAt p 12 1) 0 5
        match bits (leAt p 1 1) 0 2 with
        | 0 => .ok (d.haltLaunch l) (response (d.launchBeams l.id Beam.haltable))
        | 2 => .ok (d.resumeHalted fun b => decide (b.launch = l.id)) (response (d.launchBeams l.id Beam.halted))
        | op =>
          match (d.block? l.id (leAt p 8 4)).bind fun b => (b.beams[i]?).map fun m => (b, m) with
          | none => .refuse 0x3 []
          | some (b, m) =>
            if op = 1 then .ok (d.stepBeam l b i) (response (boolNat m.halted))
            else
              let (written, e) := d.vwrite agentGaffer fn false none (leAt p 16 8) (Config.beamImage m) false
              if !written then .refuse 0x3 [] else .ok e (response 1)

/-! ## The trace ring (R467) -/

/-- DEBUG_TRACE, code 0x080C. -/
def execDebugTrace (fn : Nat) (s : State) : Out :=
  s.run fun d => d.mbxRun fn 0x080C (ofSender fn) fun d p =>
    let va := leAt p 8 8
    let log2 := bits (leAt p 16 1) 0 5
    if log2 < 6 ∨ 16 < log2 ∨ !d.writable fn va (32 * 2 ^ log2) then .refuse 0x3 []
    else .ok (d.updSecurity fun x => { x with trace := some (va, log2), traceSeq := 0 }) []

/-! ## FULL (R468, R469) -/

/-- A core by its dump INDEX: 0 to 767 a matrix core, from 768 a vector core (log 56, DEDUCED). -/
def coreOfIndex (n : Nat) : Nat := if n < 768 then n else 1024 + (n - 768)

/-- A core's local array: its scratchpad banks, the marked retention banks as zeros except in RETURNED, then its cache banks. -/
def Dev.dumpArray (d : Dev) (c : Nat) : List Byte :=
  let k := d.core c
  let n := scratchShare (coreIsVector c) k.split
  let hidden := if NSet.has d.cache.retain c && decide (d.security.lifecycle ≠ 3) then 1048576 else 0
  leBytes hidden 0 ++ Mem.read k.la hidden (n - hidden) ++ Config.dumpL1 k.l1

/-- The contents of one object; none where there is no such object. -/
def Dev.dumpObject (d : Dev) (object index addr n : Nat) : Option (List Byte) :=
  let core := coreOfIndex index
  let training (object : Nat) : List Byte := (List.range (Config.debugBytes object index)).map (Config.debugByte object index)
  match object with
  | 0 => if coreValid core then some (Config.dumpBeams (d.blocksOn core)) else none
  | 1 => if coreValid core then some (d.dumpArray core) else none
  | 2 => if coreValid core then some (Config.dumpL1 (d.core core).l1) else none
  | 3 => if index < 96 then some (Config.dumpWays (d.slice index).ways) else none
  | 4 => if index < 96 then some (Config.dumpDirectory (d.slice index).dir) else none
  | 5 => if (lineChunks addr n).all fun c => d.lineExists (c.1 / 128) then some (Mem.read d.mem addr n) else none
  | 6 => if index < 12 then some (training 6) else none
  | 7 => if index < 6 then some (training 7) else none
  | _ => none

/-- DEBUG_DUMP, code 0x0811. -/
def execDebugDump (fn : Nat) (s : State) : Out :=
  s.run fun d => d.mbxRun fn 0x0811 (ofSender fn) fun d p =>
    if d.security.debug ≠ 3 then .refuse 0x806 []
    else match d.dumpObject (bits (leAt p 1 1) 0 4) (bits (leAt p 4 2) 0 10) (leAt p 16 8) (leAt p 24 8) with
      | none => .refuse 0x3 []
      | some bs =>
        let (written, e) := d.vwrite agentGaffer fn false none (leAt p 8 8) bs false
        if !written then .refuse 0x3 [] else .ok e (leBytes 8 1 ++ leBytes 8 bs.length)

/-- The die is scanned: its blocks are switched out, the image is written, and steps 3 to 7 of R485 reset it. -/
def Dev.scanDie (d : Dev) (die : Nat) : Dev :=
  let d := d.updBoot fun b => { b with dieReset := some { die := die, step := 3, lost := 0, facets := [], fn := none } }
  (d.clearDie die []).holdSlices (dieBase die) true

/-- DEBUG_SCAN, code 0x0812; it waits for a die reset that runs. -/
def execDebugScan (fn : Nat) (s : State) : Out :=
  s.run fun d =>
    if d.boot.dieReset.isSome then d
    else d.mbxRun fn 0x0812 (ofSender fn) fun d p =>
      let die := bits (leAt p 1 1) 0 4
      if d.security.debug ≠ 3 then .refuse 0x806 []
      else if 11 < die then .refuse 0x3 []
      else
        let image := (List.range (Config.debugBytes 8 die)).map (Config.debugByte 8 die)
        let (written, e) := d.vwrite agentGaffer fn false none (leAt p 8 8) image false
        if !written then .refuse 0x3 [] else .ok (e.scanDie die) (leBytes 8 1 ++ leBytes 8 image.length)

/-- DEBUG_TEST, code 0x0813. When the program has ended the device performs a warm reset (log 57, DEDUCED). -/
def execDebugTest (fn : Nat) (s : State) : Out :=
  s.run fun d => d.mbxRun fn 0x0813 (ofSender fn) fun d p =>
    if d.security.debug ≠ 3 then .refuse 0x806 []
    else if d.security.lifecycle ≠ 3 then .refuse 0x803 []
    else match d.readBundle fn (leAt p 8 8) (leAt p 16 8) with
      | (none, _) => .refuse 0x3 []
      | (some b, d) =>
        if !d.authorised forTest 0 b then .refuse 0x804 []
        else
          let dies := bits (leAt p 1 1) 0 4
          let result := (List.range (Config.debugBytes 9 dies)).map (Config.debugByte 9 dies)
          let (written, e) := d.vwrite agentGaffer fn false none (leAt p 24 8) result false
          if !written then .refuse 0x3 []
          else
            let e := (e.updSecurity fun x => { x with nonce := none }).updBoot fun b => { b with warmDue := some (b.warmDue.getD 3) }
            .ok e (leBytes 8 1 ++ leBytes 8 result.length)

end Sys2Proof.Machine
end

