-- ==== Sys2Proof/Machine/Errors.lean ====
section
/-! DEFINITION. Errors (R432 to R438): the window of corrected events, damaged weights and their reload, the decay of scores, device-fatal events. -/

namespace Sys2Proof.Machine

/-- CE_WINDOW: a 1 s window ends; more corrected events than the CE_THRESH it began with are signalled (R432), and the register's value acts
in the next one (R441). -/
def execCeWindow (s : State) : Out :=
  s.run fun d =>
    let d := if d.errors.actCeThresh.toNat < d.errors.corrected then d.send (.aer 0 false false) else d
    d.updErrors fun e => { e with corrected := 0, actCeThresh := e.ceThresh }

/-! ## Loss of resident weights (R434, R437) -/

/-- Steps 1 and 2 of R434: the resident copy is damaged and its running step is abandoned. Log 61, DEDUCED. -/
def Dev.damage (d : Dev) (model : Nat) (g : Model → Model) : Dev :=
  let d := d.updModel model fun m => { g m with damaged := true }
  match d.slotOf model with
  | some s => d.updSlot s.num fun s => { s with stepping := false }
  | none => d

/-- WEIGHT_DAMAGE: a weight row of one of the model's cores fails; with a number from 768 up, a line of its warm copy becomes P, which damages every
resident model of that digest. Log 61, DEDUCED. -/
def execWeightDamage (model core : Nat) (s : State) : Out :=
  s.run fun d =>
    match d.model? model with
    | none => d
    | some m =>
      if core < 768 then
        match d.slotOf model with
        | some k =>
          if !k.loaded || !NSet.has k.cores core then d
          else ((d.damage model fun m => { m with damagedCores := NSet.add m.damagedCores core }).count 0x609010 1).scoreUp core 16
        | none => d
      else match d.warmOf m.digest with
        | none => d
        | some w =>
          match w.lines[(core - 768) % (max 1 w.lines.length)]? with
          | none => d
          | some l => Dev.forEach (d.serving.models.filter fun x => decide (x.digest = w.digest) && d.isHot x.num) (fun d x => d.damage x.num id) (d.poisonLine l)

/-- The repair succeeds: the damaged cores are loaded, the abandoned step is replayed, and every referencing facet is told. -/
def Dev.reloaded (d : Dev) (m : Model) (image : List Byte) (source : Nat) : Dev :=
  let d := d.updModel m.num fun x => { x with damaged := false, damagedCores := [] }
  let d := match d.slotOf m.num with
    | some s =>
      let d := d.writeWeights s.cores m.damagedCores image
      let awake := s.reload.isEmpty && s.cores.all fun c => !(d.core c).gated
      d.updSlot s.num fun x => { x with stepping := x.loaded && awake && !(d.batch m.num).isEmpty }
    | none => d
  let d := d.count 0x609040 1
  Dev.forEach m.refs (fun d r => d.glint r.facet 0x401 r.handle.toNat source m.damagedCores.length) d

/-- Every source has failed: the slot is evicted, the warm copy freed, the sequences complete with MODEL_LOST, and the entry is LOST. Log 61, DEDUCED. -/
def Dev.modelLost (d : Dev) (m : Model) : Dev :=
  let ended (f : Nat) : Nat := countIf (fun e => decide (e.2.facet = f)) (d.sequences m.num)
  let counts := m.refs.map fun r => (r, ended r.facet)
  let d := match d.slotOf m.num with
    | some s => d.evictSlot s.num
    | none => d
  let d := d.updModel m.num fun x => { x with damaged := false, damagedCores := [], lost := true }
  let d := (d.freeWarm m.digest).dropAsk m.num
  let d := (d.endSequences m.num 3 0x406).finishPins m.num 0x406
  let d := d.count 0x609048 1
  Dev.forEach counts (fun d e => d.glint e.1.facet 0x402 e.1.handle.toNat e.2 0) d

/-- WEIGHT_RELOAD_DONE: steps 3 to 6 of R434 end. -/
def execWeightReloadDone (model : Nat) (s : State) : Out :=
  s.run fun d =>
    match d.model? model with
    | none => d
    | some m =>
      if !m.damaged then d
      else match d.weights m with
        | (some (image, source), d) => d.reloaded m image source
        | (none, d) => d.modelLost m

/-! ## Scores and device-fatal events (R436, R438) -/

/-- SCORE_DECAY: 10 s of the home base die's timer have passed. -/
def execScoreDecay (core : Nat) (s : State) : Out :=
  s.run fun d =>
    if !coreValid core then d
    else d.updErrors fun e => { e with scores := Tab.set 0 e.scores core (Tab.get 0 e.scores core - 1) }

/-- DEVICE_FATAL: recorded in module flash and signalled fatal; the gaffer stops (R307, R311). -/
def execDeviceFatal (cause : Nat) (s : State) : Out :=
  s.run fun d =>
    if d.boot.step = 0 then d
    else (d.updErrors fun e => { e with fatal := true, fatalRecords := cause :: e.fatalRecords }).send (.aer 0 true true)

end Sys2Proof.Machine
end

