-- ==== Sys2Proof/Machine/Module.lean ====
section
/-! DEFINITION. The module's sideband and cooling (R512 to R517): MCTP addresses, PLDM sensors and the reset effecter, and the coolant thermistors. -/

namespace Sys2Proof.Machine

/-- The endpoint answers from the end of boot step 3 (R513). -/
def Dev.endpointUp (d : Dev) : Bool := decide (4 ≤ d.boot.step)

/-- SET_ENDPOINT_ID on I3C or SMBus. -/
def execSetEndpointId (i3c : Bool) (eid : BitVec 8) (s : State) : Out :=
  s.run fun d =>
    if !d.endpointUp then d
    else d.updHost fun h => if i3c then { h with eidI3c := eid } else { h with eidSmb := eid }

/-- DYNAMIC_ADDRESS. -/
def execDynamicAddress (addr : BitVec 7) (s : State) : Out :=
  s.run fun d => if d.endpointUp then d.updHost fun h => { h with dynAddr := addr } else d

/-- The numeric sensors of R514 in the order of its table; the manual gives no numbers (log 52, DESIGN CHOICE). -/
def Dev.sensor (d : Dev) (n : Nat) : Option Nat :=
  let p := d.power
  if n = 0 then some p.inputDv.toNat
  else if n = 1 then some p.inputDa.toNat
  else if n = 2 then some p.inputW
  else if n = 3 then some p.cap
  else if n < 16 then some (d.die (n - 4)).temp
  else if n < 20 then some (d.base (n - 16)).temp
  else if n < 32 then some (d.stack (n - 20)).temp.toNat
  else if n = 32 then some p.inlet.toNat
  else if n = 33 then some p.outlet.toNat
  else none

/-- PLDM_SENSOR_READ; recovery mode has no Type 2. -/
def execPldmSensorRead (sensor : Nat) (s : State) : Out :=
  s.run fun d =>
    if !d.endpointUp || d.boot.recovery then d
    else match d.sensor sensor with
      | some v => d.send (.pldm v)
      | none => d

/-- PLDM_DEVICE_RESET: the response, and a warm reset 1 ms after it. -/
def execPldmDeviceReset (s : State) : Out :=
  s.run fun d =>
    if !d.endpointUp || d.boot.recovery then d
    else (d.send (.pldm 0)).updBoot fun b => { b with warmDue := some (b.warmDue.getD 2) }

/-- COOLANT_WARN after a reading, from before it (R517). -/
def coolantWarns (old : Bool) (inlet outlet : Nat) : Bool :=
  if 45 ≤ inlet ∨ inlet + 15 ≤ outlet then true
  else if inlet < 43 ∧ outlet < inlet + 13 then false
  else old

/-- COOLANT_READ: the inlet's and the outlet's temperature in °C. -/
def execCoolantRead (inlet outlet : Nat) (s : State) : Out :=
  s.run fun d =>
    if d.boot.step = 0 then d
    else
      let old := d.power.coolantWarn
      let warn := coolantWarns old inlet outlet
      let d := d.updPower fun p => { p with inlet := BitVec.ofNat 8 inlet, outlet := BitVec.ofNat 8 outlet, coolantWarn := warn }
      if warn && !old then d.glint 0 0x706 inlet outlet d.power.inputW else d

end Sys2Proof.Machine
end

