-- ==== Sys2Proof/Machine/Scalar.lean ====
section
/-! DEFINITION. Scalar instructions (R54). -/

namespace Sys2Proof.Machine

/-- Operand B: IMM sign-extended where MOD bit 0 is 1, else SRC_B. -/
def Ctx.scalarB (c : Ctx) (f : KFields) : BitVec 64 := if f.mod.getLsbD 0 then imm64 f else c.sVal f.b.toNat

/-- The specifier checks of an instruction with operands A and B. -/
def abTraps (f : KFields) : List Trap :=
  trapIf (sSrcBad f.a.toNat || (!f.mod.getLsbD 0 && sSrcBad f.b.toNat) || sDstBad f.dst.toNat) illegal

/-- The checks of an instruction that names DST alone. -/
def dTraps (f : KFields) : List Trap := trapIf (sDstBad f.dst.toNat) illegal

/-- Writes a scalar result and goes on. -/
def Dev.scalarResult (d : Dev) (c : Ctx) (f : KFields) (v : BitVec 64) : Dev :=
  d.updBeam c.ref fun b => { b.sWrite f.dst.toNat v with pc := b.pc + 1 }

/-- A scalar instruction of operands A and B. -/
def Dev.scalarOp (d : Dev) (r : BeamRef) (f : KFields) (op : BitVec 64 → BitVec 64 → BitVec 64) : Dev :=
  d.issueScalar r fun d c => checked (abTraps f) (.done (d.scalarResult c f (op (c.sVal f.a.toNat) (c.scalarB f))))

def boolWord (b : Bool) : BitVec 64 := if b then 1 else 0

def execAdd (b : BeamRef) (f : KFields) (s : State) : Out := s.run fun d => d.scalarOp b f fun x y => x + y
def execSub (b : BeamRef) (f : KFields) (s : State) : Out := s.run fun d => d.scalarOp b f fun x y => x - y
def execMul (b : BeamRef) (f : KFields) (s : State) : Out := s.run fun d => d.scalarOp b f fun x y => x * y
/-- The high 64 bits of the 128-bit unsigned product. -/
def execMulhu (b : BeamRef) (f : KFields) (s : State) : Out :=
  s.run fun d => d.scalarOp b f fun x y => BitVec.ofNat 64 (x.toNat * y.toNat / 2 ^ 64)
def execDivu (b : BeamRef) (f : KFields) (s : State) : Out :=
  s.run fun d => d.scalarOp b f fun x y => if y = 0 then BitVec.allOnes 64 else x / y
def execRemu (b : BeamRef) (f : KFields) (s : State) : Out :=
  s.run fun d => d.scalarOp b f fun x y => if y = 0 then x else x % y
def execAndS (b : BeamRef) (f : KFields) (s : State) : Out := s.run fun d => d.scalarOp b f fun x y => x &&& y
def execOrS (b : BeamRef) (f : KFields) (s : State) : Out := s.run fun d => d.scalarOp b f fun x y => x ||| y
def execXorS (b : BeamRef) (f : KFields) (s : State) : Out := s.run fun d => d.scalarOp b f fun x y => x ^^^ y
def execShl (b : BeamRef) (f : KFields) (s : State) : Out := s.run fun d => d.scalarOp b f fun x y => x <<< (y.toNat % 64)
def execShr (b : BeamRef) (f : KFields) (s : State) : Out := s.run fun d => d.scalarOp b f fun x y => x >>> (y.toNat % 64)
def execSra (b : BeamRef) (f : KFields) (s : State) : Out :=
  s.run fun d => d.scalarOp b f fun x y => x.sshiftRight (y.toNat % 64)
def execMinS (b : BeamRef) (f : KFields) (s : State) : Out :=
  s.run fun d => d.scalarOp b f fun x y => if y.slt x then y else x
def execMaxS (b : BeamRef) (f : KFields) (s : State) : Out :=
  s.run fun d => d.scalarOp b f fun x y => if x.slt y then y else x
def execSlt (b : BeamRef) (f : KFields) (s : State) : Out := s.run fun d => d.scalarOp b f fun x y => boolWord (x.slt y)
def execSltu (b : BeamRef) (f : KFields) (s : State) : Out := s.run fun d => d.scalarOp b f fun x y => boolWord (x.ult y)
def execSeq (b : BeamRef) (f : KFields) (s : State) : Out := s.run fun d => d.scalarOp b f fun x y => boolWord (x == y)
def execMovi (b : BeamRef) (f : KFields) (s : State) : Out :=
  s.run fun d => d.issueScalar b fun d c => checked (dTraps f) (.done (d.scalarResult c f (imm64 f)))
/-- DST shifted left by 20, with the 20 bits of IMM below. -/
def execShor (b : BeamRef) (f : KFields) (s : State) : Out :=
  s.run fun d => d.issueScalar b fun d c =>
    checked (dTraps f) (.done (d.scalarResult c f ((c.sVal f.dst.toNat <<< (20 : Nat)) ||| f.imm.setWidth 64)))

end Sys2Proof.Machine
end

