-- ==== Sys2Proof/Machine/Vector.lean ====
section
/-! DEFINITION. The vector instructions' issue and the completion of a pass (R101 to R116): arithmetic, conversion, comparison, reduction, masks, the length register, local loads and stores, and the sort/select unit. -/

namespace Sys2Proof.Machine

/-! ## Passes -/

/-- Issues a vector pass: not ready while vector issue is gated; it consumes no poison except into a mask or a scalar (R116); else the
pass stands in the engine's queue and the beam waits for it (log 8, DESIGN CHOICE). -/
def Dev.issueVector (d : Dev) (i : Instr) (r : BeamRef) (f : KFields) : Dev :=
  match vkind i with
  | none => d
  | some k =>
    d.issue r (fun c => c.vRegs i k f) fun d c =>
      let core := c.block.core
      if d.vectorGated core then .hold
      else checked (c.vTraps k f ++ c.vConsumes i k f) (
        let entry (q : Core) : QEntry := { instr := i, beam := r, seq := q.nextSeq, base := 0, stride := 0 }
        .done ((d.updCore core fun q => { q with vecQ := q.vecQ ++ [entry q] }).updBeam r fun b => { b with passOut := true }))

def execVaddF (b : BeamRef) (f : KFields) (s : State) : Out := s.run fun d => d.issueVector (.vaddF b f) b f
def execVsubF (b : BeamRef) (f : KFields) (s : State) : Out := s.run fun d => d.issueVector (.vsubF b f) b f
def execVmulF (b : BeamRef) (f : KFields) (s : State) : Out := s.run fun d => d.issueVector (.vmulF b f) b f
def execVfmaF (b : BeamRef) (f : KFields) (s : State) : Out := s.run fun d => d.issueVector (.vfmaF b f) b f
def execVminF (b : BeamRef) (f : KFields) (s : State) : Out := s.run fun d => d.issueVector (.vminF b f) b f
def execVmaxF (b : BeamRef) (f : KFields) (s : State) : Out := s.run fun d => d.issueVector (.vmaxF b f) b f
def execVdivF (b : BeamRef) (f : KFields) (s : State) : Out := s.run fun d => d.issueVector (.vdivF b f) b f
def execVsqrtF (b : BeamRef) (f : KFields) (s : State) : Out := s.run fun d => d.issueVector (.vsqrtF b f) b f
def execVexp2F (b : BeamRef) (f : KFields) (s : State) : Out := s.run fun d => d.issueVector (.vexp2F b f) b f
def execVlog2F (b : BeamRef) (f : KFields) (s : State) : Out := s.run fun d => d.issueVector (.vlog2F b f) b f
def execVrsqF (b : BeamRef) (f : KFields) (s : State) : Out := s.run fun d => d.issueVector (.vrsqF b f) b f
def execVaddD (b : BeamRef) (f : KFields) (s : State) : Out := s.run fun d => d.issueVector (.vaddD b f) b f
def execVsubD (b : BeamRef) (f : KFields) (s : State) : Out := s.run fun d => d.issueVector (.vsubD b f) b f
def execVmulD (b : BeamRef) (f : KFields) (s : State) : Out := s.run fun d => d.issueVector (.vmulD b f) b f
def execVfmaD (b : BeamRef) (f : KFields) (s : State) : Out := s.run fun d => d.issueVector (.vfmaD b f) b f
def execVminD (b : BeamRef) (f : KFields) (s : State) : Out := s.run fun d => d.issueVector (.vminD b f) b f
def execVmaxD (b : BeamRef) (f : KFields) (s : State) : Out := s.run fun d => d.issueVector (.vmaxD b f) b f
def execVdivD (b : BeamRef) (f : KFields) (s : State) : Out := s.run fun d => d.issueVector (.vdivD b f) b f
def execVsqrtD (b : BeamRef) (f : KFields) (s : State) : Out := s.run fun d => d.issueVector (.vsqrtD b f) b f
def execVaddI (b : BeamRef) (f : KFields) (s : State) : Out := s.run fun d => d.issueVector (.vaddI b f) b f
def execVsubI (b : BeamRef) (f : KFields) (s : State) : Out := s.run fun d => d.issueVector (.vsubI b f) b f
def execVmulI (b : BeamRef) (f : KFields) (s : State) : Out := s.run fun d => d.issueVector (.vmulI b f) b f
def execVminI (b : BeamRef) (f : KFields) (s : State) : Out := s.run fun d => d.issueVector (.vminI b f) b f
def execVmaxI (b : BeamRef) (f : KFields) (s : State) : Out := s.run fun d => d.issueVector (.vmaxI b f) b f
def execVminu (b : BeamRef) (f : KFields) (s : State) : Out := s.run fun d => d.issueVector (.vminu b f) b f
def execVmaxu (b : BeamRef) (f : KFields) (s : State) : Out := s.run fun d => d.issueVector (.vmaxu b f) b f
def execVand (b : BeamRef) (f : KFields) (s : State) : Out := s.run fun d => d.issueVector (.vand b f) b f
def execVor (b : BeamRef) (f : KFields) (s : State) : Out := s.run fun d => d.issueVector (.vor b f) b f
def execVxor (b : BeamRef) (f : KFields) (s : State) : Out := s.run fun d => d.issueVector (.vxor b f) b f
def execVshl (b : BeamRef) (f : KFields) (s : State) : Out := s.run fun d => d.issueVector (.vshl b f) b f
def execVshr (b : BeamRef) (f : KFields) (s : State) : Out := s.run fun d => d.issueVector (.vshr b f) b f
def execVsra (b : BeamRef) (f : KFields) (s : State) : Out := s.run fun d => d.issueVector (.vsra b f) b f
def execVpopc (b : BeamRef) (f : KFields) (s : State) : Out := s.run fun d => d.issueVector (.vpopc b f) b f
def execVclz (b : BeamRef) (f : KFields) (s : State) : Out := s.run fun d => d.issueVector (.vclz b f) b f
def execVdot4I (b : BeamRef) (f : KFields) (s : State) : Out := s.run fun d => d.issueVector (.vdot4I b f) b f
def execVmov (b : BeamRef) (f : KFields) (s : State) : Out := s.run fun d => d.issueVector (.vmov b f) b f
def execVsel (b : BeamRef) (f : KFields) (s : State) : Out := s.run fun d => d.issueVector (.vsel b f) b f
def execVcvt (b : BeamRef) (f : KFields) (s : State) : Out := s.run fun d => d.issueVector (.vcvt b f) b f
def execVmxscale (b : BeamRef) (f : KFields) (s : State) : Out := s.run fun d => d.issueVector (.vmxscale b f) b f
def execVred (b : BeamRef) (f : KFields) (s : State) : Out := s.run fun d => d.issueVector (.vred b f) b f
def execVcmpF (b : BeamRef) (f : KFields) (s : State) : Out := s.run fun d => d.issueVector (.vcmpF b f) b f
def execVcmpD (b : BeamRef) (f : KFields) (s : State) : Out := s.run fun d => d.issueVector (.vcmpD b f) b f
def execVcmpI (b : BeamRef) (f : KFields) (s : State) : Out := s.run fun d => d.issueVector (.vcmpI b f) b f
def execVcmpU (b : BeamRef) (f : KFields) (s : State) : Out := s.run fun d => d.issueVector (.vcmpU b f) b f
def execVcmpkF (b : BeamRef) (f : KFields) (s : State) : Out := s.run fun d => d.issueVector (.vcmpkF b f) b f
def execVcmpkD (b : BeamRef) (f : KFields) (s : State) : Out := s.run fun d => d.issueVector (.vcmpkD b f) b f
def execVcmpkI (b : BeamRef) (f : KFields) (s : State) : Out := s.run fun d => d.issueVector (.vcmpkI b f) b f
def execVcmpkU (b : BeamRef) (f : KFields) (s : State) : Out := s.run fun d => d.issueVector (.vcmpkU b f) b f

/-! ## The length register, local loads and stores (R102, R109) -/

/-- A scalar destination that the instruction writes as s[DST]. -/
def Ctx.sDstTraps (_c : Ctx) (spec : Nat) : List Trap := trapIf (sDstBad spec) illegal

/-- MOD[3:2] name chunks where an instruction has them; every other use is ILLEGAL (R105). -/
def chunkTraps (f : KFields) : List Trap := trapIf (tileA f || tileD f) illegal

/-- VSETVL (R102) has no mask: it traps for no value of MSK, the undefined value 8 among them (log 62, DEDUCED). -/
def execVsetvl (b : BeamRef) (f : KFields) (s : State) : Out :=
  s.run fun d => d.issueScalar b fun d c =>
    checked (chunkTraps f ++ c.sTraps f.a.toNat ++ c.sDstTraps f.dst.toNat)
      (let n := min (c.sVal f.a.toNat).toNat 256
       .done ((d.updBeam c.ref fun m => { m with vl := n }.sWrite f.dst.toNat (BitVec.ofNat 64 n)).next c))

/-- The element width of VLDL and VSTL (MOD[1:0]), and the registers of their group. R102 names the 64-bit operations, and these two are
not among them: both widths act on elements 0 to VL − 1. -/
def vlBytes (f : KFields) : Nat := if vmode f = 1 then 8 else 4
def Ctx.vlRegs (c : Ctx) (f : KFields) : Nat := if vmode f = 1 then regs64 c.len32 else regsOf c.len32
/-- The base address, and the local address of element e: IMM[15:0] is unsigned (log 23, DEDUCED). -/
def Ctx.vlBase (c : Ctx) (f : KFields) : Nat := (c.sVal f.a.toNat).toNat
def Ctx.vlAddr (c : Ctx) (f : KFields) (e : Nat) : Nat :=
  (c.sVal f.a.toNat + BitVec.ofNat 64 (f.imm.toNat % 65536 + vlBytes f * e)).toNat

/-- The checks of VLDL and VSTL (R109): the base is checked for its alignment where some element is active (log 62, DEDUCED). -/
def Ctx.vlTraps (c : Ctx) (f : KFields) (spec : Nat) : List Trap :=
  let act := c.active f.msk c.len32
  trapIf (decide (1 < vmode f) || tileA f || tileD f) illegal ++ c.mskTraps f.msk ++ c.sTraps f.a.toNat ++
    c.groupTraps spec (c.vlRegs f) ++ (if act.isEmpty then [] else alignTraps (c.vlBase f) (vlBytes f)) ++
    (act.map fun e => c.localTraps (c.vlAddr f e) (vlBytes f)).flatten

def execVldl (b : BeamRef) (f : KFields) (s : State) : Out :=
  s.run fun d => d.issue b (fun _ => []) fun d c =>
    let n := vlBytes f
    let act := c.active f.msk c.len32
    if d.vectorGated c.block.core then .hold
    else checked (c.vlTraps f f.dst.toNat)
      (if act.any fun e => d.localBusy c (c.vlAddr f e) n false then .hold
       else
        let (ws, d) := act.foldl (fun (acc : List WordWrite × Dev) e =>
          let (bs, p, d) := acc.2.localRead c (c.vlAddr f e) n
          let ws := if n = 8 then packedWrite 64 e (leNat bs) p
            else [{ word := e, mask := BitVec.allOnes 32, value := BitVec.ofNat 32 (leNat bs), poison := p }]
          (acc.1 ++ ws, d)) ([], d)
        .done ((d.writeWords c.ref (.group f.dst.toNat) ws).next c))

def execVstl (b : BeamRef) (f : KFields) (s : State) : Out :=
  s.run fun d => d.issue b (fun c => (List.range (c.vlRegs f)).map (f.b.toNat + ·)) fun d c =>
    let n := vlBytes f
    let src : VOperand := .group f.b.toNat
    let act := c.active f.msk c.len32
    if d.vectorGated c.block.core then .hold
    else checked (c.vlTraps f f.b.toNat)
      (if act.any fun e => d.localBusy c (c.vlAddr f e) n true then .hold
       else
        let cell (e : Nat) : Nat × List Byte :=
          (c.vlAddr f e, if n = 8 then leBytes 8 (c.dword src e).toNat else leBytes 4 (c.word src e).toNat)
        let bad := act.filter fun e => if n = 8 then c.dwordPoison src e else c.wordPoison src e
        let d := d.localStore c ((act.filter fun e => !bad.contains e).map cell) false
        .done ((d.localStore c (bad.map cell) true).next c))

/-! ## Mask instructions (R110) -/

/-- A mask source: 0 reads PMASK. An exited ray is in no mask that the beam reads (R39). -/
def Ctx.kSrc (c : Ctx) (spec : Nat) : BitVec 32 := (if spec = 0 then c.beam.path else c.beam.kGet spec) &&& ~~~ c.beam.exited
def kSrcTraps (spec : Nat) : List Trap := trapIf (decide (7 < spec)) illegal
def kDstTraps (spec : Nat) : List Trap := trapIf (decide (spec = 0) || decide (7 < spec)) illegal

/-- A mask instruction with a mask destination. -/
def Dev.issueMask (d : Dev) (r : BeamRef) (f : KFields) (traps : List Trap) (value : Ctx → BitVec 32) : Dev :=
  d.issue r (fun _ => []) fun d c =>
    checked (chunkTraps f ++ traps ++ kDstTraps f.dst.toNat) (.done ((d.updBeam c.ref fun m => m.kSet f.dst.toNat (value c)).next c))

/-- A mask instruction with a scalar destination. -/
def Dev.issueMaskScalar (d : Dev) (r : BeamRef) (f : KFields) (value : BitVec 32 → BitVec 64) : Dev :=
  d.issue r (fun _ => []) fun d c =>
    checked (chunkTraps f ++ kSrcTraps f.a.toNat ++ c.sDstTraps f.dst.toNat)
      (.done ((d.updBeam c.ref fun m => m.sWrite f.dst.toNat (value (c.kSrc f.a.toNat))).next c))

def kPair (f : KFields) : List Trap := kSrcTraps f.a.toNat ++ kSrcTraps f.b.toNat

def execKand (b : BeamRef) (f : KFields) (s : State) : Out :=
  s.run fun d => d.issueMask b f (kPair f) fun c => c.kSrc f.a.toNat &&& c.kSrc f.b.toNat
def execKor (b : BeamRef) (f : KFields) (s : State) : Out :=
  s.run fun d => d.issueMask b f (kPair f) fun c => c.kSrc f.a.toNat ||| c.kSrc f.b.toNat
def execKxor (b : BeamRef) (f : KFields) (s : State) : Out :=
  s.run fun d => d.issueMask b f (kPair f) fun c => c.kSrc f.a.toNat ^^^ c.kSrc f.b.toNat
def execKnot (b : BeamRef) (f : KFields) (s : State) : Out :=
  s.run fun d => d.issueMask b f (kSrcTraps f.a.toNat) fun c => ~~~ c.kSrc f.a.toNat
def execKmov (b : BeamRef) (f : KFields) (s : State) : Out :=
  s.run fun d => d.issueMask b f (trapIf (sSrcBad f.a.toNat) illegal) fun c => (c.sVal f.a.toNat).setWidth 32
def execKtos (b : BeamRef) (f : KFields) (s : State) : Out :=
  s.run fun d => d.issueMaskScalar b f fun k => k.setWidth 64
def execKpopc (b : BeamRef) (f : KFields) (s : State) : Out :=
  s.run fun d => d.issueMaskScalar b f fun k => BitVec.ofNat 64 (popcount k.toNat 32)

/-! ## The sort/select unit (R111, R112) -/

/-- What every class 0x7 instruction is checked for: a vector core, no tile operands, no mode 2 (R104: all are 64-bit), the 64-bit group
of SRC_A. -/
def Ctx.sortTraps (c : Ctx) (f : KFields) : List Trap :=
  trapIf (!coreIsVector c.block.core || tileA f || tileD f) illegal ++ modeTraps f true ++ c.mskTraps f.msk ++ c.groupTraps f.a.toNat (regs64 c.len64)

/-- SMERGE's list: its length k, its address, and the bytes it reads and writes. -/
def Ctx.mergeK (c : Ctx) (f : KFields) : Nat := (c.sVal f.b.toNat).toNat
def Ctx.mergeAddr (c : Ctx) (f : KFields) : Nat := (c.sVal f.dst.toNat).toNat

def Ctx.mergeTraps (c : Ctx) (f : KFields) : List Trap :=
  let k := c.mergeK f
  let a := c.mergeAddr f
  c.sortTraps f ++ c.sTraps f.b.toNat ++ c.sTraps f.dst.toNat ++ trapIf (decide (k = 0) || decide (4096 < k)) illegal ++
    trapIf (decide (a % 8 ≠ 0)) (mkTrap .misaligned a) ++ trapIf (c.localTarget a (8 * (k + 1))).isNone (mkTrap .scratchRange a)

/-- Issues a sort/select instruction: not ready while its unit's queue is full or vector issue is gated. -/
def Dev.issueSort (d : Dev) (i : Instr) (r : BeamRef) (f : KFields) (traps : Ctx → List Trap) : Dev :=
  d.issue r (fun c => (VOperand.group f.a.toNat).regs (2 * c.len64) true) fun d c =>
    let core := c.block.core
    if coreIsVector core && (decide (4 ≤ (d.core core).sortQ.length) || d.vectorGated core) then .hold
    else checked (traps c) (
      let entry (q : Core) : QEntry := { instr := i, beam := r, seq := q.nextSeq, base := 0, stride := 0 }
      .done ((d.updCore core fun q => { q with sortQ := q.sortQ ++ [entry q] }).updBeam r fun b => { b with passOut := true }))

def execSsort (b : BeamRef) (f : KFields) (s : State) : Out :=
  s.run fun d => d.issueSort (.ssort b f) b f fun c => c.sortTraps f ++ c.groupTraps f.dst.toNat (regs64 c.len64)
def execSmerge (b : BeamRef) (f : KFields) (s : State) : Out := s.run fun d => d.issueSort (.smerge b f) b f fun c => c.mergeTraps f
def execScompact (b : BeamRef) (f : KFields) (s : State) : Out :=
  s.run fun d => d.issueSort (.scompact b f) b f fun c =>
    c.sortTraps f ++ c.groupTraps f.dst.toNat (regs64 c.len64) ++ trapIf (decide (48 ≤ f.imm.toNat % 64)) illegal

/-- The list ascends (R112). -/
def isAscending : List Nat → Bool
  | a :: b :: t => decide (a ≤ b) && isAscending (b :: t)
  | _ => true

/-- Commits SMERGE: the k smallest of the list and the active entries, and the largest kept one behind them; unstated bytes where the
list did not ascend. -/
def Dev.mergeCommit (d : Dev) (c : Ctx) (f : KFields) (failed : Bool) : Dev :=
  let k := c.mergeK f
  let a := c.mergeAddr f
  let (bs, p, d) := d.localRead c a (8 * k)
  let list := (List.range k).map fun i => leAt bs (8 * i) 8
  let kept := (ascending (list ++ c.sortEntries f)).take k
  let (out, d) := if isAscending list then (kept ++ [kept.getLast?.getD emptyEntry], d)
    else ((List.range (k + 1)).map (fun i => (Config.freeValue (d.freeCount + i)).toNat), { d with freeCount := d.freeCount + k + 1 })
  d.localStore c [(a, (out.map (leBytes 8)).flatten)] (p || c.sortPoison f || failed)

/-- Commits a sort/select instruction; one without an active element changes nothing (R103). -/
def Dev.sortCommit (d : Dev) (c : Ctx) (i : Instr) (failed : Bool) : Dev :=
  let d := match i with
    | .ssort _ f =>
      let es := c.sortEntries f
      if es.isEmpty then d
      else d.writeWords c.ref (.group f.dst.toNat) (entryWrites (ascending es ++ List.replicate (c.len64 - es.length) emptyEntry)
        (c.sortPoison f || failed) [])
    | .smerge _ f => if (c.sortEntries f).isEmpty then d else d.mergeCommit c f failed
    | .scompact _ f =>
      let es := c.sortEntries f
      if es.isEmpty then d
      else
        let marks := (c.active f.msk c.len64).map fun e => c.dwordPoison (.group f.a.toNat) e
        let bad := (List.range es.length).filter fun n => marks.getD n false
        (d.writeWords c.ref (.group f.dst.toNat) (entryWrites es failed bad)).updBeam c.ref fun b =>
          b.sSet (f.imm.toNat % 64) (BitVec.ofNat 64 es.length)
    | _ => d
  d.updBeam c.ref fun b => { b with pc := b.pc + 1, passOut := false }

/-! ## Completion (R112, R115, R423) -/

def VKind.isReduction : VKind → Bool
  | .red => true
  | .f32 .. | .f64 .. | .cmp32 .. | .cmp64 .. | .cvt | .mxscale => false

/-- SMERGE waits for the block that holds its list, where that block is switched out (R79). -/
def Dev.mergeHeld (d : Dev) (c : Ctx) (i : Instr) : Bool :=
  match i with
  | .smerge _ f =>
    match c.localTarget (c.mergeAddr f) (8 * (c.mergeK f + 1)) with
    | some t => (d.block? c.ref.launch t.1).isNone
    | none => false
  | _ => false

/-- VECTOR_PASS_COMPLETE: the head of the vector or the sort/select queue commits, once every earlier access to its tiles is done;
an entry whose beam no longer waits for it only goes. A failing VRED node raises POISON at the instruction (R115). `fails` are the
elements whose check failed again on the re-execution. -/
def Dev.passComplete (d : Dev) (core : Nat) (sort mismatch : Bool) (fails : List Nat) : Dev :=
  let k := d.core core
  match if sort then k.sortQ else k.vecQ with
  | [] => d
  | e :: rest =>
    if k.entries.any fun w => e.waitsFor w then d
    else
      let d' := d.updCore core fun k => if sort then { k with sortQ := rest } else { k with vecQ := rest }
      match d'.ctx? e.beam with
      | none => d'
      | some c =>
        if !c.beam.passOut then d'
        else if d.mergeHeld c e.instr then d
        else
          let d1 := d'.tileParity e
          let c := (d1.ctx? e.beam).getD c
          let mismatch := mismatch && (sort || residueChecked e.instr)
          let failed := mismatch && !fails.isEmpty
          let fails := if failed then fails else []
          let d2 := match vkind e.instr, vectorFields e.instr with
            | some v, some f =>
              if failed && v.isReduction then d1.park c (mkTrap .poison 0)
              else if tileA f && c.consumesA v f then d1.park c (poisonReg 1 f.a.toNat)
              else d1.vectorCommit c e.instr v f fails
            | _, _ => d1.sortCommit c e.instr failed
          (d2.charge d).workUnit core c.launch.facet 3 mismatch failed

def execVectorPassComplete (core : Nat) (sort mismatch : Bool) (fails : List Nat) (s : State) : Out :=
  s.run fun d => d.passComplete core sort mismatch fails

end Sys2Proof.Machine
end

