-- ==== Sys2Proof/Machine/Dispatch.lean ====
section
/-! DEFINITION. The meaning of each command, one arm per constructor of Instr. -/

namespace Sys2Proof.Machine

def exec (i : Instr) (s : State) : Host.Outcome State Fault Refusal :=
  match i with
  | .add b f => Sys2Proof.Machine.execAdd b f s
  | .sub b f => Sys2Proof.Machine.execSub b f s
  | .mul b f => Sys2Proof.Machine.execMul b f s
  | .mulhu b f => Sys2Proof.Machine.execMulhu b f s
  | .divu b f => Sys2Proof.Machine.execDivu b f s
  | .remu b f => Sys2Proof.Machine.execRemu b f s
  | .andS b f => Sys2Proof.Machine.execAndS b f s
  | .orS b f => Sys2Proof.Machine.execOrS b f s
  | .xorS b f => Sys2Proof.Machine.execXorS b f s
  | .shl b f => Sys2Proof.Machine.execShl b f s
  | .shr b f => Sys2Proof.Machine.execShr b f s
  | .sra b f => Sys2Proof.Machine.execSra b f s
  | .minS b f => Sys2Proof.Machine.execMinS b f s
  | .maxS b f => Sys2Proof.Machine.execMaxS b f s
  | .slt b f => Sys2Proof.Machine.execSlt b f s
  | .sltu b f => Sys2Proof.Machine.execSltu b f s
  | .seq b f => Sys2Proof.Machine.execSeq b f s
  | .movi b f => Sys2Proof.Machine.execMovi b f s
  | .shor b f => Sys2Proof.Machine.execShor b f s
  | .nop b f => Sys2Proof.Machine.execNop b f s
  | .bra b f => Sys2Proof.Machine.execBra b f s
  | .brx b f => Sys2Proof.Machine.execBrx b f s
  | .call b f => Sys2Proof.Machine.execCall b f s
  | .ret b f => Sys2Proof.Machine.execRet b f s
  | .divS b f => Sys2Proof.Machine.execDivS b f s
  | .join b f => Sys2Proof.Machine.execJoin b f s
  | .exit b f => Sys2Proof.Machine.execExit b f s
  | .yield b f => Sys2Proof.Machine.execYield b f s
  | .trap b f => Sys2Proof.Machine.execTrap b f s
  | .bar b f => Sys2Proof.Machine.execBar b f s
  | .cbar b f => Sys2Proof.Machine.execCbar b f s
  | .fence b f => Sys2Proof.Machine.execFence b f s
  | .waitc b f => Sys2Proof.Machine.execWaitc b f s
  | .undefinedInstruction b word => Sys2Proof.Machine.execUndefinedInstruction b word s
  | .instructionFetchFault b => Sys2Proof.Machine.execInstructionFetchFault b s
  | .watchdog launch block => Sys2Proof.Machine.execWatchdog launch block s
  | .ldl b f => Sys2Proof.Machine.execLdl b f s
  | .stl b f => Sys2Proof.Machine.execStl b f s
  | .atoml b f => Sys2Proof.Machine.execAtoml b f s
  | .ldg b f => Sys2Proof.Machine.execLdg b f s
  | .stg b f => Sys2Proof.Machine.execStg b f s
  | .ldv b f => Sys2Proof.Machine.execLdv b f s
  | .atomg b f => Sys2Proof.Machine.execAtomg b f s
  | .lds b f => Sys2Proof.Machine.execLds b f s
  | .sts b f => Sys2Proof.Machine.execSts b f s
  | .cpa b f => Sys2Proof.Machine.execCpa b f s
  | .cps b f => Sys2Proof.Machine.execCps b f s
  | .asyncCopyComplete b copy => Sys2Proof.Machine.execAsyncCopyComplete b copy s
  | .pref b f => Sys2Proof.Machine.execPref b f s
  | .cctlCullet b f => Sys2Proof.Machine.execCctlCullet b f s
  | .cctlPin b f => Sys2Proof.Machine.execCctlPin b f s
  | .cctlUnpin b f => Sys2Proof.Machine.execCctlUnpin b f s
  | .cctlWriteBack b f => Sys2Proof.Machine.execCctlWriteBack b f s
  | .cctlPinRetain b f => Sys2Proof.Machine.execCctlPinRetain b f s
  | .mma b f => Sys2Proof.Machine.execMma b f s
  | .mmas b f => Sys2Proof.Machine.execMmas b f s
  | .mbin b f => Sys2Proof.Machine.execMbin b f s
  | .mbint b f => Sys2Proof.Machine.execMbint b f s
  | .mld b f => Sys2Proof.Machine.execMld b f s
  | .mst b f => Sys2Proof.Machine.execMst b f s
  | .mzero b f => Sys2Proof.Machine.execMzero b f s
  | .matrixInstructionComplete core move mismatch fails => Sys2Proof.Machine.execMatrixInstructionComplete core move mismatch fails s
  | .vaddF b f => Sys2Proof.Machine.execVaddF b f s
  | .vsubF b f => Sys2Proof.Machine.execVsubF b f s
  | .vmulF b f => Sys2Proof.Machine.execVmulF b f s
  | .vfmaF b f => Sys2Proof.Machine.execVfmaF b f s
  | .vminF b f => Sys2Proof.Machine.execVminF b f s
  | .vmaxF b f => Sys2Proof.Machine.execVmaxF b f s
  | .vdivF b f => Sys2Proof.Machine.execVdivF b f s
  | .vsqrtF b f => Sys2Proof.Machine.execVsqrtF b f s
  | .vexp2F b f => Sys2Proof.Machine.execVexp2F b f s
  | .vlog2F b f => Sys2Proof.Machine.execVlog2F b f s
  | .vrsqF b f => Sys2Proof.Machine.execVrsqF b f s
  | .vaddD b f => Sys2Proof.Machine.execVaddD b f s
  | .vsubD b f => Sys2Proof.Machine.execVsubD b f s
  | .vmulD b f => Sys2Proof.Machine.execVmulD b f s
  | .vfmaD b f => Sys2Proof.Machine.execVfmaD b f s
  | .vminD b f => Sys2Proof.Machine.execVminD b f s
  | .vmaxD b f => Sys2Proof.Machine.execVmaxD b f s
  | .vdivD b f => Sys2Proof.Machine.execVdivD b f s
  | .vsqrtD b f => Sys2Proof.Machine.execVsqrtD b f s
  | .vaddI b f => Sys2Proof.Machine.execVaddI b f s
  | .vsubI b f => Sys2Proof.Machine.execVsubI b f s
  | .vmulI b f => Sys2Proof.Machine.execVmulI b f s
  | .vminI b f => Sys2Proof.Machine.execVminI b f s
  | .vmaxI b f => Sys2Proof.Machine.execVmaxI b f s
  | .vminu b f => Sys2Proof.Machine.execVminu b f s
  | .vmaxu b f => Sys2Proof.Machine.execVmaxu b f s
  | .vand b f => Sys2Proof.Machine.execVand b f s
  | .vor b f => Sys2Proof.Machine.execVor b f s
  | .vxor b f => Sys2Proof.Machine.execVxor b f s
  | .vshl b f => Sys2Proof.Machine.execVshl b f s
  | .vshr b f => Sys2Proof.Machine.execVshr b f s
  | .vsra b f => Sys2Proof.Machine.execVsra b f s
  | .vpopc b f => Sys2Proof.Machine.execVpopc b f s
  | .vclz b f => Sys2Proof.Machine.execVclz b f s
  | .vdot4I b f => Sys2Proof.Machine.execVdot4I b f s
  | .vmov b f => Sys2Proof.Machine.execVmov b f s
  | .vsel b f => Sys2Proof.Machine.execVsel b f s
  | .vcvt b f => Sys2Proof.Machine.execVcvt b f s
  | .vmxscale b f => Sys2Proof.Machine.execVmxscale b f s
  | .vsetvl b f => Sys2Proof.Machine.execVsetvl b f s
  | .vred b f => Sys2Proof.Machine.execVred b f s
  | .vldl b f => Sys2Proof.Machine.execVldl b f s
  | .vstl b f => Sys2Proof.Machine.execVstl b f s
  | .vcmpF b f => Sys2Proof.Machine.execVcmpF b f s
  | .vcmpD b f => Sys2Proof.Machine.execVcmpD b f s
  | .vcmpI b f => Sys2Proof.Machine.execVcmpI b f s
  | .vcmpU b f => Sys2Proof.Machine.execVcmpU b f s
  | .vcmpkF b f => Sys2Proof.Machine.execVcmpkF b f s
  | .vcmpkD b f => Sys2Proof.Machine.execVcmpkD b f s
  | .vcmpkI b f => Sys2Proof.Machine.execVcmpkI b f s
  | .vcmpkU b f => Sys2Proof.Machine.execVcmpkU b f s
  | .kand b f => Sys2Proof.Machine.execKand b f s
  | .kor b f => Sys2Proof.Machine.execKor b f s
  | .kxor b f => Sys2Proof.Machine.execKxor b f s
  | .knot b f => Sys2Proof.Machine.execKnot b f s
  | .kmov b f => Sys2Proof.Machine.execKmov b f s
  | .ktos b f => Sys2Proof.Machine.execKtos b f s
  | .kpopc b f => Sys2Proof.Machine.execKpopc b f s
  | .ssort b f => Sys2Proof.Machine.execSsort b f s
  | .smerge b f => Sys2Proof.Machine.execSmerge b f s
  | .scompact b f => Sys2Proof.Machine.execScompact b f s
  | .vectorPassComplete core sort mismatch fails => Sys2Proof.Machine.execVectorPassComplete core sort mismatch fails s
  | .launch fn w => Sys2Proof.Machine.execLaunch fn w s
  | .blockPlace launch cores => Sys2Proof.Machine.execBlockPlace launch cores s
  | .replay fn w => Sys2Proof.Machine.execReplay fn w s
  | .abort fn w => Sys2Proof.Machine.execAbort fn w s
  | .switchRequest cores => Sys2Proof.Machine.execSwitchRequest cores s
  | .blockSave launch block => Sys2Proof.Machine.execBlockSave launch block s
  | .switchTimeout cores => Sys2Proof.Machine.execSwitchTimeout cores s
  | .blockRestore launch cluster cores => Sys2Proof.Machine.execBlockRestore launch cluster cores s
  | .rdS core line => Sys2Proof.Machine.execRdS core line s
  | .rdU core line => Sys2Proof.Machine.execRdU core line s
  | .own core line => Sys2Proof.Machine.execOwn core line s
  | .upg core line => Sys2Proof.Machine.execUpg core line s
  | .rdNc agent line => Sys2Proof.Machine.execRdNc agent line s
  | .wrNc agent line bytes poison => Sys2Proof.Machine.execWrNc agent line bytes poison s
  | .atom agent addr op x y => Sys2Proof.Machine.execAtom agent addr op x y s
  | .cctl agent facet line op => Sys2Proof.Machine.execCctl agent facet line op s
  | .prefRequest agent line => Sys2Proof.Machine.execPrefRequest agent line s
  | .snpInv core line => Sys2Proof.Machine.execSnpInv core line s
  | .snpDown core line => Sys2Proof.Machine.execSnpDown core line s
  | .snpDrop core line => Sys2Proof.Machine.execSnpDrop core line s
  | .rspAck core line => Sys2Proof.Machine.execRspAck core line s
  | .rspData core line => Sys2Proof.Machine.execRspData core line s
  | .wb core line => Sys2Proof.Machine.execWb core line s
  | .evc core line => Sys2Proof.Machine.execEvc core line s
  | .cmpS core line => Sys2Proof.Machine.execCmpS core line s
  | .cmpE core line => Sys2Proof.Machine.execCmpE core line s
  | .cmpM core line => Sys2Proof.Machine.execCmpM core line s
  | .cmpOwn core line => Sys2Proof.Machine.execCmpOwn core line s
  | .cmpNc agent line => Sys2Proof.Machine.execCmpNc agent line s
  | .cmpAck agent line => Sys2Proof.Machine.execCmpAck agent line s
  | .sliceFillComplete line => Sys2Proof.Machine.execSliceFillComplete line s
  | .homeTimeout line => Sys2Proof.Machine.execHomeTimeout line s
  | .sliceModeChange slice missMode cause => Sys2Proof.Machine.execSliceModeChange slice missMode cause s
  | .sliceHoldDrained slice => Sys2Proof.Machine.execSliceHoldDrained slice s
  | .meshFlit msg fails => Sys2Proof.Machine.execMeshFlit msg fails s
  | .pairPortFlit port ab msg fec crcOk => Sys2Proof.Machine.execPairPortFlit port ab msg fec crcOk s
  | .laneSpare port ab lane => Sys2Proof.Machine.execLaneSpare port ab lane s
  | .portRetrain port => Sys2Proof.Machine.execPortRetrain port s
  | .retrainAttemptEnd port trained => Sys2Proof.Machine.execRetrainAttemptEnd port trained s
  | .tagAbandon port side index => Sys2Proof.Machine.execTagAbandon port side index s
  | .drainMarkerReturn port side index => Sys2Proof.Machine.execDrainMarkerReturn port side index s
  | .reductionContribution group rank line data poison => Sys2Proof.Machine.execReductionContribution group rank line data poison s
  | .combineHoldExpire group line level pos => Sys2Proof.Machine.execCombineHoldExpire group line level pos s
  | .doneWordWrite group => Sys2Proof.Machine.execDoneWordWrite group s
  | .redGroupOpen fn => Sys2Proof.Machine.execRedGroupOpen fn s
  | .redGroupClose fn => Sys2Proof.Machine.execRedGroupClose fn s
  | .hbmReadComplete line firstFails secondFails => Sys2Proof.Machine.execHbmReadComplete line firstFails secondFails s
  | .hbmWriteBatch stack pseudo => Sys2Proof.Machine.execHbmWriteBatch stack pseudo s
  | .writeWaitExpire stack pseudo => Sys2Proof.Machine.execWriteWaitExpire stack pseudo s
  | .hbmRefresh stack => Sys2Proof.Machine.execHbmRefresh stack s
  | .stackTempRead stack temp => Sys2Proof.Machine.execStackTempRead stack temp s
  | .farReadComplete line poisoned => Sys2Proof.Machine.execFarReadComplete line poisoned s
  | .farLinkDown port => Sys2Proof.Machine.execFarLinkDown port s
  | .farLinkRecover port found => Sys2Proof.Machine.execFarLinkRecover port found s
  | .farEnumerate port found => Sys2Proof.Machine.execFarEnumerate port found s
  | .cxlEvent port lo hi => Sys2Proof.Machine.execCxlEvent port lo hi s
  | .farScrubProgress port frames => Sys2Proof.Machine.execFarScrubProgress port frames s
  | .memAlloc fn vaChoice => Sys2Proof.Machine.execMemAlloc fn vaChoice s
  | .memFree fn => Sys2Proof.Machine.execMemFree fn s
  | .memSetClass fn => Sys2Proof.Machine.execMemSetClass fn s
  | .farRescan fn found => Sys2Proof.Machine.execFarRescan fn found s
  | .busMap fn vaChoice pathOpen => Sys2Proof.Machine.execBusMap fn vaChoice pathOpen s
  | .busUnmap fn => Sys2Proof.Machine.execBusUnmap fn s
  | .apertureMap fn offsetChoice => Sys2Proof.Machine.execApertureMap fn offsetChoice s
  | .apertureUnmap fn => Sys2Proof.Machine.execApertureUnmap fn s
  | .bar4Write fn offset data ep ide rid => Sys2Proof.Machine.execBar4Write fn offset data ep ide rid s
  | .bar4Read fn offset len ide rid => Sys2Proof.Machine.execBar4Read fn offset len ide rid s
  | .pcieAtomicop fn offset op bytes x y ide rid => Sys2Proof.Machine.execPcieAtomicop fn offset op bytes x y ide rid s
  | .bar2Write fn offset data ide => Sys2Proof.Machine.execBar2Write fn offset data ide s
  | .configRequest fn req => Sys2Proof.Machine.execConfigRequest fn req s
  | .hostReadCompletion addr data ok => Sys2Proof.Machine.execHostReadCompletion addr data ok s
  | .peerConfirmComplete agent region ok => Sys2Proof.Machine.execPeerConfirmComplete agent region ok s
  | .corpusRegister fn => Sys2Proof.Machine.execCorpusRegister fn s
  | .corpusAppend fn => Sys2Proof.Machine.execCorpusAppend fn s
  | .corpusRetire fn => Sys2Proof.Machine.execCorpusRetire fn s
  | .corpusDeregister fn => Sys2Proof.Machine.execCorpusDeregister fn s
  | .lehrStart fn => Sys2Proof.Machine.execLehrStart fn s
  | .lehrStop fn => Sys2Proof.Machine.execLehrStop fn s
  | .lehrStatus fn => Sys2Proof.Machine.execLehrStatus fn s
  | .blockBoundary => Sys2Proof.Machine.execBlockBoundary s
  | .farBlockStaged => Sys2Proof.Machine.execFarBlockStaged s
  | .candidateMerge seat die => Sys2Proof.Machine.execCandidateMerge seat die s
  | .riderResultMerged rider => Sys2Proof.Machine.execRiderResultMerged rider s
  | .rerankGatherDone rider => Sys2Proof.Machine.execRerankGatherDone rider s
  | .ride fn w => Sys2Proof.Machine.execRide fn w s
  | .rideCancel fn w => Sys2Proof.Machine.execRideCancel fn w s
  | .sessionOpen fn => Sys2Proof.Machine.execSessionOpen fn s
  | .sessionClose fn => Sys2Proof.Machine.execSessionClose fn s
  | .sessionStatus fn => Sys2Proof.Machine.execSessionStatus fn s
  | .sessionRestore => Sys2Proof.Machine.execSessionRestore s
  | .modelRegister fn => Sys2Proof.Machine.execModelRegister fn s
  | .modelDeregister fn => Sys2Proof.Machine.execModelDeregister fn s
  | .modelPin fn => Sys2Proof.Machine.execModelPin fn s
  | .modelUnpin fn => Sys2Proof.Machine.execModelUnpin fn s
  | .modelStatus fn => Sys2Proof.Machine.execModelStatus fn s
  | .slotAcquire model => Sys2Proof.Machine.execSlotAcquire model s
  | .slotLoadComplete slot => Sys2Proof.Machine.execSlotLoadComplete slot s
  | .generate fn w => Sys2Proof.Machine.execGenerate fn w s
  | .stepBoundary slot => Sys2Proof.Machine.execStepBoundary slot s
  | .commandComplete fn serial => Sys2Proof.Machine.execCommandComplete fn serial s
  | .irqModDelay fn ring => Sys2Proof.Machine.execIrqModDelay fn ring s
  | .cmdNop fn w => Sys2Proof.Machine.execCmdNop fn w s
  | .dma fn w => Sys2Proof.Machine.execDma fn w s
  | .dmaCommandStart ch => Sys2Proof.Machine.execDmaCommandStart ch s
  | .descriptorFetch ch => Sys2Proof.Machine.execDescriptorFetch ch s
  | .dmaLineComplete ch => Sys2Proof.Machine.execDmaLineComplete ch s
  | .descriptorConfirmed ch => Sys2Proof.Machine.execDescriptorConfirmed ch s
  | .headPromote ch => Sys2Proof.Machine.execHeadPromote ch s
  | .actionRetry fn ch => Sys2Proof.Machine.execActionRetry fn ch s
  | .actionSkip fn ch => Sys2Proof.Machine.execActionSkip fn ch s
  | .actionAbort fn ch => Sys2Proof.Machine.execActionAbort fn ch s
  | .commit fn ch => Sys2Proof.Machine.execCommit fn ch s
  | .mbxGo fn value => Sys2Proof.Machine.execMbxGo fn value s
  | .hello fn => Sys2Proof.Machine.execHello fn s
  | .ringSet fn => Sys2Proof.Machine.execRingSet fn s
  | .ringClear fn => Sys2Proof.Machine.execRingClear fn s
  | .intWinCfgWrite fn n value => Sys2Proof.Machine.execIntWinCfgWrite fn n value s
  | .intCqHeadWrite fn n value => Sys2Proof.Machine.execIntCqHeadWrite fn n value s
  | .intGqHeadWrite fn value => Sys2Proof.Machine.execIntGqHeadWrite fn value s
  | .cntClear fn => Sys2Proof.Machine.execCntClear fn s
  | .cchLaRetainWrite fn n value => Sys2Proof.Machine.execCchLaRetainWrite fn n value s
  | .lowWordRead fn offset => Sys2Proof.Machine.execLowWordRead fn offset s
  | .registerWrite fn offset wide value => Sys2Proof.Machine.execRegisterWrite fn offset wide value s
  | .linkDown => Sys2Proof.Machine.execLinkDown s
  | .linkUp rate width => Sys2Proof.Machine.execLinkUp rate width s
  | .linkRetrain => Sys2Proof.Machine.execLinkRetrain s
  | .linkDegraded rate width => Sys2Proof.Machine.execLinkDegraded rate width s
  | .bar4Resize fn size => Sys2Proof.Machine.execBar4Resize fn size s
  | .flr fn => Sys2Proof.Machine.execFlr fn s
  | .facetCreate fn => Sys2Proof.Machine.execFacetCreate fn s
  | .facetDestroy fn => Sys2Proof.Machine.execFacetDestroy fn s
  | .facetResize fn => Sys2Proof.Machine.execFacetResize fn s
  | .overCleared facet => Sys2Proof.Machine.execOverCleared facet s
  | .facetQuiesce fn => Sys2Proof.Machine.execFacetQuiesce fn s
  | .quiesceDone facet => Sys2Proof.Machine.execQuiesceDone facet s
  | .quiesceLimit facet => Sys2Proof.Machine.execQuiesceLimit facet s
  | .facetResume fn => Sys2Proof.Machine.execFacetResume fn s
  | .facetReset fn => Sys2Proof.Machine.execFacetReset fn s
  | .facetSave fn => Sys2Proof.Machine.execFacetSave fn s
  | .facetRestore fn pathsOpen => Sys2Proof.Machine.execFacetRestore fn pathsOpen s
  | .facetDirtyLog fn => Sys2Proof.Machine.execFacetDirtyLog fn s
  | .facetQuery fn => Sys2Proof.Machine.execFacetQuery fn s
  | .powerSetCap fn => Sys2Proof.Machine.execPowerSetCap fn s
  | .powerSetMode fn => Sys2Proof.Machine.execPowerSetMode fn s
  | .powerStatus fn => Sys2Proof.Machine.execPowerStatus fn s
  | .powerLagReport fn => Sys2Proof.Machine.execPowerLagReport fn s
  | .powerEstimate die activity => Sys2Proof.Machine.execPowerEstimate die activity s
  | .calibrate decivolts deciamps => Sys2Proof.Machine.execCalibrate decivolts deciamps s
  | .budgetDistribute => Sys2Proof.Machine.execBudgetDistribute s
  | .railUpdate base => Sys2Proof.Machine.execRailUpdate base s
  | .avsAck rail => Sys2Proof.Machine.execAvsAck rail s
  | .avsTimeout rail => Sys2Proof.Machine.execAvsTimeout rail s
  | .droopTrip row => Sys2Proof.Machine.execDroopTrip row s
  | .droopClear row => Sys2Proof.Machine.execDroopClear row s
  | .overcurrentAssert => Sys2Proof.Machine.execOvercurrentAssert s
  | .overcurrentDeassert => Sys2Proof.Machine.execOvercurrentDeassert s
  | .dieTempRead die sensors => Sys2Proof.Machine.execDieTempRead die sensors s
  | .thermalThrottleStep die => Sys2Proof.Machine.execThermalThrottleStep die s
  | .dimUpdate die issued beats => Sys2Proof.Machine.execDimUpdate die issued beats s
  | .dimExit die issued beats => Sys2Proof.Machine.execDimExit die issued beats s
  | .coreIdleGate core => Sys2Proof.Machine.execCoreIdleGate core s
  | .coreWake core => Sys2Proof.Machine.execCoreWake core s
  | .darkEntry die => Sys2Proof.Machine.execDarkEntry die s
  | .darkEntryComplete die => Sys2Proof.Machine.execDarkEntryComplete die s
  | .darkExit die => Sys2Proof.Machine.execDarkExit die s
  | .darkExitComplete die => Sys2Proof.Machine.execDarkExitComplete die s
  | .packageDarkEntry => Sys2Proof.Machine.execPackageDarkEntry s
  | .packageDarkExit => Sys2Proof.Machine.execPackageDarkExit s
  | .packageDarkExitComplete ports servitorsMatch => Sys2Proof.Machine.execPackageDarkExitComplete ports servitorsMatch s
  | .ceWindow => Sys2Proof.Machine.execCeWindow s
  | .weightDamage model core => Sys2Proof.Machine.execWeightDamage model core s
  | .weightReloadDone model => Sys2Proof.Machine.execWeightReloadDone model s
  | .scoreDecay core => Sys2Proof.Machine.execScoreDecay core s
  | .deviceFatal cause => Sys2Proof.Machine.execDeviceFatal cause s
  | .attestReport fn => Sys2Proof.Machine.execAttestReport fn s
  | .identityChain fn => Sys2Proof.Machine.execIdentityChain fn s
  | .doeReportRequest fn nonce => Sys2Proof.Machine.execDoeReportRequest fn nonce s
  | .doeChainRequest fn => Sys2Proof.Machine.execDoeChainRequest fn s
  | .signingComplete => Sys2Proof.Machine.execSigningComplete s
  | .fwStage fn => Sys2Proof.Machine.execFwStage fn s
  | .fwActivate fn => Sys2Proof.Machine.execFwActivate fn s
  | .fwCommitSvn fn => Sys2Proof.Machine.execFwCommitSvn fn s
  | .ownerInstall fn => Sys2Proof.Machine.execOwnerInstall fn s
  | .ownerRelease fn => Sys2Proof.Machine.execOwnerRelease fn s
  | .returnChallenge fn => Sys2Proof.Machine.execReturnChallenge fn s
  | .lifecycleReturn fn => Sys2Proof.Machine.execLifecycleReturn fn s
  | .debugSet fn => Sys2Proof.Machine.execDebugSet fn s
  | .debugConsent fn => Sys2Proof.Machine.execDebugConsent fn s
  | .debugBeam fn => Sys2Proof.Machine.execDebugBeam fn s
  | .debugTrace fn => Sys2Proof.Machine.execDebugTrace fn s
  | .debugDump fn => Sys2Proof.Machine.execDebugDump fn s
  | .debugScan fn => Sys2Proof.Machine.execDebugScan fn s
  | .debugTest fn => Sys2Proof.Machine.execDebugTest fn s
  | .auditRead fn => Sys2Proof.Machine.execAuditRead fn s
  | .auditAck fn => Sys2Proof.Machine.execAuditAck fn s
  | .auditCheckpoint fn => Sys2Proof.Machine.execAuditCheckpoint fn s
  | .ideKeySet fn => Sys2Proof.Machine.execIdeKeySet fn s
  | .deviceReset fn => Sys2Proof.Machine.execDeviceReset fn s
  | .dieReset fn => Sys2Proof.Machine.execDieReset fn s
  | .vpHandshakeTimeout die => Sys2Proof.Machine.execVpHandshakeTimeout die s
  | .dieResetStepDone unread answers => Sys2Proof.Machine.execDieResetStepDone unread answers s
  | .inputGood slotId => Sys2Proof.Machine.execInputGood slotId s
  | .inputGoodDeassert => Sys2Proof.Machine.execInputGoodDeassert s
  | .efuseOpen => Sys2Proof.Machine.execEfuseOpen s
  | .warmRst lowUs => Sys2Proof.Machine.execWarmRst lowUs s
  | .perstAssert => Sys2Proof.Machine.execPerstAssert s
  | .perstDeassert => Sys2Proof.Machine.execPerstDeassert s
  | .bootStepComplete report => Sys2Proof.Machine.execBootStepComplete report s
  | .bootWatchdog => Sys2Proof.Machine.execBootWatchdog s
  | .setEndpointId i3c eid => Sys2Proof.Machine.execSetEndpointId i3c eid s
  | .pldmSensorRead sensor => Sys2Proof.Machine.execPldmSensorRead sensor s
  | .pldmDeviceReset => Sys2Proof.Machine.execPldmDeviceReset s
  | .coolantRead inlet outlet => Sys2Proof.Machine.execCoolantRead inlet outlet s
  | .highWordRead fn offset => Sys2Proof.Machine.execHighWordRead fn offset s
  | .unsupportedRecord fn w => Sys2Proof.Machine.execUnsupportedRecord fn w s
  | .farWriteComplete line => Sys2Proof.Machine.execFarWriteComplete line s
  | .completionTimeout agent => Sys2Proof.Machine.execCompletionTimeout agent s
  | .warmReset => Sys2Proof.Machine.execWarmReset s
  | .tokenBucketRefill ch ns => Sys2Proof.Machine.execTokenBucketRefill ch ns s
  | .dynamicAddress addr => Sys2Proof.Machine.execDynamicAddress addr s

end Sys2Proof.Machine
end

