-- ==== Sys2Proof/Safety.lean ====
section
/-! DEFINITION. The terms in which claims about the block are stated: a state with another block, a beam that can issue, a mailbox
request that the gaffer serves, and the invariants of claims. -/

namespace Sys2Proof.Machine

/-- The state with another block and the same queue. -/
def State.to (s : State) (d : Dev) : State := { s with dev := d }

/-- The effect of a command on the block. -/
def effect (c : Instr) (d : Dev) : Dev :=
  match exec c { pending := [], dev := d } with
  | .next t => t.dev
  | _ => d

/-! ## Kernel instructions -/

/-- A beam can issue: it is resident, ready (R48), no failed check waits in its structures, and no debug step is in force. -/
def Issues (d : Dev) (b : BeamRef) (c : Ctx) : Prop :=
  d.ctx? b = some c ∧ d.beamReady c = true ∧ d.strikes = Strikes.none ∧ c.beam.debugStep = false

/-- A specifier that a scalar instruction may read: s0 to s47 or a defined special register (R52, R54). -/
def ScalarSource (spec : BitVec 8) : Prop := 0xC0 ≤ spec.toNat ∧ spec.toNat < 0xFC
/-- A specifier that a scalar instruction may write: s0 to s47, or ZERO, which discards the value (R52, R54). -/
def ScalarDest (spec : BitVec 8) : Prop := 0xC0 ≤ spec.toNat ∧ spec.toNat ≤ 0xF0
/-- A defined MSK value (R53). -/
def MaskField (msk : BitVec 4) : Prop := msk.toNat ≠ 8
/-- n consecutive ray registers of the beam (R52, R56). -/
def RayGroup (c : Ctx) (spec : BitVec 8) (n : Nat) : Prop := spec.toNat < 0xC0 ∧ spec.toNat + n ≤ c.rayRegs
/-- One 32-bit source of a memory instruction: a ray register, or a scalar or special register (R52). -/
def RaySource (c : Ctx) (spec : BitVec 8) : Prop := spec.toNat < 0xFC ∧ (spec.toNat < 0xC0 → spec.toNat < c.rayRegs)
/-- One 32-bit destination of a memory instruction: a ray register, or ZERO (R52). -/
def RayDest (c : Ctx) (spec : BitVec 8) : Prop := spec.toNat = 0xF0 ∨ RayGroup c spec 1
/-- A source or destination of n bytes a ray (R56). -/
def RayData (c : Ctx) (dest : Bool) (spec : BitVec 8) (n : Nat) : Prop :=
  if n ≤ 4 then (if dest then RayDest c spec else RaySource c spec) else RayGroup c spec (n / 4)
/-- No selected ray takes its address from a poisoned register (R116). -/
def CleanAddress (c : Ctx) (f : KFields) (poisoned : Bool) : Prop := poisoned = true → c.memRays f = []

/-- The local access of n bytes at an address is aligned, inside the block's scratchpad or a cluster window, and waits for no tile move
(R59, R67, R98). -/
def LocalOk (d : Dev) (c : Ctx) (a n : Nat) (stores : Bool) : Prop :=
  a % n = 0 ∧ (c.localTarget a n).isSome = true ∧ d.localBusy c a n stores = false

/-- The global access of n bytes at an address is aligned, mapped and permitted (R59, R71). -/
def GlobalOk (d : Dev) (c : Ctx) (kind : AccessKind) (a n : Nat) : Prop := a % n = 0 ∧ d.globalTraps c kind a n = []

/-- The accesses of an instruction's rays, one after the other, each on the block that the one before it left: what each ray read, whether
any was poisoned, and the block. -/
def rayRun (access : Dev → Nat → List Byte × Bool × Dev) : Dev → List Nat → List (Nat × List Byte) × Bool × Dev
  | d, [] => ([], false, d)
  | d, r :: rs =>
    let one := access d r
    let more := rayRun access one.2.2 rs
    ((r, one.1) :: more.1, one.2.1 || more.2.1, more.2.2)

/-- The result of a load's rays in its registers, and the next instruction (R56). -/
def Dev.loaded (c : Ctx) (f : KFields) (n : Nat) (run : List (Nat × List Byte) × Bool × Dev) : Dev :=
  (run.2.2.loadRegs c f.dst.toNat n run.1 run.2.1).next c

/-- One ray of ATOML: the old word, and the new word in its place unless the bank row is poisoned (R57, R116). -/
def Dev.atomlRay (c : Ctx) (f : KFields) (d : Dev) (r : Nat) : List Byte × Bool × Dev :=
  let a := (c.localAddr f r).toNat
  let old := d.localRead c a 4
  let new := atomicOp f.mod (BitVec.ofNat 32 (leNat old.1)) (c.atomX f r) (c.atomY f r)
  (old.1, old.2.1, if old.2.1 then old.2.2 else old.2.2.localStore c [(a, leBytes 4 new.toNat)] (c.atomPoison f))

/-- One ray of CCTL on a line of device memory. -/
def Dev.cctlRay (c : Ctx) (f : KFields) (op : BitVec 4) (d : Dev) (r : Nat) : List Byte × Bool × Dev :=
  match d.translate c.launch.facet (c.globalAddr f r).toNat with
  | .device pa cls _ =>
    let m := d.access { mkReq .cctl c.block.core c.launch.facet cls (pa / 128) with op := op }
    (leBytes 4 m.1.status.toNat, false, m.2)
  | _ => (leBytes 4 0x613, false, d)

/-- A beam of a matrix core with no ray masked off, whose queue has room and whose issue is not gated (R98, R99). -/
def MatrixReady (d : Dev) (c : Ctx) (f : KFields) (move : Bool) : Prop :=
  coreIsVector c.block.core = false ∧ f.msk = 0 ∧ c.beam.path = ~~~ c.beam.exited ∧ d.matrixGated c.block.core = false ∧
    (if move then (d.core c.block.core).movQ.length < 4 else (d.core c.block.core).matQ.length < 4)

/-- The head of a core's vector queue, or of its sort/select unit's, is instruction i of a resident beam that waits for it, and the
tile accesses that it waits for are done. -/
def PassHead (d : Dev) (core : Nat) (sort : Bool) (i : Instr) (b : BeamRef) (c : Ctx) (rest : List QEntry) : Prop :=
  d.strikes = Strikes.none ∧ d.ctx? b = some c ∧ c.beam.passOut = true ∧
    ∃ e : QEntry, e.instr = i ∧ e.beam = b ∧ (∀ w ∈ (d.core core).entries, e.waitsFor w = false) ∧
      (if sort then (d.core core).sortQ else (d.core core).vecQ) = e :: rest

/-- The block without the pass that completes, after its writes: the queue's rest, and the beam at its next instruction. -/
def Dev.passDone (d : Dev) (core : Nat) (sort : Bool) (b : BeamRef) (rest : List QEntry) (writes : Dev → Dev) : Dev :=
  (writes (d.updCore core fun k => if sort then { k with sortQ := rest } else { k with vecQ := rest })).updBeam b fun m =>
    { m with pc := m.pc + 1, passOut := false }

/-- The poison that a written element takes from the operands that its operation reads (R116). -/
def Ctx.wordMark (c : Ctx) (f : KFields) (float usesA usesB usesD : Bool) (e : Nat) : Bool :=
  (usesA && c.wordPoison (c.opA f) e) || (usesB && c.wordPoison (c.opB float f) e) || (usesD && c.wordPoison (c.opD f) e)
def Ctx.dwordMark (c : Ctx) (f : KFields) (usesA usesB usesD : Bool) (e : Nat) : Bool :=
  (usesA && c.dwordPoison (.group f.a.toNat) e) || (usesB && c.dwordPoison (c.opB false f) e) ||
    (usesD && c.dwordPoison (.group f.dst.toNat) e)

/-! ## Records -/

/-- The command of the head record of a window, as the gaffer reads it. -/
def Dev.headCmd (d : Dev) (f w : Nat) : Cmd := recordCmd (d.facet f) w ((d.facet f).window w).headBytes

/-- The block once the gaffer has read the head record of a window, whose turn it was: `left` of the facet's quantum stay (R294). -/
def Dev.recordRead (d : Dev) (f w left : Nat) : Dev :=
  (d.intakeTurn f w left).updFacet f fun x =>
    { (x.updWindow w Window.advance) with cmds := x.cmds ++ [d.headCmd f w], nextSerial := x.nextSerial + 1 }

/-- What is left of the quantum of the facet whose record is read next. -/
def Dev.intakeLeft (d : Dev) : Nat := (d.intakeGrant.map fun g => g.2.2).getD 0

/-- The record that the gaffer reads next is the head of this window; it has this type, passes the checks of R315, waits for no earlier
command, and asks for c, with the descriptor that acceptance copies. -/
def RecordWaits (d : Dev) (f w typ : Nat) (c : Cmd) : Prop :=
  let x := d.facet f
  let bs := (x.window w).headBytes
  d.gafferServes = true ∧ d.intakeGrant = some (f, w, d.intakeLeft) ∧ recordType bs = typ ∧
    c = { d.headCmd f w with copied := ((d.recordRead f w d.intakeLeft).copyDescriptor f (d.headCmd f w)).1 } ∧
    x.recordCheck (d.headCmd f w) bs = none ∧ x.orderMet c = true

/-- The same of a record that ORDERED holds back: an earlier command of its window has no completion due yet (R313). -/
def RecordHeld (d : Dev) (f w typ : Nat) (c : Cmd) : Prop :=
  let x := d.facet f
  let bs := (x.window w).headBytes
  d.gafferServes = true ∧ d.intakeGrant = some (f, w, d.intakeLeft) ∧ recordType bs = typ ∧
    c = { d.headCmd f w with copied := ((d.recordRead f w d.intakeLeft).copyDescriptor f (d.headCmd f w)).1 } ∧
    x.recordCheck (d.headCmd f w) bs = none ∧ x.orderMet c = false

/-- The block once the record is taken and its command runs. -/
def Dev.recordTaken (d : Dev) (f w : Nat) (c : Cmd) : Dev :=
  ((((d.recordRead f w d.intakeLeft).copyDescriptor f (d.headCmd f w)).2.updCmd f c.serial fun _ => c).updCmd f c.serial
    fun c => { c with state := .running })

/-! ## Mailbox commands -/

/-- A request of this code waits in the mailbox of a function, whose turn it is, the gaffer takes it, it passes the checks of R307 and R13, and the journal
stays below the limit of R460. -/
def Served (d : Dev) (fn code : Nat) : Prop :=
  (d.facet fn).mailbox.go = true ∧ (d.facet fn).mailbox.accepted = false ∧ (d.facet fn).mailbox.command = code ∧
    d.gafferUp = true ∧ d.errors.fatal = false ∧ d.mbxNext fn = true ∧ d.mbxCheck fn = none ∧ leAt (d.facet fn).mailbox.payload 0 1 = 1 ∧
    d.security.unacked + 1 < auditNearLimit

/-- The payload of the request that waits. -/
def Dev.mbxRequest (d : Dev) (fn : Nat) : List Byte := (d.facet fn).mailbox.payload

/-- The block with the journal entry of an accepted mailbox command (R458). -/
def Dev.mbxJournaled (d : Dev) (fn code subject : Nat) : Dev :=
  d.audit 1 fn false (BitVec.ofNat 16 code) 0 (BitVec.ofNat 64 subject) (d.facet fn).mailbox.auditDetail

end Sys2Proof.Machine
end

