-- ==== Sys2Proof/WellFormed.lean ====
section
/-! DEFINITION. Well-formed commands: every operand in the range that its row of the manual gives it. A command outside its range
names nothing in the block. -/

namespace Sys2Proof

/-- A core's number as CORE gives it: matrix cores 0 to 767, vector cores with bit 10 set (R20, R52). -/
def isCore (c : Nat) : Bool := decide (c < 768) || (decide (1024 ≤ c) && decide (c < 1216))

/-- An agent that requests lines: a core, a DMA channel, the PCIe port, the lehr, the gaffer, a reduction root (R215). -/
def isAgent (a : Nat) : Bool := isCore a || (decide (2048 ≤ a) && decide (a < 2116))

/-- A line of the 52-bit device physical address space (R191). -/
def isLine (l : Nat) : Bool := decide (l < 2 ^ 45)

/-- A beam of a block: at most 32 (R38, R41). -/
def BeamRef.ok (b : BeamRef) : Bool := decide (b.beam < 32)

def ConfirmAgent.ok : ConfirmAgent → Bool
  | .beam b => b.ok
  | .channel ch => decide (ch < 64)
  | .command fn _ => decide (fn < 64)

/-- Every operand of the command is in its range. -/
def Instr.wellFormed (i : Instr) : Bool :=
  match i with
  | .add b _ => b.ok
  | .sub b _ => b.ok
  | .mul b _ => b.ok
  | .mulhu b _ => b.ok
  | .divu b _ => b.ok
  | .remu b _ => b.ok
  | .andS b _ => b.ok
  | .orS b _ => b.ok
  | .xorS b _ => b.ok
  | .shl b _ => b.ok
  | .shr b _ => b.ok
  | .sra b _ => b.ok
  | .minS b _ => b.ok
  | .maxS b _ => b.ok
  | .slt b _ => b.ok
  | .sltu b _ => b.ok
  | .seq b _ => b.ok
  | .movi b _ => b.ok
  | .shor b _ => b.ok
  | .nop b _ => b.ok
  | .bra b _ => b.ok
  | .brx b _ => b.ok
  | .call b _ => b.ok
  | .ret b _ => b.ok
  | .divS b _ => b.ok
  | .join b _ => b.ok
  | .exit b _ => b.ok
  | .yield b _ => b.ok
  | .trap b _ => b.ok
  | .bar b _ => b.ok
  | .cbar b _ => b.ok
  | .fence b _ => b.ok
  | .waitc b _ => b.ok
  | .undefinedInstruction b w => b.ok && (issueOf (wordClass w).toNat (wordOp w).toNat (wordFields w).mod.toNat).isNone
  | .instructionFetchFault b => b.ok
  | .watchdog _ _ => true
  | .ldl b _ => b.ok
  | .stl b _ => b.ok
  | .atoml b _ => b.ok
  | .ldg b _ => b.ok
  | .stg b _ => b.ok
  | .ldv b _ => b.ok
  | .atomg b _ => b.ok
  | .lds b _ => b.ok
  | .sts b _ => b.ok
  | .cpa b _ => b.ok
  | .cps b _ => b.ok
  | .asyncCopyComplete b _ => b.ok
  | .pref b _ => b.ok
  | .cctlCullet b f => b.ok && decide (f.mod = 0)
  | .cctlPin b f => b.ok && decide (f.mod = 1)
  | .cctlUnpin b f => b.ok && decide (f.mod = 2)
  | .cctlWriteBack b f => b.ok && decide (f.mod = 3)
  | .cctlPinRetain b f => b.ok && decide (f.mod = 4)
  | .mma b _ => b.ok
  | .mmas b _ => b.ok
  | .mbin b _ => b.ok
  | .mbint b _ => b.ok
  | .mld b _ => b.ok
  | .mst b _ => b.ok
  | .mzero b _ => b.ok
  | .matrixInstructionComplete core _ _ fails => decide (core < 768) && fails.all fun e => decide (e.1 < 128) && decide (e.2 < 128)
  | .vaddF b _ => b.ok
  | .vsubF b _ => b.ok
  | .vmulF b _ => b.ok
  | .vfmaF b _ => b.ok
  | .vminF b _ => b.ok
  | .vmaxF b _ => b.ok
  | .vdivF b _ => b.ok
  | .vsqrtF b _ => b.ok
  | .vexp2F b _ => b.ok
  | .vlog2F b _ => b.ok
  | .vrsqF b _ => b.ok
  | .vaddD b _ => b.ok
  | .vsubD b _ => b.ok
  | .vmulD b _ => b.ok
  | .vfmaD b _ => b.ok
  | .vminD b _ => b.ok
  | .vmaxD b _ => b.ok
  | .vdivD b _ => b.ok
  | .vsqrtD b _ => b.ok
  | .vaddI b _ => b.ok
  | .vsubI b _ => b.ok
  | .vmulI b _ => b.ok
  | .vminI b _ => b.ok
  | .vmaxI b _ => b.ok
  | .vminu b _ => b.ok
  | .vmaxu b _ => b.ok
  | .vand b _ => b.ok
  | .vor b _ => b.ok
  | .vxor b _ => b.ok
  | .vshl b _ => b.ok
  | .vshr b _ => b.ok
  | .vsra b _ => b.ok
  | .vpopc b _ => b.ok
  | .vclz b _ => b.ok
  | .vdot4I b _ => b.ok
  | .vmov b _ => b.ok
  | .vsel b _ => b.ok
  | .vcvt b _ => b.ok
  | .vmxscale b _ => b.ok
  | .vsetvl b _ => b.ok
  | .vred b _ => b.ok
  | .vldl b _ => b.ok
  | .vstl b _ => b.ok
  | .vcmpF b _ => b.ok
  | .vcmpD b _ => b.ok
  | .vcmpI b _ => b.ok
  | .vcmpU b _ => b.ok
  | .vcmpkF b _ => b.ok
  | .vcmpkD b _ => b.ok
  | .vcmpkI b _ => b.ok
  | .vcmpkU b _ => b.ok
  | .kand b _ => b.ok
  | .kor b _ => b.ok
  | .kxor b _ => b.ok
  | .knot b _ => b.ok
  | .kmov b _ => b.ok
  | .ktos b _ => b.ok
  | .kpopc b _ => b.ok
  | .ssort b _ => b.ok
  | .smerge b _ => b.ok
  | .scompact b _ => b.ok
  | .vectorPassComplete core _ _ fails => isCore core && fails.all fun e => decide (e < 256)
  | .launch fn w => decide (fn < 64) && decide (w < 16)
  | .blockPlace _ cores => cores.all isCore
  | .replay fn w => decide (fn < 64) && decide (w < 16)
  | .abort fn w => decide (fn < 64) && decide (w < 16)
  | .switchRequest cores => cores.all isCore
  | .blockSave _ _ => true
  | .switchTimeout cores => cores.all isCore
  | .blockRestore _ _ cores => cores.all isCore
  | .rdS core line => isCore core && isLine line
  | .rdU core line => isCore core && isLine line
  | .own core line => isCore core && isLine line
  | .upg core line => isCore core && isLine line
  | .rdNc agent line => isAgent agent && isLine line
  | .wrNc agent line bytes _ => isAgent agent && isLine line && bytes.all fun e => decide (e.1 < 128)
  | .atom agent addr op _ _ => isAgent agent && decide (addr < 2 ^ 52) && decide (addr % 4 = 0) && decide (op.toNat < 9)
  | .cctl agent facet line op => isAgent agent && decide (facet < 64) && isLine line && decide (op.toNat < 5)
  | .prefRequest agent line => isAgent agent && isLine line
  | .snpInv core line => isCore core && isLine line
  | .snpDown core line => isCore core && isLine line
  | .snpDrop core line => isCore core && isLine line
  | .rspAck core line => isCore core && isLine line
  | .rspData core line => isCore core && isLine line
  | .wb core line => isCore core && isLine line
  | .evc core line => isCore core && isLine line
  | .cmpS core line => isCore core && isLine line
  | .cmpE core line => isCore core && isLine line
  | .cmpM core line => isCore core && isLine line
  | .cmpOwn core line => isCore core && isLine line
  | .cmpNc agent line => isAgent agent && isLine line
  | .cmpAck agent line => isAgent agent && isLine line
  | .sliceFillComplete line => isLine line
  | .homeTimeout line => isLine line
  | .sliceModeChange slice _ _ => decide (slice < 96)
  | .sliceHoldDrained slice => decide (slice < 96)
  | .meshFlit _ _ => true
  | .pairPortFlit port _ _ fec _ => decide (port < 6) && fec.all fun l => decide (l < 68)
  | .laneSpare port _ lane => decide (port < 6) && decide (lane < 68)
  | .portRetrain port => decide (port < 6)
  | .retrainAttemptEnd port e => decide (port < 6) && (e.failedAB ++ e.failedBA).all fun l => decide (l < 68)
  | .tagAbandon port side index => decide (port < 6) && decide (side < 2) && decide (index < 1024)
  | .drainMarkerReturn port side index => decide (port < 6) && decide (side < 2) && decide (index < 1024)
  | .reductionContribution group rank line data _ => decide (group < 512) && decide (rank.rank < 1024) && isAgent rank.agent && decide (line < 8192) && decide (data.length = 128)
  | .combineHoldExpire group line _ _ => decide (group < 512) && decide (line < 8192)
  | .doneWordWrite group => decide (group < 512)
  | .redGroupOpen fn => decide (fn < 64)
  | .redGroupClose fn => decide (fn < 64)
  | .hbmReadComplete line _ _ => isLine line
  | .hbmWriteBatch stack pseudo => decide (stack < 12) && decide (pseudo < 64)
  | .writeWaitExpire stack pseudo => decide (stack < 12) && decide (pseudo < 64)
  | .hbmRefresh stack => decide (stack < 12)
  | .stackTempRead stack _ => decide (stack < 12)
  | .farReadComplete line _ => isLine line
  | .farLinkDown port => decide (port < 4)
  | .farLinkRecover port _ => decide (port < 4)
  | .farEnumerate port _ => decide (port < 4)
  | .cxlEvent port _ _ => decide (port < 4)
  | .farScrubProgress port _ => decide (port < 4)
  | .memAlloc fn _ => decide (fn < 64)
  | .memFree fn => decide (fn < 64)
  | .memSetClass fn => decide (fn < 64)
  | .farRescan fn _ => decide (fn < 64)
  | .busMap fn _ _ => decide (fn < 64)
  | .busUnmap fn => decide (fn < 64)
  | .apertureMap fn _ => decide (fn < 64)
  | .apertureUnmap fn => decide (fn < 64)
  | .bar4Write fn _ data _ _ _ => decide (fn < 64) && !data.isEmpty
  | .bar4Read fn _ len _ _ => decide (fn < 64) && decide (1 ≤ len)
  | .pcieAtomicop fn _ _ bytes _ _ _ _ => decide (fn < 64) && (decide (bytes = 4) || decide (bytes = 8) || decide (bytes = 16))
  | .bar2Write fn _ data _ => decide (fn < 64) && !data.isEmpty
  | .configRequest fn _ => decide (fn < 64)
  | .hostReadCompletion _ data _ => !data.isEmpty
  | .peerConfirmComplete agent _ _ => agent.ok
  | .corpusRegister fn => decide (fn < 64)
  | .corpusAppend fn => decide (fn < 64)
  | .corpusRetire fn => decide (fn < 64)
  | .corpusDeregister fn => decide (fn < 64)
  | .lehrStart fn => decide (fn < 64)
  | .lehrStop fn => decide (fn < 64)
  | .lehrStatus fn => decide (fn < 64)
  | .blockBoundary => true
  | .farBlockStaged => true
  | .candidateMerge seat die => decide (seat < 1024) && decide (die < 4)
  | .riderResultMerged _ => true
  | .rerankGatherDone _ => true
  | .ride fn w => decide (fn < 64) && decide (w < 16)
  | .rideCancel fn w => decide (fn < 64) && decide (w < 16)
  | .sessionOpen fn => decide (fn < 64)
  | .sessionClose fn => decide (fn < 64)
  | .sessionStatus fn => decide (fn < 64)
  | .sessionRestore => true
  | .modelRegister fn => decide (fn < 64)
  | .modelDeregister fn => decide (fn < 64)
  | .modelPin fn => decide (fn < 64)
  | .modelUnpin fn => decide (fn < 64)
  | .modelStatus fn => decide (fn < 64)
  | .slotAcquire _ => true
  | .slotLoadComplete _ => true
  | .generate fn w => decide (fn < 64) && decide (w < 16)
  | .stepBoundary _ => true
  | .commandComplete fn _ => decide (fn < 64)
  | .irqModDelay fn ring => decide (fn < 64) && decide (ring ≤ 16)
  | .cmdNop fn w => decide (fn < 64) && decide (w < 16)
  | .dma fn w => decide (fn < 64) && decide (w < 16)
  | .dmaCommandStart ch => decide (ch < 64)
  | .descriptorFetch ch => decide (ch < 64)
  | .dmaLineComplete ch => decide (ch < 64)
  | .descriptorConfirmed ch => decide (ch < 64)
  | .headPromote ch => decide (ch < 64)
  | .actionRetry fn ch => decide (fn < 64) && decide (ch < 64)
  | .actionSkip fn ch => decide (fn < 64) && decide (ch < 64)
  | .actionAbort fn ch => decide (fn < 64) && decide (ch < 64)
  | .commit fn ch => decide (fn < 64) && decide (ch < 64)
  | .mbxGo fn _ => decide (fn < 64)
  | .hello fn => decide (fn < 64)
  | .ringSet fn => decide (fn < 64)
  | .ringClear fn => decide (fn < 64)
  | .intWinCfgWrite fn n _ => decide (fn < 64) && decide (n < 16)
  | .intCqHeadWrite fn n _ => decide (fn < 64) && decide (n < 16)
  | .intGqHeadWrite fn _ => decide (fn < 64)
  | .cntClear fn => decide (fn < 64)
  | .cchLaRetainWrite fn n _ => decide (fn < 64) && decide (n < 24)
  | .lowWordRead fn at_ => decide (fn < 64) && decide (at_.offset < 16777216) && decide (at_.offset % (if at_.wide then 8 else 4) = 0)
  | .registerWrite fn offset _ _ => decide (fn < 64) && decide (offset < 16777216) && decide (offset % 4 = 0)
  | .linkDown => true
  | .linkUp _ _ => true
  | .linkRetrain => true
  | .linkDegraded _ _ => true
  | .bar4Resize fn _ => decide (fn < 64)
  | .flr fn => decide (fn < 64)
  | .facetCreate fn => decide (fn < 64)
  | .facetDestroy fn => decide (fn < 64)
  | .facetResize fn => decide (fn < 64)
  | .overCleared facet => decide (facet < 64)
  | .facetQuiesce fn => decide (fn < 64)
  | .quiesceDone facet => decide (facet < 64)
  | .quiesceLimit facet => decide (facet < 64)
  | .facetResume fn => decide (fn < 64)
  | .facetReset fn => decide (fn < 64)
  | .facetSave fn => decide (fn < 64)
  | .facetRestore fn _ => decide (fn < 64)
  | .facetDirtyLog fn => decide (fn < 64)
  | .facetQuery fn => decide (fn < 64)
  | .powerSetCap fn => decide (fn < 64)
  | .powerSetMode fn => decide (fn < 64)
  | .powerStatus fn => decide (fn < 64)
  | .powerLagReport fn => decide (fn < 64)
  | .powerEstimate die _ => decide (die < 16)
  | .calibrate _ _ => true
  | .budgetDistribute => true
  | .railUpdate base => decide (base < 4)
  | .avsAck rail => decide (rail < 16)
  | .avsTimeout rail => decide (rail < 16)
  | .droopTrip row => decide (row < 96)
  | .droopClear row => decide (row < 96)
  | .overcurrentAssert => true
  | .overcurrentDeassert => true
  | .dieTempRead die _ => decide (die < 16)
  | .thermalThrottleStep die => decide (die < 12)
  | .dimUpdate die _ _ => decide (die < 12)
  | .dimExit die _ _ => decide (die < 12)
  | .coreIdleGate core => isCore core
  | .coreWake core => isCore core
  | .darkEntry die => decide (die < 12)
  | .darkEntryComplete die => decide (die < 12)
  | .darkExit die => decide (die < 12)
  | .darkExitComplete die => decide (die < 12)
  | .packageDarkEntry => true
  | .packageDarkExit => true
  | .packageDarkExitComplete _ _ => true
  | .ceWindow => true
  | .weightDamage _ core => isCore core
  | .weightReloadDone _ => true
  | .scoreDecay core => isCore core
  | .deviceFatal _ => true
  | .attestReport fn => decide (fn < 64)
  | .identityChain fn => decide (fn < 64)
  | .doeReportRequest fn _ => decide (fn < 64)
  | .doeChainRequest fn => decide (fn < 64)
  | .signingComplete => true
  | .fwStage fn => decide (fn < 64)
  | .fwActivate fn => decide (fn < 64)
  | .fwCommitSvn fn => decide (fn < 64)
  | .ownerInstall fn => decide (fn < 64)
  | .ownerRelease fn => decide (fn < 64)
  | .returnChallenge fn => decide (fn < 64)
  | .lifecycleReturn fn => decide (fn < 64)
  | .debugSet fn => decide (fn < 64)
  | .debugConsent fn => decide (fn < 64)
  | .debugBeam fn => decide (fn < 64)
  | .debugTrace fn => decide (fn < 64)
  | .debugDump fn => decide (fn < 64)
  | .debugScan fn => decide (fn < 64)
  | .debugTest fn => decide (fn < 64)
  | .auditRead fn => decide (fn < 64)
  | .auditAck fn => decide (fn < 64)
  | .auditCheckpoint fn => decide (fn < 64)
  | .ideKeySet fn => decide (fn < 64)
  | .deviceReset fn => decide (fn < 64)
  | .dieReset fn => decide (fn < 64)
  | .vpHandshakeTimeout die => decide (die < 12)
  | .dieResetStepDone _ _ => true
  | .inputGood _ => true
  | .inputGoodDeassert => true
  | .efuseOpen => true
  | .warmRst _ => true
  | .perstAssert => true
  | .perstDeassert => true
  | .bootStepComplete _ => true
  | .bootWatchdog => true
  | .setEndpointId _ _ => true
  | .pldmSensorRead _ => true
  | .pldmDeviceReset => true
  | .coolantRead _ _ => true
  | .highWordRead fn offset => decide (fn < 64) && decide (offset < 16777216) && decide (offset % 4 = 0)
  | .unsupportedRecord fn w => decide (fn < 64) && decide (w < 16)
  | .farWriteComplete line => isLine line
  | .completionTimeout agent => agent.ok
  | .warmReset => true
  | .tokenBucketRefill ch _ => decide (ch < 64)
  | .dynamicAddress _ => true

end Sys2Proof
end

