-- ==== Sys2Proof/Certificates/Slice0/Obligations.lean ====
section
/-! DEFINITION. The statements for the provers. -/

open Sys2Proof Sys2Proof.Machine

/-! ## The queue, reset, and the words of instructions -/

/-- A step executes the command at the front of the queue with the queue's rest. -/
def Obligations.StepRunsFront : Prop :=
  ∀ (c : Instr) (rest : List Instr) (d : Dev),
    step { pending := c :: rest, dev := d } = exec c { pending := rest, dev := d }

/-- No command touches the queue, and every command of the table completes in every state. -/
def Obligations.CommandsKeepTheQueue : Prop :=
  ∀ (c : Instr) (s : State), ∃ d, exec c s = .next (s.to d)

/-- As many steps as commands wait execute them all, first in, first out, each on the block that the one before it left; then the block
idles. -/
def Obligations.QueueDrainsInOrder : Prop :=
  ∀ (cs : List Instr) (d : Dev),
    Host.Core.run Sys2Proof.core cs.length { pending := cs, dev := d } = .next { pending := [], dev := cs.foldl (fun d c => effect c d) d } ∧
      step { pending := [], dev := d } = .next { pending := [], dev := d }

/-- Every kernel instruction's word decodes to it, with every operand at every value of its field. -/
def Obligations.DecodeOfEncode : Prop :=
  ∀ (i : Instr) (b : BeamRef) (w : BitVec 64), i.wellFormed = true → encodeIssue i = some (b, w) → decodeIssue b w = i

/-- Every word decodes to a command that stands for that word and no other. -/
def Obligations.EncodeOfDecode : Prop :=
  ∀ (b : BeamRef) (w : BitVec 64), encodeIssue (decodeIssue b w) = some (b, w)

/-! ## Scalar and control instructions -/

/-- The scalar instructions: their results, immediates among them, and that nothing else of the block changes but the pc and the barrier
watchdog's count; what the scalar unit reads of each specifier; an undefined or read-only specifier parks the beam with ILLEGAL and writes no
register. -/
def Obligations.ScalarInstructions : Prop :=
  ((∀ (s : State) (b : BeamRef) (f : KFields) (c : Ctx), Issues s.dev b c →
        ScalarSource f.a → (f.mod.getLsbD 0 = false → ScalarSource f.b) → ScalarDest f.dst →
        ∀ p ∈ ([(.add, fun x y => x + y), (.sub, fun x y => x - y), (.mul, fun x y => x * y),
            (.mulhu, fun x y => BitVec.ofNat 64 (x.toNat * y.toNat / 2 ^ 64)),
            (.divu, fun x y => if y = 0 then BitVec.allOnes 64 else x / y), (.remu, fun x y => if y = 0 then x else x % y),
            (.andS, fun x y => x &&& y), (.orS, fun x y => x ||| y), (.xorS, fun x y => x ^^^ y),
            (.shl, fun x y => x <<< (y.toNat % 64)), (.shr, fun x y => x >>> (y.toNat % 64)),
            (.sra, fun x y => x.sshiftRight (y.toNat % 64)), (.minS, fun x y => if x.toInt ≤ y.toInt then x else y),
            (.maxS, fun x y => if x.toInt ≤ y.toInt then y else x), (.slt, fun x y => if x.toInt < y.toInt then 1 else 0),
            (.sltu, fun x y => if x.toNat < y.toNat then 1 else 0), (.seq, fun x y => if x = y then 1 else 0)] :
            List ((BeamRef → KFields → Instr) × (BitVec 64 → BitVec 64 → BitVec 64))),
          exec (p.1 b f) s = .next (s.to ((s.dev.noteIssue c).updBeam b fun m =>
            { m.sWrite f.dst.toNat (p.2 (c.sVal f.a.toNat) (if f.mod.getLsbD 0 then f.imm.signExtend 64 else c.sVal f.b.toNat)) with
              pc := m.pc + 1 }))) ∧
    (∀ (s : State) (b : BeamRef) (f : KFields) (c : Ctx), Issues s.dev b c → ScalarDest f.dst →
        exec (.movi b f) s = .next (s.to ((s.dev.noteIssue c).updBeam b fun m =>
          { m.sWrite f.dst.toNat (f.imm.signExtend 64) with pc := m.pc + 1 })) ∧
        exec (.shor b f) s = .next (s.to ((s.dev.noteIssue c).updBeam b fun m =>
          { m.sWrite f.dst.toNat ((c.sVal f.dst.toNat <<< (20 : Nat)) ||| f.imm.setWidth 64) with pc := m.pc + 1 })) ∧
        (ScalarSource f.a → f.mod.toNat < 4 →
          exec (.vsetvl b f) s = .next (s.to ((s.dev.noteIssue c).updBeam b fun m =>
            { { m with vl := min (c.sVal f.a.toNat).toNat 256 }.sWrite f.dst.toNat (BitVec.ofNat 64 (min (c.sVal f.a.toNat).toNat 256)) with
              pc := m.pc + 1 }))))) ∧
  ((∀ c : Ctx,
        (∀ n < 48, c.sVal (0xC0 + n) = c.beam.sGet n) ∧ c.sVal 0xF0 = 0 ∧ c.sVal 0xF1 = BitVec.ofNat 64 (32 * c.ref.beam) ∧
        c.sVal 0xF2 = BitVec.ofNat 64 c.ref.beam ∧ c.sVal 0xF3 = BitVec.ofNat 64 c.block.index ∧
        c.sVal 0xF4 = BitVec.ofNat 64 (c.block.index % c.launch.params.cluster) ∧
        c.sVal 0xF5 = BitVec.ofNat 64 (c.block.index / c.launch.params.cluster) ∧ c.sVal 0xF6 = BitVec.ofNat 64 c.block.core ∧
        c.sVal 0xF7 = BitVec.ofNat 64 c.beam.vl ∧ c.sVal 0xF8 = c.launch.params.argAddr ∧
        c.sVal 0xF9 = BitVec.ofNat 64 c.launch.params.gridBlocks ∧ c.sVal 0xFA = BitVec.ofNat 64 c.launch.params.rays ∧
        c.sVal 0xFB = c.beam.path.setWidth 64 ∧ (∀ (m : Beam) (v : BitVec 64), m.sWrite 0xF0 v = m)) ∧
    (∀ (s : State) (b : BeamRef) (f : KFields) (c : Ctx), Issues s.dev b c →
        ((¬ ScalarSource f.a ∨ (f.mod.getLsbD 0 = false ∧ ¬ ScalarSource f.b) ∨ ¬ ScalarDest f.dst) →
        ∀ make ∈ ([.add, .sub, .mul, .mulhu, .divu, .remu, .andS, .orS, .xorS, .shl, .shr, .sra, .minS, .maxS, .slt, .sltu, .seq] :
            List (BeamRef → KFields → Instr)),
          exec (make b f) s = .next (s.to (((s.dev.noteIssue c).park c illegal).updBeam b fun m => { m with debugStep := false }))) ∧
        (¬ ScalarDest f.dst → ∀ make ∈ ([.movi, .shor] : List (BeamRef → KFields → Instr)),
          exec (make b f) s = .next (s.to (((s.dev.noteIssue c).park c illegal).updBeam b fun m => { m with debugStep := false }))) ∧
        (¬ ScalarSource f.a ∨ ¬ ScalarDest f.dst ∨ 4 ≤ f.mod.toNat →
          exec (.vsetvl b f) s = .next (s.to (((s.dev.noteIssue c).park c illegal).updBeam b fun m => { m with debugStep := false })))))

/-- The control instructions that move the pc, the fences, which hold issue while a write of the core is out and then ask for the confirmation of
its peer regions, and DIV, which splits the path, or takes or falls through whole (R60). -/
def Obligations.ControlInstructions : Prop :=
  (∀ (s : State) (b : BeamRef) (f : KFields) (c : Ctx), Issues s.dev b c →
      let d := s.dev.noteIssue c
      exec (.nop b f) s = .next (s.to (d.updBeam b fun m => { m with pc := m.pc + 1 })) ∧
      exec (.bra b f) s = .next (s.to (d.updBeam b fun m => { m with pc := c.beam.pc + f.imm.signExtend 64 })) ∧
      (ScalarSource f.a → exec (.brx b f) s = .next (s.to (d.updBeam b fun m => { m with pc := c.sVal f.a.toNat }))) ∧
      (c.beam.calls.length < 8 → exec (.call b f) s = .next (s.to (d.updBeam b fun m =>
        { m with calls := (m.pc + 1) :: m.calls, pc := m.pc + f.imm.signExtend 64 }))) ∧
      (8 ≤ c.beam.calls.length → exec (.call b f) s = .next (s.to ((d.park c (mkTrap .callStack 0)).updBeam b fun m =>
        { m with debugStep := false }))) ∧
      (∀ p rest, c.beam.calls = p :: rest → exec (.ret b f) s = .next (s.to (d.updBeam b fun m => { m with calls := rest, pc := p }))) ∧
      (c.beam.calls = [] → exec (.ret b f) s = .next (s.to ((d.park c (mkTrap .callStack 0)).updBeam b fun m =>
        { m with debugStep := false }))) ∧
      exec (.trap b f) s = .next (s.to ((d.park c (mkTrap .software (f.imm.signExtend 64).toNat)).updBeam b fun m =>
        { m with debugStep := false })) ∧
      (f.mod.toNat % 4 = 0 ∨ (f.mod.toNat % 4 = 1 ∧ s.dev.writesOut c.block.core = false) →
        exec (.fence b f) s = .next (s.to (d.updBeam b fun m => { m with pc := m.pc + 1 }))) ∧
      (f.mod.toNat % 4 = 1 ∨ f.mod.toNat % 4 = 2 → s.dev.writesOut c.block.core = true → exec (.fence b f) s = .next s) ∧
      (f.mod.toNat % 4 = 2 → s.dev.writesOut c.block.core = false →
        let regions := (s.dev.core c.block.core).peerRecs.map PeerRec.region
        let t := d.updBeam b fun m => { m with pc := m.pc + 1 }
        (regions = [] → exec (.fence b f) s = .next (s.to t)) ∧
        (regions ≠ [] → s.dev.mayTransmit c.launch.facet = true →
          exec (.fence b f) s = .next (s.to ((t.askRegions c.block.core regions).updBeam b fun m => { m with fenceWait := regions }))) ∧
        (regions ≠ [] → s.dev.mayTransmit c.launch.facet = false →
          exec (.fence b f) s = .next (s.to ((t.markHostLost c.launch.facet c.launch.cmd).updCore c.block.core fun k => { k with peerRecs := [] })))) ∧
      (f.mod.toNat % 4 = 3 → exec (.fence b f) s = .next (s.to ((d.park c illegal).updBeam b fun m => { m with debugStep := false }))) ∧
      (c.beam.copies.length ≤ f.imm.toNat % 32 → exec (.waitc b f) s = .next (s.to (d.updBeam b fun m => { m with pc := m.pc + 1 })))) ∧
  (∀ (s : State) (b : BeamRef) (f : KFields) (c : Ctx), Issues s.dev b c → MaskField f.msk →
      let d := s.dev.noteIssue c
      let taken := c.beam.path &&& c.mask f.msk
      let fall := c.beam.path &&& ~~~ c.mask f.msk
      let target := c.beam.pc + f.imm.signExtend 64
      let rc := c.beam.pc + (f.a ++ f.b).setWidth 64
      (taken = 0 → exec (.divS b f) s = .next (s.to (d.updBeam b fun m => { m with pc := m.pc + 1 }))) ∧
      (taken ≠ 0 → fall = 0 → exec (.divS b f) s = .next (s.to (d.updBeam b fun m => { m with pc := target }))) ∧
      (taken ≠ 0 → fall ≠ 0 → c.beam.stack.length ≤ 14 →
        exec (.divS b f) s = .next (s.to (d.updBeam b fun m =>
          { m with stack := .pending fall (m.pc + 1) rc :: .reconv m.path rc :: m.stack, path := taken, pc := target }))) ∧
      (taken ≠ 0 → fall ≠ 0 → 14 < c.beam.stack.length →
        exec (.divS b f) s = .next (s.to ((d.park c (mkTrap .maskStackOverflow 0)).updBeam b fun m => { m with debugStep := false }))))

/-- JOIN and EXIT rewrite the beam's path as R60 and R61 give, and then the ends of phases, blocks and launches follow; YIELD falls through,
and stops its beam where a switch request stands and its index is below ENTRIES. JOIN pops the top entry of the mask stack at its
reconvergence point, and else falls through; a beam whose every ray has exited ends. -/
def Obligations.PathsRejoin : Prop :=
  (∀ (s : State) (b : BeamRef) (f : KFields) (c : Ctx), Issues s.dev b c →
      let d := s.dev.noteIssue c
      let go := fun r => s.dev.released c r
      exec (.join b f) s = .next (s.to ((d.updBeam b fun m => m.joinAt go m.pc).afterPath c)) ∧
      (MaskField f.msk → exec (.exit b f) s = .next (s.to ((d.updBeam b fun m => m.exitRays go (c.mask f.msk)).afterPath c))) ∧
      ((s.dev.core c.block.core).switchReq = true → f.imm.toNat % 65536 < c.launch.liveMaps →
        exec (.yield b f) s = .next (s.to (d.updBeam b fun m => { m with pc := m.pc + 1, status := .yielded (f.imm.toNat % 65536) }))) ∧
      ((s.dev.core c.block.core).switchReq = false ∨ c.launch.liveMaps ≤ f.imm.toNat % 65536 →
        exec (.yield b f) s = .next (s.to (d.updBeam b fun m => { m with pc := m.pc + 1 })))) ∧
  ((∀ (m : Beam) (go : BarrierRef → Bool) (p : BitVec 64) (mask : BitVec 32) (start resume : BitVec 64) (r : BarrierRef)
        (map : Option Nat) (rest : List StackEntry),
        let path := mask &&& ~~~ m.exited
        (m.stack = [] → m.joinAt go p = { m with pc := p + 1 }) ∧
        (∀ e, m.stack = e :: rest → e.rc ≠ p → m.joinAt go p = { m with pc := p + 1 }) ∧
        (m.stack = .reconv mask p :: rest → path ≠ 0 → m.joinAt go p = { m with stack := rest, path := path, pc := p + 1 }) ∧
        (m.stack = .pending mask start p :: rest → path ≠ 0 → m.joinAt go p = { m with stack := rest, path := path, pc := start }) ∧
        (m.stack = .wait mask resume p r map :: rest → path ≠ 0 →
          m.joinAt go p = { m with stack := rest, path := path, pc := resume, status := if go r then m.status else .sleeping r,
                                   yieldMap := if go r then m.yieldMap else map })) ∧
    (∀ (m : Beam) (go : BarrierRef → Bool) (rays : BitVec 32),
        ((m.exitRays go rays).exited = m.exited ||| rays) ∧
        (m.path &&& ~~~ rays ≠ 0 → m.exitRays go rays = { m with exited := m.exited ||| rays, path := m.path &&& ~~~ rays, pc := m.pc + 1 }) ∧
        (m.path &&& ~~~ rays = 0 → (∀ e ∈ m.stack, e.mask &&& ~~~ (m.exited ||| rays) = 0) →
          (m.exitRays go rays).status = .ended ∧ (m.exitRays go rays).stack = [] ∧ (m.exitRays go rays).path = 0)))

/-- BAR and CBAR count the path's rays as arrived and put the path to sleep or run the pending one; a second identifier in one phase is a
mismatch. The last arrival completes a block's phase: its number rises, its table of arrivals, its identifier and its watchdog clear, and
exactly the beams asleep on the block's barrier run on; before it the block stays as it is. -/
def Obligations.BarriersAndPhases : Prop :=
  (∀ (s : State) (b : BeamRef) (f : KFields) (c : Ctx), Issues s.dev b c →
      let d := s.dev.noteIssue c
      let go := fun r => s.dev.released c r
      let id := f.dst.toNat % 16
      ((c.block.barId = none ∨ c.block.barId = some id) →
        exec (.bar b f) s = .next (s.to (((d.updBlock b.launch b.block fun k =>
          { k with barId := some id, arrived := arriveRays k.arrived b.beam c.beam.path }).updBeam b fun m =>
            m.arrive go (.block c.block.phase) (c.yieldPoint f)).afterPath c))) ∧
      (∀ i, c.block.barId = some i → i ≠ id →
        exec (.bar b f) s = .next (s.to ((d.park c (mkTrap .barrierMismatch (i + 16 * id))).updBeam b fun m => { m with debugStep := false }))) ∧
      exec (.cbar b f) s = .next (s.to (((d.updBlock b.launch b.block fun k =>
        { k with cArrived := arriveRays k.cArrived b.beam c.beam.path }).updBeam b fun m =>
          m.arrive go (.cluster (s.dev.cluster c.launch.id c.clusterId).phase) (c.yieldPoint f)).afterPath c))) ∧
  (∀ k : Block,
      (k.arrived ≠ [] → (∀ i < k.beams.length, k.live i &&& ~~~ Tab.get 0 k.arrived i = 0) →
        k.phaseDone = { k with phase := k.phase + 1, barId := none, arrived := [], watchdog := 0, beams := k.beams.map fun m => m.wake true }) ∧
      (∀ i < k.beams.length, k.live i &&& ~~~ Tab.get 0 k.arrived i ≠ 0 → k.phaseDone = k) ∧
      (∀ (m : Beam) (p : Nat), m.status = .sleeping (.block p) → (m.wake true).status = .running ∧ (m.wake true).pc = m.pc) ∧
      (∀ (m : Beam) (p : Nat), m.status = .sleeping (.cluster p) → m.wake true = m))

/-- An undefined word traps ILLEGAL; an instruction that lies on an unmapped page traps PAGE_FAULT with its address; a watchdog at its limit leaves
every beam of its block parked or ended. -/
def Obligations.WordsThatCannotRun : Prop :=
  ∀ (s : State) (b : BeamRef) (c : Ctx),
    (∀ w, Issues s.dev b c → issueOf (wordClass w).toNat (wordOp w).toNat (wordFields w).mod.toNat = none →
      exec (.undefinedInstruction b w) s =
        .next (s.to (((s.dev.noteIssue c).park c illegal).updBeam b fun m => { m with debugStep := false }))) ∧
    (Issues s.dev b c → s.dev.translate c.launch.facet (c.launch.params.kernelAddr + 8 * c.beam.pc).toNat = .unmapped →
      exec (.instructionFetchFault b) s =
        .next (s.to (((s.dev.noteIssue c).park c (mkTrap .pageFault (c.launch.params.kernelAddr + 8 * c.beam.pc).toNat)).updBeam b fun m =>
          { m with debugStep := false }))) ∧
    (b.beam = 0 → s.dev.ctx? b = some c → s.dev.arrivals c = true → c.launch.watchdogLimit ≤ c.block.watchdog →
      ∃ t, exec (.watchdog b.launch b.block) s = .next t ∧ ∃ k, t.dev.block? b.launch b.block = some k ∧
        ∀ m ∈ k.beams, m.status = .ended ∨ ∃ why, m.status = .parked why)

/-! ## Memory instructions -/

/-- LDL, STL and ATOML on the block's scratchpad: the registers receive each ray's bytes, the scratchpad each ray's stored bytes; an atomic
performs its rays' operations in ascending ray order, each on the words that the one before it left, and DST receives the old words. -/
def Obligations.LocalMemory : Prop :=
  (∀ (s : State) (b : BeamRef) (f : KFields) (c : Ctx) (n : Nat), Issues s.dev b c → MaskField f.msk → memWidth f = some n →
      let d := s.dev.noteIssue c
      let rays := c.memRays f
      let addr := fun r => (c.localAddr f r).toNat
      RaySource c f.a → CleanAddress c f (c.rPoison f.a.toNat) →
      (RayData c true f.dst n → (∀ r ∈ rays, LocalOk s.dev c (addr r) n false) →
        exec (.ldl b f) s = .next (s.to (Dev.loaded c f n (rayRun (fun d r => d.localRead c (addr r) n) d rays)))) ∧
      (RayData c false f.b n → (∀ r ∈ rays, LocalOk s.dev c (addr r) n true) →
        exec (.stl b f) s = .next (s.to ((d.localStore c (rays.map fun r => (addr r, c.rBytes f.b.toNat r n)) (c.dataPoison f.b.toNat n)).next c)))) ∧
  (∀ (s : State) (b : BeamRef) (f : KFields) (c : Ctx), Issues s.dev b c → MaskField f.msk → f.mod.toNat ≤ 8 →
      RaySource c f.a → CleanAddress c f (c.rPoison f.a.toNat) → RayDest c f.dst →
      (if f.mod = 8 then RayGroup c f.b 2 else RaySource c f.b) →
      (∀ r ∈ c.memRays f, LocalOk s.dev c (c.localAddr f r).toNat 4 true) →
      exec (.atoml b f) s = .next (s.to (Dev.loaded c f 4 (rayRun (Dev.atomlRay c f) (s.dev.noteIssue c) (c.memRays f)))))

/-- A misaligned local access, and one outside the scratchpad and every window, park the beam before any byte moves; a global access of an
unmapped address parks it with PAGE_FAULT, and one that its mapping does not permit with PROTECTION. Of several failed checks the beam parks
with the lowest cause. -/
def Obligations.AccessesTrap : Prop :=
  (∀ (s : State) (b : BeamRef) (f : KFields) (c : Ctx) (n r : Nat), Issues s.dev b c → MaskField f.msk → memWidth f = some n →
      let d := s.dev.noteIssue c
      let addr := fun r => (c.localAddr f r).toNat
      RaySource c f.a → CleanAddress c f (c.rPoison f.a.toNat) → RayData c true f.dst n → c.memRays f = [r] →
      (addr r % n ≠ 0 → exec (.ldl b f) s = .next (s.to ((d.park c (mkTrap .misaligned (addr r))).updBeam b fun m => { m with debugStep := false }))) ∧
      (addr r % n = 0 → c.localTarget (addr r) n = none →
        exec (.ldl b f) s = .next (s.to ((d.park c (mkTrap .scratchRange (addr r))).updBeam b fun m => { m with debugStep := false })))) ∧
  (∀ (d : Dev) (c : Ctx) (a n : Nat),
      (d.translate c.launch.facet a = .unmapped → ∀ kind, d.globalTraps c kind a n = [mkTrap .pageFault a]) ∧
      (d.translate c.launch.facet a = .beyond → ∀ kind, d.globalTraps c kind a n = [mkTrap .protection a]) ∧
      (∀ g off, d.translate c.launch.facet a = .window g off → ∀ kind, d.globalTraps c kind a n = [mkTrap .protection a]) ∧
      (∀ pa cls, d.translate c.launch.facet a = .device pa cls true →
        d.globalTraps c .read a n = [] ∧ d.globalTraps c .write a n = [mkTrap .protection a] ∧ d.globalTraps c .atomic a n = [mkTrap .protection a]) ∧
      (∀ pa cls kind, d.translate c.launch.facet a = .device pa cls false → d.globalTraps c kind a n = []) ∧
      (∀ bus region ro closed, d.translate c.launch.facet a = .bus bus region ro closed → d.globalTraps c .atomic a n = [mkTrap .protection a])) ∧
  (∀ (d : Dev) (b : BeamRef) (c : Ctx) (l : List Trap) (k : Issue), Issues d b c → l ≠ [] → ∃ t ∈ l, (∀ u ∈ l, t.cause.code ≤ u.cause.code) ∧
      d.issue b (fun _ => []) (fun _ _ => checked l k) = ((d.noteIssue c).park c t).updBeam b fun m => { m with debugStep := false })

/-- LDG, LDV, STG and ATOMG with every address aligned, mapped and permitted: the accesses of the rays, in ascending order, then the registers. A
store to a 17th peer region holds the rays from there on until the oldest region is confirmed (R226). -/
def Obligations.GlobalAccesses : Prop :=
  ∀ (s : State) (b : BeamRef) (f : KFields) (c : Ctx) (n : Nat), Issues s.dev b c → MaskField f.msk →
    let d := s.dev.noteIssue c
    let rays := c.memRays f
    let addr := fun r => (c.globalAddr f r).toNat
    RayGroup c f.a 2 → CleanAddress c f (c.groupPoison f.a.toNat 2) →
    (memWidth f = some n → RayData c true f.dst n → (∀ r ∈ rays, GlobalOk d c .read (addr r) n) →
      exec (.ldg b f) s = .next (s.to (Dev.loaded c f n
        (rayRun (fun d r => let v := d.coreRead c (addr r) n; (v.1.bytes, v.1.poison, v.2)) d rays))) ∧
      exec (.ldv b f) s = .next (s.to (Dev.loaded c f n
        (rayRun (fun d r => let v := d.beamRead c (addr r) n; (v.1.bytes, v.1.poison, v.2)) d rays)))) ∧
    (memWidth f = some n → RayData c false f.b n → (∀ r ∈ rays, GlobalOk d c .write (addr r) n) →
      let left := rays.drop c.beam.stored
      let store := fun rays => d.globalStore c (rays.map fun r => (addr r, c.rBytes f.b.toNat r n)) (c.dataPoison f.b.toNat n)
      (d.heldStores c (left.map addr) = none →
        exec (.stg b f) s = .next (s.to (((store left).updBeam b fun m => { m with stored := 0 }).next c))) ∧
      (∀ i, d.heldStores c (left.map addr) = some i →
        exec (.stg b f) s = .next (s.to (((store (left.take i)).updBeam b fun m => { m with stored := m.stored + i }).confirmOldest c)))) ∧
    (f.mod.toNat ≤ 8 → RayDest c f.dst → (if f.mod = 8 then RayGroup c f.b 2 else RaySource c f.b) →
      (∀ r ∈ rays, GlobalOk d c .atomic (addr r) 4) →
      exec (.atomg b f) s = .next (s.to (Dev.loaded c f 4 (rayRun (fun d r => d.atomHome c f r (addr r)) d rays))))

/-- Scalar loads and stores: LDS into s[DST] (and its successor for 16 bytes), STS from s[SRC_B]; a poisoned word does not enter a scalar register. -/
def Obligations.ScalarMemory : Prop :=
  ∀ (s : State) (b : BeamRef) (f : KFields) (c : Ctx) (n : Nat), Issues s.dev b c → memWidth f = some n → ScalarSource f.a →
    let d := s.dev.noteIssue c
    let a := (c.sVal f.a.toNat + f.imm.signExtend 64).toNat
    (ScalarDest f.dst → (n = 16 → f.dst.toNat < 0xEF) → GlobalOk d c .read a n → (d.coreRead c a n).1.poison = false →
      exec (.lds b f) s = .next (s.to (((d.coreRead c a n).2.updBeam b fun m =>
        if n = 16 then (m.sWrite f.dst.toNat (BitVec.ofNat 64 (leAt (d.coreRead c a n).1.bytes 0 8))).sWrite (f.dst.toNat + 1)
          (BitVec.ofNat 64 (leAt (d.coreRead c a n).1.bytes 8 8))
        else m.sWrite f.dst.toNat (BitVec.ofNat 64 (leAt (d.coreRead c a n).1.bytes 0 (min n 8)))).next c))) ∧
    (ScalarDest f.dst → (n = 16 → f.dst.toNat < 0xEF) → GlobalOk d c .read a n → (d.coreRead c a n).1.poison = true →
      exec (.lds b f) s = .next (s.to ((d.park c (mkTrap .poison a)).updBeam b fun m => { m with debugStep := false }))) ∧
    (ScalarSource f.b → (n = 16 → f.b.toNat < 0xEF) → GlobalOk d c .write a n → d.heldStores c [a] = none →
      exec (.sts b f) s = .next (s.to ((d.globalStore c
        [(a, (leBytes 8 (c.sVal f.b.toNat).toNat ++ leBytes 8 (c.sVal (f.b.toNat + 1)).toNat).take n)] false).next c)))

/-- CPA and CPS put a copy behind the beam's outstanding ones; with sixteen outstanding they hold issue, and the beam does not trap; a length of
0 copies nothing; a completion moves the lines of its copy and frees its place, and at a 17th peer region moves those before it and waits. -/
def Obligations.AsyncCopies : Prop :=
  ∀ (s : State) (b : BeamRef) (f : KFields) (c : Ctx), Issues s.dev b c →
    let d := s.dev.noteIssue c
    let loc := (c.sVal f.dst.toNat).toNat
    let glob := c.sVal f.a.toNat
    let len := (c.sVal f.b.toNat).toNat
    (16 ≤ c.beam.copies.length → exec (.cpa b f) s = .next s ∧ exec (.cps b f) s = .next s) ∧
    (ScalarSource f.dst → ScalarSource f.a → ScalarSource f.b → c.beam.copies.length < 16 → loc % 128 = 0 → glob.toNat % 128 = 0 →
      (len = 0 → exec (.cpa b f) s = .next (s.to (d.next c)) ∧ exec (.cps b f) s = .next (s.to (d.next c))) ∧
      (len ≠ 0 → len % 128 = 0 → len ≤ 1048576 → (c.localTarget loc len).isSome = true →
        (d.copyTraps c false glob.toNat len = [] → d.localBusy c loc len true = false →
          exec (.cpa b f) s = .next (s.to ((d.updBeam b fun m =>
            { m with copies := m.copies ++ [{ toScratch := true, glob := glob, loc := loc, len := len }] }).next c))) ∧
        (d.copyTraps c true glob.toNat len = [] → d.localBusy c loc len false = false →
          exec (.cps b f) s = .next (s.to ((d.updBeam b fun m =>
            { m with copies := m.copies ++ [{ toScratch := false, glob := glob, loc := loc, len := len }] }).next c))))) ∧
    (∀ n a, c.beam.copies[n]? = some a → c.beam.fenceWait = [] → s.dev.copyReady c a = true →
      let lines := List.range (a.len / 128)
      let held := s.dev.heldStores c (lines.map fun i => a.glob.toNat + 128 * i)
      let move := fun lines => Dev.forEach lines (fun d i => d.copyLine c a i) s.dev
      (a.toScratch = true ∨ held = none →
        exec (.asyncCopyComplete b n) s = .next (s.to ((((move lines).updBeam b fun m =>
          { m with copies := m.copies.eraseIdx n }).charge s.dev).blockEnds c.launch b.block))) ∧
      (∀ i, a.toScratch = false → held = some i →
        exec (.asyncCopyComplete b n) s = .next (s.to (((((move (lines.take i)).updBeam b fun m =>
          { m with copies := m.copies.set n (a.after i) }).confirmOldest c).charge s.dev).blockEnds c.launch b.block))))

/-- PREF fetches the device-memory lines of the selected rays, and the five CCTL operations act on them, in ascending ray order; PIN, UNPIN and
PIN_RETAIN return the home's status to each ray. -/
def Obligations.CacheControlInstructions : Prop :=
  ∀ (s : State) (b : BeamRef) (f : KFields) (c : Ctx), Issues s.dev b c → MaskField f.msk → RayGroup c f.a 2 →
    CleanAddress c f (c.groupPoison f.a.toNat 2) →
    let d := s.dev.noteIssue c
    let rays := c.memRays f
    let addr := fun r => (c.globalAddr f r).toNat
    exec (.pref b f) s = .next (s.to ((Dev.forEach rays (fun d r => match d.translate c.launch.facet (addr r) with
      | .device pa cls _ => (d.access (mkReq .pref c.block.core c.launch.facet cls (pa / 128))).2
      | _ => d) d).next c)) ∧
    ((∀ r ∈ rays, d.globalTraps c .read (addr r) 1 = []) →
      exec (.cctlWriteBack b f) s = .next (s.to ((rayRun (Dev.cctlRay c f 3) d rays).2.2.next c))) ∧
    ((∀ r ∈ rays, d.globalTraps c .write (addr r) 1 = []) →
      exec (.cctlCullet b f) s = .next (s.to ((rayRun (Dev.cctlRay c f 0) d rays).2.2.next c)) ∧
      (RayDest c f.dst → ∀ p ∈ ([(.cctlPin, 1), (.cctlUnpin, 2), (.cctlPinRetain, 4)] : List ((BeamRef → KFields → Instr) × BitVec 4)),
        exec (p.1 b f) s = .next (s.to (Dev.loaded c f 4 (rayRun (Dev.cctlRay c f p.2) d rays)))))

/-! ## Matrix instructions -/

/-- An instruction of a class whose checks pass takes the last place of its queue, with the scalar operands of its issue; no fields that the
checks pass leave a tile beyond TILE_REGS, a destination quad off its boundary, an operand inside the quad, or a partial beam. -/
def Obligations.MatrixIssueAndChecks : Prop :=
  (∀ (s : State) (b : BeamRef) (f : KFields) (c : Ctx), Issues s.dev b c →
      let d := s.dev.noteIssue c
      let entry := fun (i : Instr) => QEntry.mk i b (d.core c.block.core).nextSeq (c.sVal f.a.toNat + f.imm.signExtend 64).toNat
        ((c.sVal f.b.toNat).toNat % 2 ^ 32)
      (MatrixReady d c f false →
        ∀ p ∈ ([(.mma, c.mmaTraps f false), (.mmas, c.mmaTraps f true), (.mbin, c.mbinTraps f), (.mbint, c.mbintTraps f), (.mzero, c.mzeroTraps f)] :
            List ((BeamRef → KFields → Instr) × List Trap)), p.2 = [] →
          exec (p.1 b f) s = .next (s.to ((d.updCore c.block.core fun k => { k with matQ := k.matQ ++ [entry (p.1 b f)] }).next c))) ∧
      (MatrixReady d c f true → c.moveTraps f = [] →
        ∀ make ∈ ([.mld, .mst] : List (BeamRef → KFields → Instr)),
          exec (make b f) s = .next (s.to ((d.updCore c.block.core fun k => { k with movQ := k.movQ ++ [entry (make b f)] }).next c)))) ∧
  (∀ (c : Ctx) (f : KFields),
      (c.mmaTraps f false = [] → f.a.toNat < c.launch.params.tileRegs ∧ f.b.toNat < c.launch.params.tileRegs ∧ f.dst.toNat % 4 = 0 ∧
        f.dst.toNat + 3 < c.launch.params.tileRegs ∧ (f.a.toNat < f.dst.toNat ∨ f.dst.toNat + 4 ≤ f.a.toNat) ∧
        (f.b.toNat < f.dst.toNat ∨ f.dst.toNat + 4 ≤ f.b.toNat) ∧ f.mod.toNat < 13 ∧ c.beam.path = ~~~ c.beam.exited) ∧
      (c.beam.path ≠ ~~~ c.beam.exited → f.msk = 0 → coreIsVector c.block.core = false → ∀ l : List Trap,
        (∀ t ∈ l, 0x0B ≤ t.cause.code) → lowestTrap (c.classTraps f ++ l) = some (mkTrap .partialBeamMatrix 0)))

/-- The head of a matrix core's compute or move queue, once the accesses that it waits for are done, commits, leaves its queue, and
adds its beats to its row's counter (the model's choice of what that counter counts: log 63). -/
def Obligations.MatrixCompletion : Prop :=
  ∀ (s : State) (core : Nat) (move : Bool) (e : QEntry) (rest : List QEntry), s.dev.strikes = Strikes.none →
    (if move then (s.dev.core core).movQ else (s.dev.core core).matQ) = e :: rest →
    (∀ w ∈ (s.dev.core core).entries, e.waitsFor w = false) →
    exec (.matrixInstructionComplete core move false []) s =
      .next (s.to (((s.dev.matrixCommit e []).updCore core fun k => if move then { k with movQ := rest } else { k with matQ := rest }).countBeats
        core e.instr))

/-- One output of MMA and MMAS over two or four groups: each group's 32 products are summed exactly and added to the accumulator in ascending
order, each addition rounded once; a scale of 0xFF makes its products NaN. MZERO of one tile leaves 128 clean rows of
zeros in it and every other tile's rows as they were. -/
def Obligations.MatrixResults : Prop :=
  (∀ (b : Block) (m : MFormat) (sparse : Bool) (f : KFields) (i j : Nat),
      let acc : BitVec 32 := if f.imm.getLsbD 18 then b.quadWord f.dst.toNat i j else 0
      let group := fun g => FpVal.sum ((b.terms sparse f.a.toNat i g).map (b.product m f i j))
      let two := toF32 ((f32 (toF32 ((f32 acc).add (group 0)))).add (group 1))
      (m.int = false → m.groups sparse = 2 → b.mmaOut m sparse f i j = two) ∧
      (m.int = false → m.groups sparse = 4 →
        b.mmaOut m sparse f i j = toF32 ((f32 (toF32 ((f32 two).add (group 2)))).add (group 3))) ∧
      (∀ kp, m.mx = true → b.scale (immAsc f) (immASlot f) i kp.1 = 0xFF → b.product m f i j kp = .nan) ∧
      (∀ g, sparse = false → (b.terms sparse f.a.toNat i g).map Prod.fst = (List.range 32).map (32 * g + ·))) ∧
  (∀ (k : Block) (b : BeamRef) (f : KFields), f.imm.getLsbD 0 = false →
      let t := k.matrixExec (.mzero b f) []
      (∀ r < 128, t.tileRow f.dst.toNat r = List.replicate 128 0 ∧ t.rowPoison f.dst.toNat r = false) ∧
      (∀ n r, n ≠ f.dst.toNat → r < 128 → t.tileRow n r = k.tileRow n r ∧ t.rowPoison n r = k.rowPoison n r))

/-! ## Vector instructions -/

/-- An instruction of the vector engine or of the sort/select unit whose checks pass takes the last place of its queue, and its beam waits for it. -/
def Obligations.VectorIssue : Prop :=
  ∀ (s : State) (b : BeamRef) (f : KFields) (c : Ctx), Issues s.dev b c → s.dev.vectorGated c.block.core = false →
    let d := s.dev.noteIssue c
    let entry := fun (i : Instr) => QEntry.mk i b (d.core c.block.core).nextSeq 0 0
    let wait := fun (e : Dev) => e.updBeam b fun m => { m with passOut := true }
    (∀ make ∈ ([.vaddF, .vsubF, .vmulF, .vfmaF, .vminF, .vmaxF, .vdivF, .vsqrtF, .vexp2F, .vlog2F, .vrsqF, .vaddD, .vsubD, .vmulD, .vfmaD,
        .vminD, .vmaxD, .vdivD, .vsqrtD, .vaddI, .vsubI, .vmulI, .vminI, .vmaxI, .vminu, .vmaxu, .vand, .vor, .vxor, .vshl, .vshr, .vsra,
        .vpopc, .vclz, .vdot4I, .vmov, .vsel, .vcvt, .vmxscale, .vred, .vcmpF, .vcmpD, .vcmpI, .vcmpU, .vcmpkF, .vcmpkD, .vcmpkI,
        .vcmpkU] : List (BeamRef → KFields → Instr)),
      ∀ k, vkind (make b f) = some k → c.vTraps k f = [] → c.vConsumes (make b f) k f = [] →
        exec (make b f) s = .next (s.to (wait (d.updCore c.block.core fun q => { q with vecQ := q.vecQ ++ [entry (make b f)] })))) ∧
    ((d.core c.block.core).sortQ.length < 4 →
      ∀ p ∈ ([(.ssort, c.sortTraps f ++ c.groupTraps f.dst.toNat (regs64 c.len64)), (.smerge, c.mergeTraps f),
          (.scompact, c.sortTraps f ++ c.groupTraps f.dst.toNat (regs64 c.len64) ++ trapIf (decide (48 ≤ f.imm.toNat % 64)) illegal)] :
          List ((BeamRef → KFields → Instr) × List Trap)), p.2 = [] →
        exec (p.1 b f) s = .next (s.to (wait (d.updCore c.block.core fun q => { q with sortQ := q.sortQ ++ [entry (p.1 b f)] }))))

/-- The elements that the arithmetic passes, comparisons and conversions write: each active element receives its function of the operands'
elements, and every other element, register and byte is as it was. A comparison into a mask and a reduction whose chunk is poisoned park the
beam with POISON instead. -/
def Obligations.VectorCompute : Prop :=
  (∀ (s : State) (core : Nat) (b : BeamRef) (f : KFields) (c : Ctx) (rest : List QEntry),
      let done := fun (w : Dev → Dev) => Host.Outcome.next (s.to (s.dev.passDone core false b rest w))
      (∀ p ∈ ([(.vaddF, true, true, true, false, fun x y _ => toF32 ((f32 x).add (f32 y))),
          (.vsubF, true, true, true, false, fun x y _ => toF32 ((f32 x).add (f32 y).neg)),
          (.vmulF, true, true, true, false, fun x y _ => toF32 ((f32 x).mul (f32 y))),
          (.vfmaF, true, true, true, true, fun x y z => toF32 (((f32 x).mul (f32 y)).add (f32 z))),
          (.vminF, true, true, true, false, fun x y _ => f32Min x y), (.vmaxF, true, true, true, false, fun x y _ => f32Max x y),
          (.vdivF, true, true, true, false, fun x y _ => toF32 ((f32 x).div (f32 y))),
          (.vsqrtF, true, true, false, false, fun x _ _ => toF32 (f32 x).sqrt), (.vexp2F, true, true, false, false, fun x _ _ => f32Exp2 x),
          (.vlog2F, true, true, false, false, fun x _ _ => f32Log2 x), (.vrsqF, true, true, false, false, fun x _ _ => f32Rsq x),
          (.vaddI, false, true, true, false, fun x y _ => x + y), (.vsubI, false, true, true, false, fun x y _ => x - y),
          (.vmulI, false, true, true, false, fun x y _ => BitVec.ofNat 32 (x.toNat * y.toNat)),
          (.vminI, false, true, true, false, fun x y _ => if x.toInt ≤ y.toInt then x else y),
          (.vmaxI, false, true, true, false, fun x y _ => if x.toInt ≤ y.toInt then y else x),
          (.vminu, false, true, true, false, fun x y _ => if x.toNat ≤ y.toNat then x else y),
          (.vmaxu, false, true, true, false, fun x y _ => if x.toNat ≤ y.toNat then y else x),
          (.vand, false, true, true, false, fun x y _ => x &&& y), (.vor, false, true, true, false, fun x y _ => x ||| y),
          (.vxor, false, true, true, false, fun x y _ => x ^^^ y), (.vshl, false, true, true, false, fun x y _ => x <<< (y.toNat % 32)),
          (.vshr, false, true, true, false, fun x y _ => x >>> (y.toNat % 32)),
          (.vsra, false, true, true, false, fun x y _ => x.sshiftRight (y.toNat % 32)),
          (.vpopc, false, true, false, false, fun x _ _ => BitVec.ofNat 32 ((List.range 32).filter fun i => x.getLsbD i).length),
          (.vclz, false, true, false, false, fun x _ _ => BitVec.ofNat 32 (clz32 x)), (.vdot4I, false, true, true, true, dot4),
          (.vmov, false, false, true, false, fun _ y _ => y), (.vsel, false, true, true, true, fun x y z => if z = 0 then y else x)] :
          List ((BeamRef → KFields → Instr) × Bool × Bool × Bool × Bool × (BitVec 32 → BitVec 32 → BitVec 32 → BitVec 32))),
        PassHead s.dev core false (p.1 b f) b c rest →
          exec (.vectorPassComplete core false false []) s = done fun d => d.writeWords b (c.opD f) ((c.active f.msk c.beam.vl).map fun e =>
            ⟨e, BitVec.allOnes 32, p.2.2.2.2.2 (c.word (c.opA f) e) (c.word (c.opB p.2.1 f) e) (c.word (c.opD f) e),
              c.wordMark f p.2.1 p.2.2.1 p.2.2.2.1 p.2.2.2.2.1 e⟩)) ∧
      (∀ p ∈ ([(.vaddD, true, false, fun x y _ => toF64 ((f64 x).add (f64 y))), (.vsubD, true, false, fun x y _ => toF64 ((f64 x).add (f64 y).neg)),
          (.vmulD, true, false, fun x y _ => toF64 ((f64 x).mul (f64 y))),
          (.vfmaD, true, true, fun x y z => toF64 (((f64 x).mul (f64 y)).add (f64 z))), (.vminD, true, false, fun x y _ => f64Min x y),
          (.vmaxD, true, false, fun x y _ => f64Max x y), (.vdivD, true, false, fun x y _ => toF64 ((f64 x).div (f64 y))),
          (.vsqrtD, false, false, fun x _ _ => toF64 (f64 x).sqrt)] :
          List ((BeamRef → KFields → Instr) × Bool × Bool × (BitVec 64 → BitVec 64 → BitVec 64 → BitVec 64))),
        PassHead s.dev core false (p.1 b f) b c rest →
          exec (.vectorPassComplete core false false []) s = done fun d => d.writeWords b (c.opD f) (((c.active f.msk (min c.beam.vl 128)).map fun e =>
            packedWrite 64 e (p.2.2.2 (c.dword (.group f.a.toNat) e) (c.dword (c.opB false f) e) (c.dword (.group f.dst.toNat) e)).toNat
              (c.dwordMark f true p.2.1 p.2.2.1 e)).flatten))) ∧
  (∀ (s : State) (core : Nat) (b : BeamRef) (f : KFields) (c : Ctx) (rest : List QEntry),
      let done := fun (w : Dev → Dev) => Host.Outcome.next (s.to (s.dev.passDone core false b rest w))
      let code := f.imm.toNat % 8
      let lane := fun r => 32 * (f.imm.toNat / 8 % 8) + r
      let x := fun e => c.word (c.opA f) e
      let y := fun e => c.word (c.opB false f) e
      let u := fun e => c.dword (.group f.a.toNat) e
      let v := fun e => c.dword (c.opB false f) e
      let act := c.active f.msk c.beam.vl
      let act64 := c.active f.msk (min c.beam.vl 128)
      let order := fun (a b : Int) => if a < b then some Ordering.lt else if a = b then some Ordering.eq else some Ordering.gt
      let taken := fun (i : Instr) => ∀ k, vkind i = some k → tileA f = true → c.consumesA k f = false
      let set := fun (es : List Nat) (o : Nat → Option Ordering) (m : Beam) => m.kSet f.dst.toNat
        (BitVec.ofNat 32 ((List.range 32).map fun r => if lane r ∈ es ∧ condition code (o (lane r)) = true then 2 ^ r else 0).sum)
      (∀ p ∈ ([(.vcmpF, fun e => fpOrder (f32 (x e)) (f32 (y e))), (.vcmpI, fun e => order (x e).toInt (y e).toInt),
          (.vcmpU, fun e => order (x e).toNat (y e).toNat)] : List ((BeamRef → KFields → Instr) × (Nat → Option Ordering))),
        PassHead s.dev core false (p.1 b f) b c rest →
          exec (.vectorPassComplete core false false []) s = done fun d => d.writeWords b (c.opD f) (act.map fun e =>
            ⟨e, BitVec.allOnes 32, if condition code (p.2 e) = true then BitVec.allOnes 32 else 0, c.wordMark f false true true false e⟩)) ∧
      (PassHead s.dev core false (.vcmpD b f) b c rest →
        exec (.vectorPassComplete core false false []) s = done fun d => d.writeWords b (c.opD f) ((act64.map fun e =>
          packedWrite 64 e (if condition code (fpOrder (f64 (u e)) (f64 (v e))) = true then 2 ^ 64 - 1 else 0)
            (c.dwordMark f true true false e)).flatten)) ∧
      (∀ p ∈ ([(.vcmpkF, fun e => fpOrder (f32 (x e)) (f32 (y e))), (.vcmpkI, fun e => order (x e).toInt (y e).toInt),
          (.vcmpkU, fun e => order (x e).toNat (y e).toNat)] : List ((BeamRef → KFields → Instr) × (Nat → Option Ordering))),
        PassHead s.dev core false (p.1 b f) b c rest → taken (p.1 b f) →
          exec (.vectorPassComplete core false false []) s = done fun d => d.updBeam b (set act p.2)) ∧
      (PassHead s.dev core false (.vcmpkD b f) b c rest → taken (.vcmpkD b f) →
        exec (.vectorPassComplete core false false []) s = done fun d => d.updBeam b (set act64 fun e => fpOrder (f64 (u e)) (f64 (v e)))) ∧
      (PassHead s.dev core false (.vcvt b f) b c rest →
        exec (.vectorPassComplete core false false []) s = done fun d => d.writeWords b (c.opD f) (c.cvtWrites f)) ∧
      (PassHead s.dev core false (.vmxscale b f) b c rest →
        exec (.vectorPassComplete core false false []) s = done fun d => d.writeWords b (c.opD f) (c.mxscaleWrites f)) ∧
      (PassHead s.dev core false (.vred b f) b c rest → taken (.vred b f) →
        exec (.vectorPassComplete core false false []) s = done fun d => d.updBeam b fun m => m.sWrite f.dst.toNat (c.redValue f)) ∧
      (∀ make ∈ ([.vcmpkF, .vcmpkD, .vcmpkI, .vcmpkU, .vred] : List (BeamRef → KFields → Instr)), ∀ k,
        PassHead s.dev core false (make b f) b c rest → vkind (make b f) = some k → tileA f = true → c.consumesA k f = true →
          exec (.vectorPassComplete core false false []) s =
            .next (s.to ((s.dev.updCore core fun k => { k with vecQ := rest }).park c (poisonReg 1 f.a.toNat)))))

/-- The integer reductions over the active elements, whatever the tree. Sorting gives the entries in ascending order and no others, each as
often as before; a merge into a list that ascends leaves the smallest entries in order, and the largest kept one behind them. -/
def Obligations.ReductionsAndSorting : Prop :=
  (∀ (c : Ctx) (f : KFields), c.beam.vl ≤ 256 →
      let es := (c.active f.msk c.beam.vl).map fun e => c.word (c.opA f) e
      let low := (c.redValue f).setWidth 32
      (f.imm.toNat % 8 = 2 → low = es.foldl (· + ·) 0) ∧
      (f.imm.toNat % 8 = 5 → (low ∈ es ∨ es = []) ∧ (∀ x ∈ es, (low : BitVec 32).toInt ≤ x.toInt) ∧ (es = [] → low = 0x7FFFFFFF)) ∧
      (f.imm.toNat % 8 = 6 → (low ∈ es ∨ es = []) ∧ (∀ x ∈ es, x.toInt ≤ (low : BitVec 32).toInt) ∧ (es = [] → low = 0x80000000)) ∧
      (es = [] → f.imm.toNat % 8 = 0 → c.redValue f = 0) ∧
      ((∃ x, es = [x]) → f.imm.toNat % 8 = 0 → es = [low])) ∧
  ((∀ l : List Nat, (ascending l).Pairwise (· ≤ ·) ∧ (ascending l).Perm l) ∧
    (∀ (d : Dev) (c : Ctx) (f : KFields),
        let k := c.mergeK f
        let r := d.localRead c (c.mergeAddr f) (8 * k)
        let list := (List.range k).map fun i => leAt r.1 (8 * i) 8
        let kept := (ascending (list ++ c.sortEntries f)).take k
        isAscending list = true →
          d.mergeCommit c f false = r.2.2.localStore c [(c.mergeAddr f, ((kept ++ [kept.getLast?.getD (2 ^ 64 - 1)]).map (leBytes 8)).flatten)]
            (r.2.1 || c.sortPoison f)))

/-- The sort/select unit's commits over the active 64-bit entries. -/
def Obligations.SortSelect : Prop :=
  ∀ (s : State) (core : Nat) (b : BeamRef) (f : KFields) (c : Ctx) (rest : List QEntry),
    let done := fun (w : Dev → Dev) => Host.Outcome.next (s.to (s.dev.passDone core true b rest w))
    let es := c.sortEntries f
    (PassHead s.dev core true (.ssort b f) b c rest → es ≠ [] →
      exec (.vectorPassComplete core true false []) s = done fun d => d.writeWords b (.group f.dst.toNat)
        (entryWrites (ascending es ++ List.replicate (min c.beam.vl 128 - es.length) (2 ^ 64 - 1)) (c.sortPoison f) [])) ∧
    (PassHead s.dev core true (.smerge b f) b c rest → s.dev.mergeHeld c (.smerge b f) = false → es ≠ [] →
      exec (.vectorPassComplete core true false []) s = done fun d => d.mergeCommit c f false) ∧
    (PassHead s.dev core true (.scompact b f) b c rest → es ≠ [] →
      exec (.vectorPassComplete core true false []) s = done fun d => (d.writeWords b (.group f.dst.toNat) (entryWrites es false
        ((List.range es.length).filter fun n => ((c.active f.msk (min c.beam.vl 128)).map fun e => c.dwordPoison (.group f.a.toNat) e).getD n false))).updBeam
          b fun m => m.sSet (f.imm.toNat % 64) (BitVec.ofNat 64 es.length)) ∧
    (∀ make ∈ ([.ssort, .smerge, .scompact] : List (BeamRef → KFields → Instr)), PassHead s.dev core true (make b f) b c rest →
      s.dev.mergeHeld c (make b f) = false → es = [] →
      exec (.vectorPassComplete core true false []) s = done id)

/-- VLDL and VSTL: active elements between consecutive local words and a register group. -/
def Obligations.VectorLoadsAndStores : Prop :=
  ∀ (s : State) (b : BeamRef) (f : KFields) (c : Ctx), Issues s.dev b c → s.dev.vectorGated c.block.core = false →
    let d := s.dev.noteIssue c
    let n := if f.mod.toNat % 4 = 1 then 8 else 4
    let act := c.active f.msk c.beam.vl
    let addr := fun e => (c.sVal f.a.toNat + BitVec.ofNat 64 (f.imm.toNat % 65536 + n * e)).toNat
    let bytes := fun e => if n = 8 then leBytes 8 (c.dword (.group f.b.toNat) e).toNat else leBytes 4 (c.word (.group f.b.toNat) e).toNat
    let bad := fun e => if n = 8 then c.dwordPoison (.group f.b.toNat) e else c.wordPoison (.group f.b.toNat) e
    (c.vlTraps f f.dst.toNat = [] → (∀ e ∈ act, d.localBusy c (addr e) n false = false) →
      exec (.vldl b f) s = .next (s.to ((d.writeWords b (.group f.dst.toNat) ((act.map fun e =>
        let r := d.localRead c (addr e) n
        if n = 8 then packedWrite 64 e (leNat r.1) r.2.1 else [⟨e, BitVec.allOnes 32, BitVec.ofNat 32 (leNat r.1), r.2.1⟩]).flatten)).next c))) ∧
    (c.vlTraps f f.b.toNat = [] → (∀ e ∈ act, d.localBusy c (addr e) n true = false) →
      exec (.vstl b f) s = .next (s.to (((d.localStore c ((act.filter fun e => !bad e).map fun e => (addr e, bytes e)) false).localStore c
        ((act.filter bad).map fun e => (addr e, bytes e)) true).next c)))

/-- The mask instructions; mask 0 as a source is PMASK, exited rays are in no mask that is read, no instruction writes mask 0, and none has
chunks. -/
def Obligations.MaskInstructions : Prop :=
  ∀ (s : State) (b : BeamRef) (f : KFields) (c : Ctx), Issues s.dev b c →
    let d := s.dev.noteIssue c
    let k := fun (n : BitVec 8) => (if n = 0 then c.beam.path else c.beam.kGet n.toNat) &&& ~~~ c.beam.exited
    let trapped := Host.Outcome.next (s.to ((d.park c illegal).updBeam b fun m => { m with debugStep := false }))
    let put := fun (v : BitVec 32) => Host.Outcome.next (s.to ((d.updBeam b fun m => m.kSet f.dst.toNat v).next c))
    let puts := fun (v : BitVec 64) => Host.Outcome.next (s.to ((d.updBeam b fun m => m.sWrite f.dst.toNat v).next c))
    (f.mod.toNat < 4 → 1 ≤ f.dst.toNat → f.dst.toNat ≤ 7 → f.a.toNat ≤ 7 →
      (f.b.toNat ≤ 7 → exec (.kand b f) s = put (k f.a &&& k f.b) ∧ exec (.kor b f) s = put (k f.a ||| k f.b) ∧
        exec (.kxor b f) s = put (k f.a ^^^ k f.b)) ∧
      exec (.knot b f) s = put (~~~ k f.a)) ∧
    (f.mod.toNat < 4 → 1 ≤ f.dst.toNat → f.dst.toNat ≤ 7 → ScalarSource f.a → exec (.kmov b f) s = put ((c.sVal f.a.toNat).setWidth 32)) ∧
    (f.mod.toNat < 4 → ScalarDest f.dst → f.a.toNat ≤ 7 → exec (.ktos b f) s = puts ((k f.a).setWidth 64) ∧
      exec (.kpopc b f) s = puts (BitVec.ofNat 64 ((List.range 32).filter fun i => (k f.a).getLsbD i).length)) ∧
    (f.dst.toNat = 0 ∨ 8 ≤ f.dst.toNat → ∀ make ∈ ([.kand, .kor, .kxor, .knot, .kmov] : List (BeamRef → KFields → Instr)),
      exec (make b f) s = trapped) ∧
    (4 ≤ f.mod.toNat → ∀ make ∈ ([.kand, .kor, .kxor, .knot, .kmov, .ktos, .kpopc] : List (BeamRef → KFields → Instr)),
      exec (make b f) s = trapped)

/-! ## Launches -/

/-- LAUNCH, REPLAY and ABORT as records whose own checks pass: the launch joins the launches that wait; the named parked beams resume; the
named launch ends with ABORTED. A replayed beam runs again at its instruction, after a TRAP at the next one, or sleeps on at a barrier that
is not released; every other beam stays as it is. -/
def Obligations.LaunchCommands : Prop :=
  (∀ (s : State) (f w : Nat) (c : Cmd),
      let d := s.dev.recordTaken f w c
      (RecordWaits s.dev f w 1 c →
        let r := d.gread f (leAt c.args 0 8) 64
        let p := launchParams r.1.bytes
        leAt c.args 0 8 % 64 = 0 → r.1.ok = true → r.1.poison = false → leAt r.1.bytes 0 1 = 1 → r.2.launchRefusal f p = none →
        exec (.launch f w) s = .next (s.to (Dev.countF { r.2 with
          launches := r.2.launches ++ [⟨r.2.nextLaunch, f, c.serial, c.cls, p, 0, 0, 0, false, false, r.2.nextAccept, 0⟩],
          nextLaunch := r.2.nextLaunch + 1, nextAccept := r.2.nextAccept + 1 } f 0x606000 1))) ∧
      (RecordWaits s.dev f w 2 c → ∀ (t : Cmd) (l : Launch), (d.facet f).target c 1 = some t →
        d.launches.find? (fun l => decide (l.facet = f) && decide (l.cmd = t.serial)) = some l → (leAt c.args 3 1).testBit 0 = false →
        let go := fun (k : Block) => k.replay none (d.barrierGone l k)
        exec (.replay f w) s = .next (s.to ((Dev.countF { d with
            blocks := updAll (fun k => decide (k.launch = l.id)) (fun k => (go k).1) d.blocks,
            saved := updAll (fun v => decide (v.block.launch = l.id)) (fun v => { v with block := (go v.block).1 }) d.saved }
          f 0x606000 1).endCmd f c.serial 0 (((d.blocks.filter fun k => decide (k.launch = l.id)).map fun k => (go k).2).sum +
            ((d.saved.filter fun v => decide (v.block.launch = l.id)).map fun v => (go v.block).2).sum)))) ∧
      (RecordWaits s.dev f w 3 c → ∀ (t : Cmd) (l : Launch), (d.facet f).target c 1 = some t →
        d.launches.find? (fun l => decide (l.facet = f) && decide (l.cmd = t.serial)) = some l →
        exec (.abort f w) s = .next (s.to (((d.endLaunch l.id 0x163).countF f 0x606000 1).endCmd f c.serial 0 0)))) ∧
  (∀ (m : Beam) (gone : BarrierRef → Bool),
      (∀ why ∈ ([.pageFault, .poison, .watchdog, .debugHalt] : List Cause), m.status = .parked why →
        (m.parkedOn = none → m.resume gone = { m with status := .running }) ∧
        (∀ r, m.parkedOn = some r → m.resume gone = { m with status := if gone r then .running else .sleeping r, parkedOn := none })) ∧
      (m.status = .parked .software → m.parkedOn = none → m.resume gone = { m with status := .running, pc := m.pc + 1 }) ∧
      (∀ why ∈ ([.illegal, .regRange, .misaligned, .scratchRange, .protection, .maskStackOverflow, .callStack, .barrierMismatch,
          .partialBeamMatrix] : List Cause), m.status = .parked why → m.resume gone = m) ∧
      ((∀ why, m.status ≠ .parked why) → m.resume gone = m))

/-- BLOCK_PLACE puts a launch's next cluster on its cores; a cluster whose blocks are all saved is restored as a unit; each block starts at instruction 0, VL 32, on a path
of its rays, with zero registers where its core was zeroed for it. -/
def Obligations.BlocksArePlaced : Prop :=
  (∀ (s : State) (launch : Nat) (cores : List Nat) (l : Launch) (e : Dev), s.dev.launch? launch = some l → s.dev.launchRuns l = true →
    l.nextBlock < l.params.gridBlocks → cores.length = l.params.cluster → oneRow cores = true → s.dev.gafferServes = true →
    s.dev.awakeFirst l cores = true → s.dev.mayPlace (.fresh l) l.params.vector cores = true →
    ((List.range cores.length).zip cores).foldl (fun (acc : Option Dev) e => acc.bind fun d => d.placeBlock l (l.nextBlock + e.1) e.2)
      (some s.dev) = some e →
    let h := e.readHeader l
    exec (.blockPlace launch cores) s = .next (s.to ((if l.nextBlock = 0 then h.passOver l.params.vector l.accepted else h).updLaunch launch
      fun l => { l with nextBlock := l.nextBlock + l.params.cluster }))) ∧
  (∀ (s : State) (launch cluster : Nat) (cores : List Nat) (l : Launch) (e : Dev), s.dev.launch? launch = some l →
    let vs := sortBy (fun a b => decide (a.block.index ≤ b.block.index)) (s.dev.savedOf l cluster)
    s.dev.wholeSaved l cluster = true → vs.length = cores.length → oneRow cores = true → s.dev.launchRuns l = true →
    s.dev.gafferServes = true → s.dev.awakeFirst l cores = true → s.dev.mayPlace (.saved l cluster) l.params.vector cores = true →
    (vs.zip cores).foldl (fun (acc : Option Dev) e => acc.bind fun d => d.restoreBlock l e.1 e.2) (some s.dev) = some e →
    exec (.blockRestore launch cluster cores) s =
      .next (s.to (((e.passOver l.params.vector l.accepted).clusterPhase l cluster).haltsDue l cluster))) ∧
  (∀ (l : Launch) (index core scratch : Nat) (slots : List Nat) (zeroed : Bool) (draw i : Nat) (m : Beam),
    (startBlock l index core scratch slots zeroed draw).beams.length = (l.params.rays + 31) / 32 ∧
    ((startBlock l index core scratch slots zeroed draw).beams[i]? = some m →
      m.pc = 0 ∧ m.vl = 32 ∧ m.stack = [] ∧ m.calls = [] ∧ m.status = .running ∧ m.gPoison = [] ∧ m.exited = ~~~ m.path ∧
      (∀ r < 32, m.path.getLsbD r = decide (32 * i + r < l.params.rays)) ∧
      (zeroed = true → ∀ n r, m.sGet n = 0 ∧ m.kGet n = 0 ∧ m.gGet n r = 0)))

/-- Switching: a request that pre-emption selects stops the beams of its cores, and counts for the facets that lose them; the time-out marks them
late; a block whose beams have stopped, or that is late, is saved, and a lehr that waits for the cores starts with the last; a core's request ends
with its last block, and its split stays while a block of it is left. -/
def Obligations.Switching : Prop :=
  ∀ (s : State) (cores : List Nat),
    let d := s.dev
    let set := NSet.addAll [] cores
    let stand := fun (e : Dev) => Dev.forEach (set.filter fun c => !(e.blocksOn c).isEmpty) (fun e c =>
      e.updCore c fun k => { k with switchReq := true }) e
    (set ≠ [] → (∃ f ∈ d.facetsThere, d.freezeCores f = set) → exec (.switchRequest cores) s = .next (s.to (stand d))) ∧
    (set ≠ [] → (∀ f ∈ d.facetsThere, d.freezeCores f ≠ set) → (∃ v ∈ d.waiting false ++ d.waiting true, d.preemptFor v = some (set, [])) →
      (∀ v ∈ d.waiting false ++ d.waiting true, ∀ p, d.preemptFor v = some p → p.1 = set → p.2 = []) →
      exec (.switchRequest cores) s = .next (s.to (stand (Dev.forEach set (fun e c =>
        e.countF (((e.blocksOn c).head?.map Block.facet).getD 0) 0x605038 1) d)))) ∧
    exec (.switchTimeout cores) s = .next (s.to (Dev.forEach cores (fun e c => e.updCore c fun k => { k with switchLate := k.switchReq }) d)) ∧
    (∀ (launch block : Nat) (k : Block), d.strikes = Strikes.none → d.block? launch block = some k → (d.core k.core).switchReq = true →
      (k.stopped = true ∨ (d.core k.core).switchLate = true) →
      exec (.blockSave launch block) s = .next (s.to ((d.saveBlock launch block (!k.stopped) (d.facet k.facet).freezing).charge d).lehrReady)) ∧
    (∀ e : Dev, (e.lehr.starting = none → e.lehrReady = e) ∧
      (∀ fn, e.lehr.starting = some fn → e.lehrReady = if e.lehrFree = true then e.lehrTakes.mbxFinish fn 0 [] else e)) ∧
    (∀ (k : Core) (left : List Block),
      (left = [] → k.blocksLeft left = { k with splitBy := none, switchReq := false, switchLate := false }) ∧
      (left ≠ [] → (k.blocksLeft left).switchReq = k.switchReq ∧ (k.blocksLeft left).split = k.split ∧
        ((k.blocksLeft left).splitBy = none ↔ k.splitBy = none)))

/-! ## Coherence -/

/-- The requests that agents send: an L1's is noted until its completion and goes to the line's home; other agents' go there with their class; one
that is still on its way goes on. -/
def Obligations.CoherenceRequests : Prop :=
  ∀ (s : State) (agent line : Nat),
    let d := s.dev
    let k := d.core agent
    let out := fun r => Host.Outcome.next (s.to (d.request r))
    (∀ p ∈ ([(.rdS, .rdS agent line), (.rdU, .rdU agent line), (.own, .own agent line), (.upg, .upg agent line)] : List (ReqKind × Instr)),
      (line, p.1) ∈ k.reqs → exec p.2 s = .next (s.to (d.takeReq agent line))) ∧
    (coreValid agent = true → d.lineExists line = true → shareSets k.split ≠ 0 → k.gated = false → (∀ q ∈ k.reqs, q.1 ≠ line) →
      let send := fun (kind : ReqKind) => Host.Outcome.next (s.to ((d.updCore agent fun k => { k with reqs := k.reqs ++ [(line, kind)] }).request
        (mkReq kind agent (d.workFacet agent) (d.lineClass (d.workFacet agent) line) line)))
      (k.l1? line = none → exec (.rdS agent line) s = send .rdS ∧ exec (.rdU agent line) s = send .rdU ∧ exec (.own agent line) s = send .own) ∧
      (∀ l, k.l1? line = some l → l.state = .shared → exec (.upg agent line) s = send .upg)) ∧
    (agentValid agent = true → d.lineExists line = true → (∀ m ∈ d.net, ∀ r, m.req = some r → r.agent = agent → r.line ≠ line) →
      exec (.rdNc agent line) s = out (d.agentReq .rdNc agent line) ∧ exec (.prefRequest agent line) s = out (d.agentReq .pref agent line) ∧
      (∀ bytes poison, bytes ≠ [] → (∀ e ∈ bytes, e.1 < 128) →
        exec (.wrNc agent line bytes poison) s = out { d.agentReq .wrNc agent line with bytes := bytes, poison := poison }) ∧
      (∀ off op x y, off < 32 → op.toNat ≤ 8 → exec (.atom agent (128 * line + 4 * off) op x y) s =
        out { d.agentReq .atom agent line with bytes := [(4 * off, 0)], op := op, x := x, y := y }) ∧
      (∀ facet op, op.toNat ≤ 4 → exec (.cctl agent facet line op) s = out { d.agentReq .cctl agent line with facet := facet, op := op }))

/-- What the home grants on a request whose snoops are answered: a shared copy, or an exclusive one where no core has a copy; ownership with or
without data; data alone; and after a whole write or an atomic operation no core has a copy. The completion stands at the line's home slice, on
the completion channel. -/
def Obligations.HomeGrants : Prop :=
  ∀ (d : Dev) (r : Request) (cap : Nat) (data : List Byte),
    let line := r.line
    let grants := fun (e : Dev) (kind : MsgKind) (data : List Byte) => d.perform r cap data = e.complete kind r data false 0
    (r.kind = .rdS → d.dirCopies line = [] → grants (d.grantOwner line r.agent) .cmpE data) ∧
    (r.kind = .rdS → d.dirCopies line ≠ [] → grants (d.grantSharer line r.agent) .cmpS data) ∧
    (r.kind = .rdU → grants (d.grantOwner line r.agent) .cmpM data) ∧
    (r.kind = .own → d.perform r cap data = (d.grantOwner line r.agent).complete .cmpOwn r [] false 0) ∧
    (r.kind = .upg → d.isSharer r = true → d.perform r cap data = (d.grantOwner line r.agent).complete .cmpOwn r [] false 0) ∧
    (r.kind = .upg → d.isSharer r = false → grants (d.grantOwner line r.agent) .cmpM data) ∧
    (r.kind = .rdNc → grants d .cmpNc data) ∧
    ((r.kind = .wrNc ∨ r.kind = .atom) → (d.perform r cap data).dirCopies line = []) ∧
    ((d.grantOwner line r.agent).dirCopies line = [r.agent]) ∧
    (∀ x, ∃ m : Msg, (d.complete .cmpNc r data x 0).net = d.net ++ [m] ∧ m.kind = .cmpNc ∧ m.agent = r.agent ∧ m.line = line ∧ m.data = data ∧
      m.poison = x ∧ m.status = 0 ∧ m.tag = r.tag ∧ m.arrived = false ∧ m.node = 96 + d.homeBase line ∧ m.input = 12 + d.homeSlice line % 24 ∧
      m.vc = 4)

/-- A snoop that no grant delays: the L1 without the line acknowledges; with it, it gives up or downgrades its copy, which keeps its place in the
order of use, and sends modified data back; while the completion of the core's own request is on its way, the snoop waits. A completion installs
the line, or answers what was asked, and ends the request. -/
def Obligations.SnoopsAndCompletions : Prop :=
  ∀ (s : State) (core line : Nat) (m : Msg) (e : Dev),
    let k := e.core core
    let arrives := fun (kind : MsgKind) => s.dev.takeMsg kind core line = (some m, e)
    let install := fun (state : L1State) (data : List Byte) (e : Dev) => Host.Outcome.next (s.to (e.updCore core fun k =>
      { k.l1Put ⟨line, state, data⟩ with reqs := eraseFirst (fun q => decide (q.1 = line)) k.reqs,
                                         heldSnoops := k.heldSnoops.filter fun h => decide (h.1 ≠ line) }))
    (∀ p ∈ ([(.snpInv, 0, .snpInv core line), (.snpDown, 1, .snpDown core line), (.snpDrop, 2, .snpDrop core line)] :
        List (MsgKind × Nat × Instr)), arrives p.1 →
      ((∀ q ∈ k.reqs, q.1 ≠ line) ∨ e.grantComing core line = false →
        (k.l1? line = none → exec p.2.2 s = .next (s.to (e.post (mkMsg .rspAck core line)))) ∧
        (∀ l, k.l1? line = some l →
          let gone := if p.1 = .snpDown then e.updCore core fun k => k.l1Set line fun l => { l with state := .shared }
            else e.updCore core fun k => k.l1Drop line
          exec p.2.2 s = .next (s.to (gone.post (if l.state = .modified ∧ p.1 ≠ .snpDrop then { mkMsg .rspData core line with data := l.data }
            else mkMsg .rspAck core line))))) ∧
      ((∃ q ∈ k.reqs, q.1 = line) → e.grantComing core line = true →
        exec p.2.2 s = .next (s.to (e.updCore core fun k => { k with heldSnoops := k.heldSnoops ++ [(line, p.2.1)] })))) ∧
    ((∀ h ∈ k.heldSnoops, h.1 ≠ line) →
      (∀ p ∈ ([(.cmpS, .shared, .cmpS core line), (.cmpE, .exclusive, .cmpE core line), (.cmpM, .modified, .cmpM core line)] :
          List (MsgKind × L1State × Instr)), arrives p.1 → m.data ≠ [] → k.l1? line = none → (∀ h ∈ ((e.l1Evict core line).core core).heldSnoops, h.1 ≠ line) →
        exec p.2.2 s = install p.2.1 m.data (e.l1Evict core line)) ∧
      (arrives .cmpOwn → m.data = [] → ∀ l, k.l1? line = some l → exec (.cmpOwn core line) s = install .modified l.data e)) ∧
    ((∀ h ∈ k.heldSnoops, h.1 ≠ line) → core < 2048 → (∀ w ∈ k.wbuf, w.1 ≠ line) →
      ∀ p ∈ ([(.cmpNc, .cmpNc core line), (.cmpAck, .cmpAck core line)] : List (MsgKind × Instr)), arrives p.1 →
        exec p.2 s = .next (s.to (e.updCore core fun k => { k with reqs := eraseFirst (fun q => decide (q.1 = line)) k.reqs,
                                                                   heldSnoops := k.heldSnoops.filter fun h => decide (h.1 ≠ line) }))) ∧
    (core < 2048 → (∃ w ∈ k.wbuf, w.1 = line) → arrives .cmpAck → exec (.cmpAck core line) s =
      .next (s.to (e.updCore core fun k => { k with wbuf := eraseFirst (fun w => decide (w.1 = line)) k.wbuf }))) ∧
    (2048 ≤ core →
      ∀ p ∈ ([(.cmpNc, .cmpNc core line), (.cmpAck, .cmpAck core line)] : List (MsgKind × Instr)), arrives p.1 → exec p.2 s = .next (s.to e))

/-- Responses and write-backs at the home, fills, the home timeout, and a slice's change of mode. A fill whose transaction has timed out is counted
and discarded. -/
def Obligations.HomeEvents : Prop :=
  ∀ (s : State) (core line : Nat) (m : Msg) (e : Dev),
    let d := s.dev
    let n := d.homeSlice line
    let arrives := fun (kind : MsgKind) => d.takeMsg kind core line = (some m, e)
    (arrives .rspAck → e.txn? line = none → exec (.rspAck core line) s = .next (s.to (e.count (0x201030 + 0x40 * e.homeSlice line) 1))) ∧
    (∀ t, e.txn? line = some t → t.own = false → core ∈ t.snoops → core ∉ t.acks →
      (arrives .rspAck → (∀ w ∈ e.net, w.isFor .wb core line = false) →
        exec (.rspAck core line) s = .next (s.to (e.snoopAnswered t core line))) ∧
      (arrives .rspData → m.poison = false → NSet.has e.memPoison line = false →
        exec (.rspData core line) s = .next (s.to ((e.allocWay line m.data true).snoopAnswered t core line)))) ∧
    (arrives .wb → m.poison = false → NSet.has e.memPoison line = false → e.txn? line = none →
      let gone := e.updHome line fun x => x.dirRemove line core
      ((e.way? line).isSome = true ∨ (e.slice (e.homeSlice line)).isStream core line = false →
        exec (.wb core line) s = .next (s.to ((gone.allocWay line m.data true).post (mkMsg .cmpAck core line)))) ∧
      (e.way? line = none → (e.slice (e.homeSlice line)).isStream core line = true →
        exec (.wb core line) s = .next (s.to (gone.writeThrough core line none m.data false)))) ∧
    (arrives .evc → e.txn? line = none → exec (.evc core line) s = .next (s.to (e.updHome line fun x => x.dirRemove line core))) ∧
    (line ∈ (d.slice n).lateFills → exec (.sliceFillComplete line) s =
      .next (s.to ((d.count (0x201030 + 0x40 * n) 1).updSlice n fun x => { x with lateFills := x.lateFills.erase line }))) ∧
    (∀ t, d.txn? line = some t → t.joined = [] →
      (t.fill = true → line ∉ (d.slice n).lateFills → d.reading line = false →
        let p := ((d.countRead line).proceed t.req t.cap true).1
        ((p.slice n).missMode = true → exec (.sliceFillComplete line) s = .next (s.to (p.closeTxn line))) ∧
        ((p.slice n).missMode = false → p.net.drop d.net.length = fuse (p.net.drop d.net.length) → p.net.take d.net.length = d.net →
          exec (.sliceFillComplete line) s = .next (s.to (p.closeTxn line)))) ∧
      (d.lineFacet line = 0 →
        let p := (d.poisonLine line).count (0x201028 + 0x40 * n) 1
        let q := if t.fill = true then p.updSlice n fun x => { x with lateFills := x.lateFills ++ [line] } else p
        exec (.homeTimeout line) s = .next (s.to (((q.timeoutReply t.req).glint 0 0x601 n (128 * line) 0).closeTxn line)))) ∧
    (∀ (slice : Nat) (miss : Bool) (cause : BitVec 2), slice < 96 →
      ((d.slice slice).hold = false → d.modeAllowed slice miss cause = true →
        exec (.sliceModeChange slice miss cause) s = .next (s.to (d.updSlice slice fun x =>
          { x with hold := true, nextMode := miss, nextCause := cause }))) ∧
      (d.security.trace = none → (d.slice slice).hold = true → (∀ t ∈ (d.slice slice).txns, t.fill = false) →
        exec (.sliceHoldDrained slice) s = .next (s.to (Dev.serve slice serveFuel [] (d.updSlice slice fun x =>
          { x with missMode := x.nextMode, cause := x.nextCause, hold := false })))))

/-! ## The package fabric and in-network reduction -/

/-- One hop of a message in the mesh, clean, replayed or given up; a flit of a pair port: sent with the message that the port's output grants,
sent again, or alone as an acknowledgement, and received with a clean or a bad CRC; lanes and retraining of a pair port, and its transaction
tags. -/
def Obligations.Fabric : Prop :=
  (∀ (s : State) (msg : Nat) (m : Msg) (h : Hop) (dest input : Nat),
      let d := s.dev
      d.net.find? (fun v => decide (v.id = msg)) = some m → m.arrived = false → m.flying = false → m.also = [] → d.msgHop m m.agent = some h →
      isSerial m.node h.out = false → h.next = some (dest, input) → d.winner m.node h.out = some m →
      let hop := fun (d : Dev) (m : Msg) => { d.turn m.node h.out m with
        net := eraseFirst (fun v => decide (v.id = msg)) d.net ++ [{ m with node := dest, input := input, vc := m.kind.cls }] }
      exec (.meshFlit msg 0) s = .next (s.to (hop d m)) ∧
      (∀ fails, 1 ≤ fails → fails ≤ 16 → exec (.meshFlit msg fails) s = .next (s.to (hop d m).corrected)) ∧
      (∀ fails, 16 < fails → m.hasData = false → exec (.meshFlit msg fails) s = .next (s.to ((d.count 0x609038 1).dropMsg msg))) ∧
      (∀ fails, 16 < fails → m.hasData = true →
        let e : Dev := { d.count 0x609038 1 with net := updFirst (fun v => decide (v.id = msg)) Msg.poisoned d.net }
        e.winner m.node h.out = some m.poisoned →
          exec (.meshFlit msg fails) s = .next (s.to ((hop e m.poisoned).poisonOrigin 7 false (128 * m.line) (e.lineFacet m.line))))) ∧
  (∀ (s : State) (n : Nat) (ab : Bool) (fec : List Nat) (crcOk : Bool), n < 6 → ((s.dev.port n).state = .up ∨ (s.dev.port n).state = .degraded) →
      let d := s.dev
      let p := d.port n
      let x := p.dir ab
      let base := if ab then portEndA n else portEndB n
      let far := if ab then portEndB n else portEndA n
      let node := routerNode base
      let out := serialPort base far
      (∀ m c e, x.resend = none → d.winner node out = some m → (d.turn node out m).depart m out = (some c, e) →
        let q := e.tagMsg { c with node := routerNode far, input := serialPort far base, vc := outVc node out m, flying := true }
        let f : Flit := { vc := outVc node out m, seq := x.seq, ack := (p.dir (!ab)).expect, msg := c.id, node := node, input := m.input, from_ := m.vc }
        exec (.pairPortFlit n ab (some m.id) fec crcOk) s = .next (s.to (Dev.receiveFlit
          ((Dev.countDetour { q.2 with net := q.2.net ++ [q.1] } m base far).updPort n fun p => p.updDir ab fun x =>
            { x with seq := x.seq + 1, replay := x.replay ++ [f] }) n ab (some f) false fec crcOk))) ∧
      (∀ f, (x.resend.bind fun q => x.replay.find? fun v => decide (v.seq = q)) = some f →
        exec (.pairPortFlit n ab (some f.msg) fec crcOk) s = .next (s.to (d.receiveFlit n ab (some f) true fec crcOk))) ∧
      (fec = [] → exec (.pairPortFlit n ab none fec true) s = .next (s.to (((((d.count (0x602030 + 0x40 * n) 1).count (0x602038 + 0x40 * n) 1).updPort n
        fun p => p.updDir ab fun x => { x with flits := x.flits + 1 })).updPort n fun p => p.updDir (!ab) fun x =>
          { x with replay := x.replay.filter fun v => decide ((p.dir (!ab)).expect ≤ v.seq) })))) ∧
  (∀ (d : Dev) (n : Nat) (ab : Bool) (f : Flit) (again : Bool) (fec : List Nat), n < 6 →
      let e := d.receiveFlit n ab (some f) again fec
      (((e false).port n).dir ab).resend = some f.seq ∧
      (again = true → 15 ≤ ((d.port n).dir ab).fails → ((e false).port n).state = .retrain) ∧
      (again = true → ((d.port n).dir ab).fails < 15 →
        ((e false).port n).state = (d.port n).state ∧ (((e false).port n).dir ab).fails = ((d.port n).dir ab).fails + 1) ∧
      (again = false → (((e false).port n).dir ab).fails = 0) ∧ (e false).net = d.net ∧
      (4 < fec.length → e true = e false) ∧
      (fec.length ≤ 4 → (((e true).port n).dir ab).expect =
        if f.seq = ((d.port n).dir ab).expect then ((d.port n).dir ab).expect + 1 else ((d.port n).dir ab).expect) ∧
      (fec.length ≤ 4 → f.seq ≠ ((d.port n).dir ab).expect → (e true).net = d.net) ∧
      (fec.length ≤ 4 → ∀ v ∈ (((e true).port n).dir (!ab)).replay, v ∈ ((d.port n).dir (!ab)).replay ∧ f.ack ≤ v.seq)) ∧
  (∀ (s : State) (n : Nat) (ab : Bool), n < 6 →
    let d := s.dev
    let p := d.port n
    let x := p.dir ab
    let live := p.state = .up ∨ p.state = .degraded
    let retrain := fun e : Dev => (e.count (0x602010 + 0x40 * n) 1).updPort n fun p =>
      { p with state := .retrain, attempts := 0, halfTurn := false, ab := { p.ab with fails := 0 }, ba := { p.ba with fails := 0 } }
    (live → ∀ lane < 68, NSet.has x.retired lane = false →
      let e := d.updPort n fun p => p.updDir ab fun x => { x with laneErr := Tab.set (0, 0) x.laneErr lane (0, x.flits) }
      let w := Tab.get (0, 0) x.laneErr lane
      let poor := (x.flits - w.2) * 256 < w.1 * 1000000 * x.lanes
      (¬ poor → exec (.laneSpare n ab lane) s = .next (s.to e)) ∧
      (poor → x.spares ≠ 0 → exec (.laneSpare n ab lane) s = .next (s.to ((e.count (0x602018 + 0x40 * n) 1).updPort n fun p =>
        p.updDir ab fun x => { x with spares := x.spares - 1, retired := NSet.add x.retired lane }))) ∧
      (poor → x.spares = 0 → exec (.laneSpare n ab lane) s = .next (s.to (retrain e)))) ∧
    (live → exec (.portRetrain n) s = .next (s.to (retrain d))) ∧
    (p.state = .retrain → p.halfTurn = false →
      (∀ a b l r, p.ab.respare l = some a → p.ba.respare r = some b →
        exec (.retrainAttemptEnd n { trained := true, failedAB := l, failedBA := r }) s = .next (s.to
          (((d.count (0x602018 + 0x40 * n) ((p.ab.spares - a.spares) + (p.ba.spares - b.spares))).updPort n fun p =>
            ({ p with ab := a, ba := b } : PairPort).trainedAs .up 64).portsMoved [n] []))) ∧
      (∀ r : TrainEnd, r.trained = false ∨ p.ab.respare r.failedAB = none ∨ p.ba.respare r.failedBA = none →
        (p.attempts ≠ 0 → exec (.retrainAttemptEnd n r) s = .next (s.to (d.updPort n fun p =>
          { p with attempts := p.attempts + 1, halfTurn := decide (2 ≤ p.attempts), detour := true }))) ∧
        (p.attempts = 0 → exec (.retrainAttemptEnd n r) s = .next (s.to
          ((((d.updPort n fun p => { p with attempts := 1, halfTurn := false, detour := true }).returnFlits n true).returnFlits n false).reissue n))))) ∧
    (p.state = .retrain → p.halfTurn = true → ∀ l r,
      exec (.retrainAttemptEnd n { trained := false, failedAB := l, failedBA := r }) s = .next (s.to ((d.updPort n fun p =>
        { p.trainedAs .down 0 with detour := true }).portsMoved [n] [n])) ∧
      exec (.retrainAttemptEnd n { trained := true, failedAB := l, failedBA := r }) s = .next (s.to ((d.updPort n fun p =>
        p.trainedAs .degraded 32).portsMoved [n] [n]))) ∧
    (∀ (lanes : Nat) (y : PortDir), y.trained lanes = { y with lanes := lanes, fails := 0, resend := y.replay.head?.map Flit.seq }) ∧
    (∀ (side index : Nat) (t : Tag), p.tag? side index = some t →
      (t.busy = true → exec (.tagAbandon n side index) s = .next (s.to ((d.updPort n fun p => p.setTag { t with
        busy := false, gen := t.gen + 1, abandons := t.abandons + 1, withheld := decide (3 ≤ t.abandons + 1) }).routerReply t.agent t.line
          t.wantsData))) ∧
      (t.withheld = true → exec (.drainMarkerReturn n side index) s = .next (s.to (d.updPort n fun p =>
        p.setTag { t with withheld := false, abandons := 0 })))))

/-- A first contribution line enters its group's tree at its agent's combining point, and a second one of the same rank and line overruns the
round; a hold that expires sends its node on; the done word carries ROUND, POISONED and OVERRUN of the round that it ends. While a done word is
owed no other round completes; a complete round writes every destination line, poisoned throughout by an overrun, and the open round after it
begins empty, with no overrun. Empty leaves change nothing, and a lower rank is the left operand. -/
def Obligations.Reductions : Prop :=
  (∀ (s : State) (num : Nat) (g : RedGroup), s.dev.group? num = some g →
    let d := s.dev
    (∀ (rank : Contributor) line data poison, rank.rank < g.n → line < g.payload / 128 → data.length = 128 →
      (NSet.has g.filled (rank.rank * (g.payload / 128) + line) = true → exec (.reductionContribution num rank line data poison) s =
        .next (s.to ((d.count 0x602188 1).updGroup num fun g => { g with overrun := true }))) ∧
      (NSet.has g.filled (rank.rank * (g.payload / 128) + line) = false → exec (.reductionContribution num rank line data poison) s =
        .next (s.to (Dev.roundComplete (Dev.redArrive num 4
          { line := line, level := 0, pos := rank.rank, data := data, poison := poison, place := (d.agentGoal rank.agent 0).place.1 }
          (d.updGroup num fun g => { g with
            filled := NSet.add g.filled (rank.rank * g.lines + line),
            dies := NSet.addAll g.dies (if rank.agent < 2048 then [coreDie rank.agent] else []) })) num)))) ∧
    (∀ line level pos v, (g.nodes.find? fun v => decide (v.line = line) && decide (v.level = level) && decide (v.pos = pos) &&
        decide (v.place ≠ 96 + g.root)) = some v → v.place < 96 →
      exec (.combineHoldExpire num line level pos) s = .next (s.to (Dev.roundComplete (Dev.redArrive num 4
        { v with place := 96 + v.place / 24 } (d.updGroup num fun g => { g with nodes := eraseFirst (fun w => decide (w = v)) g.nodes })) num))) ∧
    (∀ line level pos v e, (g.nodes.find? fun v => decide (v.line = line) && decide (v.level = level) && decide (v.pos = pos) &&
        decide (v.place ≠ 96 + g.root)) = some v → 96 ≤ v.place →
      ((d.updGroup num fun g => { g with nodes := eraseFirst (fun w => decide (w = v)) g.nodes }).redCross g v.place = (true, e) →
        exec (.combineHoldExpire num line level pos) s = .next (s.to (Dev.roundComplete (Dev.redArrive num 4 { v with place := 96 + g.root } e) num))) ∧
      ((d.updGroup num fun g => { g with nodes := eraseFirst (fun w => decide (w = v)) g.nodes }).redCross g v.place = (false, e) →
        exec (.combineHoldExpire num line level pos) s = .next (s.to e))) ∧
    (∀ poisoned overrun dies, g.doneOwed = some (poisoned, overrun, dies) → dies.length < 2 →
      exec (.doneWordWrite num) s = .next (s.to (((Dev.count (Dev.fresh (d.vwrite agentRoot g.facet false none g.done (leBytes 8 ((g.rounds + 1).toNat +
        (if poisoned then 2 ^ 32 else 0) + (if overrun then 2 ^ 33 else 0))) false).2).2 0x602180 1).updGroup num fun x =>
          { x with rounds := g.rounds + 1, doneOwed := none }).roundComplete num)))) ∧
  (∀ (d : Dev) (num : Nat) (g : RedGroup), d.group? num = some g →
    (g.doneOwed.isSome = true → d.roundComplete num = d) ∧
    (g.complete = false → d.roundComplete num = d) ∧
    (g.complete = true → g.doneOwed = none →
      let tops := g.nodes.filter fun v => decide (v.level = g.top) && decide (v.place = 96 + g.root)
      let bad := g.overrun || g.poisoned
      d.roundComplete num = (Dev.forEach tops (fun d v =>
          (d.vwrite agentRoot g.facet false none (g.dest + 128 * v.line) v.data (bad || v.poison)).2) d).updGroup num fun x =>
        { x with nodes := [], filled := [], overrun := false, poisoned := false, dies := [],
                 doneOwed := some (bad || tops.any RedNode.poison, x.overrun, x.dies) })) ∧
  (∀ (g : RedGroup) (fuel : Nat) (v : RedNode), v.level < g.top →
    (g.n ≤ (v.pos ^^^ 1) * 2 ^ v.level → g.rise (fuel + 1) v = g.rise fuel { v with level := v.level + 1, pos := v.pos / 2 }) ∧
    (¬ g.n ≤ (v.pos ^^^ 1) * 2 ^ v.level →
      let sib := fun w : RedNode => w.at v.line v.level (v.pos ^^^ 1) v.place && decide (w.data.length = v.data.length)
      (g.nodes.find? sib = none → g.rise (fuel + 1) v = { g with nodes := g.nodes ++ [v] }) ∧
      (∀ w, g.nodes.find? sib = some w → g.rise (fuel + 1) v =
        RedGroup.rise { g with nodes := eraseFirst (fun u => decide (u = w)) g.nodes } fuel
          { v with level := v.level + 1, pos := v.pos / 2, poison := v.poison || w.poison,
                   data := if v.pos % 2 = 0 then redCombine g.op v.data w.data else redCombine g.op w.data v.data })))

/-! ## Memory stacks and the far tier -/

/-- The controller's checks of HBM and far reads, write batches, the temperature's throttle steps, a far port's link, and what enumerating it
leaves. -/
def Obligations.FarAndStacks : Prop :=
  (∀ (s : State),
      let d := s.dev
      (∀ line, (d.nextRead line).map MemRead.line = some line → lineIsFar line = false →
        let e := (d.bypass line).dropRead line
        let n := d.lineStack line
        let ecc := fun e : Dev => (e.count (0x603030 + 0x40 * n) 1).corrected
        let again := (e.count (0x603020 + 0x40 * n) 1).corrected
        (NSet.has d.memPoison line = true → ∀ a b, exec (.hbmReadComplete line a b) s = .next (s.to e)) ∧
        (NSet.has d.memPoison line = false →
          (∀ b, exec (.hbmReadComplete line .good b) s = .next (s.to e) ∧ exec (.hbmReadComplete line .corrected b) s = .next (s.to (ecc e))) ∧
          exec (.hbmReadComplete line .failed .good) s = .next (s.to again) ∧
          exec (.hbmReadComplete line .failed .corrected) s = .next (s.to (ecc again)) ∧
          exec (.hbmReadComplete line .failed .failed) s = .next (s.to
            (((e.poisonLine line).count (0x603028 + 0x40 * n) 1).poisonOrigin 1 false (128 * line) (d.lineFacet line))))) ∧
      (∀ stack p,
        let batch := ((d.stack stack).writeQ.filter fun e => decide (e.1 = p)).take (8 * 2 ^ d.wbatch.toNat)
        exec (.writeWaitExpire stack p) s = .next (s.to (d.drainBatch stack p)) ∧
        (8 * 2 ^ d.wbatch.toNat ≤ (d.stack stack).waits p ∨ d.noReads stack p = true →
          exec (.hbmWriteBatch stack p) s = .next (s.to (d.drainBatch stack p))) ∧
        ((d.drainBatch stack p).stack stack).writeQ = batch.foldl (fun q e => eraseFirst (fun v => decide (v = e)) q) (d.stack stack).writeQ) ∧
      (∀ stack, exec (.hbmRefresh stack) s = .next (s.to (d.updStack stack id))) ∧
      (∀ n temp, n < 12 → (d.stack n).state = 0 →
        let old := (d.stack n).throttle.toNat
        let new := throttleAfter old temp
        let twice := decide (85 ≤ temp ∨ ((d.stack n).refresh2x = true ∧ 83 ≤ temp))
        let e := (d.updStack n fun k =>
          { k with temp := BitVec.ofNat 8 (min temp 255), throttle := BitVec.ofNat 2 new, refresh2x := twice }).count (0x603038 + 0x40 * n)
            ((if old ≤ new then new - old else old - new) + boolNat (twice != (d.stack n).refresh2x))
        let e := if old = new then e else e.trace 5 n new
        exec (.stackTempRead n temp) s = .next (s.to (if new = 3 ∧ old ≠ 3 then e.glint 0 0x602 n temp 0 else e)) ∧
          (new = 3 ↔ 105 ≤ temp ∨ (old = 3 ∧ 100 ≤ temp)) ∧ (temp < 93 → new = 0) ∧ (95 ≤ temp → temp < 98 → new = 1)) ∧
      (∀ line a, d.reading line = true → lineIsFar line = true →
        let p := lineFarPort line
        let e := (d.dropRead line).count (0x603410 + 0x40 * p) a.retries
        (d.linePoisoned line = true ∨ (a.poisoned = false ∧ a.retries = 0) → exec (.farReadComplete line a) s = .next (s.to e)) ∧
        (d.linePoisoned line = false → a.poisoned = false → a.retries ≠ 0 → exec (.farReadComplete line a) s = .next (s.to e.corrected)) ∧
        (d.linePoisoned line = false → a.poisoned = true → exec (.farReadComplete line a) s = .next (s.to
          (((e.poisonLine line).count (0x603418 + 0x40 * p) 1).poisonOrigin 9 false (128 * line) (d.lineFacet line))))) ∧
      (∀ port, port < 4 →
        let q := d.farPort port
        (q.state = 2 →
          let e := ((d.count (0x603428 + 0x40 * port) 1).updFarPort port fun q => { q with state := 3, ide := false, writes := [] }).markFrames port
            (q.writes.map fun w => lineFarFrame w.line)
          let e := Dev.forEach q.writes (fun d w => d.post { mkMsg .cmpAck w.agent w.line with status := 0x661, tag := w.tag }) e
          let fills := (e.reads.filter fun r => lineIsFar r.line && decide (lineFarPort r.line = port)).map MemRead.line
          let e := Dev.forEach fills (fun d l => (d.dropRead l).fillDone l) e
          exec (.farLinkDown port) s = .next (s.to
            ((e.dropFarWaits (fun w => w.frames.any fun fr => decide (lineFarPort (fr * 16384) = port)) 0x661).farGlint port))) ∧
        (∀ found, q.state = 3 →
          let changed := found.link = true ∧ found.supported = true ∧
            (found.identity ≠ q.identity ∨ min (found.capacity / 268435456) 4096 ≠ q.capacity)
          (¬ changed → exec (.farLinkRecover port found) s = .next (s.to (d.farEnumerate port found))) ∧
          (changed → exec (.farLinkRecover port found) s = .next (s.to ((d.markFrames port (d.farHeld port)).farEnumerate port found)))) ∧
        (∀ found, d.boot.step = 9 → q.state = 0 → d.farHeld port = [] →
          exec (.farEnumerate port found) s = .next (s.to ((d.updFarPort port fun q => { q with perst := false }).farEnumerate port found))) ∧
        (∀ lo hi, q.state = 2 → exec (.cxlEvent port lo hi) s = .next (s.to (d.glint 0 0x606 port lo.toNat hi.toNat))) ∧
        (∀ frames, q.state = 2 → q.scrubbed < frames → frames ≤ 128 * q.capacity →
          let e := d.scrubLines (farFrame port q.scrubbed * 16384) ((frames - q.scrubbed) * 16384)
          exec (.farScrubProgress port frames) s = .next (s.to
            ((e.updFarPort port fun q => { q with scrubbed := frames }).serveFarWaits d.farWaits.length))))) ∧
  (∀ (d : Dev) (p : Nat) (found : FarDevice),
      let q := d.farPort p
      let cap := min (found.capacity / 268435456) 4096
      (found.link = false → (d.farEnumerate p found).farPort p = { q with state := 0, rate := 0, width := 0, ide := false, capacity := 0 }) ∧
      (found.link = true → found.supported = false → (d.farEnumerate p found).farPort p =
        { q with state := 4, rate := found.rate, width := found.width, ide := false, capacity := 0 }) ∧
      (found.link = true → found.supported = true → found.ide = false → (d.farEnumerate p found).farPort p =
        { q with state := 3, rate := found.rate, width := found.width, ide := false }) ∧
      (found.link = true → found.supported = true → found.ide = true → (d.farEnumerate p found).farPort p =
        { q with state := 2, rate := found.rate, width := found.width, ide := true, capacity := cap, identity := found.identity,
                 scrubbed := if q.identity = found.identity ∧ q.capacity = cap then q.scrubbed else 0 }) ∧
      (∀ n, n ≠ p → (d.farEnumerate p found).farPort n = d.farPort n))

/-! ## Memory and window commands of the mailbox -/

/-- MEM_ALLOC, MEM_FREE, MEM_SET_CLASS and FAR_RESCAN; BUS_MAP, BUS_UNMAP, APERTURE_MAP and APERTURE_UNMAP. -/
def Obligations.MemoryAndWindows : Prop :=
  (∀ (s : State) (fn : Nat),
      let d := s.dev
      let p := d.mbxRequest fn
      (∀ choice, Served d fn 0x0600 →
        let e := d.mbxJournaled fn 0x0600 fn
        let far := (leAt p 1 1).testBit 0
        let loc := (leAt p 1 1).testBit 1
        let cls := leAt p 2 1 % 8
        let target := leAt p 3 1 % 32
        let n := leAt p 4 4
        let asked := leAt p 8 8
        n ≠ 0 → (far = false ∨ loc = false) → cls ∈ [0, 1, 2, 4, 7] → memTargetOk far loc target = true →
        (asked ≠ 0 → asked % 2097152 = 0 ∧ asked + n * 2097152 ≤ 2 ^ 64 ∧ d.overlapsMapping fn asked (n * 2097152) = false) →
        (far = false → d.stackFailed = false ∧ n ≤ d.hbmFree fn) →
        (far = true → ∃ q ∈ (if target = 0x1F then [0, 1, 2, 3] else [target]), (d.farPort q).state = 2) →
        ∀ frames x y, d.pickPages fn far loc target n = some (frames, x) → e.pickPages fn far loc target n = some (frames, y) →
        let va := (if asked = 0 then e.chooseVa fn choice (n * 2097152) else asked) / 2097152
        let ro := (leAt p 2 1).testBit 3
        ((far = true → y.farWaits = [] ∧ ∀ fr ∈ frames, frameScrubbed y fr = true) →
          exec (.memAlloc fn choice) s = .next (s.to ((y.mapPages fn va frames (BitVec.ofNat 3 cls) ro).mbxRespond fn 0 (allocResponse va n)))) ∧
        (far = true → (y.farWaits ≠ [] ∨ ∃ fr ∈ frames, frameScrubbed y fr = false) →
          exec (.memAlloc fn choice) s = .next (s.to (Dev.mbxAccept
            { y with farWaits := y.farWaits ++ [⟨fn, va, frames, BitVec.ofNat 3 cls, ro⟩] } fn)))) ∧
      (Served d fn 0x0601 →
        let va := leAt p 8 8
        let n := leAt p 16 4
        n ≠ 0 → va % 2097152 = 0 → d.allAllocated fn (va / 2097152) n = true → d.rangeInUse fn va (n * 2097152) = false →
        exec (.memFree fn) s = .next (s.to (((d.mbxJournaled fn 0x0601 fn).releasePages fn (inPages va n)).mbxRespond fn 0 []))) ∧
      (Served d fn 0x0602 →
        let va := leAt p 8 8
        let n := leAt p 16 4
        let cls := leAt p 2 1 % 8
        let ro := (leAt p 2 1).testBit 3
        n ≠ 0 → cls ∈ [0, 1, 2, 4, 7] → va % 2097152 = 0 → d.allAllocated fn (va / 2097152) n = true →
        exec (.memSetClass fn) s = .next (s.to (((d.mbxJournaled fn 0x0602 fn).updFacet fn fun x =>
          { x with pages := updAll (inPages va n) (fun m => { m with cls := BitVec.ofNat 3 cls, ro := ro }) x.pages }).mbxRespond fn 0 []))) ∧
      (∀ found, Served d fn 0x0603 → leAt p 1 1 ≤ 3 → d.farHeld (leAt p 1 1) = [] →
        let e := d.updFarPort (leAt p 1 1) fun q => { q with perst := false }
        ((e.farEnumerate (leAt p 1 1) found).farPort (leAt p 1 1)).state = 2 →
        exec (.farRescan fn found) s = .next (s.to
          (((e.farEnumerate (leAt p 1 1) found).audit 1 fn false 0x0603 0 (BitVec.ofNat 64 fn) (d.facet fn).mailbox.auditDetail).mbxRespond fn 0 [])))) ∧
  (∀ (s : State) (fn : Nat),
      let d := s.dev
      let p := d.mbxRequest fn
      let x := d.facet fn
      (∀ choice pathOpen, Served d fn 0x0610 →
        let e := d.mbxJournaled fn 0x0610 fn
        let peer := (leAt p 1 1).testBit 0
        let size := leAt p 16 8
        let asked := leAt p 24 8
        let bytes := alignUp size 2097152
        leAt p 8 8 % 4096 = 0 → size ≠ 0 → size % 4096 = 0 → size ≤ 68719476736 →
        (asked ≠ 0 → asked % 2097152 = 0 ∧ asked + bytes ≤ 2 ^ 64 ∧ d.overlapsMapping fn asked bytes = false) →
        (peer = true → countIf BusMap.peer x.buses < 16 ∧ d.peerMappings < 64 ∧ pathOpen = true ∧ d.mayTransmit fn = true) →
        (peer = false → countIf (fun m => !m.peer) x.buses < 256) →
        let va := if asked = 0 then e.chooseVa fn choice bytes else asked
        exec (.busMap fn choice pathOpen) s = .next (s.to ((e.updFacet fn fun x =>
          { x with buses := x.buses ++ [⟨va, leAt p 8 8, size, peer, (leAt p 1 1).testBit 1, false⟩] }).mbxRespond fn 0 (leBytes 8 1 ++ leBytes 8 va)))) ∧
      (Served d fn 0x0611 → (∃ m ∈ x.buses, m.va = leAt p 8 8) →
        exec (.busUnmap fn) s = .next (s.to (((d.mbxJournaled fn 0x0611 fn).updFacet fn fun x =>
          { x with buses := eraseFirst (fun m => decide (m.va = leAt p 8 8)) x.buses }).mbxRespond fn 0 []))) ∧
      (∀ choice o, Served d fn 0x0612 →
        let flags := leAt p 1 1
        let size := leAt p 16 8
        leAt p 8 8 % 4096 = 0 → size % 4096 = 0 → size ≠ 0 → d.isDevice fn (leAt p 8 8) size = true →
        x.apertureOffset (x.apertureRange (flags.testBit 0) (leAt p 2 1)) choice size = some o →
        (flags.testBit 0 = true → countIf Aperture.keyed x.apertures < 64 ∧ d.keyedMappings < 256) →
        exec (.apertureMap fn choice) s = .next (s.to (((d.mbxJournaled fn 0x0612 fn).updFacet fn fun x =>
          { x with apertures := x.apertures ++ [⟨o, leAt p 8 8, size, flags.testBit 0, leAt p 2 1, flags.testBit 1, flags.testBit 2, flags.testBit 3,
              BitVec.ofNat 16 (leAt p 4 2)⟩] }).mbxRespond fn 0 (leBytes 8 1 ++ leBytes 8 o)))) ∧
      (Served d fn 0x0613 → (∃ a ∈ x.apertures, a.offset = leAt p 8 8) →
        exec (.apertureUnmap fn) s = .next (s.to (((d.mbxJournaled fn 0x0613 fn).updFacet fn fun x =>
          { x with apertures := eraseFirst (fun a => decide (a.offset = leAt p 8 8)) x.apertures }).mbxRespond fn 0 []))))

/-! ## The port and the registers -/

/-- Requests to the BARs of an open function, configuration requests, host completions and confirmation reads. -/
def Obligations.PortRequests : Prop :=
  ∀ (s : State) (fn : Nat),
    let d := s.dev
    let out := fun e => Host.Outcome.next (s.to e)
    (d.barOpen fn = true → ∀ ide, d.idePasses ide = true → d.power.pkg = 0 → ∀ rid,
      (∀ offset data va, (d.facet fn).bar4Target offset data.length true rid = .at va → d.deviceRange fn va data.length true = true →
        exec (.bar4Write fn offset data false ide rid) s = out (d.vwrite agentPort fn false (some 7) va data false).2) ∧
      (∀ offset data ep, (d.facet fn).bar4Target offset data.length true rid = .unmapped →
        exec (.bar4Write fn offset data ep ide rid) s = out (d.send (.aerAdvisory fn))) ∧
      (∀ offset n va, (d.facet fn).bar4Target offset n false rid = .at va → d.deviceRange fn va n false = true →
        let r := d.vread agentPort fn false (some 7) va n
        exec (.bar4Read fn offset n ide rid) s = out (r.2.send (.completion r.1.bytes r.1.poison))) ∧
      (∀ offset n, (d.facet fn).bar4Target offset n false rid = .unmapped → exec (.bar4Read fn offset n ide rid) s = out (d.send .unsupportedRequest)) ∧
      (∀ offset op n x y va pa cls, (n = 4 ∨ n = 8) → offset % n = 0 → (d.facet fn).bar4Target offset n true rid = .at va →
        d.translate fn va = .device pa cls false →
        let words := (leBytes 8 (x.toNat % 2 ^ 64) ++ leBytes 8 (y.toNat % 2 ^ 64)).map fun b => (pa % 128, b)
        let req := { mkReq .atom agentPort fn 7 (pa / 128) with bytes := words, op := atomicCode op (decide (n = 8)) }
        let m := d.access { req with x := x.setWidth 32, y := y.setWidth 32 }
        exec (.pcieAtomicop fn offset op n x y ide rid) s = out (m.2.send (.completion (m.1.data.take n) m.1.poison)))) ∧
    (d.barOpen fn = true → ∀ ide, d.idePasses ide = true → d.facetExists fn = true → ∀ offset b, offset < 65536 →
      exec (.bar2Write fn offset [b] ide) s = out (d.updFacet fn fun x => x.updWindow (offset / 4096) fun w =>
        { w with slots := Mem.set w.slots (offset % 4096) b })) ∧
    (d.host.linkUp = true → d.boot.step ≠ 9 → ∀ req, exec (.configRequest fn req) s = out (d.send .retryStatus)) ∧
    (d.onBus fn = true → d.boot.step = 9 → d.boot.recovery = false →
      (∀ off, exec (.configRequest fn (.read off)) s = out (d.fresh.2.send (.configValue (d.fresh.1.setWidth 32)))) ∧
      (∀ v ∈ ([(.totalVFs, 63), (.numVFs, d.host.numVFs), (.firstVFOffset, 1), (.vfStride, 1), (.maxPayload, 512), (.maxReadRequest, 4096),
          (.msixVectors, 32), (.memoryEnable, boolNat (NSet.has d.host.memEnable fn)), (.msixEnable, boolNat (NSet.has d.host.msixEnable fn))] :
          List (ConfigField × Nat)),
        exec (.configRequest fn (.readField v.1)) s = out (d.send (.configValue (BitVec.ofNat 32 v.2)))) ∧
      (∀ n ≤ 63, fn = 0 → exec (.configRequest fn (.setNumVFs n)) s = out (d.updHost fun h => { h with numVFs := n })) ∧
      (∀ memory msix, exec (.configRequest fn (.setEnables memory msix)) s = out (d.updHost fun h =>
        { h with memEnable := NSet.put h.memEnable fn memory, msixEnable := NSet.put h.msixEnable fn msix }))) ∧
    (d.host.linkUp = true → ∀ addr data, data ≠ [] →
      let lines := (List.range ((addr + data.length - 1) / 128 + 1 - addr / 128)).map (addr / 128 + ·)
      let clean := fun (l : NSet) => l.filter fun n => !lines.contains n
      exec (.hostReadCompletion addr data true) s = out (d.updHost fun h =>
        { h with mem := Mem.write h.mem addr data, memPoison := clean h.memPoison, memFail := clean h.memFail }) ∧
      exec (.hostReadCompletion addr data false) s = out (d.updHost fun h => { h with memFail := NSet.addAll h.memFail lines })) ∧
    (d.host.linkUp = true → ∀ b c region, d.ctx? b = some c → region ∈ c.beam.fenceWait →
      exec (.peerConfirmComplete (.beam b) region true) s = out ((d.regionConfirmed c.block.core region).updBeam b fun m =>
        { m with fenceWait := m.fenceWait.erase region })) ∧
    (d.host.linkUp = true → ∀ serial c region, (d.facet fn).cmd? serial = some c → region ∈ c.confirms →
      exec (.peerConfirmComplete (.command fn serial) region true) s = out ((Dev.forEach
        (d.cores.map Prod.fst) (fun d k => d.regionConfirmed k region) d).updCmd fn serial
          fun c => { c with confirms := c.confirms.erase region }))

/-- Register reads and writes of an open function: a 64-bit register's halves are read as one; a LIVE or HALTED field's change is journaled before
it happens; the intake's heads consume what they pass; CNT_CLEAR and the retention marks. -/
def Obligations.RegisterAccesses : Prop :=
  ∀ (s : State) (fn : Nat), s.dev.barOpen fn = true →
    let d := s.dev
    let out := fun e => Host.Outcome.next (s.to e)
    (∀ off, off % 4 = 0 → isWide off = false → exec (.lowWordRead fn ⟨off, false⟩) s = out (d.readAnswer fn (d.word fn off))) ∧
    (∀ off, off % 4 = 0 → exec (.lowWordRead fn ⟨off, true⟩) s = out (d.readAnswer fn (d.word fn off + 2 ^ 32 * d.word fn (off + 4)))) ∧
    (∀ off, off % 4 = 0 → isWide off = true →
      exec (.lowWordRead fn ⟨off, false⟩) s = out (({ d with latches := Tab.set 0 d.latches (facetKey fn off) (d.word fn (off + 4) + 1) } : Dev).readAnswer fn
        (Dev.word { d with latches := Tab.set 0 d.latches (facetKey fn off) (d.word fn (off + 4) + 1) } fn off)) ∧
      (∀ v, Tab.get 0 d.latches (facetKey fn off) = v + 1 →
        exec (.highWordRead fn (off + 4)) s = out (({ d with latches := Tab.set 0 d.latches (facetKey fn off) 0 } : Dev).readAnswer fn v)) ∧
      (Tab.get 0 d.latches (facetKey fn off) = 0 → exec (.highWordRead fn (off + 4)) s = out (d.readAnswer fn (d.word fn (off + 4))))) ∧
    (∀ off (v : BitVec 64), off % 4 = 0 → journalMask off = 0 →
      exec (.registerWrite fn off false v) s = out (d.writeBar0 fn off (v.extractLsb' 0 32)) ∧
      (journalMask (off + 4) = 0 → exec (.registerWrite fn off true v) s =
        out ((d.writeBar0 fn off (v.extractLsb' 0 32)).writeBar0 fn (off + 4) (v.extractLsb' 32 32)))) ∧
    (∀ off (v : BitVec 64), off % 4 = 0 → journalMask off ≠ 0 →
      let new := BitVec.ofNat 32 ((d.writeBar0 fn off (v.extractLsb' 0 32)).word fn off)
      let changes := BitVec.ofNat 32 (d.word fn off) &&& journalMask off ≠ new &&& journalMask off
      (changes → d.security.nearFull = true → exec (.registerWrite fn off false v) s = out d) ∧
      (changes → d.security.nearFull = false →
        exec (.registerWrite fn off false v) s = out ((d.auditWrite fn off new.toNat).writeBar0 fn off (v.extractLsb' 0 32))) ∧
      (¬ changes → exec (.registerWrite fn off false v) s = out (d.writeBar0 fn off (v.extractLsb' 0 32)))) ∧
    (∀ n v, n < 16 → d.security.nearFull = false →
      ∃ e, (e = d ∨ ∃ w, e = d.auditWrite fn (0x10000 + 4 * n) w) ∧
        exec (.intWinCfgWrite fn n v) s = out (e.updFacet fn fun x => x.writeWinCfg n v)) ∧
    (∀ n v, (n < 16 ∨ n = 16) →
      let r := (d.facet fn).ring n
      let h := (v.extractLsb' 0 16).toNat
      let passed := (h + 2 ^ r.log2 - r.head) % 2 ^ r.log2
      r.registered = true → h < 2 ^ r.log2 → passed ≤ r.written.length →
      exec (if n = 16 then .intGqHeadWrite fn v else .intCqHeadWrite fn n v) s = out ((d.updFacet fn fun x =>
        ((if n = 16 then [] else r.written.take passed).foldl Facet.consume x).updRing n fun r =>
          { r with head := h, written := r.written.drop passed }).flushRings fn)) ∧
    (fn = 0 → exec (.cntClear fn) s = out { d with counters := [], facetCounters := [] }) ∧
    (fn ≠ 0 → exec (.cntClear fn) s = .next s) ∧
    (∀ n v, n < 24 → d.security.unacked + 1 < auditNearLimit →
      ∃ e, (e = d ∨ ∃ w, e = d.auditWrite fn (0x200100 + 4 * n) w) ∧ exec (.cchLaRetainWrite fn n v) s = out (e.writeRetain fn n v) ∧
        ∀ c, NSet.has (e.writeRetain fn n v).cache.retain c = if 32 * n ≤ c ∧ c < 32 * n + 32 ∧ d.coreOfFacet fn c = true ∧ d.coreRetired c = false
          then v.getLsbD (c - 32 * n) else NSet.has d.cache.retain c)

/-! ## Records and DMA -/

/-- NOP ends at once, an undefined TYPE is refused, and a completion becomes due once its command has ended and nothing is left to confirm; it
is held at the end of completion order, and then written where its ring has room; the moderation delay sends what is unsignalled. -/
def Obligations.RecordsEnd : Prop :=
  (∀ (s : State) (f w : Nat) (c : Cmd),
      let d := s.dev
      let t := d.recordTaken f w c
      (RecordWaits d f w 0 c → exec (.cmdNop f w) s = .next (s.to ((t.countF f 0x606000 1).endCmd f c.serial 0 0))) ∧
      (RecordHeld d f w 0 c → exec (.cmdNop f w) s = .next (s.to
        (((((d.recordRead f w d.intakeLeft).copyDescriptor f (d.headCmd f w)).2.updCmd f c.serial fun _ => c).countF f 0x606000 1)))) ∧
      (∀ left, d.gafferServes = true → d.intakeGrant = some (f, w, left) →
        let bs := ((d.facet f).window w).headBytes
        let h := d.headCmd f w
        7 < recordType bs → leAt bs 0 1 = 1 → (∀ o ∈ (d.facet f).cmds, o.occupies = true → o.dropped = false → o.id ≠ h.id) →
        h.gen = (d.facet f).gen h.id.toNat →
        exec (.unsupportedRecord f w) s = .next (s.to ((d.recordRead f w left).refuseCmd f h.serial 0x1 0))) ∧
      (∀ o serial, (d.facet f).cmd? serial = some o →
        (o.state = .ended → o.confirms = [] → d.farWritesOut f o = false → (d.facet f).abortWaits o = false →
          exec (.commandComplete f serial) s = .next (s.to (d.completionDue f serial))) ∧
        (o.state = .waiting → exec (.commandComplete f serial) s = .next (s.to (d.startCmd f serial (startOf o.typ.toNat))))) ∧
      (∀ n, let r := (d.facet f).ring n
        r.registered = true → r.irqEn = true → r.unsignalled ≠ 0 →
        exec (.irqModDelay f n) s = .next (s.to ((d.updFacet f fun x => x.updRing n fun r => { r with unsignalled := 0 }).msix f r.vector)))) ∧
  (∀ (d : Dev) (f serial : Nat) (c : Cmd), (d.facet f).cmd? serial = some c →
      (c.dropped = true → d.completionDue f serial =
        d.updFacet f fun x => { x with cmds := eraseFirst (fun c => decide (c.serial = serial)) x.cmds }) ∧
      (c.dropped = false → d.completionDue f serial = (d.updFacet f fun x =>
        { x.updCmd serial (fun c => { c with state := .held, dueOrder := x.nextDue }) with nextDue := x.nextDue + 1 }).flushRings f) ∧
      (∀ st result, (c.state = .waiting ∨ c.state = .running) →
        let e := ((d.endCmd f serial st result).facet f).cmd? serial
        e.map Cmd.state = some .ended ∧ e.map Cmd.result = some (BitVec.ofNat 64 result) ∧
          (c.hostLost = false → c.confirmFailed = false → c.barrier ≠ 2 ∨ d.mayTransmit f = true → e.map Cmd.status = some st) ∧
          (c.hostLost = true → e.map Cmd.status = some 0x108) ∧
          (c.barrier = 2 → (c.typ = 1 ∨ c.typ = 6) → d.facetRegions f ≠ [] →
            (d.mayTransmit f = false → e.map Cmd.status = some 0x108) ∧ (d.mayTransmit f = true → e.map Cmd.confirms = some (d.facetRegions f)))) ∧
      (∀ st result, c.state ≠ .waiting → c.state ≠ .running → ((d.endCmd f serial st result).facet f).cmd? serial = some c))

/-- A DMA record joins its channel's queue; the channel takes the first of it; descriptors are fetched, and lines completed in turn;
confirmations, promotions, refills, the three actions and a commit. SWAP reverses the bytes of units, and swapping twice restores them. -/
def Obligations.DmaWork : Prop :=
  (∀ (s : State) (ch : Nat), ch < 64 →
      let d := s.dev
      let k := d.channel ch
      (∀ f w c, RecordWaits d f w 7 c →
        let t := d.recordTaken f w c
        leAt c.args 0 8 % 64 = 0 → leAt c.args 12 4 ≠ 0 → leAt c.args 12 4 ≤ 65536 → leAt c.args 8 1 % 128 = ch → (t.channel ch).holds f = true →
        exec (.dma f w) s = .next (s.to (((Dev.updChannel { t with nextAccept := t.nextAccept + 1 } ch fun k =>
          { k with queue := k.queue ++ [⟨f, c.serial, c.cls, t.nextAccept, 0, BitVec.ofNat 64 (leAt c.args 0 8), leAt c.args 12 4⟩] })).countF f
            0x606000 1))) ∧
      (∀ q, k.run = none → k.queue = [q] → (d.facet q.fn).freezing = false → (d.facet q.fn).state = .running →
        ∃ t, exec (.dmaCommandStart ch) s = .next (s.to t) ∧ (t.channel ch).queue = [] ∧ (t.channel ch).state = .running ∧
          (∃ r, (t.channel ch).run = some r ∧ r.fn = q.fn ∧ r.serial = q.serial ∧ r.nextVa = q.chain ∧ r.maxDesc = q.maxDesc ∧ r.processed = 0 ∧
            r.desc = []) ∧ (∀ n, n ≠ ch → t.channel n = d.channel n)) ∧
      (∀ r, k.run = some r →
        (k.state = .running → r.chainEnd = false → r.fault = 0 → r.freezing = false → r.desc = [] → r.fetched < r.maxDesc → r.nextVa.toNat % 64 = 0 →
          d.reaches r.fn r.nextVa.toNat = true →
          let v := d.vread (2048 + ch) r.fn false (some 5) r.nextVa.toNat 64
          v.1.ok = true → v.1.poison = false → leAt v.1.bytes 0 1 = 1 →
          let x := descOf r.nextVa v.1.bytes
          exec (.descriptorFetch ch) s = .next (s.to (v.2.updRun ch fun r =>
            { r with desc := r.desc ++ [x], fetched := r.fetched + 1, nextVa := x.next, chainEnd := decide (x.next = 0) }))) ∧
        (∀ x rest, r.desc = x :: rest → k.state = .running → d.dmaHeld r x = true → exec (.dmaLineComplete ch) s = .next (s.to (d.dmaHold ch r))) ∧
        (∀ x rest, r.desc = x :: rest → k.state = .running → d.dmaHeld r x = false →
          (x.bad = true → exec (.dmaLineComplete ch) s = .next (s.to (d.dmaDone ch 0x3 true false))) ∧
          (x.bad = false → x.overlaps = true → exec (.dmaLineComplete ch) s = .next (s.to (d.dmaDone ch 0x205 true false))) ∧
          (∀ n, k.head = some n → d.granted (ch / 16) = some ch → exec (.dmaLineComplete ch) s = .next (s.to ((d.grant ch n).dmaLine ch r x)))) ∧
        (k.state = .confirming → r.confirms = [] → r.held = true ∨ d.dmaFarOut ch = false →
          (r.confirmFailed = true → r.fault = 0 → exec (.descriptorConfirmed ch) s = .next (s.to (d.dmaStop ch 0x670))) ∧
          (r.confirmFailed = false → r.held = true → exec (.descriptorConfirmed ch) s = .next (s.to
            ((d.updChannel ch fun k => { k with state := .running }).updRun ch fun r => { r with held := false }))) ∧
          (r.confirmFailed = false → r.held = false → exec (.descriptorConfirmed ch) s = .next (s.to (d.dmaNext ch)))) ∧
        (k.head ≠ none → 48 ≤ k.passedBy → k.promoted = none →
          exec (.headPromote ch) s = .next (s.to ((d.updChannel ch fun k =>
            { k with promoted := some ((d.channels.map fun e => (e.2.promoted.map (· + 1)).getD 0).foldl max 0) }).count (0x607020 + 0x40 * ch) 1)))) ∧
      (∀ ns, exec (.tokenBucketRefill ch ns) s = .next (s.to (d.updChannel ch fun k =>
        { k with tokens := min (1024 * k.actBurst.toNat) (k.tokens + k.actRate.toNat * ns) }))) ∧
      (d.barOpen k.owner = true →
        (k.state = .halted →
          exec (.actionRetry k.owner ch) s = .next (s.to (d.updChannel ch fun k => { k with state := .running })) ∧
          exec (.actionSkip k.owner ch) s = .next (s.to (d.dmaDone ch 0x208 true false)) ∧
          exec (.actionAbort k.owner ch) s = .next (s.to (d.dmaStop ch 0x207))) ∧
        (k.state ≠ .halted → ∀ make ∈ ([.actionRetry, .actionSkip, .actionAbort] : List (Nat → Nat → Instr)),
          exec (make k.owner ch) s = .next (s.to (d.updChannel ch fun k => { k with cfgErr := k.cfgErr ||| 2 }))) ∧
        (d.security.nearFull = false → (k.rate, k.burst) ≠ k.commit.getD (k.actRate, k.actBurst) →
          exec (.commit k.owner ch) s = .next (s.to ((d.auditWrite k.owner (0x10000C + 0x100 * ch) 1).updChannel ch fun k =>
            { k with commit := some (k.rate, k.burst) }))) ∧
        ((k.rate, k.burst) = k.commit.getD (k.actRate, k.actBurst) →
          exec (.commit k.owner ch) s = .next (s.to (d.updChannel ch fun k => { k with commit := some (k.rate, k.burst) }))))) ∧
  (∀ (swap : BitVec 3) (bs : List Byte), swap.toNat ≤ 4 → bs.length % unitOf swap = 0 →
      (swapBytes swap bs).length = bs.length ∧ swapBytes swap (swapBytes swap bs) = bs ∧ (swap = 0 → swapBytes swap bs = bs) ∧
      (∀ i, i < bs.length → 1 ≤ swap.toNat → swap.toNat ≤ 3 →
        (swapBytes swap bs)[i]? = bs[i / unitOf swap * unitOf swap + (unitOf swap - 1 - i % unitOf swap)]?))

/-! ## The lehr -/

/-- The corpus and lehr commands of the mailbox. -/
def Obligations.LehrCommands : Prop :=
  ∀ (s : State) (fn : Nat),
    let d := s.dev
    let p := d.mbxRequest fn
    let log := fun code => d.mbxJournaled fn code fn
    let c := leAt p 1 1 % 16
    let n := leAt p 4 4
    let accept := fun (e : Dev) => e.mbxAccept fn
    (∀ m, Served d fn 0x0300 → n ≠ 0 → n ≤ 65536 → leAt p 8 8 % 32 = 0 → ((List.range 16).find? fun c => (d.lehr.corpus? c).isNone) = some m →
      d.stackFailed = false → ∀ blocks blocks' x y, d.readBlocks ((leAt p 1 1).testBit 0) (leAt p 8 8) n 0 1 = (.ok blocks', x) →
      (log 0x0300).readBlocks ((leAt p 1 1).testBit 0) (leAt p 8 8) n 0 1 = (.ok blocks, y) →
      exec (.corpusRegister fn) s = .next (s.to ((y.updLehr fun l => { l with corpora := l.corpora ++
        [⟨m, (leAt p 1 1).testBit 0, BitVec.ofNat 64 (leAt p 16 8), 1, 1, blocks, n, none⟩] }).mbxRespond fn 0 (corpusResponse m 1 0)))) ∧
    (∀ x, d.lehr.corpus? c = some x →
      (Served d fn 0x0301 → n ≠ 0 → n ≤ 65536 → leAt p 8 8 % 32 = 0 → d.stackFailed = false → x.nextBlock + n < 2 ^ 40 / blockCodes x.i8 →
        ∀ blocks blocks' u y, d.readBlocks x.i8 (leAt p 8 8) n x.nextBlock (x.epoch + 1) = (.ok blocks', u) →
        (log 0x0301).readBlocks x.i8 (leAt p 8 8) n x.nextBlock (x.epoch + 1) = (.ok blocks, y) →
        exec (.corpusAppend fn) s = .next (s.to ((y.updLehr fun l => (l.updCorpus c fun x =>
          { x with epoch := x.epoch + 1, blocks := x.blocks ++ blocks, nextBlock := x.nextBlock + n }).settleEpoch c).mbxRespond fn 0
            (corpusResponse c (x.epoch + 1) x.nextBlock)))) ∧
      (Served d fn 0x0302 → n ≠ 0 →
        let inRun := fun (b : CorpusBlock) => decide (leAt p 8 4 ≤ b.number) && decide (b.number < leAt p 8 4 + n)
        (x.blocks.filter inRun).length = n → (∀ b ∈ x.blocks, inRun b = true → b.retired = none) →
        let retire := fun (b : CorpusBlock) => { b with retired := some (x.epoch + 1) }
        let next := fun (y : Corpus) => { y with epoch := x.epoch + 1, retiring := some (fn, x.epoch + 1), blocks := updAll inRun retire y.blocks }
        exec (.corpusRetire fn) s = .next (s.to (Dev.forEach (List.range 16) (fun d c => d.retireCheck c)
          (accept ((log 0x0302).updLehr fun l => (l.updCorpus c next).settleEpoch c))))) ∧
      (Served d fn 0x0303 → d.lehr.isActive c = false →
        exec (.corpusDeregister fn) s = .next (s.to (((log 0x0303).updLehr fun l =>
          { l with corpora := l.corpora.filter fun x => decide (x.num ≠ c), staged := l.staged.filter fun g => decide (g.corpus ≠ c) }).mbxRespond
            fn 0 [])))) ∧
    (Served d fn 0x0304 →
      let dies : BitVec 4 := BitVec.ofNat 4 (leAt p 1 1)
      dies ≠ 0 → d.lehr.running = false → d.lehr.starting = none →
      (∀ f ∈ d.facetsThere, (d.facet f).quota.partition = true → ∀ c ∈ basesCores dies, d.coreOfFacet f c = false) → 128 ≤ d.hbmFree 0 →
      (∀ b ∈ [0, 1, 2, 3], d.storeUsed b + lehrStore dies b ≤ 2097152) →
      let e := (log 0x0304).updLehr fun l => { l with starting := some fn, dies := dies, current := none, groups := [], copies := 0, reported := [] }
      let e := Dev.forEach ((List.range 12).filter fun n => dies.getLsbD (dieBase n)) Dev.wakeDie e
      let e := Dev.forEach (basesCores dies) (fun d c => d.slotLosesCore c) e
      (e.lehrFree = true → exec (.lehrStart fn) s = .next (s.to (e.lehrTakes.mbxRespond fn 0 []))) ∧
      (e.lehrFree = false → exec (.lehrStart fn) s = .next (s.to (accept (e.standSwitch (basesCores dies)))))) ∧
    (Served d fn 0x0305 →
      (d.lehr.running = false → exec (.lehrStop fn) s = .next (s.to ((log 0x0305).mbxRespond fn 0 []))) ∧
      (d.lehr.running = true → (∀ r ∈ d.lehr.riders, r.present = false) →
        exec (.lehrStop fn) s = .next (s.to ((log 0x0305).lehrEnds.mbxRespond fn 0 [])))) ∧
    (Served d fn 0x0306 → d.lehr.current = none →
      exec (.lehrStatus fn) s = .next (s.to (d.mbxRespond fn 0
        (leBytes 8 1 ++ leBytes 8 d.lehr.stateWord ++ leBytes 4 0 ++ leBytes 4 0 ++ leBytes 4 0 ++ leBytes 4 0))))

/-- A query's riders and what circulates for them: boarding and leaving at block boundaries, staging, candidates, results and the gather; and
what decides a candidate. -/
def Obligations.LehrQueries : Prop :=
  (∀ (s : State),
      let d := s.dev
      (∀ f w c, RecordWaits d f w 4 c →
        let t := d.recordTaken f w c
        ∀ bs x, t.lehr.running = true → t.lehr.stopping = none → c.copied = some bs → leAt bs 0 1 = 1 →
        t.lehr.corpus? (leAt bs 1 1 % 16) = some x → x.access.getLsbD f = true → 64 + codeBytes x.i8 ≤ bs.length →
        let rider := riderOf f { c with state := .running } t.lehr.nextRider t.nextAccept (t.facet f).quota.maxClass (bs.take 64)
          ((bs.drop 64).take (codeBytes x.i8))
        t.riderOk rider = true → t.ridersOf f < (t.facet f).quota.riders → countIf Rider.isWaiting t.lehr.riders < 4096 →
        exec (.ride f w) s = .next (s.to ((Dev.updLehr { t with nextAccept := t.nextAccept + 1 } fun l =>
          { l with riders := l.riders ++ [rider], nextRider := l.nextRider + 1 }).countF f 0x606000 1))) ∧
      (∀ f w c, RecordWaits d f w 5 c →
        let t := d.recordTaken f w c
        ∀ o r, (t.facet f).target c 4 = some o →
        (t.lehr.riders.find? fun r => r.present && decide (r.facet = f) && decide (r.serial = o.serial)) = some r →
        (r.state = .waiting → exec (.rideCancel f w) s = .next (s.to (((t.endRider r 0x305 0).countF f 0x606000 1).endCmd f c.serial 0 0))) ∧
        (r.state = .aboard → exec (.rideCancel f w) s = .next (s.to ((t.updRider r.id fun r =>
          { r with ending := some (r.ending.getD 0x305), cancels := r.cancels ++ [c.serial] }).countF f 0x606000 1)))) ∧
      (d.lehr.running = false → exec .blockBoundary s = .next (s.to d.lehrReady)) ∧
      (d.lehr.running = true →
        (∀ e, d.boundary = (none, e) → exec .blockBoundary s = .next (s.to e)) ∧
        (∀ c b e, d.boundary = (some (c, b), e) → (b.far = true → e.lehr.isStaged c b.number = true) →
          exec .blockBoundary s = .next (s.to (e.startBlock c b))) ∧
        (∀ c b e, d.boundary = (some (c, b), e) → b.far = true → e.lehr.isStaged c b.number = false → exec .blockBoundary s = .next s) ∧
        (∀ c b x, d.stageNext = some (c, b) → d.lehr.corpus? c = some x →
          let r := d.readCodes x.i8 b
          exec .farBlockStaged s = .next (s.to (r.2.updLehr fun l => { l with staged := l.staged ++ [⟨c, b.number, r.1.1, r.1.2⟩] })))) ∧
      (∀ seat die r e, (d.lehr.riders.find? fun r => r.isAboard && decide (r.seat = seat)) = some r →
        (d.lehr.cands.find? fun e => decide (e.1 = r.id) && decide (e.2.1 = die)) = some e →
        exec (.candidateMerge seat die) s = .next (s.to (d.takeCandidate e))) ∧
      (∀ rider r, d.lehr.rider? rider = some r →
        (r.state = .merging → rider ∉ d.lehr.mergeWait →
          let mapped := d.deviceRange r.facet r.resultVa (128 + 8 * r.kPrime) true
          let merged := match r.group with
            | none => if mapped = true then
                (d.vwrite agentLehr r.facet true (some 3) (r.resultVa + 128) (entryBytes r.kPrime r.result) r.poisoned).2 else d
            | some g =>
              let m := if mapped = true then d.mergeLists r g else (r.poisoned, d)
              (m.2.updRider rider fun r => { r with group := none, poisoned := m.1 }).passGroup g
          (mapped = false → exec (.riderResultMerged rider) s = .next (s.to (merged.endRider r 0x30B 0))) ∧
          (mapped = true →
            let q := (merged.lehr.rider? rider).getD r
            let e := merged.gwrite r.facet r.resultVa q.header
            (q.rerank = true → exec (.riderResultMerged rider) s = .next (s.to (e.updRider rider fun r => { r with state := .gathering }))) ∧
            (q.rerank = false → exec (.riderResultMerged rider) s = .next (s.to (e.endRider q (if q.poisoned then 0x680 else 0) q.count))))) ∧
        (r.state = .gathering →
          let v := d.vread agentLehr r.facet true (some 3) r.fullqVa 1024
          let query := if v.1.ok = true ∧ v.1.poison = false then some v.1.bytes else none
          let recs := (r.result.take r.count).foldl (fun (acc : List (Nat × Option Int) × Dev) e =>
            (acc.1 ++ [(acc.2.gatherEntry r query e).1], (acc.2.gatherEntry r query e).2)) ([], v.2)
          let list := sortBy gatherBefore (recs.1.filter fun e => e.2.isSome) ++ recs.1.filter fun e => e.2.isNone
          let head := [1, 0] ++ leBytes 2 recs.1.length ++ leBytes 2 (recs.1.filter fun e => e.2.isNone).length ++ leBytes 122 0
          let e := (recs.2.vwrite agentLehr r.facet true (some 3) r.rerankVa (head ++ (list.map gatherRecord).flatten) false).2.count 0x604038 1
          (r.handoff = false → exec (.rerankGatherDone rider) s = .next (s.to (e.endRider r (if r.poisoned then 0x680 else 0) r.count))) ∧
          (r.handoff = true → ∀ t, e.handOff r = some t →
            exec (.rerankGatherDone rider) s = .next (s.to (t.endRider r (if r.poisoned then 0x680 else 0) r.count))) ∧
          (r.handoff = true → e.handOff r = none → exec (.rerankGatherDone rider) s = .next (s.to (e.endRider r 0x307 r.count)))))) ∧
  ((∀ k l, entryBytes k l = ((l ++ List.replicate (k - l.length) (2 ^ 64 - 1)).map (leBytes 8)).flatten) ∧
    (∀ code query, code.length = query.length → (lehrKey false code query = 0 ↔ code = query)) ∧
    (∀ code query, code.length = query.length → lehrKey false code query ≤ 8 * code.length) ∧
    (∀ code query, code.length = query.length → lehrKey false code query = lehrKey false query code) ∧
    (∀ code query, code.length = 256 → query.length = 256 →
      (lehrKey true code query : Int) = 0x400000 - ((code.zip query).map fun e => signed e.1.toNat 8 * signed e.2.toNat 8).sum) ∧
    (∀ (r : Rider) (w : Nat), w.testBit 63 = true → r.passes w = false) ∧
    (∀ (r : Rider) (w : Nat), r.passes w = true → r.kindMask.getLsbD (w / 2 ^ 20 % 16) = true ∧
      (r.cutoff ≠ 0xFFFFF → w % 2 ^ 20 ≠ 0xFFFFF ∧ (if r.dateIncl then w % 2 ^ 20 ≤ r.cutoff.toNat else w % 2 ^ 20 < r.cutoff.toNat)) ∧
      (r.classAny ≠ 0 → BitVec.ofNat 32 (w / 2 ^ 24 % 2 ^ 32) &&& r.classAny ≠ 0) ∧ BitVec.ofNat 32 (w / 2 ^ 24 % 2 ^ 32) &&& r.classNone = 0))

/-! ## Serving -/

/-- The session and model commands of the mailbox. -/
def Obligations.ServingCommands : Prop :=
  ∀ (s : State) (fn : Nat),
    let d := s.dev
    let p := d.mbxRequest fn
    let log := fun code => d.mbxJournaled fn code fn
    let accept := fun (e : Dev) => e.mbxAccept fn
    (∀ m r, d.modelOf fn (leAt p 4 4) = some (m, r) →
      (Served d fn 0x0100 → d.openSessions fn < (d.facet fn).quota.sessions → d.serving.sessions.length < 65536 →
        (d.residentSessions < 4096 ∨ d.spillVictim ≠ none) →
        let o := (log 0x0100).openSession fn m.num (max (leAt p 1 1 % 4) (d.facet fn).quota.maxClass)
        exec (.sessionOpen fn) s = .next (s.to (o.2.mbxRespond fn 0 (leBytes 4 1 ++ leBytes 4 o.1)))) ∧
      (Served d fn 0x0201 → (∀ x ∈ d.serving.sessions, x.facet = fn → x.model ≠ m.num) →
        exec (.modelDeregister fn) s = .next (s.to (((log 0x0201).dropRef m.num fn r.handle).mbxRespond fn 0 []))) ∧
      (Served d fn 0x0202 → m.lost = false → r.pinned = true →
        (d.isHot m.num = true → exec (.modelPin fn) s = .next (s.to ((log 0x0202).mbxRespond fn 0 []))) ∧
        (d.isHot m.num = false → exec (.modelPin fn) s = .next (s.to (accept ((log 0x0202).askSlot m.num))))) ∧
      (Served d fn 0x0202 → m.lost = false → r.pinned = false → d.pinFits fn m = true →
        let e := ((log 0x0202).updServing fun v => { v with nextOrder := v.nextOrder + 1 }).updModel m.num fun m =>
          { m with refs := updAll (fun r => decide (r.facet = fn)) (fun r => { r with pinned := true, pinOrder := d.serving.nextOrder }) m.refs }
        (d.isHot m.num = true → exec (.modelPin fn) s = .next (s.to (e.mbxRespond fn 0 []))) ∧
        (d.isHot m.num = false → exec (.modelPin fn) s = .next (s.to (accept (e.askSlot m.num))))) ∧
      (Served d fn 0x0203 → exec (.modelUnpin fn) s = .next (s.to (((log 0x0203).updModel m.num fun m =>
        { m with refs := updAll (fun r => decide (r.facet = fn)) (fun r => { r with pinned := false }) m.refs }).mbxRespond fn 0 []))) ∧
      (Served d fn 0x0204 → exec (.modelStatus fn) s = .next (s.to (d.mbxRespond fn 0 (leBytes 1 1 ++
        leBytes 1 (if m.lost then 3 else if d.isHot m.num then 2 else if (d.warmOf m.digest).isSome then 1 else 0) ++
        leBytes 2 (match d.slotOf m.num with
          | some x => if x.num < 16 then x.num else 255
          | none => 255) ++ leBytes 4 m.refs.length))))) ∧
    (∀ x, d.sessionOf fn (leAt p 4 4) = some x →
      (Served d fn 0x0101 → (x.quiet = true ∨ (leAt p 1 1).testBit 0 = true) →
        let o := (log 0x0101).closeSession x.num (some fn)
        exec (.sessionClose fn) s = .next (s.to (if o.1 then o.2.mbxRespond fn 0 [] else accept o.2))) ∧
      (Served d fn 0x0102 → exec (.sessionStatus fn) s = .next (s.to (d.mbxRespond fn 0 (leBytes 1 1 ++ leBytes 1 x.state ++ leBytes 1 x.pending ++
        leBytes 1 x.shortlists.length ++ leBytes 4 0 ++ leBytes 8 x.activity))))) ∧
    (Served d fn 0x0200 → registerFieldsOk p = true → d.stackFailed = false →
      let cores := (leAt p 48 8 + slotBytes - 1) / slotBytes
      let digest := BitVec.ofNat 256 (leAt p 16 32)
      let ready := fun (x : Dev) (program image : List Byte) (o : (BitVec 32 × Bool × Nat) × Dev) => ∃ y i z,
        x.readProgram fn (leAt p 8 8) = (some program, y) ∧ cores ≤ y.matrixCoresLeft ∧
        (y.serving.models.length < 256 ∨ y.sharedEntry fn digest program ≠ none) ∧ y.registerCharge fn p ≤ y.hbmFree fn ∧
        Dev.findImage digest (leAt p 48 8) ((List.range (leAt p 1 1 % 4)).map (sourceAt fn p)) 1 y = (some (image, i), z) ∧
        (y.sharedEntry fn digest program ≠ none ∨ z.partitionHolds fn cores = true) ∧ z.registerModel fn p program image = some o
      (∃ program image o, ready d program image o) → ∀ program image o, ready (log 0x0200) program image o →
      exec (.modelRegister fn) s = .next (s.to ((o.2.loadsNow fn o.1.2.2).mbxRespond fn 0
        (leBytes 1 1 ++ leBytes 3 (if o.1.2.1 then 1 else 0) ++ leBytes 4 o.1.1.toNat ++ leBytes 8 cores))))

/-- Restoring a session, loading a slot, taking a GENERATE, and a step of a slot's batch. -/
def Obligations.ServingWork : Prop :=
  ∀ (s : State),
    let d := s.dev
    (∀ n rest, d.serving.restoreQ = n :: rest → d.residentSessions < 4096 →
      exec .sessionRestore s = .next (s.to (((d.updServing fun v => { v with restoreQ := rest }).updSession n fun x => { x with spilled := false }).count
        0x605020 1))) ∧
    (∀ n rest v, d.serving.restoreQ = n :: rest → 4096 ≤ d.residentSessions → d.spillVictim = some v →
      exec .sessionRestore s = .next (s.to ((((d.spill v.num).updServing fun v => { v with restoreQ := rest }).updSession n fun x =>
        { x with spilled := false }).count 0x605020 1))) ∧
    (∀ model m a, d.model? model = some m → (d.serving.slotQ.find? fun a => decide (a.model = model)) = some a → d.gafferServes = true →
      d.mayPlace (d.loadOf m a) false [] = true →
      let e := Dev.evictUntil m 17 d
      ∀ num cores, e.slotNumFor m = some num → e.slotCores m.owner m.cores = some cores →
      let e := Dev.forEach cores Dev.takeSlotCore e
      exec (.slotAcquire model) s = .next (s.to ((Dev.updServing (Dev.dropAsk { e with nextAccept := e.nextAccept + 1 } model) fun v =>
        { v with slots := v.slots ++ [⟨num, model, cores, false, e.nextAccept, 0, false, []⟩] }).passOver false (d.loadOf m a).accepted))) ∧
    (∀ num x m, d.slot? num = some x → d.model? x.model = some m → x.loaded = false → (∀ c ∈ x.cores, (d.core c).gated = false) →
      (∀ image i e, d.weights m = (some (image, i), e) → num < 16 →
        let e := (((e.writeWeights x.cores x.cores image).updSlot num fun x => { x with loaded := true, reload := [] }).count 0x605028 1)
        let e := match e.warmOf m.digest with
          | some w => e.pinWarm w 1
          | none => e
        let kept := { e.cache with retain := NSet.addAll e.cache.retain x.cores }
        exec (.slotLoadComplete num) s = .next (s.to (Dev.finishPins { e with cache := kept } m.num 0))) ∧
      (∀ e, d.weights m = (none, e) → exec (.slotLoadComplete num) s = .next (s.to
        (((e.endSequences m.num 3 0x406).releaseSlot num).finishPins m.num 0x406)))) ∧
    (∀ f w c, RecordWaits d f w 6 c →
      let t := d.recordTaken f w c
      ∀ bs x m, c.copied = some bs → leAt bs 0 1 = 1 → t.sessionOf f (leAt bs 4 4) = some x → t.model? x.model = some m → x.closing = none →
      sequenceOk bs (((m.ref? f).map ModelRef.maxContext).getD 0) = true → x.pending < 4 → m.lost = false →
      let q := sequenceOf f { c with state := .running } t.nextAccept bs
      pagesOf (q.pages * 64 * m.kvFor f) ≤ t.hbmQuota f →
      exec (.generate f w) s = .next (s.to ((((((Dev.updSession { t with nextAccept := t.nextAccept + 1 } x.num fun y =>
        { y with seqs := y.seqs ++ [q] }).sessionActive x.num).queueRestore x).askSlot m.num)).countF f 0x606000 1))) ∧
    (∀ num x m, d.slot? num = some x → d.model? x.model = some m → x.loaded = true → m.damaged = false → x.stepping = false →
      let e := d.leaveStep m.num
      let e := Dev.forEach (e.joiners m.num) (fun d v => d.joinOne m v.1 v.2) e
      exec (.stepBoundary num) s = .next (s.to (e.updSlot num fun y => { y with
        stepping := (x.reload.isEmpty && x.cores.all fun c => !(e.core c).gated) && !(e.batch m.num).isEmpty }))) ∧
    (∀ num x m, d.slot? num = some x → d.model? x.model = some m → x.loaded = true → m.damaged = false → x.stepping = true →
      (NSet.addAll [] (x.cores.map coreDie)).length < 2 →
      let ran := (d.joinedInOrder m.num).map fun e => e.1.num
      let e := Dev.forEach ran Dev.sessionActive ((d.runStep m).count 0x605008 1)
      let e := (e.updSlot num fun y => { y with lastStep := e.serving.activity }).leaveStep m.num
      let e := Dev.forEach (e.joiners m.num) (fun d v => d.joinOne m v.1 v.2) e
      exec (.stepBoundary num) s = .next (s.to (e.updSlot num fun y => { y with
        stepping := (x.reload.isEmpty && x.cores.all fun c => !(e.core c).gated) && !(e.batch m.num).isEmpty })))

/-- A write of MBX_CTRL submits the request that waits, or is dropped while one is busy; a request that fails the checks of R307 completes
with their status; a response carries the status, the tag and the payload. -/
def Obligations.MailboxSubmission : Prop :=
  ∀ (s : State) (fn : Nat) (v : BitVec 32),
    let d := s.dev
    let out := fun e => Host.Outcome.next (s.to e)
    let m := (d.facet fn).mailbox
    let set : Mailbox := { m with irqEn := v.getLsbD 1, vector := v.extractLsb' 2 5 }
    let put := fun n => d.updFacet fn fun x => { x with mailbox := n }
    (d.barOpen fn = true →
      (v.getLsbD 0 = false → exec (.mbxGo fn v) s = out (put set)) ∧
      (v.getLsbD 0 = true → m.busy = true → m.accepted = true → exec (.mbxGo fn v) s = out (put { set with dropped := true })) ∧
      (v.getLsbD 0 = true → m.busy = false → m.accepted = false → d.power.pkg = 0 → d.errors.fatal = false →
        (d.mbxCheck fn = none → exec (.mbxGo fn v) s = out (put { set with go := true, busy := true })) ∧
        (∀ st, d.mbxCheck fn = some st → exec (.mbxGo fn v) s = out ((put { set with go := true, busy := true }).mbxRefuse fn st [])))) ∧
    (∀ st p, m.discard = false →
      let r := ((d.mbxRespond fn st p).facet fn).mailbox
      r.done = true ∧ r.go = false ∧ r.busy = false ∧ r.accepted = false ∧ r.status = st ∧ Mem.read r.buf 6 2 = leBytes 2 st.toNat ∧
        Mem.read r.buf 8 8 = Mem.read m.buf 8 8 ∧ Mem.read r.buf 16 p.length = p)

/-- HELLO attaches or re-attaches with the highest common interface version, or is refused; RING_SET and RING_CLEAR; RED_GROUP_OPEN and
RED_GROUP_CLOSE. -/
def Obligations.AttachingAndRings : Prop :=
  ∀ (s : State) (fn : Nat),
    let d := s.dev
    let p := d.mbxRequest fn
    let x := d.facet fn
    let log := fun code => d.mbxJournaled fn code fn
    let out := fun e => Host.Outcome.next (s.to e)
    (Served d fn 0x0001 →
      let attach := (leAt p 1 1).testBit 0
      let lo := leAt p 2 2
      let hi := leAt p 4 2
      let range := d.ifRange
      let answer := fun (v : Nat) (discard : Bool) =>
        let f := (log 0x0001).fresh
        let w := f.2.fwVersion
        let z := w.2.helloEffects fn v discard f.1
        out (z.mbxRespond fn 0 (helloResponse v range.1 range.2 w.1 fn (z.facet fn).held f.1 z.helloCaps))
      (attach = false → (x.holdsState = true → (leAt p 1 1).testBit 1 = true) → max lo range.1 ≤ min hi range.2 →
        exec (.hello fn) s = answer (min hi range.2) x.holdsState) ∧
      (attach = true → x.credential = some (BitVec.ofNat 64 (leAt p 8 8)) →
        (x.holdsState = true → lo ≤ x.ifSel.toNat → x.ifSel.toNat ≤ hi → range.1 ≤ x.ifSel.toNat → x.ifSel.toNat ≤ range.2 →
          exec (.hello fn) s = answer x.ifSel.toNat false) ∧
        (x.holdsState = false → max lo range.1 ≤ min hi range.2 → exec (.hello fn) s = answer (min hi range.2) false)) ∧
      (attach = true → x.credential ≠ some (BitVec.ofNat 64 (leAt p 8 8)) → exec (.hello fn) s = out (d.mbxRefuse fn 0x107 [])) ∧
      (attach = false → x.holdsState = true → (leAt p 1 1).testBit 1 = false → exec (.hello fn) s = out (d.mbxRefuse fn 0x106 [])) ∧
      (attach = false → x.holdsState = false → min hi range.2 < max lo range.1 →
        exec (.hello fn) s = out (d.mbxRefuse fn 0x2 (helloResponse 0 range.1 range.2 0 0 0 0 0)))) ∧
    (∀ (v : Nat) (discard : Bool) (cred : BitVec 64), let z := (d.helloEffects fn v discard cred).facet fn
      z.hello = true ∧ z.attached = true ∧ z.ringsVoid = true ∧ z.ifSel = BitVec.ofNat 16 v ∧ z.credential = some cred ∧
        (∀ n, n ≤ 16 → (z.ring n).registered = false) ∧ z.consent = none) ∧
    (let n := leAt p 1 1 % 32
     let r := ringOf p
     (Served d fn 0x0002 → n ≤ 16 → r.inRange = true → (x.ring n).registered = false → exec (.ringSet fn) s =
        out ((((log 0x0002).updFacet fn fun x => { x with rings := Tab.set Ring.reset x.rings n r, ringsVoid := false }).flushRings fn).mbxRespond
          fn 0 [])) ∧
     (Served d fn 0x0002 → (16 < n ∨ r.inRange = false) → exec (.ringSet fn) s = out (d.mbxRefuse fn 0x104 [])) ∧
     (Served d fn 0x0002 → n ≤ 16 → r.inRange = true → (x.ring n).registered = true → exec (.ringSet fn) s = out (d.mbxRefuse fn 0x105 [])) ∧
     (Served d fn 0x0003 → n ≤ 16 → (∀ w ∈ x.windows, w.2.enable = true → w.2.ring = n → n = 16) → (x.ring n).registered = true →
        exec (.ringClear fn) s = out (((log 0x0003).updFacet fn fun x => x.cancelRing n).mbxRespond fn 0 []))) ∧
    (let op := leAt p 1 1 % 4
     let n := leAt p 2 2 % 2048
     let size := leAt p 4 4
     Served d fn 0x0620 → 2 ≤ n → n ≤ 1024 → size % 128 = 0 → 0 < size → size ≤ 1048576 → (op = 3 → size ≤ 32768) →
        leAt p 8 8 % 65536 = 0 → leAt p 16 8 % 128 = 0 → leAt p 24 8 % 8 = 0 →
        d.overlapsMapping fn (leAt p 8 8) (alignUp (n * size) 65536) = false → d.isDevice fn (leAt p 16 8) size = true →
        d.isDevice fn (leAt p 24 8) 8 = true →
      ∀ num root, (List.range 448).find? (fun i => (d.group? i).isNone) = some num →
        d.redRoot fn (leAt p 16 8) ((n + 1) / 2 * size) = some root →
        ∃ g : RedGroup, g.num = num ∧ g.facet = fn ∧ g.op = BitVec.ofNat 2 op ∧ g.n = n ∧ g.payload = size ∧ g.window = leAt p 8 8 ∧
          g.dest = leAt p 16 8 ∧ g.done = leAt p 24 8 ∧ g.root = root ∧ g.rounds = 0 ∧ g.nodes = [] ∧ g.filled = [] ∧ g.overrun = false ∧
          exec (.redGroupOpen fn) s = out (({ log 0x0620 with groups := d.groups ++ [g] } : Dev).mbxRespond fn 0
            ([1, 0] ++ leBytes 2 num ++ leBytes 4 ((n + 1) / 2 * size) ++ leBytes 8 root))) ∧
    (∀ g, let num := leAt p 2 2 % 512
      Served d fn 0x0621 → num < 448 → d.group? num = some g → g.facet = fn →
        ((leAt p 4 1).testBit 0 = true ∨ (g.filled = [] ∧ g.doneOwed = none) →
          exec (.redGroupClose fn) s = out (((log 0x0621).closeGroup num).mbxRespond fn 0 [])) ∧
        ((leAt p 4 1).testBit 0 = false → (g.filled ≠ [] ∨ g.doneOwed ≠ none) → exec (.redGroupClose fn) s = out (d.mbxRefuse fn 0x634 [])))

/-- The host link: what a link-down takes from every facet, a link-up's shape and reset configuration, retrains, degradation, BAR4 resizes,
function-level reset, and writes and reads of the far tier and the host that end. -/
def Obligations.LinkEvents : Prop :=
  ∀ (s : State),
    let d := s.dev
    let out := fun e => Host.Outcome.next (s.to e)
    (d.host.linkUp = true → ∃ e, exec .linkDown s = out e ∧ ∀ f ∈ d.facetsThere, let x := e.facet f
      x.buses = [] ∧ x.windows = [] ∧ x.ringsVoid = true ∧ x.plainPending = true ∧ (∀ a ∈ x.apertures, a.keyed = false) ∧
        (∀ c ∈ x.cmds, c.confirms = []) ∧ ∀ n, n ≤ 16 → (x.ring n).registered = false) ∧
    (d.host.linkUp = false → exec .linkDown s = .next s) ∧
    (∀ rate width, d.host.linkUp = false → d.host.perst = false → 3 ≤ d.boot.step → rate ≤ 6 → width ∈ [4, 8, 16] →
      ∃ e, exec (.linkUp rate width) s = out e ∧ e.host.linkUp = true ∧ e.host.rate = BitVec.ofNat 3 rate ∧ e.host.width = BitVec.ofNat 5 width ∧
        e.host.numVFs = 0 ∧ e.host.memEnable = [] ∧ e.host.msixEnable = [] ∧
        ∀ f, f < 64 → (e.facet f).msix = [] ∧ (e.facet f).bar4 = (if f = 0 then 68719476736 else 4294967296)) ∧
    (d.host.linkUp = true → exec .linkRetrain s = out (d.count 0x606010 1)) ∧
    (∀ rate width, d.host.linkUp = true → rate ≤ 6 → width ∈ [4, 8, 16] → (rate ≠ 6 ∨ width ≠ 16) →
      exec (.linkDegraded rate width) s =
        out ((d.updHost fun h => { h with rate := BitVec.ofNat 3 rate, width := BitVec.ofNat 5 width }).glint 0 0x103 rate width 0)) ∧
    (∀ fn size, d.host.linkUp = true → d.boot.step = 9 → fn < 64 → bar4SizeOk fn size = true → (d.boot.recovery = true → fn = 0) →
      (size ≠ (d.facet fn).bar4 → ∃ e, exec (.bar4Resize fn size) s = out e ∧ (e.facet fn).bar4 = size ∧
        (∀ a, a ∈ (e.facet fn).apertures ↔ a ∈ (d.facet fn).apertures ∧ (d.facet fn).plainPending = true ∧ a.keyed = false) ∧
        ∀ g, g ≠ fn → e.facet g = d.facet g) ∧
      (∃ e, exec (.bar4Resize fn size) s = out e ∧ (e.facet fn).bar4 = size)) ∧
    (∀ fn, d.onBus fn = true → d.boot.step = 9 → (d.boot.recovery = true → fn = 0) →
      (d.facetExists fn = false → exec (.flr fn) s = out (d.functionReset fn)) ∧
      (d.facetExists fn = true → ∃ e, exec (.flr fn) s = out e ∧ let x := e.facet fn
        x.state = (if (d.facet fn).state.isStopped then .quiesced else .running) ∧ x.hello = false ∧ x.cmds = [] ∧ x.buses = [] ∧ x.apertures = [] ∧
          x.windows = [] ∧ x.mailbox.go = false ∧ x.mailbox.busy = false ∧ x.bar4 = (if fn = 0 then 68719476736 else 4294967296))) ∧
    (∀ line w, lineIsFar line = true → (d.farPort (lineFarPort line)).writes.find? (fun w => decide (w.line = line)) = some w →
      exec (.farWriteComplete line) s = out ((d.updFarPort (lineFarPort line) fun q =>
        { q with writes := eraseFirst (fun w => decide (w.line = line)) q.writes }).post { mkMsg .cmpAck w.agent line with tag := w.tag })) ∧
    (∀ b c, d.ctx? b = some c → exec (.completionTimeout (.beam b)) s =
      out (Dev.forEach c.beam.fenceWait (fun d r => d.confirmDone (.beam b) r false) d)) ∧
    (∀ fn serial c, (d.facet fn).cmd? serial = some c → exec (.completionTimeout (.command fn serial)) s =
      out (Dev.forEach c.confirms (fun d r => d.confirmDone (.command fn serial) r false) d)) ∧
    (∀ ch r, (d.channel ch).run = some r → (d.channel ch).state = .confirming → r.confirms ≠ [] → exec (.completionTimeout (.channel ch)) s =
      out (d.updChannel ch fun k => { k with run := some { r with confirms := [], confirmFailed := true } }))

/-- The facet commands: creation, destruction, resizing, resuming, reset, dirty logging and query, and how they are refused; OVER_CLEARED. -/
def Obligations.FacetCommands : Prop :=
  ∀ (s : State) (fn : Nat),
    let d := s.dev
    let p := d.mbxRequest fn
    let f := leAt p 1 1 % 64
    let log := fun code => d.mbxJournaled fn code f
    let out := fun e => Host.Outcome.next (s.to e)
    let q := quotaOf p
    let there := f ≠ 0 ∧ d.facetExists f = true
    let stopped := (d.facet f).state = .quiesced ∨ (d.facet f).state = .frozen
    (Served d fn 0x0500 →
      (d.security.lifecycle ≠ 0 → d.security.lifecycle ≠ 3 → d.security.debug ≠ 3 →
        (q.inRange = true → (f = 0 ∨ d.facetExists f = false) →
          (∀ g, d.newFacet f = some g → d.quotaCheck g q 0 = none →
            exec (.facetCreate fn) s = out (((log 0x0500).createFacet g q).mbxRespond fn 0 ([1, BitVec.ofNat 8 g] ++ leBytes 6 0))) ∧
          (∀ g st, d.newFacet f = some g → d.quotaCheck g q 0 = some st → exec (.facetCreate fn) s = out (d.mbxRefuse fn st [])) ∧
          (d.newFacet f = none → exec (.facetCreate fn) s = out (d.mbxRefuse fn 0x510 []))) ∧
        (q.inRange = false → exec (.facetCreate fn) s = out (d.mbxRefuse fn 0x3 [])) ∧
        (q.inRange = true → there → exec (.facetCreate fn) s = out (d.mbxRefuse fn 0x502 []))) ∧
      ((d.security.lifecycle = 0 ∨ d.security.lifecycle = 3) → exec (.facetCreate fn) s = out (d.mbxRefuse fn 0x803 []))) ∧
    (∀ g, (q.partition = false → ((d.createFacet g q).facet g).state = .running ∧ ((d.createFacet g q).facet g).quota = q) ∧
      (d.destroyFacet g).facetExists g = false) ∧
    (Served d fn 0x0501 → there → stopped → exec (.facetDestroy fn) s = out (((log 0x0501).destroyFacet f).mbxRespond fn 0 [])) ∧
    (Served d fn 0x0502 → there →
      let r := { q with partition := (d.facet f).quota.partition }
      r.inRange = true → d.quotaCheck f r (d.facet f).quota.hbmPages = none →
        (r.partition = true → d.partitionNeed f ≤ countIf (fun c => decide (c < 768)) r.cores) →
        exec (.facetResize fn) s = out (((log 0x0502).resizeFacet f r ((leAt p 1 1).testBit 7)).mbxRespond fn 0 [])) ∧
    (Served d fn 0x0504 → there → stopped → exec (.facetResume fn) s =
      out (((((log 0x0504).updFacet f fun x => { x with state := .running }).resumeRiders f).resumeDma f).mbxRespond fn 0 [])) ∧
    (Served d fn 0x0505 → there → stopped → exec (.facetReset fn) s =
      out ((((log 0x0505).resetActions f 0x516).updFacet f fun x => { x with state := .quiesced }).mbxRespond fn 0 [])) ∧
    (Served d fn 0x0508 → there →
      let l := (d.facet f).log
      let op := leAt p 2 1 % 4
      let report := leBytes 8 1 ++ leBytes 8 l.shadow.length
      let started := fun (x : Facet) => { x with log := DirtyLog.mk true false (leAt p 8 8) (leAt p 16 8) (leAt p 24 8) (leAt p 32 8) [] }
      (op = 0 → l.on = false → leAt p 8 8 % 8 = 0 → leAt p 16 8 % 8 = 0 → leAt p 24 8 % 4096 = 0 → leAt p 32 8 % 4096 = 0 → leAt p 32 8 ≤ 2 ^ 40 →
        (d.updFacet f started).hbmUsed 0 ≤ (d.updFacet f started).hbmQuota 0 →
        exec (.facetDirtyLog fn) s = out (((log 0x0508).updFacet f started).mbxRespond fn 0 [])) ∧
      (op = 1 → l.on = true → exec (.facetDirtyLog fn) s =
        out (((log 0x0508).updFacet f fun x => { x with log := { x.log with sideB := !x.log.sideB, shadow := [] } }).mbxRespond fn 0 report)) ∧
      (op = 2 → l.on = true → exec (.facetDirtyLog fn) s =
        out (((log 0x0508).updFacet f fun x => { x with log := DirtyLog.off }).mbxRespond fn 0 report)) ∧
      ((op = 0 ∧ l.on = true) ∨ (op ≠ 0 ∧ op ≠ 3 ∧ l.on = false) → exec (.facetDirtyLog fn) s = out (d.mbxRefuse fn 0x518 []))) ∧
    (Served d fn 0x0509 →
      ((fn = 0 ∨ f = fn) → d.facetExists f = true → exec (.facetQuery fn) s = out (d.mbxRespond fn 0 (d.quotaBytes f))) ∧
      (fn ≠ 0 → f ≠ fn → exec (.facetQuery fn) s = out (d.mbxRefuse fn 0x5 []))) ∧
    (∀ c ∈ [(0x0501, Instr.facetDestroy fn), (0x0502, .facetResize fn), (0x0503, .facetQuiesce fn), (0x0504, .facetResume fn),
        (0x0505, .facetReset fn), (0x0506, .facetSave fn), (0x0508, .facetDirtyLog fn)], Served d fn c.1 →
      (f = 0 → exec c.2 s = out (d.mbxRefuse fn 0x3 [])) ∧ (f ≠ 0 → d.facetExists f = false → exec c.2 s = out (d.mbxRefuse fn 0x503 []))) ∧
    (∀ c ∈ [(0x0501, Instr.facetDestroy fn), (0x0504, .facetResume fn), (0x0505, .facetReset fn)], Served d fn c.1 → there → ¬ stopped →
      exec c.2 s = out (d.mbxRefuse fn 0x502 [])) ∧
    (∀ g, g ≠ 0 → (d.facet g).overBits ≠ 0 →
      let now := (d.facet g).overBits &&& d.overNow g
      let e := d.updFacet g fun x => { x with overBits := now }
      exec (.overCleared g) s = out (if now = 0 then e.glint 0 0x501 g 2 0 else e))

/-- Quiescing a facet by a drain, by a forced end and by a freeze, and the end of each; the image that FACET_SAVE writes, and the facet that
FACET_RESTORE makes of one. -/
def Obligations.QuiesceSaveRestore : Prop :=
  ∀ (s : State) (fn : Nat),
    let d := s.dev
    let p := d.mbxRequest fn
    let f := leAt p 1 1 % 64
    let log := fun code => d.mbxJournaled fn code f
    let out := fun e => Host.Outcome.next (s.to e)
    let accept := fun (e : Dev) => e.mbxAccept fn
    (Served d fn 0x0503 → f ≠ 0 → (d.facet f).state = .running →
      let freeze := (leAt p 2 1).testBit 0
      let limit := leAt p 4 2
      let store := pagesOf (d.storeBytes f)
      let quiescing := fun (e : Dev) => e.updFacet f fun x => { x with state := .quiescing, freezing := freeze, limitMs := limit, endedCount := 0,
                                                                       quiescer := some fn, storePages := if freeze then store else x.storePages }
      (60000 < limit → exec (.facetQuiesce fn) s = out (d.mbxRefuse fn 0x3 [])) ∧
      (limit ≤ 60000 → freeze = true → d.hbmFree 0 < store → exec (.facetQuiesce fn) s = out (d.mbxRefuse fn 0x650 [])) ∧
      (limit ≤ 60000 → freeze = true → store ≤ d.hbmFree 0 →
        exec (.facetQuiesce fn) s = out (accept (((quiescing (log 0x0503)).abortHalted f).freezeWork f))) ∧
      (limit ≤ 60000 → freeze = false → limit ≠ 0 → exec (.facetQuiesce fn) s = out (accept ((quiescing (log 0x0503)).abortHalted f))) ∧
      (freeze = false → limit = 0 →
        let e := (quiescing (log 0x0503)).endWork f 0x516 true
        (e.workStopped f = true → exec (.facetQuiesce fn) s = out ((e.updFacet f fun x => { x with state := .quiesced, quiescer := none }).mbxRespond
          fn 0 (leBytes 4 1 ++ leBytes 4 (d.facet f).unfinished))) ∧
        (e.workStopped f = false → exec (.facetQuiesce fn) s =
          out (accept (e.updFacet f fun x => { x with endedCount := (d.facet f).unfinished }))))) ∧
    (∀ g, (d.facet g).state = .quiescing →
      (d.workStopped g = true → (d.facet g).freezing = false → exec (.quiesceDone g) s = out (d.quiesceEnds g)) ∧
      (d.workStopped g = true → (d.facet g).freezing = true → exec (.quiesceDone g) s = out ((d.finishRounds g).quiesceEnds g)) ∧
      ((d.facet g).freezing = false →
        let e := (d.endWork g 0x516 true).updFacet g fun v => { v with endedCount := (d.facet g).unfinished }
        (e.workStopped g = true → exec (.quiesceLimit g) s = out (e.quiesceEnds g)) ∧
        (e.workStopped g = false → exec (.quiesceLimit g) s = out e)) ∧
      let x := (d.quiesceEnds g).facet g
      x.state = (if (d.facet g).freezing then .frozen else .quiesced) ∧ x.freezing = false ∧ x.quiescer = none) ∧
    (Served d fn 0x0506 → f ≠ 0 → (d.facet f).state = .frozen →
      let n := d.imageBytes f
      let answer := leBytes 8 1 ++ leBytes 8 n
      (d.security.lifecycle ≠ 2 → exec (.facetSave fn) s = out (d.mbxRefuse fn 0x803 [])) ∧
      (d.security.lifecycle = 2 → (leAt p 2 1).testBit 0 = true → exec (.facetSave fn) s = out ((log 0x0506).mbxRespond fn 0 answer)) ∧
      (d.security.lifecycle = 2 → (leAt p 2 1).testBit 0 = false →
        let w := (log 0x0506).fresh256
        let body := (List.range (n - 64)).map (Config.sealedByte w.1)
        let head := imageHead f (d.facet f).ifSel (w.2.readId 0 0x10) n
        let digest := Config.shake256 body
        let c := w.2.pageContents f
        let e := c.2.vwrite agentGaffer 0 false none (leAt p 8 8) (head ++ digestBytes digest ++ leBytes 4 (c.2.hbmUsed f) ++ leBytes 12 0 ++ body) false
        let w' := d.fresh256
        let c' := w'.2.pageContents f
        (c'.2.vwrite agentGaffer 0 false none (leAt p 8 8) (imageHead f (d.facet f).ifSel (w'.2.readId 0 0x10) n ++
          digestBytes (Config.shake256 ((List.range (n - 64)).map (Config.sealedByte w'.1))) ++ leBytes 4 (c'.2.hbmUsed f) ++ leBytes 12 0 ++
            (List.range (n - 64)).map (Config.sealedByte w'.1)) false).1 = true → e.1 = true →
        exec (.facetSave fn) s =
          out (({ e.2 with images := e.2.images ++ [c.2.imageOf f digest (c.2.sealKey head) c.1] } : Dev).mbxRespond fn 0 answer))) ∧
    (∀ pathsOpen, Served d fn 0x0507 → let g := quotaOf (p.drop 16)
      let ready := fun (x e : Dev) (head body : List Byte) (i : Image) => x.readImage (leAt p 8 8) = (some (head, body), e) ∧ e.unseal head body = some i
      d.facetExists f = false → d.createRefusal = none →
      (∀ e, d.readImage (leAt p 8 8) = (none, e) → exec (.facetRestore fn pathsOpen) s = out (d.mbxRefuse fn 0x517 [])) ∧
      (∀ e e' head body i, ready d e' head body i → ready (log 0x0507) e head body i → e.ifRange.1 ≤ leAt head 2 2 →
        leAt head 2 2 ≤ e.ifRange.2 → e'.ifRange = e.ifRange → leAt head 48 4 ≤ g.hbmPages → leAt (p.drop 16) 0 1 = 1 → g.inRange = true →
        (e.newFacet 0).isSome = true → (e'.newFacet 0).isSome = true → e.quotaCheck f g 0 = none → e'.quotaCheck f g 0 = none →
        (∀ t, e'.restoreFacet f g i pathsOpen = .ok t → ∀ u, e.restoreFacet f g i pathsOpen = .ok u →
          exec (.facetRestore fn pathsOpen) s = out (u.mbxRespond fn 0 [])) ∧
        (∀ st, e'.restoreFacet f g i pathsOpen = .error st → exec (.facetRestore fn pathsOpen) s = out (d.mbxRefuse fn st []))))

/-- The power commands; the estimate of a period and the pacer's ceiling; the gain's calibration; and the division of the budget. -/
def Obligations.PowerBudget : Prop :=
  ∀ (s : State),
    let d := s.dev
    let out := fun e => Host.Outcome.next (s.to e)
    (∀ fn, let p := d.mbxRequest fn
      let log := fun code => d.mbxJournaled fn code fn
      (let cap := leAt p 2 2 % 4096
       (Served d fn 0x0400 → 800 ≤ cap → cap ≤ 2800 → exec (.powerSetCap fn) s =
          out (((log 0x0400).updPower fun x => { x with nextCap := cap }).mbxRespond fn 0 [])) ∧
       (Served d fn 0x0400 → (cap < 800 ∨ 2800 < cap) → exec (.powerSetCap fn) s = out (d.mbxRefuse fn 0x3 []))) ∧
      (let fixed := (leAt p 1 1).testBit 0
       let rate := leAt p 2 1
       (Served d fn 0x0401 → (fixed = true → 10 ≤ rate ∧ rate ≤ 135) → exec (.powerSetMode fn) s =
          out (((log 0x0401).setPowerMode fixed rate).mbxRespond fn 0 [])) ∧
       (Served d fn 0x0401 → fixed = true → 136 ≤ rate → rate ≤ 150 → exec (.powerSetMode fn) s = out (d.mbxRefuse fn 0x701 [])) ∧
       (Served d fn 0x0401 → fixed = true → (rate < 10 ∨ 150 < rate) → exec (.powerSetMode fn) s = out (d.mbxRefuse fn 0x3 []))) ∧
      (Served d fn 0x0402 → exec (.powerStatus fn) s =
        out (d.mbxRespond fn 0 (leBytes 8 1 ++ leBytes 8 d.power.statusWord ++ ((List.range 12).map fun n => leBytes 8 (d.dieWord n)).flatten))) ∧
      (∀ g, let num := leAt p 2 2 % 512
        Served d fn 0x0403 → num < 448 → d.group? num = some g → exec (.powerLagReport fn) s = out (d.mbxRespond fn 0 g.lagReport))) ∧
    (d.diesUp = true →
      (∀ die x, let e := d.estimatePower die x
        let d := d.updPower fun p => { p with actDimEn := p.dimEn, actPkgDarkEn := p.pkgDarkEn, actDroopMargin := p.droopMargin, actIdleUs := p.idleUs }
        (die < 12 → exec (.powerEstimate die x) s =
          out ((d.updDie die fun k => { k with periods := (e :: k.periods).take 250 }).pacerMove die e)) ∧
        (12 ≤ die → die < 16 → exec (.powerEstimate die x) s =
          out (d.updBase (die - 12) fun k => { k with periods := (e :: k.periods).take 250 }))) ∧
      (∀ v i, d.security.trace = none → ∃ e, exec (.calibrate v i) s = out e ∧ e.origins = [] ∧ e.power.inputW = v * i / 100 ∧
        80 / 100 ≤ e.power.gain ∧ e.power.gain ≤ 125 / 100 ∧
        let measured : Rat := ((v * i : Nat) : Rat) / 100
        let modelled : Rat := d.estimateSum / ((Config.efficiency d.estimateSum.floor.toNat : Rat) / 1000)
        modelled ≠ 0 →
          e.power.gain = max (80 / 100) (min (125 / 100) (d.power.gain * max (95 / 100) (min (105 / 100) (measured / modelled)))) ∧
          ((d.power.cap : Rat) < measured → 2 ≤ d.power.overWindows →
            ∀ n, n < 12 → 0 ≤ (d.die n).ceiling → (e.die n).ceiling = (d.die n).ceiling * (90 / 100)) ∧
          (measured ≤ (d.power.cap : Rat) → e.power.overWindows = 0 ∧ ∀ n, n < 12 → (e.die n).ceiling = (d.die n).ceiling)) ∧
      (let q := (d.updPower fun p => { p with cap := p.nextCap }).divideBudget
       let dim := (List.range 12).filter fun n => decide ((d.die n).state = .dim)
       let on := (List.range 12).filter fun n => decide ((d.die n).state = .on)
       let comp : Rat := max 0 ((d.power.nextCap : Rat) - ((List.range 4).map fun b => (d.base b).estimate).sum -
         (Config.conversionLoss d.power.nextCap : Rat))
       let rest := max 0 (comp - (dim.map fun n => (d.die n).estimate * (105 / 100)).sum)
       (∀ n, n < 12 → (q.die n).alloc = match (d.die n).state with
          | .dark => 0
          | .dim => (d.die n).estimate * (105 / 100)
          | .on => rest * (d.die n).mult / (on.map fun n => (d.die n).mult).sum
          | .transition => (d.die n).alloc) ∧
       exec .budgetDistribute s = out (Dev.fixedMiss (Dev.forEach (List.range 12) (fun d n => d.updDie n fun k =>
          { k with lagAge := min 10 (k.lagAge + 1) }) (if d.power.fixed then q else q.moveMultipliers.poolBudget))))) ∧
    (∀ n (e : Rat), d.security.trace = none →
      let k := d.die n
      let c := k.ceiling
      let r := ((d.pacerMove n e).die n).ceiling
      (k.alloc < e → 10 * rateUnit ≤ c → r = min (max (c * (98 / 100)) (10 * rateUnit)) (d.cMax n)) ∧
      (e ≤ k.alloc → (k.alloc * (95 / 100) ≤ e ∨ k.thermal = 2) → r = min c (d.cMax n)) ∧
      (e ≤ k.alloc → 0 ≤ c → c ≤ d.cMax n → c ≤ r ∧ r ≤ min (c * (101 / 100)) (d.cMax n)))

/-- Rails and limits: the target of an ON die's rail, acknowledgements and time-outs of rail requests, droop, over-current, temperatures and
the throttling of a die at its second thermal step. -/
def Obligations.RailsAndLimits : Prop :=
  ∀ (s : State),
    let d := s.dev
    let out := fun e => Host.Outcome.next (s.to e)
    (∀ b, b < 4 → d.diesUp = true → exec (.railUpdate b) s =
      out (Dev.forEach [3 * b, 3 * b + 1, 3 * b + 2] (fun d n => if (d.die n).state = .on then d.requestRail n (d.railTarget n) else d) d)) ∧
    (∀ n mv, (d.rail n).fault = false →
      let e := d.requestRail n mv
      ((d.rail n).outstanding = none → (d.rail n).acked ≠ mv → (12 ≤ n ∨ (d.die n).droop = []) →
        (e.rail n).outstanding = some mv ∧ (e.rail n).waiting = none) ∧
      ((d.rail n).outstanding = none → (d.rail n).acked ≠ mv → n < 12 → (d.die n).droop ≠ [] →
        (e.rail n).outstanding = none ∧ (e.rail n).waiting = some mv ∧ (e.die n).deferred = true) ∧
      (∀ m, (d.rail n).outstanding = some m → (e.rail n).outstanding = some m ∧ (e.rail n).waiting = if m = mv then none else some mv)) ∧
    (∀ n mv, n < 16 → d.lastOfTransition n = false → (d.rail n).outstanding = some mv →
      ((d.railAcked n).rail n).acked = mv ∧
      ((12 ≤ n ∨ ((d.railAcked n).die n).wanted = none) → exec (.avsAck n) s = out (d.railAcked n)) ∧
      (∀ c, n < 12 → ((d.railAcked n).die n).wanted = some c → exec (.avsAck n) s = out ((d.railAcked n).setCeiling n c))) ∧
    (∀ n mv, n < 16 → (d.rail n).outstanding = some mv →
      ((d.rail n).resent = false → exec (.avsTimeout n) s = out (d.updRail n fun r => { r with resent := true })) ∧
      ((d.rail n).resent = true → d.security.trace = none → ∃ e, exec (.avsTimeout n) s = out e ∧ (e.rail n).fault = true ∧
        (e.rail n).outstanding = none ∧ (e.rail n).acked = (d.rail n).acked ∧
        (n < 12 → (e.die n).ceiling = min (d.die n).ceiling (guaranteed (d.rail n).acked (d.die n).temp)))) ∧
    (∀ row, row < 96 → d.dieRuns (row / 8) = true → exec (.droopTrip row) s =
      out ((d.count 0x608000 1).updDie (row / 8) fun k => { k with droop := NSet.add k.droop row, cleared := NSet.del k.cleared row })) ∧
    (∀ row, row < 96 → NSet.has (d.die (row / 8)).droop row = true →
      let n := row / 8
      let e := d.updDie n fun k => { k with droop := NSet.del k.droop row }
      ((d.rail n).outstanding.isSome = true →
        exec (.droopClear row) s = out (d.updDie n fun k => { k with cleared := NSet.add k.cleared row })) ∧
      ((d.rail n).outstanding = none → ((e.die n).droop ≠ [] ∨ (d.rail n).waiting = none) → exec (.droopClear row) s = out e) ∧
      (∀ mv, (d.rail n).outstanding = none → (e.die n).droop = [] → (d.rail n).waiting = some mv →
        exec (.droopClear row) s = out (e.requestRail n mv))) ∧
    (d.power.overcurrent = false → d.boot.step ≠ 0 → d.security.trace = none → ∃ e, exec .overcurrentAssert s = out e ∧
      e.power.overcurrent = true ∧ e.host.ocAlert = true ∧
      ∀ n, n < 12 → 0 ≤ (d.die n).ceiling → (e.die n).ceiling = (d.die n).ceiling * (75 / 100)) ∧
    exec .overcurrentDeassert s = out ((d.updPower fun p => { p with overcurrent := false }).updHost fun h => { h with ocAlert := false }) ∧
    (∀ n (sensors : List Nat),
      let temp := sensors.foldl max 0
      ((n < 12 ∧ sensors.length = 8 ∧ d.dieRuns n = true) ∨ (12 ≤ n ∧ n < 16 ∧ sensors.length = 6 ∧ 2 ≤ d.boot.step)) →
        (120 ≤ temp → exec (.dieTempRead n sensors) s = out (d.powerLost.updHost fun h => { h with thermTrip := true })) ∧
        (temp < 120 → d.security.trace = none → ∃ e, exec (.dieTempRead n sensors) s = out e ∧
          (n < 12 → (e.die n).temp = temp ∧ (e.die n).ownThermal = thermalAfter (d.die n).ownThermal temp ∧
            (e.die n).thermal = max (thermalAfter (d.die n).ownThermal temp)
              (if 2 ≤ (d.base (n / 3)).thermal then (d.base (n / 3)).thermal else 0)) ∧
          (12 ≤ n → (e.base (n - 12)).temp = temp ∧ (e.base (n - 12)).thermal = thermalAfter (d.base (n - 12)).thermal temp))) ∧
    (∀ n, n < 12 → (d.die n).thermal = 2 → (100 ≤ (d.die n).temp ∨ 100 ≤ (d.base (dieBase n)).temp) →
      d.security.trace = none → 0 ≤ (d.die n).ceiling → ∃ e, exec (.thermalThrottleStep n) s = out e ∧
        (e.die n).ceiling = (d.die n).ceiling * (95 / 100)) ∧
    (∀ old temp, (110 ≤ temp → thermalAfter old temp = 3) ∧ (100 ≤ temp → temp < 110 → old < 3 → thermalAfter old temp = 2) ∧
      (95 ≤ temp → temp < 98 → old < 2 → thermalAfter old temp = 1) ∧ (temp < 93 → thermalAfter old temp = 0))

/-- Power states: DIM and its rail, gating and waking cores, a die's way into DARK and out of it, and the package's. -/
def Obligations.PowerStates : Prop :=
  ∀ (s : State),
    let d := s.dev
    let out := fun e => Host.Outcome.next (s.to e)
    (∀ n issued beats, n < 12 → d.diesUp = true →
      let occ := occupancy issued beats
      let may := d.power.actDimEn = true ∧ d.power.fixed = false ∧ (d.rail n).fault = false ∧ d.security.debug ≠ 3
      ((d.die n).state = .dim → may → exec (.dimUpdate n issued beats) s = out (d.dimSet n occ)) ∧
      ((d.die n).state = .dim → ¬ may → exec (.dimUpdate n issued beats) s = out (d.dieState n .on)) ∧
      ((d.die n).state = .on → may → occ < 25 / 100 → exec (.dimUpdate n issued beats) s = out ((d.dieState n .dim).dimSet n occ)) ∧
      ((d.die n).state = .on → 25 / 100 ≤ occ → exec (.dimUpdate n issued beats) s = .next s)) ∧
    (∀ n issued beats, n < 12 → (d.die n).state = .dim →
      (90 / 100 < occupancy issued beats → exec (.dimExit n issued beats) s = out (d.dieState n .on)) ∧
      (∀ b l, b ∈ d.blocks → coreDie b.core = n → d.launch? b.launch = some l → l.cls = 0 → exec (.dimExit n issued beats) s = out (d.dieState n .on))) ∧
    (∀ n st, d.security.trace = none → ((d.dieState n st).die n).state = st ∧ ∀ m, m ≠ n → (d.dieState n st).die m = d.die m) ∧
    (∀ c, d.mayGate c = true → ∃ e, exec (.coreIdleGate c) s = out e ∧ (e.core c).gated = true ∧
      (NSet.has d.cache.retain c = false → (e.core c).la = []) ∧
      (NSet.has d.cache.retain c = true → ∀ x, x ∈ (e.core c).la ↔ x ∈ ((d.count 0x608028 1).flushL1 c |>.core c).la ∧ x.1 < 1048576)) ∧
    (∀ c, coreValid c = true → (d.core c).gated = true →
      (d.dieRuns (coreDie c) = true → exec (.coreWake c) s = out (d.updCore c fun k => { k with gated := false })) ∧
      (d.dieRuns (coreDie c) = false → (d.die (coreDie c)).state = .transition → (d.die (coreDie c)).entering = true → exec (.coreWake c) s =
        out ((d.count 0x608030 1).updDie (coreDie c) fun k => { k with wakeLatch := true })) ∧
      ((d.die (coreDie c)).state = .dark → exec (.coreWake c) s = out (d.beginDarkExit (coreDie c)))) ∧
    (∀ n, n < 12 → d.dieRuns n = true → (∀ c ∈ dieCores n, (d.core c).gated = true) → d.isLehrDie (dieBase n) = false → (d.rail n).fault = false →
      d.debugKeeps n = false → d.dieResets n = false → exec (.darkEntry n) s =
        out (((d.dieState n .transition).updDie n fun k => { k with entering := true, wakeLatch := false, wanted := none }).requestRail n 0)) ∧
    (∀ n, n < 12 → (d.die n).state = .transition → (d.die n).entering = true → (d.rail n).outstanding = some 0 →
      let a := (d.railAcked n).updRail n fun r => { r with outstanding := none, waiting := none }
      let b := (a.updDie n fun k => { k with entering := false, droop := [], cleared := [], deferred := false }).dieState n .dark
      exec (.darkEntryComplete n) s = out (if (d.die n).wakeLatch then b.beginDarkExit n else b)) ∧
    (∀ n, n < 12 → (d.die n).state = .dark → exec (.darkExit n) s =
      out (((d.dieState n .transition).updDie n fun k => { k with entering := false }).requestRail n 650)) ∧
    (∀ n, n < 12 → (d.die n).state ≠ .dark → exec (.darkExit n) s = .next s) ∧
    (∀ n, n < 12 → (d.die n).state = .transition → (d.die n).entering = false → (d.rail n).outstanding = some 650 →
      exec (.darkExitComplete n) s = out (((d.railAcked n).dieComesOn n).fullEntered)) ∧
    (d.mayPackageDark = true →
      let a := Dev.forEach (d.slices.map Prod.fst) Dev.darkSlice d
      let b := Dev.forEach (List.range 6) (fun d n => d.updPort n fun p => p.trainedAs .down 0) a
      exec .packageDarkEntry s =
        out (((Dev.forEach [12, 13, 14, 15] (fun d n => d.requestRail n 600) b).updPower fun p => { p with pkg := 2 }).trace 0 16 2)) ∧
    (d.mayPackageDark = false → exec .packageDarkEntry s = .next s) ∧
    (d.power.pkg = 2 → exec .packageDarkExit s =
      out (((Dev.forEach [12, 13, 14, 15] (fun d n => d.requestRail n 750) d).updPower fun p => { p with pkg := 3 }).trace 0 16 3)) ∧
    (∀ ports servitors, d.power.pkg = 3 → (∀ n ∈ [12, 13, 14, 15], (d.rail n).acked = 750 ∨ (d.rail n).fault = true) → ports.length = 6 →
      servitors.length = 3 →
      let a := (Dev.forEach (List.range 6) (fun d n => d.count (d2dCounter n 0x10) 1) d).portsTrained ports
      let b := Dev.forEach ([1, 2, 3].filter fun b => !(servitors.getD (b - 1) true)) Dev.remeasured a
      let c := (b.updPower fun p => { p with pkg := 0 }).trace 0 16 0
      exec (.packageDarkExitComplete ports servitors) s =
        out (Dev.forEach (Dev.facetsThere (Dev.forEach c.heldBar4 Dev.performHeld ({ c with heldBar4 := [] } : Dev))) Dev.mbxSettle
          (Dev.forEach c.heldBar4 Dev.performHeld ({ c with heldBar4 := [] } : Dev))))

/-- The window of corrected events, damage to resident weights and its repair or loss, the decay of scores, device-fatal events; the module's
sideband addresses, sensors and reset, and the coolant's warning. -/
def Obligations.ErrorsAndModule : Prop :=
  ∀ (s : State),
    let d := s.dev
    let out := fun e => Host.Outcome.next (s.to e)
    (d.errors.corrected ≤ d.errors.actCeThresh.toNat → exec .ceWindow s =
      out (d.updErrors fun e => { e with corrected := 0, actCeThresh := e.ceThresh })) ∧
    (d.errors.actCeThresh.toNat < d.errors.corrected → exec .ceWindow s =
      out ((d.send (.aer 0 false false)).updErrors fun e => { e with corrected := 0, actCeThresh := e.ceThresh })) ∧
    (∀ model m, d.model? model = some m →
      (∀ core k, core < 768 → d.slotOf model = some k → k.loaded = true → NSet.has k.cores core = true →
        let a := d.updModel model fun x => { x with damagedCores := NSet.add x.damagedCores core, damaged := true }
        ∃ e, exec (.weightDamage model core) s = out ((e.count 0x609010 1).scoreUp core 16) ∧
          e = match a.slotOf model with
            | some s => a.updSlot s.num fun s => { s with stepping := false }
            | none => a) ∧
      (∀ core w l, 768 ≤ core → d.warmOf m.digest = some w → w.lines[(core - 768) % (max 1 w.lines.length)]? = some l →
        exec (.weightDamage model core) s = out (Dev.forEach (d.serving.models.filter fun x => decide (x.digest = w.digest) && d.isHot x.num)
          (fun d x => d.damage x.num id) (d.poisonLine l))) ∧
      (m.damaged = true →
        (∀ image source e, d.weights m = (some (image, source), e) → exec (.weightReloadDone model) s = out (e.reloaded m image source)) ∧
        (∀ e, d.weights m = (none, e) → exec (.weightReloadDone model) s = out (e.modelLost m))) ∧
      (m.damaged = false → exec (.weightReloadDone model) s = .next s)) ∧
    (∀ core, coreValid core = true → ∃ e, exec (.scoreDecay core) s = out e ∧
      Tab.get 0 e.errors.scores core = Tab.get 0 d.errors.scores core - 1 ∧
      ∀ c, c ≠ core → Tab.get 0 e.errors.scores c = Tab.get 0 d.errors.scores c) ∧
    (∀ cause, d.boot.step ≠ 0 → exec (.deviceFatal cause) s =
      out ((d.updErrors fun e => { e with fatal := true, fatalRecords := cause :: e.fatalRecords }).send (.aer 0 true true))) ∧
    (4 ≤ d.boot.step →
      (∀ eid, exec (.setEndpointId true eid) s = out (d.updHost fun h => { h with eidI3c := eid })) ∧
      (∀ eid, exec (.setEndpointId false eid) s = out (d.updHost fun h => { h with eidSmb := eid })) ∧
      (∀ addr, exec (.dynamicAddress addr) s = out (d.updHost fun h => { h with dynAddr := addr })) ∧
      (d.boot.recovery = false →
        (∀ n v, d.sensor n = some v → exec (.pldmSensorRead n) s = out (d.send (.pldm v))) ∧
        exec .pldmDeviceReset s = out ((d.send (.pldm 0)).updBoot fun b => { b with warmDue := some (b.warmDue.getD 2) }))) ∧
    (∀ inlet outlet, d.boot.step ≠ 0 →
      let e := d.updPower fun p => { p with inlet := BitVec.ofNat 8 inlet, outlet := BitVec.ofNat 8 outlet,
                                            coolantWarn := coolantWarns d.power.coolantWarn inlet outlet }
      exec (.coolantRead inlet outlet) s = out (if coolantWarns d.power.coolantWarn inlet outlet = true ∧ d.power.coolantWarn = false then
        e.glint 0 0x706 inlet outlet d.power.inputW else e)) ∧
    (∀ old inlet outlet, (45 ≤ inlet → coolantWarns old inlet outlet = true) ∧ (inlet + 15 ≤ outlet → coolantWarns old inlet outlet = true) ∧
      (inlet < 43 → outlet < inlet + 13 → coolantWarns old inlet outlet = false) ∧
      (43 ≤ inlet → inlet < 45 → outlet < inlet + 15 → coolantWarns old inlet outlet = old))

/-- Attestation, signing, firmware banks, link keys and lifecycle transitions. -/
def Obligations.SecurityCommands : Prop :=
  ∀ (s : State) (fn : Nat),
    let d := s.dev
    let p := d.mbxRequest fn
    let log := fun code => d.mbxJournaled fn code fn
    let out := fun e => Host.Outcome.next (s.to e)
    let accept := fun (e : Dev) => e.mbxAccept fn
    let bundle := fun (x : Dev) => x.readBundle fn (leAt p 8 8) (leAt p 16 8)
    let signed := fun (x : Dev) (purpose : Nat) (owner : BitVec 256) (b : List Byte) =>
      (bundle x).1 = some (b, true) ∧ (bundle x).2.authorised purpose owner (b, true) = true
    (Served d fn 0x0800 → leAt p 48 8 % 64 = 0 → d.writable fn (leAt p 48 8) 50368 = true → exec (.attestReport fn) s =
      out (accept (d.askReport fn false (BitVec.ofNat 256 (leAt p 16 32)) (leAt p 48 8)))) ∧
    (let w := d.vwrite agentGaffer fn false none (leAt p 8 8) identityChain false
     (Served d fn 0x0801 → w.1 = true → exec (.identityChain fn) s =
        out (w.2.mbxRespond fn 0 (leBytes 8 1 ++ leBytes 8 Config.identityChainBytes))) ∧
     (Served d fn 0x0801 → w.1 = false → exec (.identityChain fn) s = out (d.mbxRefuse fn 0x3 []))) ∧
    (∀ nonce, d.doeOpen fn = true → exec (.doeReportRequest fn nonce) s = out (d.askReport fn true nonce 0) ∧
      exec (.doeChainRequest fn) s = out (d.send (.doe fn identityChain))) ∧
    (d.security.signings = [] → exec .signingComplete s = .next s) ∧
    (∀ f doe nonce dest rest, d.security.signings = .report f doe nonce dest :: rest →
      let r := d.reportBody f nonce
      let report := r.1 ++ signatureOf r.1
      (doe = false → exec .signingComplete s = out ((r.2.popSigning.gwrite f dest report).finishCode f 0x0800 (leBytes 8 1 ++ leBytes 8 50368))) ∧
      (doe = true → d.host.linkUp = true → exec .signingComplete s = out (r.2.popSigning.send (.doe f report)))) ∧
    (∀ nonce dest rest, d.security.signings = .checkpoint none nonce dest :: rest → ∃ e c, exec .signingComplete s = out e ∧
      e.security.checkpoints = (c :: d.security.checkpoints).take 64 ∧ c.first = d.security.lastCheckpointed + 1 ∧
      c.last = (d.security.covers.getD (d.security.seq, d.security.lost, d.security.lastDigest)).1 ∧ c.lifecycle = d.security.lifecycle) ∧
    (let n := leAt p 16 8
     let read := fun (x : Dev) => x.gread fn (leAt p 8 8) n
     (Served d fn 0x0802 → 33554432 < n → exec (.fwStage fn) s =
        out ((d.setBank d.idleBank { d.bankOf d.idleBank with usable := false }).mbxRefuse fn 0x801 [])) ∧
     (Served d fn 0x0802 → n ≤ 33554432 →
        (∀ x ∈ [d, log 0x0802], (read x).1.ok = true ∧ (read x).1.poison = false ∧ imageSigned (read x).1.bytes = true ∧
          (read x).2.security.svnFused ≤ BitVec.ofNat 8 (leAt (read x).1.bytes 8 1)) →
        exec (.fwStage fn) s = out (((read (log 0x0802)).2.setBank (read (log 0x0802)).2.idleBank
          (bankOfImage (read (log 0x0802)).1.bytes true)).mbxRespond fn 0 [])) ∧
     (Served d fn 0x0802 → n ≤ 33554432 → (read d).1.ok = true → ((read d).1.poison = true ∨ imageSigned (read d).1.bytes = false) →
        exec (.fwStage fn) s = out (((read d).2.setBank (read d).2.idleBank (bankOfImage (read d).1.bytes false)).mbxRefuse fn 0x801 []))) ∧
    (let n := leAt p 1 1 % 2
     (Served d fn 0x0803 → (d.bankOf n).usable = true → exec (.fwActivate fn) s =
        out (((log 0x0803).updBoot fun b => { b with activated := n, retried := false }).mbxRespond fn 0 [])) ∧
     (Served d fn 0x0803 → (d.bankOf n).usable = false → exec (.fwActivate fn) s = out (d.mbxRefuse fn 0x801 []))) ∧
    (Served d fn 0x0804 →
      let new := if d.security.svnFused ≤ d.runningBank.svn then d.runningBank.svn else d.security.svnFused
      exec (.fwCommitSvn fn) s = out (((log 0x0804).updSecurity fun x => { x with svnFused := new }).mbxRespond fn 0 ([1, new] ++ leBytes 6 0))) ∧
    (let stream := leAt p 1 1 % 16
     let set := leAt p 2 1 % 2
     let slot := 4 * stream + 2 * set + leAt p 2 1 / 2 % 2
     (∀ key, Served d fn 0x0810 → stream ≤ 8 → Config.unwrapKey ((p.drop 8).take 1608) = some key →
        let e := (log 0x0810).updSecurity fun x => { x with ideKeys := Tab.put x.ideKeys slot key }
        exec (.ideKeySet fn) s =
          out ((if stream = 0 ∧ e.linkKeyed set = true then e.updSecurity fun x => { x with ideLink := true } else e).mbxRespond fn 0 [])) ∧
     (Served d fn 0x0810 → stream ≤ 8 → Config.unwrapKey ((p.drop 8).take 1608) = none → exec (.ideKeySet fn) s = out (d.mbxRefuse fn 0x80B []))) ∧
    (∀ b, Served d fn 0x0805 → d.security.lifecycle = 1 → d.security.transitions < 32 → (∀ x ∈ [d, log 0x0805], signed x forInstall (Config.bundleOwner b) b) →
      exec (.ownerInstall fn) s = out ((((bundle (log 0x0805)).2.lifecycleTo fn 2).updSecurity fun x =>
        { x with owner := some (Config.bundleOwner b), migration := some (Config.bundleMigrationKey b),
                 svnFused := if x.svnFused ≤ Config.bundleMinSvn b then Config.bundleMinSvn b else x.svnFused }).mbxRespond fn 0 [])) ∧
    (∀ b, Served d fn 0x0806 → d.security.lifecycle = 2 → d.security.transitions < 32 → d.workPresent = false →
      (∀ x ∈ [d, log 0x0806], signed x forRelease (d.security.owner.getD 0) b) →
      exec (.ownerRelease fn) s = out ((((bundle (log 0x0806)).2.lifecycleTo fn 1).erase).mbxRespond fn 0 [])) ∧
    (∀ b, Served d fn 0x0808 → (d.security.lifecycle = 1 ∨ d.security.lifecycle = 2) → d.security.transitions < 32 → d.workPresent = false →
      (∀ x ∈ [d, log 0x0808], signed x (if d.security.lifecycle = 2 then forOwnedReturn else forReturn) (d.security.owner.getD 0) b) →
      exec (.lifecycleReturn fn) s = out (((((bundle (log 0x0808)).2.lifecycleTo fn 3).erase).updSecurity fun x =>
        (x.dueCheckpoint none 0 0).startSigning).mbxRespond fn 0 [])) ∧
    (Served d fn 0x0807 → let w := (log 0x0807).fresh256
      exec (.returnChallenge fn) s = out ((w.2.updSecurity fun x => { x with nonce := some w.1 }).mbxRespond fn 0 (leBytes 16 1 ++ digestBytes w.1))) ∧
    (∀ c ∈ [(0x0805, Instr.ownerInstall fn), (0x0806, .ownerRelease fn), (0x0808, .lifecycleReturn fn)], Served d fn c.1 →
      (d.security.lifecycle = 3 → exec c.2 s = out (d.mbxRefuse fn 0x803 [])) ∧
      (d.security.lifecycle = (if c.1 = 0x0805 then 1 else 2) → 32 ≤ d.security.transitions → exec c.2 s = out (d.mbxRefuse fn 0x808 []))) ∧
    (∀ (e : Dev), let x := e.erase
      x.security.owner = none ∧ x.security.migration = none ∧ x.security.ideKeys = [] ∧ x.cache.retain = [] ∧
        (∀ a, a < farBase → Tab.get 0 x.mem a = 0) ∧ (∀ n, (x.slice n).ways = []) ∧ ∀ n, (x.core n).la = [])

/-- Debug levels and consent, DEBUG_BEAM, the trace ring, dumps, scans and tests; and the journal's commands. -/
def Obligations.DebugAndAudit : Prop :=
  ∀ (s : State) (fn : Nat),
    let d := s.dev
    let p := d.mbxRequest fn
    let log := fun code => d.mbxJournaled fn code fn
    let out := fun e => Host.Outcome.next (s.to e)
    let accept := fun (e : Dev) => e.mbxAccept fn
    let write := fun (x : Dev) (va : Nat) (bs : List Byte) => x.vwrite agentGaffer fn false none va bs false
    let answer := fun (n : Nat) => leBytes 8 1 ++ leBytes 8 n
    (let level : BitVec 2 := BitVec.ofNat 2 (leAt p 1 1)
     let f := leAt p 2 1 % 64
     let token := BitVec.ofNat 64 (leAt p 8 8)
     (Served d fn 0x0809 → levelPermitted d.security.lifecycle level = false → exec (.debugSet fn) s = out (d.mbxRefuse fn 0x806 [])) ∧
     (Served d fn 0x0809 → level ≠ 2 → level ≠ 3 → exec (.debugSet fn) s = out (((log 0x0809).setLevel level 0).mbxRespond fn 0 [])) ∧
     (Served d fn 0x0809 → levelPermitted d.security.lifecycle level = true → level = 2 →
        ((d.facet f).consent = some token → exec (.debugSet fn) s = out (((log 0x0809).setLevel 2 f).mbxRespond fn 0 [])) ∧
        ((d.facet f).consent ≠ some token → exec (.debugSet fn) s = out (d.mbxRefuse fn 0x807 []))) ∧
     (∀ b, Served d fn 0x0809 → levelPermitted d.security.lifecycle level = true → level = 3 →
        (∀ g ∈ d.facetsThere, g = 0) → d.lehr.running = false → d.lehr.starting = none →
        (∀ x ∈ [d, log 0x0809], (x.readBundle fn (leAt p 16 8) (leAt p 24 8)).1 = some (b, true) ∧
          (x.readBundle fn (leAt p 16 8) (leAt p 24 8)).2.authorised forUnlock 0 (b, true) = true ∧
          (x.readBundle fn (leAt p 16 8) (leAt p 24 8)).2.enterFull.allDiesOn = (d.readBundle fn (leAt p 16 8) (leAt p 24 8)).2.enterFull.allDiesOn) →
        let e := ((log 0x0809).readBundle fn (leAt p 16 8) (leAt p 24 8)).2.enterFull
        exec (.debugSet fn) s = out (if e.allDiesOn then e.mbxRespond fn 0 [] else accept e))) ∧
    (Served d fn 0x080A →
      ((leAt p 1 1).testBit 0 = true → exec (.debugConsent fn) s = out (((log 0x080A).voidConsent fn).mbxRespond fn 0 (answer 0))) ∧
      ((leAt p 1 1).testBit 0 = false → let w := (log 0x080A).fresh
        exec (.debugConsent fn) s = out ((w.2.updFacet fn fun x => { x with consent := some w.1 }).mbxRespond fn 0 (answer w.1.toNat)))) ∧
    (Served d fn 0x080B → d.security.debug ≠ 2 → exec (.debugBeam fn) s = out (d.mbxRefuse fn 0x806 [])) ∧
    (∀ l, Served d fn 0x080B → d.security.debug = 2 → d.namedLaunch d.security.haltFacet (leAt p 4 2) (leAt p 6 1) = some l →
      let op := leAt p 1 1 % 4
      let i := leAt p 12 1 % 32
      (op = 0 → exec (.debugBeam fn) s = out (((log 0x080B).haltLaunch l).mbxRespond fn 0 (answer (d.launchBeams l.id Beam.haltable)))) ∧
      (op = 2 → exec (.debugBeam fn) s = out (((log 0x080B).resumeHalted fun b => decide (b.launch = l.id)).mbxRespond fn 0
        (answer (d.launchBeams l.id Beam.halted)))) ∧
      (∀ b m, d.block? l.id (leAt p 8 4) = some b → b.beams[i]? = some m →
        (op = 1 → exec (.debugBeam fn) s = out (((log 0x080B).stepBeam l b i).mbxRespond fn 0 (answer (if m.halted then 1 else 0)))) ∧
        (op = 3 → (write d (leAt p 16 8) (Config.beamImage m)).1 = true → (write (log 0x080B) (leAt p 16 8) (Config.beamImage m)).1 = true →
          exec (.debugBeam fn) s = out ((write (log 0x080B) (leAt p 16 8) (Config.beamImage m)).2.mbxRespond fn 0 (answer 1))))) ∧
    (let size := leAt p 16 1 % 32
     (Served d fn 0x080C → 6 ≤ size → size ≤ 16 → d.writable fn (leAt p 8 8) (32 * 2 ^ size) = true → exec (.debugTrace fn) s =
        out (((log 0x080C).updSecurity fun x => { x with trace := some (leAt p 8 8, size), traceSeq := 0 }).mbxRespond fn 0 [])) ∧
     (Served d fn 0x080C → (size < 6 ∨ 16 < size) → exec (.debugTrace fn) s = out (d.mbxRefuse fn 0x3 []))) ∧
    (∀ bs, Served d fn 0x0811 → d.security.debug = 3 →
      (∀ x ∈ [d, log 0x0811], x.dumpObject (leAt p 1 1 % 16) (leAt p 4 2 % 1024) (leAt p 16 8) (leAt p 24 8) = some bs ∧ (write x (leAt p 8 8) bs).1 = true) →
      exec (.debugDump fn) s = out ((write (log 0x0811) (leAt p 8 8) bs).2.mbxRespond fn 0 (answer bs.length))) ∧
    (Served d fn 0x0812 → d.boot.dieReset = none → d.security.debug = 3 → leAt p 1 1 % 16 ≤ 11 →
      let die := leAt p 1 1 % 16
      let image := (List.range (Config.debugBytes 8 die)).map (Config.debugByte 8 die)
      (∀ x ∈ [d, log 0x0812], (write x (leAt p 8 8) image).1 = true) →
      exec (.debugScan fn) s = out (((write (log 0x0812) (leAt p 8 8) image).2.scanDie die).mbxRespond fn 0 (answer image.length))) ∧
    (∀ b, Served d fn 0x0813 → d.security.debug = 3 → d.security.lifecycle = 3 →
      let dies := leAt p 1 1 % 16
      let result := (List.range (Config.debugBytes 9 dies)).map (Config.debugByte 9 dies)
      let read := fun (x : Dev) => x.readBundle fn (leAt p 8 8) (leAt p 16 8)
      (∀ x ∈ [d, log 0x0813], (read x).1 = some (b, true) ∧ (read x).2.authorised forTest 0 (b, true) = true ∧
        (write (read x).2 (leAt p 24 8) result).1 = true) →
      let e := (write (read (log 0x0813)).2 (leAt p 24 8) result).2
      exec (.debugTest fn) s = out (((e.updSecurity fun x => { x with nonce := none }).updBoot fun b =>
        { b with warmDue := some (b.warmDue.getD 3) }).mbxRespond fn 0 (answer result.length))) ∧
    (∀ c ∈ [(0x0811, Instr.debugDump fn), (0x0812, .debugScan fn), (0x0813, .debugTest fn)], Served d fn c.1 → d.security.debug ≠ 3 →
      d.boot.dieReset = none → exec c.2 s = out (d.mbxRefuse fn 0x806 [])) ∧
    (Served d fn 0x080D → let first := leAt p 8 8
      let count := leAt p 16 8
      (∀ l, (leAt p 1 1).testBit 0 = false → d.security.entries first count = some l →
        let w := write d (leAt p 24 8) (l.map AuditEntry.bytes).flatten
        w.1 = true → exec (.auditRead fn) s = out (w.2.mbxRespond fn 0 (answer count))) ∧
      ((leAt p 1 1).testBit 0 = false → d.security.entries first count = none → exec (.auditRead fn) s = out (d.mbxRefuse fn 0x80A [])) ∧
      ((leAt p 1 1).testBit 0 = true → first + count ≤ d.security.checkpoints.length →
        let w := write d (leAt p 24 8) ((((d.security.checkpoints.reverse.drop first).take count).map Checkpoint.bytes).flatten)
        w.1 = true → exec (.auditRead fn) s = out (w.2.mbxRespond fn 0 (answer count)))) ∧
    (Served d fn 0x080E → leAt p 8 8 ≤ d.security.seq → exec (.auditAck fn) s =
      out (((log 0x080E).updSecurity fun x => { x with acked := max x.acked (leAt p 8 8) }).mbxRespond fn 0 [])) ∧
    (Served d fn 0x080F → d.writable fn (leAt p 48 8) 49984 = true → exec (.auditCheckpoint fn) s =
      out (accept ((log 0x080F).updSecurity fun x => (x.dueCheckpoint (some fn) (BitVec.ofNat 256 (leAt p 16 32)) (leAt p 48 8)).startSigning)))

/-- The pins of the input, the fuse and the resets; the steps of a boot and its watchdog; device and die resets. -/
def Obligations.ResetAndBoot : Prop :=
  ∀ (s : State),
    let d := s.dev
    let out := fun e => Host.Outcome.next (s.to e)
    (∀ slot, d.boot.inputGood = false → exec (.inputGood slot) s = out (d.coldBoot slot)) ∧
    (∀ slot, d.boot.inputGood = true → exec (.inputGood slot) s = .next s) ∧
    (d.boot.inputGood = true →
      exec .inputGoodDeassert s = out (d.powerLost.updBoot fun b => { b with inputGood := false, fuseOpen := false }) ∧
      exec .efuseOpen s = out (d.powerLost.updBoot fun b => { b with inputGood := false, fuseOpen := true })) ∧
    (∀ us, us < 10 → exec (.warmRst us) s = .next s) ∧
    (∀ us, 10 ≤ us → d.boot.step ≠ 0 → exec (.warmRst us) s = out (d.warmBoot 1)) ∧
    (∀ cause, d.boot.warmDue = some cause → d.boot.step ≠ 0 → exec .warmReset s = out (d.warmBoot cause)) ∧
    (d.host.perst = false →
      (d.power.perstWarm = true → d.boot.step ≠ 0 → exec .perstAssert s = out ((d.updHost fun h => { h with perst := true }).warmBoot 5)) ∧
      (d.power.perstWarm = false → exec .perstAssert s = out (d.linkLost.updHost fun h => { h with perst := true }))) ∧
    exec .perstDeassert s = out (d.updHost fun h => { h with perst := false }) ∧
    (3 ≤ d.boot.step → d.boot.step ≤ 8 → exec .bootWatchdog s = out ((d.updBoot fun b => { b with expired := true }).warmBoot 4)) ∧
    ((d.boot.step < 3 ∨ 8 < d.boot.step) → exec .bootWatchdog s = .next s) ∧
    (∀ slot cause, ∀ e ∈ [d.powerLost, d.coldBoot slot, d.warmBoot cause],
      e.security.lifecycle = d.security.lifecycle ∧ e.security.svnFused = d.security.svnFused ∧ e.security.owner = d.security.owner ∧
        e.security.banks = d.security.banks ∧ e.security.debug = 0 ∧ e.errors.retired = d.errors.retired ∧ e.host.linkUp = false ∧
        e.boot.recovery = false ∧ e.facets = Dev.reset.facets ∧ e.blocks = [] ∧ ∀ a, a < farBase → Tab.get 0 e.mem a = 0) ∧
    (∀ cause, (d.warmBoot cause).boot.step = 2 ∧ (d.warmBoot cause).boot.cause = cause ∧ (d.warmBoot cause).security.journal = d.security.journal ∧
      (d.warmBoot cause).security.seq = d.security.seq) ∧
    (∀ r,
      let next := fun (k : Nat) (e : Dev) => e.updBoot fun b => { b with step := k }
      (d.boot.step = 1 → exec (.bootStepComplete r) s =
        out (next 2 (Dev.forEach [12, 13, 14, 15] (fun d n => d.updRail n fun r => { r with acked := 750 }) d))) ∧
      (d.boot.step = 2 → exec (.bootStepComplete r) s = out d.startStep3) ∧
      (d.boot.step = 3 → let first := d.boot.triedFirst
        let ran := fun (n : Nat) => d.updBoot fun b => { b with bank := n, fallback := decide (n ≠ b.activated), step := 4 }
        (d.bankBoots first = true → exec (.bootStepComplete r) s = out (ran first)) ∧
        (d.bankBoots first = false → d.bankBoots (1 - first) = true → exec (.bootStepComplete r) s = out (ran (1 - first))) ∧
        (d.bankBoots first = false → d.bankBoots (1 - first) = false → ∃ e, exec (.bootStepComplete r) s = out e ∧ e.boot.recovery = true ∧
          e.boot.step = 8)) ∧
      (d.boot.step = 4 → r.servitors.length = 3 →
        (r.servitors = [true, true, true] → exec (.bootStepComplete r) s = out (next 5 d)) ∧
        (r.servitors ≠ [true, true, true] → ∃ e, exec (.bootStepComplete r) s = out e ∧ e.boot.recovery = true ∧ e.boot.failStep = 4 ∧
          e.boot.step = 8 ∧ ∀ b, b < 4 → (e.boot.failDies.getLsbD b = true ↔ b ≠ 0 ∧ r.servitors.getD (b - 1) true = false))) ∧
      (d.boot.step = 5 → r.portEnds.length = 6 → exec (.bootStepComplete r) s = out (d.bootPorts r.portEnds)) ∧
      (d.boot.step = 6 → r.stackRates.length = 12 → ∃ e, exec (.bootStepComplete r) s = out e ∧ e.boot.step = 7 ∧
        ∀ a, Tab.get 0 e.mem a = if a < farBase then 0 else Tab.get 0 d.mem a) ∧
      (d.boot.step = 7 → ∃ e, exec (.bootStepComplete r) s = out e ∧ e.boot.step = 8 ∧ e.cores = [] ∧ ∀ n, n < 12 → (e.rail n).acked = 650) ∧
      (d.boot.step = 8 → d.host.linkUp = false → exec (.bootStepComplete r) s = .next s) ∧
      (d.boot.step = 8 → d.host.linkUp = true → ∃ e, exec (.bootStepComplete r) s = out e ∧ e.boot.step = 9 ∧ (d.boot.recovery = false →
        e.boot.expired = false ∧ (e.bankOf d.boot.bank).proven = true))) ∧
    (∀ fn, let p := d.mbxRequest fn
      let log := fun code => d.mbxJournaled fn code fn
      (Served d fn 0x0700 → ((leAt p 1 1).testBit 0 = true ∨ ∀ f ∈ d.facetsThere, f = 0) → exec (.deviceReset fn) s =
        out (((log 0x0700).updBoot fun b => { b with warmDue := some (b.warmDue.getD 3) }).mbxRespond fn 0 [])) ∧
      (∀ f ∈ d.facetsThere, f ≠ 0 → Served d fn 0x0700 → (leAt p 1 1).testBit 0 = false → exec (.deviceReset fn) s = out (d.mbxRefuse fn 0x805 [])) ∧
      (let die := leAt p 1 1 % 16
       (Served d fn 0x0701 → die ≤ 11 → d.boot.dieReset = none → exec (.dieReset fn) s =
          out (((log 0x0701).startDieReset die (some fn)).mbxAccept fn)) ∧
       (Served d fn 0x0701 → 11 < die → exec (.dieReset fn) s = out (d.mbxRefuse fn 0x3 [])) ∧
       (Served d fn 0x0701 → die ≤ 11 → d.boot.dieReset.isSome = true → exec (.dieReset fn) s = out (d.mbxRefuse fn 0x710 [])))) ∧
    (∀ r unread answers, d.boot.dieReset = some r →
      let goto := fun (k : Nat) (e : Dev) => e.updBoot fun b => { b with dieReset := b.dieReset.map fun r => { r with step := k } }
      let base := dieBase r.die
      (r.step = 2 → exec (.dieResetStepDone unread answers) s = out (goto 3 ((d.clearDie r.die unread).holdSlices base true))) ∧
      (r.step = 3 → d.slicesIn base true = true → exec (.dieResetStepDone unread answers) s = out (goto 4 d)) ∧
      (r.step = 4 → exec (.dieResetStepDone unread answers) s = out (goto 5 ((((d.flushDie r.die answers).dieState r.die .transition).updDie r.die
        fun k => { k with entering := true, wanted := none }).requestRail r.die 0))) ∧
      (r.step = 7 → d.slicesIn base (d.portsDown base) = true → exec (.dieResetStepDone unread answers) s = out (d.endDieReset r)) ∧
      (r.step = 6 → (d.rail r.die).fault = false → (d.rail r.die).outstanding = some 650 →
        let e := (((d.railAcked r.die).freshDie r.die).dieComesOn r.die)
        exec (.dieResetStepDone unread answers) s = out (goto 7 (e.holdSlices base ((d.railAcked r.die).portsDown base))))) ∧
    (∀ die, die < 12 → d.dieRuns die = true → d.dieResets die = false → d.gafferServes = true →
      (d.boot.dieReset.isSome = true → exec (.vpHandshakeTimeout die) s = out (d.updBoot fun b => { b with dieResetQ := b.dieResetQ ++ [die] })) ∧
      (d.boot.dieReset = none → exec (.vpHandshakeTimeout die) s = out (d.startDieReset die none)))

/-! ## Whole-block rules -/

/-- The checks of every mailbox command but CORPUS_RETIRE, which may end older retirements beside its own (R307): without its request, or out of its function's turn, it does nothing; a code that no
firmware implements is refused; a request that fails a check, a payload of another version,
and a change that the audit limit refuses complete with their status; a refusal changes no other facet and no memory. -/
def Obligations.MailboxChecks : Prop :=
  ∀ (s : State) (fn va off mva : Nat) (path open' : Bool) (found : FarDevice),
    let d := s.dev
    let out := fun e => Host.Outcome.next (s.to e)
    let x := d.facet fn
    let m := x.mailbox
    d.boot.dieReset = none →
    (∀ c ∈ [(0x0001, Instr.hello fn), (0x0002, .ringSet fn), (0x0003, .ringClear fn), (0x0100, .sessionOpen fn), (0x0101, .sessionClose fn),
       (0x0102, .sessionStatus fn), (0x0200, .modelRegister fn), (0x0201, .modelDeregister fn), (0x0202, .modelPin fn), (0x0203, .modelUnpin fn),
       (0x0204, .modelStatus fn), (0x0300, .corpusRegister fn), (0x0301, .corpusAppend fn), (0x0303, .corpusDeregister fn), (0x0304, .lehrStart fn),
       (0x0305, .lehrStop fn), (0x0306, .lehrStatus fn), (0x0400, .powerSetCap fn), (0x0401, .powerSetMode fn), (0x0402, .powerStatus fn),
       (0x0403, .powerLagReport fn), (0x0500, .facetCreate fn), (0x0501, .facetDestroy fn), (0x0502, .facetResize fn), (0x0503, .facetQuiesce fn),
       (0x0504, .facetResume fn), (0x0505, .facetReset fn), (0x0506, .facetSave fn), (0x0507, .facetRestore fn path), (0x0508, .facetDirtyLog fn),
       (0x0509, .facetQuery fn)] ++
      [(0x0600, Instr.memAlloc fn mva), (0x0601, .memFree fn), (0x0602, .memSetClass fn), (0x0603, .farRescan fn found), (0x0610, .busMap fn va open'),
       (0x0611, .busUnmap fn), (0x0612, .apertureMap fn off), (0x0613, .apertureUnmap fn), (0x0620, .redGroupOpen fn), (0x0621, .redGroupClose fn),
       (0x0700, .deviceReset fn), (0x0701, .dieReset fn), (0x0800, .attestReport fn), (0x0801, .identityChain fn), (0x0802, .fwStage fn),
       (0x0803, .fwActivate fn), (0x0804, .fwCommitSvn fn), (0x0805, .ownerInstall fn), (0x0806, .ownerRelease fn), (0x0807, .returnChallenge fn),
       (0x0808, .lifecycleReturn fn), (0x0809, .debugSet fn), (0x080A, .debugConsent fn), (0x080B, .debugBeam fn), (0x080C, .debugTrace fn),
       (0x080D, .auditRead fn), (0x080E, .auditAck fn), (0x080F, .auditCheckpoint fn), (0x0810, .ideKeySet fn), (0x0811, .debugDump fn),
       (0x0812, .debugScan fn), (0x0813, .debugTest fn)],
      ((m.go = false ∨ m.accepted = true ∨ (m.command ≠ c.1 ∧ requestLengths m.command ≠ [])) → exec c.2 s = .next s) ∧
      (m.go = true → m.accepted = false → requestLengths m.command = [] → d.gafferUp = true → d.errors.fatal = false → d.mbxNext fn = true →
        ∀ st, d.mbxCheck fn = some st → exec c.2 s = out (d.mbxRefuse fn st [])) ∧
      (m.go = true → m.accepted = false → m.command = c.1 → d.gafferUp = true →
        (d.errors.fatal = true → exec c.2 s = if c.1 = 1 then out (d.mbxRefuse fn 0x680 []) else .next s) ∧
        (d.errors.fatal = false → d.mbxNext fn = false → exec c.2 s = .next s) ∧
        (d.errors.fatal = false → d.mbxNext fn = true →
          (∀ st, d.mbxCheck fn = some st → exec c.2 s = out (d.mbxRefuse fn st [])) ∧
          (d.mbxCheck fn = none → leAt m.payload 0 1 ≠ 1 → exec c.2 s = out (d.mbxRefuse fn (badVersion c.1) [])) ∧
          (d.mbxCheck fn = none → leAt m.payload 0 1 = 1 → d.security.nearFull = true → readOnlyCommand c.1 = false → auditExempt c.1 = false →
            exec c.2 s = out (d.mbxRefuse fn 0x809 []))))) ∧
    (x.state = .absent → d.mbxCheck fn = some 0x5) ∧
    (x.state ≠ .absent → m.version ≠ 1 → d.mbxCheck fn = some 0x2) ∧
    (x.state ≠ .absent → m.version = 1 → d.boot.recovery = false →
      (x.state.quiet = true → d.mbxCheck fn = some 0x514) ∧
      (x.state.quiet = false → m.command ≠ 1 → x.hello = false → d.mbxCheck fn = some 0x100) ∧
      (x.state.quiet = false → x.hello = true → requestLengths m.command = [] → d.mbxCheck fn = some 0x1) ∧
      (x.state.quiet = false → x.hello = true → requestLengths m.command ≠ [] → managerOnly m.command = true → fn ≠ 0 → d.mbxCheck fn = some 0x5)) ∧
    (∀ st p g, d.security.unacked + 1 < auditNearLimit → g ≠ fn →
      (d.mbxRefuse fn st p).facet g = d.facet g ∧ (d.mbxRefuse fn st p).mem = d.mem ∧ (d.mbxRefuse fn st p).blocks = d.blocks)

/-- The frame of the scalar instructions: no memory, no other part of the block, no other beam, and of the beam no register but DST. -/
def Obligations.ScalarFrame : Prop :=
  ∀ (s : State) (b : BeamRef) (f : KFields) (c : Ctx) (i : Instr), Issues s.dev b c →
    ScalarSource f.a → (f.mod.getLsbD 0 = false → ScalarSource f.b) → ScalarDest f.dst →
    i ∈ [.add b f, .sub b f, .mul b f, .mulhu b f, .divu b f, .remu b f, .andS b f, .orS b f, .xorS b f, .shl b f, .shr b f, .sra b f, .minS b f,
      .maxS b f, .slt b f, .sltu b f, .seq b f, .movi b f, .shor b f] →
    ∃ t c', exec i s = .next t ∧ t.dev = { s.dev with blocks := t.dev.blocks } ∧ t.dev.ctx? b = some c' ∧
      (∀ n, n < 48 → 0xC0 + n ≠ f.dst.toNat → c'.beam.sGet n = c.beam.sGet n) ∧
      { c'.beam with s := c.beam.s, pc := c.beam.pc } = c.beam ∧ c'.beam.pc = c.beam.pc + 1 ∧
      ∀ o, o ≠ b → (t.dev.ctx? o).map Ctx.beam = (s.dev.ctx? o).map Ctx.beam

/-- Score registers, SEC_CTRL, MEM_CFG_ERR and ID_TOPO: their fields, what a write does to them, zero in reserved bits, and their reset values. -/
def Obligations.RegisterContents : Prop :=
  (∀ (d : Dev) (fn : Nat) (v : BitVec 32),
      d.word fn 0x20 = 4 + 12 * 2 ^ 4 + 8 * 2 ^ 10 + 8 * 2 ^ 14 + 2 * 2 ^ 18 + 12 * 2 ^ 21 ∧ d.writeWord fn 0x20 v = d) ∧
  (∀ (d : Dev) (n : Nat), Tab.get 0 d.errors.scores n < 2048 ∧ Tab.get 0 d.errors.scores (1024 + n) < 2048 →
      (n < 768 → d.word 0 (0x207000 + 4 * n) = Tab.get 0 d.errors.scores n ∧ State.reset.dev.word 0 (0x207000 + 4 * n) = 0 ∧
        ∀ v, d.writeWord 0 (0x207000 + 4 * n) v = d) ∧
      (n < 192 → d.word 0 (0x207C00 + 4 * n) = Tab.get 0 d.errors.scores (1024 + n) ∧ State.reset.dev.word 0 (0x207C00 + 4 * n) = 0 ∧
        ∀ v, d.writeWord 0 (0x207C00 + 4 * n) v = d)) ∧
  (∀ (d : Dev) (v : BitVec 32),
      d.word 0 0x205008 = (if d.memCfgErr then 1 else 0) ∧ State.reset.dev.word 0 0x205008 = 0 ∧
      (v.extractLsb' 0 2 = 3 → (d.writeWord 0 0x205000 v).word 0 0x205008 = 1 ∧ (d.writeWord 0 0x205000 v).wbatch = d.wbatch) ∧
      (d.writeWord 0 0x205008 v).word 0 0x205008 = (if v.getLsbD 0 then 0 else d.word 0 0x205008)) ∧
  (∀ (d : Dev) (v : BitVec 32), d.security.nearFull = false →
      d.word 0 0x500008 = (if d.security.requireIde then 1 else 0) ∧ State.reset.dev.word 0 0x500008 = 0 ∧
      (d.writeWord 0 0x500008 v).security.requireIde = v.getLsbD 0 ∧
      ∀ fn, fn ≠ 0 → (d.writeWord fn 0x500008 v).security.requireIde = d.security.requireIde)

/-- What reset leaves: no command waiting, device memory with nothing listed and in its canonical form, facet 0 alone, no launch, and the registers
that have a reset value other than zero. The lifecycle, the fuses and the part are the model's choice (log 7, DESIGN CHOICE) and are not stated. -/
def Obligations.ResetState : Prop :=
  let d := State.reset.dev
  State.reset.pending = [] ∧ d.mem = [] ∧ Mem.wf d.mem = true ∧ d.facetsThere = [0] ∧ d.launches = [] ∧ d.blocks = [] ∧ d.host.linkUp = false ∧ d.power.cap = 2800 ∧
    d.power.gain = 1 ∧ (∀ e ∈ [(0x200000, 0x648), (0x205000, 0x1), (0x206000, 0x3E8081), (0x300000, 0x21), (0x300004, 0xC8), (0x400000, 0x1), (0x400004, 0), (0x40, 0x11111111), (0x44, 0x1), (0x100008, 0x400000)],
      d.word 0 e.1 = e.2) ∧
    (∀ n, n < 96 → d.word 0 (0x201000 + 0x40 * n) % 16 = 5) ∧ (∀ n, n < 6 → d.word 0 (0x204000 + 4 * n) = 0x240003) ∧
    (∀ n, n < 12 → d.word 0 (0x205100 + 4 * n) % 2 ^ 17 = 3) ∧ (∀ c, d.coreRetired c = false)
end

