-- ==== Sys2Proof/Laws/Tab.lean ====
section
/-! SUPPORT. Tables and byte memories: what is read after a write, and that every operation keeps the canonical form. -/

namespace Sys2Proof

variable {α : Type}

/-! ## Reading after writing -/

theorem Tab.get_put_same (dflt : α) (t : Tab α) (a : Nat) (v : α) : Tab.get dflt (Tab.put t a v) a = v := by
  induction t with
  | nil => simp [Tab.put, Tab.get]
  | cons e t ih =>
    obtain ⟨k, w⟩ := e
    simp only [Tab.put]
    split
    · simp [Tab.get]
    · split
      · simp [Tab.get]
      · rename_i h1 h2
        simp only [Tab.get, if_neg (Ne.symm h2), ih]

theorem Tab.get_put_other (dflt : α) (t : Tab α) {a b : Nat} (h : b ≠ a) (v : α) :
    Tab.get dflt (Tab.put t a v) b = Tab.get dflt t b := by
  induction t with
  | nil => simp [Tab.put, Tab.get, h.symm]
  | cons e t ih =>
    obtain ⟨k, w⟩ := e
    simp only [Tab.put]
    split
    · simp [Tab.get, h.symm]
    · split
      · rename_i hk
        subst hk
        simp [Tab.get, h.symm]
      · simp [Tab.get, ih]

theorem Tab.get_erase_same (dflt : α) (t : Tab α) (a : Nat) : Tab.get dflt (Tab.erase t a) a = dflt := by
  induction t with
  | nil => rfl
  | cons e t ih =>
    obtain ⟨k, w⟩ := e
    by_cases h : k = a
    · simpa [Tab.erase, h] using ih
    · simpa [Tab.erase, h, Tab.get] using ih

theorem Tab.get_erase_other (dflt : α) (t : Tab α) {a b : Nat} (h : b ≠ a) :
    Tab.get dflt (Tab.erase t a) b = Tab.get dflt t b := by
  induction t with
  | nil => rfl
  | cons e t ih =>
    obtain ⟨k, w⟩ := e
    by_cases hk : k = a
    · subst hk
      simpa [Tab.erase, Tab.get, h.symm] using ih
    · simp only [Tab.erase, ne_eq, hk, not_false_eq_true, decide_true, List.filter_cons_of_pos, Tab.get]
      split
      · rfl
      · exact ih

theorem Tab.get_set_same [DecidableEq α] (dflt : α) (t : Tab α) (a : Nat) (v : α) : Tab.get dflt (Tab.set dflt t a v) a = v := by
  unfold Tab.set
  split
  · rename_i h
    rw [Tab.get_erase_same, h]
  · exact Tab.get_put_same ..

theorem Tab.get_set_other [DecidableEq α] (dflt : α) (t : Tab α) {a b : Nat} (h : b ≠ a) (v : α) :
    Tab.get dflt (Tab.set dflt t a v) b = Tab.get dflt t b := by
  unfold Tab.set
  split
  · exact Tab.get_erase_other _ _ h
  · exact Tab.get_put_other _ _ h _

/-! ## The canonical form -/

/-- Every key of a table lies above a bound. -/
def Tab.keysAbove (lo : Nat) (t : Tab α) : Prop := ∀ e ∈ t, lo < e.1

theorem Tab.sorted_cons (e : Nat × α) (t : Tab α) : Tab.sorted (e :: t) = true ↔ Tab.keysAbove e.1 t ∧ Tab.sorted t = true := by
  obtain ⟨k, v⟩ := e
  induction t generalizing k v with
  | nil => simp [Tab.sorted, Tab.keysAbove]
  | cons x t ih =>
    obtain ⟨a, w⟩ := x
    simp only [Tab.sorted, Bool.and_eq_true, decide_eq_true_eq, ih]
    constructor
    · rintro ⟨h, ha, hs⟩
      refine ⟨?_, ha, hs⟩
      intro e he
      rcases List.mem_cons.1 he with rfl | he
      · exact h
      · exact Nat.lt_trans h (ha e he)
    · rintro ⟨h, ha, hs⟩
      exact ⟨h (a, w) (by simp), ha, hs⟩

theorem Tab.mem_put (t : Tab α) (a : Nat) (v : α) (e : Nat × α) (h : e ∈ Tab.put t a v) : e = (a, v) ∨ e ∈ t := by
  induction t with
  | nil => simpa [Tab.put] using h
  | cons x t ih =>
    obtain ⟨k, w⟩ := x
    simp only [Tab.put] at h
    split at h
    · simpa using h
    · split at h
      · rcases List.mem_cons.1 h with h | h
        · exact .inl h
        · exact .inr (List.mem_cons_of_mem _ h)
      · rcases List.mem_cons.1 h with h | h
        · exact .inr (h ▸ List.mem_cons_self ..)
        · rcases ih h with h | h
          · exact .inl h
          · exact .inr (List.mem_cons_of_mem _ h)

theorem Tab.sorted_put (t : Tab α) (a : Nat) (v : α) (h : Tab.sorted t = true) : Tab.sorted (Tab.put t a v) = true := by
  induction t with
  | nil => rfl
  | cons x t ih =>
    obtain ⟨k, w⟩ := x
    obtain ⟨hk, hs⟩ := (Tab.sorted_cons _ _).1 h
    simp only [Tab.put]
    split
    · rename_i hlt
      refine (Tab.sorted_cons _ _).2 ⟨?_, h⟩
      intro e he
      rcases List.mem_cons.1 he with rfl | he
      · exact hlt
      · exact Nat.lt_trans hlt (hk e he)
    · split
      · rename_i heq
        exact (Tab.sorted_cons _ _).2 ⟨heq ▸ hk, hs⟩
      · refine (Tab.sorted_cons _ _).2 ⟨?_, ih hs⟩
        intro e he
        rcases Tab.mem_put _ _ _ _ he with rfl | he
        · simp only; omega
        · exact hk e he

theorem Tab.sorted_filter (p : Nat × α → Bool) (t : Tab α) (h : Tab.sorted t = true) : Tab.sorted (t.filter p) = true := by
  induction t with
  | nil => rfl
  | cons e t ih =>
    obtain ⟨hk, hs⟩ := (Tab.sorted_cons _ _).1 h
    simp only [List.filter_cons]
    split
    · exact (Tab.sorted_cons _ _).2 ⟨fun x hx => hk x (List.mem_filter.1 hx).1, ih hs⟩
    · exact ih hs

theorem Tab.wf_iff [DecidableEq α] (dflt : α) (t : Tab α) : Tab.wf dflt t = true ↔ Tab.sorted t = true ∧ ∀ e ∈ t, e.2 ≠ dflt := by
  simp [Tab.wf]

theorem Tab.wf_filter [DecidableEq α] (dflt : α) (p : Nat × α → Bool) (t : Tab α) (h : Tab.wf dflt t = true) :
    Tab.wf dflt (t.filter p) = true := by
  obtain ⟨hs, hv⟩ := (Tab.wf_iff _ _).1 h
  exact (Tab.wf_iff _ _).2 ⟨Tab.sorted_filter _ _ hs, fun e he => hv e (List.mem_filter.1 he).1⟩

theorem Tab.wf_set [DecidableEq α] (dflt : α) (t : Tab α) (a : Nat) (v : α) (h : Tab.wf dflt t = true) :
    Tab.wf dflt (Tab.set dflt t a v) = true := by
  unfold Tab.set
  split
  · exact Tab.wf_filter _ _ _ h
  · rename_i hne
    obtain ⟨hs, hv⟩ := (Tab.wf_iff _ _).1 h
    refine (Tab.wf_iff _ _).2 ⟨Tab.sorted_put _ _ _ hs, fun e he => ?_⟩
    rcases Tab.mem_put _ _ _ _ he with rfl | he
    · exact hne
    · exact hv e he

/-! ## Byte memories -/

@[simp] theorem Mem.get_set_same (m : Mem) (a : Nat) (v : Byte) : Mem.get (Mem.set m a v) a = v := Tab.get_set_same ..
theorem Mem.get_set_other (m : Mem) {a b : Nat} (h : b ≠ a) (v : Byte) : Mem.get (Mem.set m a v) b = Mem.get m b :=
  Tab.get_set_other _ _ h _

/-- What a byte reads as after a store: the stored byte inside it, the old byte outside it. -/
theorem Mem.get_write (m : Mem) (a : Nat) (bs : List Byte) (b : Nat) :
    Mem.get (Mem.write m a bs) b = if a ≤ b ∧ b < a + bs.length then bs.getD (b - a) 0 else Mem.get m b := by
  induction bs generalizing m a with
  | nil => simp [Mem.write]
  | cons x xs ih =>
    simp only [Mem.write, ih, List.length_cons]
    by_cases hab : b = a
    · subst hab
      simp
    · rw [Mem.get_set_other _ hab]
      by_cases h : a + 1 ≤ b ∧ b < a + 1 + xs.length
      · have h' : a ≤ b ∧ b < a + (xs.length + 1) := by omega
        rw [if_pos h, if_pos h']
        obtain ⟨k, hk⟩ : ∃ k, b - a = k + 1 := ⟨b - a - 1, by omega⟩
        have : b - (a + 1) = k := by omega
        simp [hk, this]
      · have h' : ¬ (a ≤ b ∧ b < a + (xs.length + 1)) := by omega
        rw [if_neg h, if_neg h']

theorem Mem.wf_set (m : Mem) (a : Nat) (v : Byte) (h : Mem.wf m = true) : Mem.wf (Mem.set m a v) = true := Tab.wf_set _ _ _ _ h

theorem Mem.wf_write (m : Mem) (a : Nat) (bs : List Byte) (h : Mem.wf m = true) : Mem.wf (Mem.write m a bs) = true := by
  induction bs generalizing m a with
  | nil => exact h
  | cons x xs ih => exact ih _ _ (Mem.wf_set _ _ _ h)

theorem Mem.wf_clear (m : Mem) (lo n : Nat) (h : Mem.wf m = true) : Mem.wf (Mem.clear m lo n) = true := Tab.wf_filter _ _ _ h

theorem Mem.wf_paste (m : Mem) (lo : Nat) (cells : Mem) (h : Mem.wf m = true) : Mem.wf (Mem.paste m lo cells) = true := by
  unfold Mem.paste
  induction cells generalizing m with
  | nil => exact h
  | cons e es ih => exact ih _ (Mem.wf_set _ _ _ h)

theorem Mem.wf_setAll (m : Mem) (cells : List (Nat × Byte)) (h : Mem.wf m = true) : Mem.wf (Mem.setAll m cells) = true := by
  unfold Mem.setAll
  induction cells generalizing m with
  | nil => exact h
  | cons e es ih => exact ih _ (Mem.wf_set _ _ _ h)

theorem Mem.wf_slice (m : Mem) (lo n : Nat) (h : Mem.wf m = true) : Mem.wf (Mem.slice m lo n) = true := by
  have hf := Tab.wf_filter (0 : Byte) (fun e => decide (lo ≤ e.1) && decide (e.1 < lo + n)) m h
  unfold Mem.slice
  generalize hg : m.filter (fun e => decide (lo ≤ e.1) && decide (e.1 < lo + n)) = l at hf
  have hlo : ∀ e ∈ l, lo ≤ e.1 := by
    intro e he
    rw [← hg] at he
    have := (List.mem_filter.1 he).2
    simp only [Bool.and_eq_true, decide_eq_true_eq] at this
    exact this.1
  clear hg
  obtain ⟨hs, hv⟩ := (Tab.wf_iff _ _).1 hf
  refine (Tab.wf_iff _ _).2 ⟨?_, ?_⟩
  · clear hf hv
    induction l with
    | nil => rfl
    | cons x t ih =>
      obtain ⟨hk, ht⟩ := (Tab.sorted_cons _ _).1 hs
      refine (Tab.sorted_cons _ _).2 ⟨?_, ih (fun e he => hlo e (List.mem_cons_of_mem _ he)) ht⟩
      intro e he
      obtain ⟨y, hy, rfl⟩ := List.mem_map.1 he
      have h1 := hk y hy
      have h2 := hlo x (List.mem_cons_self ..)
      simp only
      omega
  · intro e he
    obtain ⟨y, hy, rfl⟩ := List.mem_map.1 he
    exact hv y hy

end Sys2Proof
end

