-- ==== Sys2Proof/Laws/State.lean ====
section
/-! SUPPORT. One lemma per field of the block per update of a part, and what reading a part back gives. -/

namespace Sys2Proof.Machine

variable (d : Dev)

/-! ## setFacet -/

@[simp] theorem Dev.setFacet_part48 (f : Nat) (x : Facet) : (d.setFacet f x).part48 = d.part48 := rfl
@[simp] theorem Dev.setFacet_rowMap (f : Nat) (x : Facet) : (d.setFacet f x).rowMap = d.rowMap := rfl
@[simp] theorem Dev.setFacet_latches (f : Nat) (x : Facet) : (d.setFacet f x).latches = d.latches := rfl
@[simp] theorem Dev.setFacet_beats (f : Nat) (x : Facet) : (d.setFacet f x).beats = d.beats := rfl
@[simp] theorem Dev.setFacet_counters (f : Nat) (x : Facet) : (d.setFacet f x).counters = d.counters := rfl
@[simp] theorem Dev.setFacet_facetCounters (f : Nat) (x : Facet) : (d.setFacet f x).facetCounters = d.facetCounters := rfl
@[simp] theorem Dev.setFacet_launches (f : Nat) (x : Facet) : (d.setFacet f x).launches = d.launches := rfl
@[simp] theorem Dev.setFacet_blocks (f : Nat) (x : Facet) : (d.setFacet f x).blocks = d.blocks := rfl
@[simp] theorem Dev.setFacet_clusters (f : Nat) (x : Facet) : (d.setFacet f x).clusters = d.clusters := rfl
@[simp] theorem Dev.setFacet_saved (f : Nat) (x : Facet) : (d.setFacet f x).saved = d.saved := rfl
@[simp] theorem Dev.setFacet_cores (f : Nat) (x : Facet) : (d.setFacet f x).cores = d.cores := rfl
@[simp] theorem Dev.setFacet_nextLaunch (f : Nat) (x : Facet) : (d.setFacet f x).nextLaunch = d.nextLaunch := rfl
@[simp] theorem Dev.setFacet_nextAccept (f : Nat) (x : Facet) : (d.setFacet f x).nextAccept = d.nextAccept := rfl
@[simp] theorem Dev.setFacet_slices (f : Nat) (x : Facet) : (d.setFacet f x).slices = d.slices := rfl
@[simp] theorem Dev.setFacet_net (f : Nat) (x : Facet) : (d.setFacet f x).net = d.net := rfl
@[simp] theorem Dev.setFacet_nextMsg (f : Nat) (x : Facet) : (d.setFacet f x).nextMsg = d.nextMsg := rfl
@[simp] theorem Dev.setFacet_vcTurns (f : Nat) (x : Facet) : (d.setFacet f x).vcTurns = d.vcTurns := rfl
@[simp] theorem Dev.setFacet_inTurns (f : Nat) (x : Facet) : (d.setFacet f x).inTurns = d.inTurns := rfl
@[simp] theorem Dev.setFacet_cache (f : Nat) (x : Facet) : (d.setFacet f x).cache = d.cache := rfl
@[simp] theorem Dev.setFacet_ports (f : Nat) (x : Facet) : (d.setFacet f x).ports = d.ports := rfl
@[simp] theorem Dev.setFacet_groups (f : Nat) (x : Facet) : (d.setFacet f x).groups = d.groups := rfl
@[simp] theorem Dev.setFacet_mem (f : Nat) (x : Facet) : (d.setFacet f x).mem = d.mem := rfl
@[simp] theorem Dev.setFacet_memPoison (f : Nat) (x : Facet) : (d.setFacet f x).memPoison = d.memPoison := rfl
@[simp] theorem Dev.setFacet_reads (f : Nat) (x : Facet) : (d.setFacet f x).reads = d.reads := rfl
@[simp] theorem Dev.setFacet_stackRegs (f : Nat) (x : Facet) : (d.setFacet f x).stackRegs = d.stackRegs := rfl
@[simp] theorem Dev.setFacet_wbatch (f : Nat) (x : Facet) : (d.setFacet f x).wbatch = d.wbatch := rfl
@[simp] theorem Dev.setFacet_memCfgErr (f : Nat) (x : Facet) : (d.setFacet f x).memCfgErr = d.memCfgErr := rfl
@[simp] theorem Dev.setFacet_stripes (f : Nat) (x : Facet) : (d.setFacet f x).stripes = d.stripes := rfl
@[simp] theorem Dev.setFacet_frames (f : Nat) (x : Facet) : (d.setFacet f x).frames = d.frames := rfl
@[simp] theorem Dev.setFacet_farPorts (f : Nat) (x : Facet) : (d.setFacet f x).farPorts = d.farPorts := rfl
@[simp] theorem Dev.setFacet_farWaits (f : Nat) (x : Facet) : (d.setFacet f x).farWaits = d.farWaits := rfl
@[simp] theorem Dev.setFacet_channels (f : Nat) (x : Facet) : (d.setFacet f x).channels = d.channels := rfl
@[simp] theorem Dev.setFacet_dmaGrants (f : Nat) (x : Facet) : (d.setFacet f x).dmaGrants = d.dmaGrants := rfl
@[simp] theorem Dev.setFacet_intake (f : Nat) (x : Facet) : (d.setFacet f x).intake = d.intake := rfl
@[simp] theorem Dev.setFacet_mbxTurn (f : Nat) (x : Facet) : (d.setFacet f x).mbxTurn = d.mbxTurn := rfl
@[simp] theorem Dev.setFacet_lehr (f : Nat) (x : Facet) : (d.setFacet f x).lehr = d.lehr := rfl
@[simp] theorem Dev.setFacet_serving (f : Nat) (x : Facet) : (d.setFacet f x).serving = d.serving := rfl
@[simp] theorem Dev.setFacet_power (f : Nat) (x : Facet) : (d.setFacet f x).power = d.power := rfl
@[simp] theorem Dev.setFacet_errors (f : Nat) (x : Facet) : (d.setFacet f x).errors = d.errors := rfl
@[simp] theorem Dev.setFacet_security (f : Nat) (x : Facet) : (d.setFacet f x).security = d.security := rfl
@[simp] theorem Dev.setFacet_boot (f : Nat) (x : Facet) : (d.setFacet f x).boot = d.boot := rfl
@[simp] theorem Dev.setFacet_host (f : Nat) (x : Facet) : (d.setFacet f x).host = d.host := rfl
@[simp] theorem Dev.setFacet_images (f : Nat) (x : Facet) : (d.setFacet f x).images = d.images := rfl
@[simp] theorem Dev.setFacet_heldBar4 (f : Nat) (x : Facet) : (d.setFacet f x).heldBar4 = d.heldBar4 := rfl
@[simp] theorem Dev.setFacet_sent (f : Nat) (x : Facet) : (d.setFacet f x).sent = d.sent := rfl
@[simp] theorem Dev.setFacet_freeCount (f : Nat) (x : Facet) : (d.setFacet f x).freeCount = d.freeCount := rfl
@[simp] theorem Dev.setFacet_origins (f : Nat) (x : Facet) : (d.setFacet f x).origins = d.origins := rfl
@[simp] theorem Dev.setFacet_strikes (f : Nat) (x : Facet) : (d.setFacet f x).strikes = d.strikes := rfl

/-! ## updFacet -/

@[simp] theorem Dev.updFacet_part48 (f : Nat) (g : Facet → Facet) : (d.updFacet f g).part48 = d.part48 := rfl
@[simp] theorem Dev.updFacet_rowMap (f : Nat) (g : Facet → Facet) : (d.updFacet f g).rowMap = d.rowMap := rfl
@[simp] theorem Dev.updFacet_latches (f : Nat) (g : Facet → Facet) : (d.updFacet f g).latches = d.latches := rfl
@[simp] theorem Dev.updFacet_beats (f : Nat) (g : Facet → Facet) : (d.updFacet f g).beats = d.beats := rfl
@[simp] theorem Dev.updFacet_counters (f : Nat) (g : Facet → Facet) : (d.updFacet f g).counters = d.counters := rfl
@[simp] theorem Dev.updFacet_facetCounters (f : Nat) (g : Facet → Facet) : (d.updFacet f g).facetCounters = d.facetCounters := rfl
@[simp] theorem Dev.updFacet_launches (f : Nat) (g : Facet → Facet) : (d.updFacet f g).launches = d.launches := rfl
@[simp] theorem Dev.updFacet_blocks (f : Nat) (g : Facet → Facet) : (d.updFacet f g).blocks = d.blocks := rfl
@[simp] theorem Dev.updFacet_clusters (f : Nat) (g : Facet → Facet) : (d.updFacet f g).clusters = d.clusters := rfl
@[simp] theorem Dev.updFacet_saved (f : Nat) (g : Facet → Facet) : (d.updFacet f g).saved = d.saved := rfl
@[simp] theorem Dev.updFacet_cores (f : Nat) (g : Facet → Facet) : (d.updFacet f g).cores = d.cores := rfl
@[simp] theorem Dev.updFacet_nextLaunch (f : Nat) (g : Facet → Facet) : (d.updFacet f g).nextLaunch = d.nextLaunch := rfl
@[simp] theorem Dev.updFacet_nextAccept (f : Nat) (g : Facet → Facet) : (d.updFacet f g).nextAccept = d.nextAccept := rfl
@[simp] theorem Dev.updFacet_slices (f : Nat) (g : Facet → Facet) : (d.updFacet f g).slices = d.slices := rfl
@[simp] theorem Dev.updFacet_net (f : Nat) (g : Facet → Facet) : (d.updFacet f g).net = d.net := rfl
@[simp] theorem Dev.updFacet_nextMsg (f : Nat) (g : Facet → Facet) : (d.updFacet f g).nextMsg = d.nextMsg := rfl
@[simp] theorem Dev.updFacet_vcTurns (f : Nat) (g : Facet → Facet) : (d.updFacet f g).vcTurns = d.vcTurns := rfl
@[simp] theorem Dev.updFacet_inTurns (f : Nat) (g : Facet → Facet) : (d.updFacet f g).inTurns = d.inTurns := rfl
@[simp] theorem Dev.updFacet_cache (f : Nat) (g : Facet → Facet) : (d.updFacet f g).cache = d.cache := rfl
@[simp] theorem Dev.updFacet_ports (f : Nat) (g : Facet → Facet) : (d.updFacet f g).ports = d.ports := rfl
@[simp] theorem Dev.updFacet_groups (f : Nat) (g : Facet → Facet) : (d.updFacet f g).groups = d.groups := rfl
@[simp] theorem Dev.updFacet_mem (f : Nat) (g : Facet → Facet) : (d.updFacet f g).mem = d.mem := rfl
@[simp] theorem Dev.updFacet_memPoison (f : Nat) (g : Facet → Facet) : (d.updFacet f g).memPoison = d.memPoison := rfl
@[simp] theorem Dev.updFacet_reads (f : Nat) (g : Facet → Facet) : (d.updFacet f g).reads = d.reads := rfl
@[simp] theorem Dev.updFacet_stackRegs (f : Nat) (g : Facet → Facet) : (d.updFacet f g).stackRegs = d.stackRegs := rfl
@[simp] theorem Dev.updFacet_wbatch (f : Nat) (g : Facet → Facet) : (d.updFacet f g).wbatch = d.wbatch := rfl
@[simp] theorem Dev.updFacet_memCfgErr (f : Nat) (g : Facet → Facet) : (d.updFacet f g).memCfgErr = d.memCfgErr := rfl
@[simp] theorem Dev.updFacet_stripes (f : Nat) (g : Facet → Facet) : (d.updFacet f g).stripes = d.stripes := rfl
@[simp] theorem Dev.updFacet_frames (f : Nat) (g : Facet → Facet) : (d.updFacet f g).frames = d.frames := rfl
@[simp] theorem Dev.updFacet_farPorts (f : Nat) (g : Facet → Facet) : (d.updFacet f g).farPorts = d.farPorts := rfl
@[simp] theorem Dev.updFacet_farWaits (f : Nat) (g : Facet → Facet) : (d.updFacet f g).farWaits = d.farWaits := rfl
@[simp] theorem Dev.updFacet_channels (f : Nat) (g : Facet → Facet) : (d.updFacet f g).channels = d.channels := rfl
@[simp] theorem Dev.updFacet_dmaGrants (f : Nat) (g : Facet → Facet) : (d.updFacet f g).dmaGrants = d.dmaGrants := rfl
@[simp] theorem Dev.updFacet_intake (f : Nat) (g : Facet → Facet) : (d.updFacet f g).intake = d.intake := rfl
@[simp] theorem Dev.updFacet_mbxTurn (f : Nat) (g : Facet → Facet) : (d.updFacet f g).mbxTurn = d.mbxTurn := rfl
@[simp] theorem Dev.updFacet_lehr (f : Nat) (g : Facet → Facet) : (d.updFacet f g).lehr = d.lehr := rfl
@[simp] theorem Dev.updFacet_serving (f : Nat) (g : Facet → Facet) : (d.updFacet f g).serving = d.serving := rfl
@[simp] theorem Dev.updFacet_power (f : Nat) (g : Facet → Facet) : (d.updFacet f g).power = d.power := rfl
@[simp] theorem Dev.updFacet_errors (f : Nat) (g : Facet → Facet) : (d.updFacet f g).errors = d.errors := rfl
@[simp] theorem Dev.updFacet_security (f : Nat) (g : Facet → Facet) : (d.updFacet f g).security = d.security := rfl
@[simp] theorem Dev.updFacet_boot (f : Nat) (g : Facet → Facet) : (d.updFacet f g).boot = d.boot := rfl
@[simp] theorem Dev.updFacet_host (f : Nat) (g : Facet → Facet) : (d.updFacet f g).host = d.host := rfl
@[simp] theorem Dev.updFacet_images (f : Nat) (g : Facet → Facet) : (d.updFacet f g).images = d.images := rfl
@[simp] theorem Dev.updFacet_heldBar4 (f : Nat) (g : Facet → Facet) : (d.updFacet f g).heldBar4 = d.heldBar4 := rfl
@[simp] theorem Dev.updFacet_sent (f : Nat) (g : Facet → Facet) : (d.updFacet f g).sent = d.sent := rfl
@[simp] theorem Dev.updFacet_freeCount (f : Nat) (g : Facet → Facet) : (d.updFacet f g).freeCount = d.freeCount := rfl
@[simp] theorem Dev.updFacet_origins (f : Nat) (g : Facet → Facet) : (d.updFacet f g).origins = d.origins := rfl
@[simp] theorem Dev.updFacet_strikes (f : Nat) (g : Facet → Facet) : (d.updFacet f g).strikes = d.strikes := rfl

/-! ## setCore -/

@[simp] theorem Dev.setCore_part48 (c : Nat) (x : Core) : (d.setCore c x).part48 = d.part48 := rfl
@[simp] theorem Dev.setCore_rowMap (c : Nat) (x : Core) : (d.setCore c x).rowMap = d.rowMap := rfl
@[simp] theorem Dev.setCore_latches (c : Nat) (x : Core) : (d.setCore c x).latches = d.latches := rfl
@[simp] theorem Dev.setCore_beats (c : Nat) (x : Core) : (d.setCore c x).beats = d.beats := rfl
@[simp] theorem Dev.setCore_counters (c : Nat) (x : Core) : (d.setCore c x).counters = d.counters := rfl
@[simp] theorem Dev.setCore_facetCounters (c : Nat) (x : Core) : (d.setCore c x).facetCounters = d.facetCounters := rfl
@[simp] theorem Dev.setCore_launches (c : Nat) (x : Core) : (d.setCore c x).launches = d.launches := rfl
@[simp] theorem Dev.setCore_blocks (c : Nat) (x : Core) : (d.setCore c x).blocks = d.blocks := rfl
@[simp] theorem Dev.setCore_clusters (c : Nat) (x : Core) : (d.setCore c x).clusters = d.clusters := rfl
@[simp] theorem Dev.setCore_saved (c : Nat) (x : Core) : (d.setCore c x).saved = d.saved := rfl
@[simp] theorem Dev.setCore_nextLaunch (c : Nat) (x : Core) : (d.setCore c x).nextLaunch = d.nextLaunch := rfl
@[simp] theorem Dev.setCore_nextAccept (c : Nat) (x : Core) : (d.setCore c x).nextAccept = d.nextAccept := rfl
@[simp] theorem Dev.setCore_slices (c : Nat) (x : Core) : (d.setCore c x).slices = d.slices := rfl
@[simp] theorem Dev.setCore_net (c : Nat) (x : Core) : (d.setCore c x).net = d.net := rfl
@[simp] theorem Dev.setCore_nextMsg (c : Nat) (x : Core) : (d.setCore c x).nextMsg = d.nextMsg := rfl
@[simp] theorem Dev.setCore_vcTurns (c : Nat) (x : Core) : (d.setCore c x).vcTurns = d.vcTurns := rfl
@[simp] theorem Dev.setCore_inTurns (c : Nat) (x : Core) : (d.setCore c x).inTurns = d.inTurns := rfl
@[simp] theorem Dev.setCore_cache (c : Nat) (x : Core) : (d.setCore c x).cache = d.cache := rfl
@[simp] theorem Dev.setCore_ports (c : Nat) (x : Core) : (d.setCore c x).ports = d.ports := rfl
@[simp] theorem Dev.setCore_groups (c : Nat) (x : Core) : (d.setCore c x).groups = d.groups := rfl
@[simp] theorem Dev.setCore_mem (c : Nat) (x : Core) : (d.setCore c x).mem = d.mem := rfl
@[simp] theorem Dev.setCore_memPoison (c : Nat) (x : Core) : (d.setCore c x).memPoison = d.memPoison := rfl
@[simp] theorem Dev.setCore_reads (c : Nat) (x : Core) : (d.setCore c x).reads = d.reads := rfl
@[simp] theorem Dev.setCore_stackRegs (c : Nat) (x : Core) : (d.setCore c x).stackRegs = d.stackRegs := rfl
@[simp] theorem Dev.setCore_wbatch (c : Nat) (x : Core) : (d.setCore c x).wbatch = d.wbatch := rfl
@[simp] theorem Dev.setCore_memCfgErr (c : Nat) (x : Core) : (d.setCore c x).memCfgErr = d.memCfgErr := rfl
@[simp] theorem Dev.setCore_stripes (c : Nat) (x : Core) : (d.setCore c x).stripes = d.stripes := rfl
@[simp] theorem Dev.setCore_frames (c : Nat) (x : Core) : (d.setCore c x).frames = d.frames := rfl
@[simp] theorem Dev.setCore_farPorts (c : Nat) (x : Core) : (d.setCore c x).farPorts = d.farPorts := rfl
@[simp] theorem Dev.setCore_farWaits (c : Nat) (x : Core) : (d.setCore c x).farWaits = d.farWaits := rfl
@[simp] theorem Dev.setCore_facets (c : Nat) (x : Core) : (d.setCore c x).facets = d.facets := rfl
@[simp] theorem Dev.setCore_channels (c : Nat) (x : Core) : (d.setCore c x).channels = d.channels := rfl
@[simp] theorem Dev.setCore_dmaGrants (c : Nat) (x : Core) : (d.setCore c x).dmaGrants = d.dmaGrants := rfl
@[simp] theorem Dev.setCore_intake (c : Nat) (x : Core) : (d.setCore c x).intake = d.intake := rfl
@[simp] theorem Dev.setCore_mbxTurn (c : Nat) (x : Core) : (d.setCore c x).mbxTurn = d.mbxTurn := rfl
@[simp] theorem Dev.setCore_lehr (c : Nat) (x : Core) : (d.setCore c x).lehr = d.lehr := rfl
@[simp] theorem Dev.setCore_serving (c : Nat) (x : Core) : (d.setCore c x).serving = d.serving := rfl
@[simp] theorem Dev.setCore_power (c : Nat) (x : Core) : (d.setCore c x).power = d.power := rfl
@[simp] theorem Dev.setCore_errors (c : Nat) (x : Core) : (d.setCore c x).errors = d.errors := rfl
@[simp] theorem Dev.setCore_security (c : Nat) (x : Core) : (d.setCore c x).security = d.security := rfl
@[simp] theorem Dev.setCore_boot (c : Nat) (x : Core) : (d.setCore c x).boot = d.boot := rfl
@[simp] theorem Dev.setCore_host (c : Nat) (x : Core) : (d.setCore c x).host = d.host := rfl
@[simp] theorem Dev.setCore_images (c : Nat) (x : Core) : (d.setCore c x).images = d.images := rfl
@[simp] theorem Dev.setCore_heldBar4 (c : Nat) (x : Core) : (d.setCore c x).heldBar4 = d.heldBar4 := rfl
@[simp] theorem Dev.setCore_sent (c : Nat) (x : Core) : (d.setCore c x).sent = d.sent := rfl
@[simp] theorem Dev.setCore_freeCount (c : Nat) (x : Core) : (d.setCore c x).freeCount = d.freeCount := rfl
@[simp] theorem Dev.setCore_origins (c : Nat) (x : Core) : (d.setCore c x).origins = d.origins := rfl
@[simp] theorem Dev.setCore_strikes (c : Nat) (x : Core) : (d.setCore c x).strikes = d.strikes := rfl

/-! ## updCore -/

@[simp] theorem Dev.updCore_part48 (c : Nat) (g : Core → Core) : (d.updCore c g).part48 = d.part48 := rfl
@[simp] theorem Dev.updCore_rowMap (c : Nat) (g : Core → Core) : (d.updCore c g).rowMap = d.rowMap := rfl
@[simp] theorem Dev.updCore_latches (c : Nat) (g : Core → Core) : (d.updCore c g).latches = d.latches := rfl
@[simp] theorem Dev.updCore_beats (c : Nat) (g : Core → Core) : (d.updCore c g).beats = d.beats := rfl
@[simp] theorem Dev.updCore_counters (c : Nat) (g : Core → Core) : (d.updCore c g).counters = d.counters := rfl
@[simp] theorem Dev.updCore_facetCounters (c : Nat) (g : Core → Core) : (d.updCore c g).facetCounters = d.facetCounters := rfl
@[simp] theorem Dev.updCore_launches (c : Nat) (g : Core → Core) : (d.updCore c g).launches = d.launches := rfl
@[simp] theorem Dev.updCore_blocks (c : Nat) (g : Core → Core) : (d.updCore c g).blocks = d.blocks := rfl
@[simp] theorem Dev.updCore_clusters (c : Nat) (g : Core → Core) : (d.updCore c g).clusters = d.clusters := rfl
@[simp] theorem Dev.updCore_saved (c : Nat) (g : Core → Core) : (d.updCore c g).saved = d.saved := rfl
@[simp] theorem Dev.updCore_nextLaunch (c : Nat) (g : Core → Core) : (d.updCore c g).nextLaunch = d.nextLaunch := rfl
@[simp] theorem Dev.updCore_nextAccept (c : Nat) (g : Core → Core) : (d.updCore c g).nextAccept = d.nextAccept := rfl
@[simp] theorem Dev.updCore_slices (c : Nat) (g : Core → Core) : (d.updCore c g).slices = d.slices := rfl
@[simp] theorem Dev.updCore_net (c : Nat) (g : Core → Core) : (d.updCore c g).net = d.net := rfl
@[simp] theorem Dev.updCore_nextMsg (c : Nat) (g : Core → Core) : (d.updCore c g).nextMsg = d.nextMsg := rfl
@[simp] theorem Dev.updCore_vcTurns (c : Nat) (g : Core → Core) : (d.updCore c g).vcTurns = d.vcTurns := rfl
@[simp] theorem Dev.updCore_inTurns (c : Nat) (g : Core → Core) : (d.updCore c g).inTurns = d.inTurns := rfl
@[simp] theorem Dev.updCore_cache (c : Nat) (g : Core → Core) : (d.updCore c g).cache = d.cache := rfl
@[simp] theorem Dev.updCore_ports (c : Nat) (g : Core → Core) : (d.updCore c g).ports = d.ports := rfl
@[simp] theorem Dev.updCore_groups (c : Nat) (g : Core → Core) : (d.updCore c g).groups = d.groups := rfl
@[simp] theorem Dev.updCore_mem (c : Nat) (g : Core → Core) : (d.updCore c g).mem = d.mem := rfl
@[simp] theorem Dev.updCore_memPoison (c : Nat) (g : Core → Core) : (d.updCore c g).memPoison = d.memPoison := rfl
@[simp] theorem Dev.updCore_reads (c : Nat) (g : Core → Core) : (d.updCore c g).reads = d.reads := rfl
@[simp] theorem Dev.updCore_stackRegs (c : Nat) (g : Core → Core) : (d.updCore c g).stackRegs = d.stackRegs := rfl
@[simp] theorem Dev.updCore_wbatch (c : Nat) (g : Core → Core) : (d.updCore c g).wbatch = d.wbatch := rfl
@[simp] theorem Dev.updCore_memCfgErr (c : Nat) (g : Core → Core) : (d.updCore c g).memCfgErr = d.memCfgErr := rfl
@[simp] theorem Dev.updCore_stripes (c : Nat) (g : Core → Core) : (d.updCore c g).stripes = d.stripes := rfl
@[simp] theorem Dev.updCore_frames (c : Nat) (g : Core → Core) : (d.updCore c g).frames = d.frames := rfl
@[simp] theorem Dev.updCore_farPorts (c : Nat) (g : Core → Core) : (d.updCore c g).farPorts = d.farPorts := rfl
@[simp] theorem Dev.updCore_farWaits (c : Nat) (g : Core → Core) : (d.updCore c g).farWaits = d.farWaits := rfl
@[simp] theorem Dev.updCore_facets (c : Nat) (g : Core → Core) : (d.updCore c g).facets = d.facets := rfl
@[simp] theorem Dev.updCore_channels (c : Nat) (g : Core → Core) : (d.updCore c g).channels = d.channels := rfl
@[simp] theorem Dev.updCore_dmaGrants (c : Nat) (g : Core → Core) : (d.updCore c g).dmaGrants = d.dmaGrants := rfl
@[simp] theorem Dev.updCore_intake (c : Nat) (g : Core → Core) : (d.updCore c g).intake = d.intake := rfl
@[simp] theorem Dev.updCore_mbxTurn (c : Nat) (g : Core → Core) : (d.updCore c g).mbxTurn = d.mbxTurn := rfl
@[simp] theorem Dev.updCore_lehr (c : Nat) (g : Core → Core) : (d.updCore c g).lehr = d.lehr := rfl
@[simp] theorem Dev.updCore_serving (c : Nat) (g : Core → Core) : (d.updCore c g).serving = d.serving := rfl
@[simp] theorem Dev.updCore_power (c : Nat) (g : Core → Core) : (d.updCore c g).power = d.power := rfl
@[simp] theorem Dev.updCore_errors (c : Nat) (g : Core → Core) : (d.updCore c g).errors = d.errors := rfl
@[simp] theorem Dev.updCore_security (c : Nat) (g : Core → Core) : (d.updCore c g).security = d.security := rfl
@[simp] theorem Dev.updCore_boot (c : Nat) (g : Core → Core) : (d.updCore c g).boot = d.boot := rfl
@[simp] theorem Dev.updCore_host (c : Nat) (g : Core → Core) : (d.updCore c g).host = d.host := rfl
@[simp] theorem Dev.updCore_images (c : Nat) (g : Core → Core) : (d.updCore c g).images = d.images := rfl
@[simp] theorem Dev.updCore_heldBar4 (c : Nat) (g : Core → Core) : (d.updCore c g).heldBar4 = d.heldBar4 := rfl
@[simp] theorem Dev.updCore_sent (c : Nat) (g : Core → Core) : (d.updCore c g).sent = d.sent := rfl
@[simp] theorem Dev.updCore_freeCount (c : Nat) (g : Core → Core) : (d.updCore c g).freeCount = d.freeCount := rfl
@[simp] theorem Dev.updCore_origins (c : Nat) (g : Core → Core) : (d.updCore c g).origins = d.origins := rfl
@[simp] theorem Dev.updCore_strikes (c : Nat) (g : Core → Core) : (d.updCore c g).strikes = d.strikes := rfl

/-! ## updSlice -/

@[simp] theorem Dev.updSlice_part48 (n : Nat) (g : Slice → Slice) : (d.updSlice n g).part48 = d.part48 := rfl
@[simp] theorem Dev.updSlice_rowMap (n : Nat) (g : Slice → Slice) : (d.updSlice n g).rowMap = d.rowMap := rfl
@[simp] theorem Dev.updSlice_latches (n : Nat) (g : Slice → Slice) : (d.updSlice n g).latches = d.latches := rfl
@[simp] theorem Dev.updSlice_beats (n : Nat) (g : Slice → Slice) : (d.updSlice n g).beats = d.beats := rfl
@[simp] theorem Dev.updSlice_counters (n : Nat) (g : Slice → Slice) : (d.updSlice n g).counters = d.counters := rfl
@[simp] theorem Dev.updSlice_facetCounters (n : Nat) (g : Slice → Slice) : (d.updSlice n g).facetCounters = d.facetCounters := rfl
@[simp] theorem Dev.updSlice_launches (n : Nat) (g : Slice → Slice) : (d.updSlice n g).launches = d.launches := rfl
@[simp] theorem Dev.updSlice_blocks (n : Nat) (g : Slice → Slice) : (d.updSlice n g).blocks = d.blocks := rfl
@[simp] theorem Dev.updSlice_clusters (n : Nat) (g : Slice → Slice) : (d.updSlice n g).clusters = d.clusters := rfl
@[simp] theorem Dev.updSlice_saved (n : Nat) (g : Slice → Slice) : (d.updSlice n g).saved = d.saved := rfl
@[simp] theorem Dev.updSlice_cores (n : Nat) (g : Slice → Slice) : (d.updSlice n g).cores = d.cores := rfl
@[simp] theorem Dev.updSlice_nextLaunch (n : Nat) (g : Slice → Slice) : (d.updSlice n g).nextLaunch = d.nextLaunch := rfl
@[simp] theorem Dev.updSlice_nextAccept (n : Nat) (g : Slice → Slice) : (d.updSlice n g).nextAccept = d.nextAccept := rfl
@[simp] theorem Dev.updSlice_net (n : Nat) (g : Slice → Slice) : (d.updSlice n g).net = d.net := rfl
@[simp] theorem Dev.updSlice_nextMsg (n : Nat) (g : Slice → Slice) : (d.updSlice n g).nextMsg = d.nextMsg := rfl
@[simp] theorem Dev.updSlice_vcTurns (n : Nat) (g : Slice → Slice) : (d.updSlice n g).vcTurns = d.vcTurns := rfl
@[simp] theorem Dev.updSlice_inTurns (n : Nat) (g : Slice → Slice) : (d.updSlice n g).inTurns = d.inTurns := rfl
@[simp] theorem Dev.updSlice_cache (n : Nat) (g : Slice → Slice) : (d.updSlice n g).cache = d.cache := rfl
@[simp] theorem Dev.updSlice_ports (n : Nat) (g : Slice → Slice) : (d.updSlice n g).ports = d.ports := rfl
@[simp] theorem Dev.updSlice_groups (n : Nat) (g : Slice → Slice) : (d.updSlice n g).groups = d.groups := rfl
@[simp] theorem Dev.updSlice_mem (n : Nat) (g : Slice → Slice) : (d.updSlice n g).mem = d.mem := rfl
@[simp] theorem Dev.updSlice_memPoison (n : Nat) (g : Slice → Slice) : (d.updSlice n g).memPoison = d.memPoison := rfl
@[simp] theorem Dev.updSlice_reads (n : Nat) (g : Slice → Slice) : (d.updSlice n g).reads = d.reads := rfl
@[simp] theorem Dev.updSlice_stackRegs (n : Nat) (g : Slice → Slice) : (d.updSlice n g).stackRegs = d.stackRegs := rfl
@[simp] theorem Dev.updSlice_wbatch (n : Nat) (g : Slice → Slice) : (d.updSlice n g).wbatch = d.wbatch := rfl
@[simp] theorem Dev.updSlice_memCfgErr (n : Nat) (g : Slice → Slice) : (d.updSlice n g).memCfgErr = d.memCfgErr := rfl
@[simp] theorem Dev.updSlice_stripes (n : Nat) (g : Slice → Slice) : (d.updSlice n g).stripes = d.stripes := rfl
@[simp] theorem Dev.updSlice_frames (n : Nat) (g : Slice → Slice) : (d.updSlice n g).frames = d.frames := rfl
@[simp] theorem Dev.updSlice_farPorts (n : Nat) (g : Slice → Slice) : (d.updSlice n g).farPorts = d.farPorts := rfl
@[simp] theorem Dev.updSlice_farWaits (n : Nat) (g : Slice → Slice) : (d.updSlice n g).farWaits = d.farWaits := rfl
@[simp] theorem Dev.updSlice_facets (n : Nat) (g : Slice → Slice) : (d.updSlice n g).facets = d.facets := rfl
@[simp] theorem Dev.updSlice_channels (n : Nat) (g : Slice → Slice) : (d.updSlice n g).channels = d.channels := rfl
@[simp] theorem Dev.updSlice_dmaGrants (n : Nat) (g : Slice → Slice) : (d.updSlice n g).dmaGrants = d.dmaGrants := rfl
@[simp] theorem Dev.updSlice_intake (n : Nat) (g : Slice → Slice) : (d.updSlice n g).intake = d.intake := rfl
@[simp] theorem Dev.updSlice_mbxTurn (n : Nat) (g : Slice → Slice) : (d.updSlice n g).mbxTurn = d.mbxTurn := rfl
@[simp] theorem Dev.updSlice_lehr (n : Nat) (g : Slice → Slice) : (d.updSlice n g).lehr = d.lehr := rfl
@[simp] theorem Dev.updSlice_serving (n : Nat) (g : Slice → Slice) : (d.updSlice n g).serving = d.serving := rfl
@[simp] theorem Dev.updSlice_power (n : Nat) (g : Slice → Slice) : (d.updSlice n g).power = d.power := rfl
@[simp] theorem Dev.updSlice_errors (n : Nat) (g : Slice → Slice) : (d.updSlice n g).errors = d.errors := rfl
@[simp] theorem Dev.updSlice_security (n : Nat) (g : Slice → Slice) : (d.updSlice n g).security = d.security := rfl
@[simp] theorem Dev.updSlice_boot (n : Nat) (g : Slice → Slice) : (d.updSlice n g).boot = d.boot := rfl
@[simp] theorem Dev.updSlice_host (n : Nat) (g : Slice → Slice) : (d.updSlice n g).host = d.host := rfl
@[simp] theorem Dev.updSlice_images (n : Nat) (g : Slice → Slice) : (d.updSlice n g).images = d.images := rfl
@[simp] theorem Dev.updSlice_heldBar4 (n : Nat) (g : Slice → Slice) : (d.updSlice n g).heldBar4 = d.heldBar4 := rfl
@[simp] theorem Dev.updSlice_sent (n : Nat) (g : Slice → Slice) : (d.updSlice n g).sent = d.sent := rfl
@[simp] theorem Dev.updSlice_freeCount (n : Nat) (g : Slice → Slice) : (d.updSlice n g).freeCount = d.freeCount := rfl
@[simp] theorem Dev.updSlice_origins (n : Nat) (g : Slice → Slice) : (d.updSlice n g).origins = d.origins := rfl
@[simp] theorem Dev.updSlice_strikes (n : Nat) (g : Slice → Slice) : (d.updSlice n g).strikes = d.strikes := rfl

/-! ## updPort -/

@[simp] theorem Dev.updPort_part48 (n : Nat) (g : PairPort → PairPort) : (d.updPort n g).part48 = d.part48 := rfl
@[simp] theorem Dev.updPort_rowMap (n : Nat) (g : PairPort → PairPort) : (d.updPort n g).rowMap = d.rowMap := rfl
@[simp] theorem Dev.updPort_latches (n : Nat) (g : PairPort → PairPort) : (d.updPort n g).latches = d.latches := rfl
@[simp] theorem Dev.updPort_beats (n : Nat) (g : PairPort → PairPort) : (d.updPort n g).beats = d.beats := rfl
@[simp] theorem Dev.updPort_counters (n : Nat) (g : PairPort → PairPort) : (d.updPort n g).counters = d.counters := rfl
@[simp] theorem Dev.updPort_facetCounters (n : Nat) (g : PairPort → PairPort) : (d.updPort n g).facetCounters = d.facetCounters := rfl
@[simp] theorem Dev.updPort_launches (n : Nat) (g : PairPort → PairPort) : (d.updPort n g).launches = d.launches := rfl
@[simp] theorem Dev.updPort_blocks (n : Nat) (g : PairPort → PairPort) : (d.updPort n g).blocks = d.blocks := rfl
@[simp] theorem Dev.updPort_clusters (n : Nat) (g : PairPort → PairPort) : (d.updPort n g).clusters = d.clusters := rfl
@[simp] theorem Dev.updPort_saved (n : Nat) (g : PairPort → PairPort) : (d.updPort n g).saved = d.saved := rfl
@[simp] theorem Dev.updPort_cores (n : Nat) (g : PairPort → PairPort) : (d.updPort n g).cores = d.cores := rfl
@[simp] theorem Dev.updPort_nextLaunch (n : Nat) (g : PairPort → PairPort) : (d.updPort n g).nextLaunch = d.nextLaunch := rfl
@[simp] theorem Dev.updPort_nextAccept (n : Nat) (g : PairPort → PairPort) : (d.updPort n g).nextAccept = d.nextAccept := rfl
@[simp] theorem Dev.updPort_slices (n : Nat) (g : PairPort → PairPort) : (d.updPort n g).slices = d.slices := rfl
@[simp] theorem Dev.updPort_net (n : Nat) (g : PairPort → PairPort) : (d.updPort n g).net = d.net := rfl
@[simp] theorem Dev.updPort_nextMsg (n : Nat) (g : PairPort → PairPort) : (d.updPort n g).nextMsg = d.nextMsg := rfl
@[simp] theorem Dev.updPort_vcTurns (n : Nat) (g : PairPort → PairPort) : (d.updPort n g).vcTurns = d.vcTurns := rfl
@[simp] theorem Dev.updPort_inTurns (n : Nat) (g : PairPort → PairPort) : (d.updPort n g).inTurns = d.inTurns := rfl
@[simp] theorem Dev.updPort_cache (n : Nat) (g : PairPort → PairPort) : (d.updPort n g).cache = d.cache := rfl
@[simp] theorem Dev.updPort_groups (n : Nat) (g : PairPort → PairPort) : (d.updPort n g).groups = d.groups := rfl
@[simp] theorem Dev.updPort_mem (n : Nat) (g : PairPort → PairPort) : (d.updPort n g).mem = d.mem := rfl
@[simp] theorem Dev.updPort_memPoison (n : Nat) (g : PairPort → PairPort) : (d.updPort n g).memPoison = d.memPoison := rfl
@[simp] theorem Dev.updPort_reads (n : Nat) (g : PairPort → PairPort) : (d.updPort n g).reads = d.reads := rfl
@[simp] theorem Dev.updPort_stackRegs (n : Nat) (g : PairPort → PairPort) : (d.updPort n g).stackRegs = d.stackRegs := rfl
@[simp] theorem Dev.updPort_wbatch (n : Nat) (g : PairPort → PairPort) : (d.updPort n g).wbatch = d.wbatch := rfl
@[simp] theorem Dev.updPort_memCfgErr (n : Nat) (g : PairPort → PairPort) : (d.updPort n g).memCfgErr = d.memCfgErr := rfl
@[simp] theorem Dev.updPort_stripes (n : Nat) (g : PairPort → PairPort) : (d.updPort n g).stripes = d.stripes := rfl
@[simp] theorem Dev.updPort_frames (n : Nat) (g : PairPort → PairPort) : (d.updPort n g).frames = d.frames := rfl
@[simp] theorem Dev.updPort_farPorts (n : Nat) (g : PairPort → PairPort) : (d.updPort n g).farPorts = d.farPorts := rfl
@[simp] theorem Dev.updPort_farWaits (n : Nat) (g : PairPort → PairPort) : (d.updPort n g).farWaits = d.farWaits := rfl
@[simp] theorem Dev.updPort_facets (n : Nat) (g : PairPort → PairPort) : (d.updPort n g).facets = d.facets := rfl
@[simp] theorem Dev.updPort_channels (n : Nat) (g : PairPort → PairPort) : (d.updPort n g).channels = d.channels := rfl
@[simp] theorem Dev.updPort_dmaGrants (n : Nat) (g : PairPort → PairPort) : (d.updPort n g).dmaGrants = d.dmaGrants := rfl
@[simp] theorem Dev.updPort_intake (n : Nat) (g : PairPort → PairPort) : (d.updPort n g).intake = d.intake := rfl
@[simp] theorem Dev.updPort_mbxTurn (n : Nat) (g : PairPort → PairPort) : (d.updPort n g).mbxTurn = d.mbxTurn := rfl
@[simp] theorem Dev.updPort_lehr (n : Nat) (g : PairPort → PairPort) : (d.updPort n g).lehr = d.lehr := rfl
@[simp] theorem Dev.updPort_serving (n : Nat) (g : PairPort → PairPort) : (d.updPort n g).serving = d.serving := rfl
@[simp] theorem Dev.updPort_power (n : Nat) (g : PairPort → PairPort) : (d.updPort n g).power = d.power := rfl
@[simp] theorem Dev.updPort_errors (n : Nat) (g : PairPort → PairPort) : (d.updPort n g).errors = d.errors := rfl
@[simp] theorem Dev.updPort_security (n : Nat) (g : PairPort → PairPort) : (d.updPort n g).security = d.security := rfl
@[simp] theorem Dev.updPort_boot (n : Nat) (g : PairPort → PairPort) : (d.updPort n g).boot = d.boot := rfl
@[simp] theorem Dev.updPort_host (n : Nat) (g : PairPort → PairPort) : (d.updPort n g).host = d.host := rfl
@[simp] theorem Dev.updPort_images (n : Nat) (g : PairPort → PairPort) : (d.updPort n g).images = d.images := rfl
@[simp] theorem Dev.updPort_heldBar4 (n : Nat) (g : PairPort → PairPort) : (d.updPort n g).heldBar4 = d.heldBar4 := rfl
@[simp] theorem Dev.updPort_sent (n : Nat) (g : PairPort → PairPort) : (d.updPort n g).sent = d.sent := rfl
@[simp] theorem Dev.updPort_freeCount (n : Nat) (g : PairPort → PairPort) : (d.updPort n g).freeCount = d.freeCount := rfl
@[simp] theorem Dev.updPort_origins (n : Nat) (g : PairPort → PairPort) : (d.updPort n g).origins = d.origins := rfl
@[simp] theorem Dev.updPort_strikes (n : Nat) (g : PairPort → PairPort) : (d.updPort n g).strikes = d.strikes := rfl

/-! ## updStack -/

@[simp] theorem Dev.updStack_part48 (n : Nat) (g : Stack → Stack) : (d.updStack n g).part48 = d.part48 := rfl
@[simp] theorem Dev.updStack_rowMap (n : Nat) (g : Stack → Stack) : (d.updStack n g).rowMap = d.rowMap := rfl
@[simp] theorem Dev.updStack_latches (n : Nat) (g : Stack → Stack) : (d.updStack n g).latches = d.latches := rfl
@[simp] theorem Dev.updStack_beats (n : Nat) (g : Stack → Stack) : (d.updStack n g).beats = d.beats := rfl
@[simp] theorem Dev.updStack_counters (n : Nat) (g : Stack → Stack) : (d.updStack n g).counters = d.counters := rfl
@[simp] theorem Dev.updStack_facetCounters (n : Nat) (g : Stack → Stack) : (d.updStack n g).facetCounters = d.facetCounters := rfl
@[simp] theorem Dev.updStack_launches (n : Nat) (g : Stack → Stack) : (d.updStack n g).launches = d.launches := rfl
@[simp] theorem Dev.updStack_blocks (n : Nat) (g : Stack → Stack) : (d.updStack n g).blocks = d.blocks := rfl
@[simp] theorem Dev.updStack_clusters (n : Nat) (g : Stack → Stack) : (d.updStack n g).clusters = d.clusters := rfl
@[simp] theorem Dev.updStack_saved (n : Nat) (g : Stack → Stack) : (d.updStack n g).saved = d.saved := rfl
@[simp] theorem Dev.updStack_cores (n : Nat) (g : Stack → Stack) : (d.updStack n g).cores = d.cores := rfl
@[simp] theorem Dev.updStack_nextLaunch (n : Nat) (g : Stack → Stack) : (d.updStack n g).nextLaunch = d.nextLaunch := rfl
@[simp] theorem Dev.updStack_nextAccept (n : Nat) (g : Stack → Stack) : (d.updStack n g).nextAccept = d.nextAccept := rfl
@[simp] theorem Dev.updStack_slices (n : Nat) (g : Stack → Stack) : (d.updStack n g).slices = d.slices := rfl
@[simp] theorem Dev.updStack_net (n : Nat) (g : Stack → Stack) : (d.updStack n g).net = d.net := rfl
@[simp] theorem Dev.updStack_nextMsg (n : Nat) (g : Stack → Stack) : (d.updStack n g).nextMsg = d.nextMsg := rfl
@[simp] theorem Dev.updStack_vcTurns (n : Nat) (g : Stack → Stack) : (d.updStack n g).vcTurns = d.vcTurns := rfl
@[simp] theorem Dev.updStack_inTurns (n : Nat) (g : Stack → Stack) : (d.updStack n g).inTurns = d.inTurns := rfl
@[simp] theorem Dev.updStack_cache (n : Nat) (g : Stack → Stack) : (d.updStack n g).cache = d.cache := rfl
@[simp] theorem Dev.updStack_ports (n : Nat) (g : Stack → Stack) : (d.updStack n g).ports = d.ports := rfl
@[simp] theorem Dev.updStack_groups (n : Nat) (g : Stack → Stack) : (d.updStack n g).groups = d.groups := rfl
@[simp] theorem Dev.updStack_mem (n : Nat) (g : Stack → Stack) : (d.updStack n g).mem = d.mem := rfl
@[simp] theorem Dev.updStack_memPoison (n : Nat) (g : Stack → Stack) : (d.updStack n g).memPoison = d.memPoison := rfl
@[simp] theorem Dev.updStack_reads (n : Nat) (g : Stack → Stack) : (d.updStack n g).reads = d.reads := rfl
@[simp] theorem Dev.updStack_wbatch (n : Nat) (g : Stack → Stack) : (d.updStack n g).wbatch = d.wbatch := rfl
@[simp] theorem Dev.updStack_memCfgErr (n : Nat) (g : Stack → Stack) : (d.updStack n g).memCfgErr = d.memCfgErr := rfl
@[simp] theorem Dev.updStack_stripes (n : Nat) (g : Stack → Stack) : (d.updStack n g).stripes = d.stripes := rfl
@[simp] theorem Dev.updStack_frames (n : Nat) (g : Stack → Stack) : (d.updStack n g).frames = d.frames := rfl
@[simp] theorem Dev.updStack_farPorts (n : Nat) (g : Stack → Stack) : (d.updStack n g).farPorts = d.farPorts := rfl
@[simp] theorem Dev.updStack_farWaits (n : Nat) (g : Stack → Stack) : (d.updStack n g).farWaits = d.farWaits := rfl
@[simp] theorem Dev.updStack_facets (n : Nat) (g : Stack → Stack) : (d.updStack n g).facets = d.facets := rfl
@[simp] theorem Dev.updStack_channels (n : Nat) (g : Stack → Stack) : (d.updStack n g).channels = d.channels := rfl
@[simp] theorem Dev.updStack_dmaGrants (n : Nat) (g : Stack → Stack) : (d.updStack n g).dmaGrants = d.dmaGrants := rfl
@[simp] theorem Dev.updStack_intake (n : Nat) (g : Stack → Stack) : (d.updStack n g).intake = d.intake := rfl
@[simp] theorem Dev.updStack_mbxTurn (n : Nat) (g : Stack → Stack) : (d.updStack n g).mbxTurn = d.mbxTurn := rfl
@[simp] theorem Dev.updStack_lehr (n : Nat) (g : Stack → Stack) : (d.updStack n g).lehr = d.lehr := rfl
@[simp] theorem Dev.updStack_serving (n : Nat) (g : Stack → Stack) : (d.updStack n g).serving = d.serving := rfl
@[simp] theorem Dev.updStack_power (n : Nat) (g : Stack → Stack) : (d.updStack n g).power = d.power := rfl
@[simp] theorem Dev.updStack_errors (n : Nat) (g : Stack → Stack) : (d.updStack n g).errors = d.errors := rfl
@[simp] theorem Dev.updStack_security (n : Nat) (g : Stack → Stack) : (d.updStack n g).security = d.security := rfl
@[simp] theorem Dev.updStack_boot (n : Nat) (g : Stack → Stack) : (d.updStack n g).boot = d.boot := rfl
@[simp] theorem Dev.updStack_host (n : Nat) (g : Stack → Stack) : (d.updStack n g).host = d.host := rfl
@[simp] theorem Dev.updStack_images (n : Nat) (g : Stack → Stack) : (d.updStack n g).images = d.images := rfl
@[simp] theorem Dev.updStack_heldBar4 (n : Nat) (g : Stack → Stack) : (d.updStack n g).heldBar4 = d.heldBar4 := rfl
@[simp] theorem Dev.updStack_sent (n : Nat) (g : Stack → Stack) : (d.updStack n g).sent = d.sent := rfl
@[simp] theorem Dev.updStack_freeCount (n : Nat) (g : Stack → Stack) : (d.updStack n g).freeCount = d.freeCount := rfl
@[simp] theorem Dev.updStack_origins (n : Nat) (g : Stack → Stack) : (d.updStack n g).origins = d.origins := rfl
@[simp] theorem Dev.updStack_strikes (n : Nat) (g : Stack → Stack) : (d.updStack n g).strikes = d.strikes := rfl

/-! ## updFarPort -/

@[simp] theorem Dev.updFarPort_part48 (n : Nat) (g : FarPort → FarPort) : (d.updFarPort n g).part48 = d.part48 := rfl
@[simp] theorem Dev.updFarPort_rowMap (n : Nat) (g : FarPort → FarPort) : (d.updFarPort n g).rowMap = d.rowMap := rfl
@[simp] theorem Dev.updFarPort_latches (n : Nat) (g : FarPort → FarPort) : (d.updFarPort n g).latches = d.latches := rfl
@[simp] theorem Dev.updFarPort_beats (n : Nat) (g : FarPort → FarPort) : (d.updFarPort n g).beats = d.beats := rfl
@[simp] theorem Dev.updFarPort_counters (n : Nat) (g : FarPort → FarPort) : (d.updFarPort n g).counters = d.counters := rfl
@[simp] theorem Dev.updFarPort_facetCounters (n : Nat) (g : FarPort → FarPort) : (d.updFarPort n g).facetCounters = d.facetCounters := rfl
@[simp] theorem Dev.updFarPort_launches (n : Nat) (g : FarPort → FarPort) : (d.updFarPort n g).launches = d.launches := rfl
@[simp] theorem Dev.updFarPort_blocks (n : Nat) (g : FarPort → FarPort) : (d.updFarPort n g).blocks = d.blocks := rfl
@[simp] theorem Dev.updFarPort_clusters (n : Nat) (g : FarPort → FarPort) : (d.updFarPort n g).clusters = d.clusters := rfl
@[simp] theorem Dev.updFarPort_saved (n : Nat) (g : FarPort → FarPort) : (d.updFarPort n g).saved = d.saved := rfl
@[simp] theorem Dev.updFarPort_cores (n : Nat) (g : FarPort → FarPort) : (d.updFarPort n g).cores = d.cores := rfl
@[simp] theorem Dev.updFarPort_nextLaunch (n : Nat) (g : FarPort → FarPort) : (d.updFarPort n g).nextLaunch = d.nextLaunch := rfl
@[simp] theorem Dev.updFarPort_nextAccept (n : Nat) (g : FarPort → FarPort) : (d.updFarPort n g).nextAccept = d.nextAccept := rfl
@[simp] theorem Dev.updFarPort_slices (n : Nat) (g : FarPort → FarPort) : (d.updFarPort n g).slices = d.slices := rfl
@[simp] theorem Dev.updFarPort_net (n : Nat) (g : FarPort → FarPort) : (d.updFarPort n g).net = d.net := rfl
@[simp] theorem Dev.updFarPort_nextMsg (n : Nat) (g : FarPort → FarPort) : (d.updFarPort n g).nextMsg = d.nextMsg := rfl
@[simp] theorem Dev.updFarPort_vcTurns (n : Nat) (g : FarPort → FarPort) : (d.updFarPort n g).vcTurns = d.vcTurns := rfl
@[simp] theorem Dev.updFarPort_inTurns (n : Nat) (g : FarPort → FarPort) : (d.updFarPort n g).inTurns = d.inTurns := rfl
@[simp] theorem Dev.updFarPort_cache (n : Nat) (g : FarPort → FarPort) : (d.updFarPort n g).cache = d.cache := rfl
@[simp] theorem Dev.updFarPort_ports (n : Nat) (g : FarPort → FarPort) : (d.updFarPort n g).ports = d.ports := rfl
@[simp] theorem Dev.updFarPort_groups (n : Nat) (g : FarPort → FarPort) : (d.updFarPort n g).groups = d.groups := rfl
@[simp] theorem Dev.updFarPort_mem (n : Nat) (g : FarPort → FarPort) : (d.updFarPort n g).mem = d.mem := rfl
@[simp] theorem Dev.updFarPort_memPoison (n : Nat) (g : FarPort → FarPort) : (d.updFarPort n g).memPoison = d.memPoison := rfl
@[simp] theorem Dev.updFarPort_reads (n : Nat) (g : FarPort → FarPort) : (d.updFarPort n g).reads = d.reads := rfl
@[simp] theorem Dev.updFarPort_stackRegs (n : Nat) (g : FarPort → FarPort) : (d.updFarPort n g).stackRegs = d.stackRegs := rfl
@[simp] theorem Dev.updFarPort_wbatch (n : Nat) (g : FarPort → FarPort) : (d.updFarPort n g).wbatch = d.wbatch := rfl
@[simp] theorem Dev.updFarPort_memCfgErr (n : Nat) (g : FarPort → FarPort) : (d.updFarPort n g).memCfgErr = d.memCfgErr := rfl
@[simp] theorem Dev.updFarPort_stripes (n : Nat) (g : FarPort → FarPort) : (d.updFarPort n g).stripes = d.stripes := rfl
@[simp] theorem Dev.updFarPort_frames (n : Nat) (g : FarPort → FarPort) : (d.updFarPort n g).frames = d.frames := rfl
@[simp] theorem Dev.updFarPort_farWaits (n : Nat) (g : FarPort → FarPort) : (d.updFarPort n g).farWaits = d.farWaits := rfl
@[simp] theorem Dev.updFarPort_facets (n : Nat) (g : FarPort → FarPort) : (d.updFarPort n g).facets = d.facets := rfl
@[simp] theorem Dev.updFarPort_channels (n : Nat) (g : FarPort → FarPort) : (d.updFarPort n g).channels = d.channels := rfl
@[simp] theorem Dev.updFarPort_dmaGrants (n : Nat) (g : FarPort → FarPort) : (d.updFarPort n g).dmaGrants = d.dmaGrants := rfl
@[simp] theorem Dev.updFarPort_intake (n : Nat) (g : FarPort → FarPort) : (d.updFarPort n g).intake = d.intake := rfl
@[simp] theorem Dev.updFarPort_mbxTurn (n : Nat) (g : FarPort → FarPort) : (d.updFarPort n g).mbxTurn = d.mbxTurn := rfl
@[simp] theorem Dev.updFarPort_lehr (n : Nat) (g : FarPort → FarPort) : (d.updFarPort n g).lehr = d.lehr := rfl
@[simp] theorem Dev.updFarPort_serving (n : Nat) (g : FarPort → FarPort) : (d.updFarPort n g).serving = d.serving := rfl
@[simp] theorem Dev.updFarPort_power (n : Nat) (g : FarPort → FarPort) : (d.updFarPort n g).power = d.power := rfl
@[simp] theorem Dev.updFarPort_errors (n : Nat) (g : FarPort → FarPort) : (d.updFarPort n g).errors = d.errors := rfl
@[simp] theorem Dev.updFarPort_security (n : Nat) (g : FarPort → FarPort) : (d.updFarPort n g).security = d.security := rfl
@[simp] theorem Dev.updFarPort_boot (n : Nat) (g : FarPort → FarPort) : (d.updFarPort n g).boot = d.boot := rfl
@[simp] theorem Dev.updFarPort_host (n : Nat) (g : FarPort → FarPort) : (d.updFarPort n g).host = d.host := rfl
@[simp] theorem Dev.updFarPort_images (n : Nat) (g : FarPort → FarPort) : (d.updFarPort n g).images = d.images := rfl
@[simp] theorem Dev.updFarPort_heldBar4 (n : Nat) (g : FarPort → FarPort) : (d.updFarPort n g).heldBar4 = d.heldBar4 := rfl
@[simp] theorem Dev.updFarPort_sent (n : Nat) (g : FarPort → FarPort) : (d.updFarPort n g).sent = d.sent := rfl
@[simp] theorem Dev.updFarPort_freeCount (n : Nat) (g : FarPort → FarPort) : (d.updFarPort n g).freeCount = d.freeCount := rfl
@[simp] theorem Dev.updFarPort_origins (n : Nat) (g : FarPort → FarPort) : (d.updFarPort n g).origins = d.origins := rfl
@[simp] theorem Dev.updFarPort_strikes (n : Nat) (g : FarPort → FarPort) : (d.updFarPort n g).strikes = d.strikes := rfl

/-! ## updChannel -/

@[simp] theorem Dev.updChannel_part48 (n : Nat) (g : Channel → Channel) : (d.updChannel n g).part48 = d.part48 := rfl
@[simp] theorem Dev.updChannel_rowMap (n : Nat) (g : Channel → Channel) : (d.updChannel n g).rowMap = d.rowMap := rfl
@[simp] theorem Dev.updChannel_latches (n : Nat) (g : Channel → Channel) : (d.updChannel n g).latches = d.latches := rfl
@[simp] theorem Dev.updChannel_beats (n : Nat) (g : Channel → Channel) : (d.updChannel n g).beats = d.beats := rfl
@[simp] theorem Dev.updChannel_counters (n : Nat) (g : Channel → Channel) : (d.updChannel n g).counters = d.counters := rfl
@[simp] theorem Dev.updChannel_facetCounters (n : Nat) (g : Channel → Channel) : (d.updChannel n g).facetCounters = d.facetCounters := rfl
@[simp] theorem Dev.updChannel_launches (n : Nat) (g : Channel → Channel) : (d.updChannel n g).launches = d.launches := rfl
@[simp] theorem Dev.updChannel_blocks (n : Nat) (g : Channel → Channel) : (d.updChannel n g).blocks = d.blocks := rfl
@[simp] theorem Dev.updChannel_clusters (n : Nat) (g : Channel → Channel) : (d.updChannel n g).clusters = d.clusters := rfl
@[simp] theorem Dev.updChannel_saved (n : Nat) (g : Channel → Channel) : (d.updChannel n g).saved = d.saved := rfl
@[simp] theorem Dev.updChannel_cores (n : Nat) (g : Channel → Channel) : (d.updChannel n g).cores = d.cores := rfl
@[simp] theorem Dev.updChannel_nextLaunch (n : Nat) (g : Channel → Channel) : (d.updChannel n g).nextLaunch = d.nextLaunch := rfl
@[simp] theorem Dev.updChannel_nextAccept (n : Nat) (g : Channel → Channel) : (d.updChannel n g).nextAccept = d.nextAccept := rfl
@[simp] theorem Dev.updChannel_slices (n : Nat) (g : Channel → Channel) : (d.updChannel n g).slices = d.slices := rfl
@[simp] theorem Dev.updChannel_net (n : Nat) (g : Channel → Channel) : (d.updChannel n g).net = d.net := rfl
@[simp] theorem Dev.updChannel_nextMsg (n : Nat) (g : Channel → Channel) : (d.updChannel n g).nextMsg = d.nextMsg := rfl
@[simp] theorem Dev.updChannel_vcTurns (n : Nat) (g : Channel → Channel) : (d.updChannel n g).vcTurns = d.vcTurns := rfl
@[simp] theorem Dev.updChannel_inTurns (n : Nat) (g : Channel → Channel) : (d.updChannel n g).inTurns = d.inTurns := rfl
@[simp] theorem Dev.updChannel_cache (n : Nat) (g : Channel → Channel) : (d.updChannel n g).cache = d.cache := rfl
@[simp] theorem Dev.updChannel_ports (n : Nat) (g : Channel → Channel) : (d.updChannel n g).ports = d.ports := rfl
@[simp] theorem Dev.updChannel_groups (n : Nat) (g : Channel → Channel) : (d.updChannel n g).groups = d.groups := rfl
@[simp] theorem Dev.updChannel_mem (n : Nat) (g : Channel → Channel) : (d.updChannel n g).mem = d.mem := rfl
@[simp] theorem Dev.updChannel_memPoison (n : Nat) (g : Channel → Channel) : (d.updChannel n g).memPoison = d.memPoison := rfl
@[simp] theorem Dev.updChannel_reads (n : Nat) (g : Channel → Channel) : (d.updChannel n g).reads = d.reads := rfl
@[simp] theorem Dev.updChannel_stackRegs (n : Nat) (g : Channel → Channel) : (d.updChannel n g).stackRegs = d.stackRegs := rfl
@[simp] theorem Dev.updChannel_wbatch (n : Nat) (g : Channel → Channel) : (d.updChannel n g).wbatch = d.wbatch := rfl
@[simp] theorem Dev.updChannel_memCfgErr (n : Nat) (g : Channel → Channel) : (d.updChannel n g).memCfgErr = d.memCfgErr := rfl
@[simp] theorem Dev.updChannel_stripes (n : Nat) (g : Channel → Channel) : (d.updChannel n g).stripes = d.stripes := rfl
@[simp] theorem Dev.updChannel_frames (n : Nat) (g : Channel → Channel) : (d.updChannel n g).frames = d.frames := rfl
@[simp] theorem Dev.updChannel_farPorts (n : Nat) (g : Channel → Channel) : (d.updChannel n g).farPorts = d.farPorts := rfl
@[simp] theorem Dev.updChannel_farWaits (n : Nat) (g : Channel → Channel) : (d.updChannel n g).farWaits = d.farWaits := rfl
@[simp] theorem Dev.updChannel_facets (n : Nat) (g : Channel → Channel) : (d.updChannel n g).facets = d.facets := rfl
@[simp] theorem Dev.updChannel_dmaGrants (n : Nat) (g : Channel → Channel) : (d.updChannel n g).dmaGrants = d.dmaGrants := rfl
@[simp] theorem Dev.updChannel_intake (n : Nat) (g : Channel → Channel) : (d.updChannel n g).intake = d.intake := rfl
@[simp] theorem Dev.updChannel_mbxTurn (n : Nat) (g : Channel → Channel) : (d.updChannel n g).mbxTurn = d.mbxTurn := rfl
@[simp] theorem Dev.updChannel_lehr (n : Nat) (g : Channel → Channel) : (d.updChannel n g).lehr = d.lehr := rfl
@[simp] theorem Dev.updChannel_serving (n : Nat) (g : Channel → Channel) : (d.updChannel n g).serving = d.serving := rfl
@[simp] theorem Dev.updChannel_power (n : Nat) (g : Channel → Channel) : (d.updChannel n g).power = d.power := rfl
@[simp] theorem Dev.updChannel_errors (n : Nat) (g : Channel → Channel) : (d.updChannel n g).errors = d.errors := rfl
@[simp] theorem Dev.updChannel_security (n : Nat) (g : Channel → Channel) : (d.updChannel n g).security = d.security := rfl
@[simp] theorem Dev.updChannel_boot (n : Nat) (g : Channel → Channel) : (d.updChannel n g).boot = d.boot := rfl
@[simp] theorem Dev.updChannel_host (n : Nat) (g : Channel → Channel) : (d.updChannel n g).host = d.host := rfl
@[simp] theorem Dev.updChannel_images (n : Nat) (g : Channel → Channel) : (d.updChannel n g).images = d.images := rfl
@[simp] theorem Dev.updChannel_heldBar4 (n : Nat) (g : Channel → Channel) : (d.updChannel n g).heldBar4 = d.heldBar4 := rfl
@[simp] theorem Dev.updChannel_sent (n : Nat) (g : Channel → Channel) : (d.updChannel n g).sent = d.sent := rfl
@[simp] theorem Dev.updChannel_freeCount (n : Nat) (g : Channel → Channel) : (d.updChannel n g).freeCount = d.freeCount := rfl
@[simp] theorem Dev.updChannel_origins (n : Nat) (g : Channel → Channel) : (d.updChannel n g).origins = d.origins := rfl
@[simp] theorem Dev.updChannel_strikes (n : Nat) (g : Channel → Channel) : (d.updChannel n g).strikes = d.strikes := rfl

/-! ## updDie -/

@[simp] theorem Dev.updDie_part48 (n : Nat) (g : Die → Die) : (d.updDie n g).part48 = d.part48 := rfl
@[simp] theorem Dev.updDie_rowMap (n : Nat) (g : Die → Die) : (d.updDie n g).rowMap = d.rowMap := rfl
@[simp] theorem Dev.updDie_latches (n : Nat) (g : Die → Die) : (d.updDie n g).latches = d.latches := rfl
@[simp] theorem Dev.updDie_beats (n : Nat) (g : Die → Die) : (d.updDie n g).beats = d.beats := rfl
@[simp] theorem Dev.updDie_counters (n : Nat) (g : Die → Die) : (d.updDie n g).counters = d.counters := rfl
@[simp] theorem Dev.updDie_facetCounters (n : Nat) (g : Die → Die) : (d.updDie n g).facetCounters = d.facetCounters := rfl
@[simp] theorem Dev.updDie_launches (n : Nat) (g : Die → Die) : (d.updDie n g).launches = d.launches := rfl
@[simp] theorem Dev.updDie_blocks (n : Nat) (g : Die → Die) : (d.updDie n g).blocks = d.blocks := rfl
@[simp] theorem Dev.updDie_clusters (n : Nat) (g : Die → Die) : (d.updDie n g).clusters = d.clusters := rfl
@[simp] theorem Dev.updDie_saved (n : Nat) (g : Die → Die) : (d.updDie n g).saved = d.saved := rfl
@[simp] theorem Dev.updDie_cores (n : Nat) (g : Die → Die) : (d.updDie n g).cores = d.cores := rfl
@[simp] theorem Dev.updDie_nextLaunch (n : Nat) (g : Die → Die) : (d.updDie n g).nextLaunch = d.nextLaunch := rfl
@[simp] theorem Dev.updDie_nextAccept (n : Nat) (g : Die → Die) : (d.updDie n g).nextAccept = d.nextAccept := rfl
@[simp] theorem Dev.updDie_slices (n : Nat) (g : Die → Die) : (d.updDie n g).slices = d.slices := rfl
@[simp] theorem Dev.updDie_net (n : Nat) (g : Die → Die) : (d.updDie n g).net = d.net := rfl
@[simp] theorem Dev.updDie_nextMsg (n : Nat) (g : Die → Die) : (d.updDie n g).nextMsg = d.nextMsg := rfl
@[simp] theorem Dev.updDie_vcTurns (n : Nat) (g : Die → Die) : (d.updDie n g).vcTurns = d.vcTurns := rfl
@[simp] theorem Dev.updDie_inTurns (n : Nat) (g : Die → Die) : (d.updDie n g).inTurns = d.inTurns := rfl
@[simp] theorem Dev.updDie_cache (n : Nat) (g : Die → Die) : (d.updDie n g).cache = d.cache := rfl
@[simp] theorem Dev.updDie_ports (n : Nat) (g : Die → Die) : (d.updDie n g).ports = d.ports := rfl
@[simp] theorem Dev.updDie_groups (n : Nat) (g : Die → Die) : (d.updDie n g).groups = d.groups := rfl
@[simp] theorem Dev.updDie_mem (n : Nat) (g : Die → Die) : (d.updDie n g).mem = d.mem := rfl
@[simp] theorem Dev.updDie_memPoison (n : Nat) (g : Die → Die) : (d.updDie n g).memPoison = d.memPoison := rfl
@[simp] theorem Dev.updDie_reads (n : Nat) (g : Die → Die) : (d.updDie n g).reads = d.reads := rfl
@[simp] theorem Dev.updDie_stackRegs (n : Nat) (g : Die → Die) : (d.updDie n g).stackRegs = d.stackRegs := rfl
@[simp] theorem Dev.updDie_wbatch (n : Nat) (g : Die → Die) : (d.updDie n g).wbatch = d.wbatch := rfl
@[simp] theorem Dev.updDie_memCfgErr (n : Nat) (g : Die → Die) : (d.updDie n g).memCfgErr = d.memCfgErr := rfl
@[simp] theorem Dev.updDie_stripes (n : Nat) (g : Die → Die) : (d.updDie n g).stripes = d.stripes := rfl
@[simp] theorem Dev.updDie_frames (n : Nat) (g : Die → Die) : (d.updDie n g).frames = d.frames := rfl
@[simp] theorem Dev.updDie_farPorts (n : Nat) (g : Die → Die) : (d.updDie n g).farPorts = d.farPorts := rfl
@[simp] theorem Dev.updDie_farWaits (n : Nat) (g : Die → Die) : (d.updDie n g).farWaits = d.farWaits := rfl
@[simp] theorem Dev.updDie_facets (n : Nat) (g : Die → Die) : (d.updDie n g).facets = d.facets := rfl
@[simp] theorem Dev.updDie_channels (n : Nat) (g : Die → Die) : (d.updDie n g).channels = d.channels := rfl
@[simp] theorem Dev.updDie_dmaGrants (n : Nat) (g : Die → Die) : (d.updDie n g).dmaGrants = d.dmaGrants := rfl
@[simp] theorem Dev.updDie_intake (n : Nat) (g : Die → Die) : (d.updDie n g).intake = d.intake := rfl
@[simp] theorem Dev.updDie_mbxTurn (n : Nat) (g : Die → Die) : (d.updDie n g).mbxTurn = d.mbxTurn := rfl
@[simp] theorem Dev.updDie_lehr (n : Nat) (g : Die → Die) : (d.updDie n g).lehr = d.lehr := rfl
@[simp] theorem Dev.updDie_serving (n : Nat) (g : Die → Die) : (d.updDie n g).serving = d.serving := rfl
@[simp] theorem Dev.updDie_errors (n : Nat) (g : Die → Die) : (d.updDie n g).errors = d.errors := rfl
@[simp] theorem Dev.updDie_security (n : Nat) (g : Die → Die) : (d.updDie n g).security = d.security := rfl
@[simp] theorem Dev.updDie_boot (n : Nat) (g : Die → Die) : (d.updDie n g).boot = d.boot := rfl
@[simp] theorem Dev.updDie_host (n : Nat) (g : Die → Die) : (d.updDie n g).host = d.host := rfl
@[simp] theorem Dev.updDie_images (n : Nat) (g : Die → Die) : (d.updDie n g).images = d.images := rfl
@[simp] theorem Dev.updDie_heldBar4 (n : Nat) (g : Die → Die) : (d.updDie n g).heldBar4 = d.heldBar4 := rfl
@[simp] theorem Dev.updDie_sent (n : Nat) (g : Die → Die) : (d.updDie n g).sent = d.sent := rfl
@[simp] theorem Dev.updDie_freeCount (n : Nat) (g : Die → Die) : (d.updDie n g).freeCount = d.freeCount := rfl
@[simp] theorem Dev.updDie_origins (n : Nat) (g : Die → Die) : (d.updDie n g).origins = d.origins := rfl
@[simp] theorem Dev.updDie_strikes (n : Nat) (g : Die → Die) : (d.updDie n g).strikes = d.strikes := rfl

/-! ## updRail -/

@[simp] theorem Dev.updRail_part48 (n : Nat) (g : Rail → Rail) : (d.updRail n g).part48 = d.part48 := rfl
@[simp] theorem Dev.updRail_rowMap (n : Nat) (g : Rail → Rail) : (d.updRail n g).rowMap = d.rowMap := rfl
@[simp] theorem Dev.updRail_latches (n : Nat) (g : Rail → Rail) : (d.updRail n g).latches = d.latches := rfl
@[simp] theorem Dev.updRail_beats (n : Nat) (g : Rail → Rail) : (d.updRail n g).beats = d.beats := rfl
@[simp] theorem Dev.updRail_counters (n : Nat) (g : Rail → Rail) : (d.updRail n g).counters = d.counters := rfl
@[simp] theorem Dev.updRail_facetCounters (n : Nat) (g : Rail → Rail) : (d.updRail n g).facetCounters = d.facetCounters := rfl
@[simp] theorem Dev.updRail_launches (n : Nat) (g : Rail → Rail) : (d.updRail n g).launches = d.launches := rfl
@[simp] theorem Dev.updRail_blocks (n : Nat) (g : Rail → Rail) : (d.updRail n g).blocks = d.blocks := rfl
@[simp] theorem Dev.updRail_clusters (n : Nat) (g : Rail → Rail) : (d.updRail n g).clusters = d.clusters := rfl
@[simp] theorem Dev.updRail_saved (n : Nat) (g : Rail → Rail) : (d.updRail n g).saved = d.saved := rfl
@[simp] theorem Dev.updRail_cores (n : Nat) (g : Rail → Rail) : (d.updRail n g).cores = d.cores := rfl
@[simp] theorem Dev.updRail_nextLaunch (n : Nat) (g : Rail → Rail) : (d.updRail n g).nextLaunch = d.nextLaunch := rfl
@[simp] theorem Dev.updRail_nextAccept (n : Nat) (g : Rail → Rail) : (d.updRail n g).nextAccept = d.nextAccept := rfl
@[simp] theorem Dev.updRail_slices (n : Nat) (g : Rail → Rail) : (d.updRail n g).slices = d.slices := rfl
@[simp] theorem Dev.updRail_net (n : Nat) (g : Rail → Rail) : (d.updRail n g).net = d.net := rfl
@[simp] theorem Dev.updRail_nextMsg (n : Nat) (g : Rail → Rail) : (d.updRail n g).nextMsg = d.nextMsg := rfl
@[simp] theorem Dev.updRail_vcTurns (n : Nat) (g : Rail → Rail) : (d.updRail n g).vcTurns = d.vcTurns := rfl
@[simp] theorem Dev.updRail_inTurns (n : Nat) (g : Rail → Rail) : (d.updRail n g).inTurns = d.inTurns := rfl
@[simp] theorem Dev.updRail_cache (n : Nat) (g : Rail → Rail) : (d.updRail n g).cache = d.cache := rfl
@[simp] theorem Dev.updRail_ports (n : Nat) (g : Rail → Rail) : (d.updRail n g).ports = d.ports := rfl
@[simp] theorem Dev.updRail_groups (n : Nat) (g : Rail → Rail) : (d.updRail n g).groups = d.groups := rfl
@[simp] theorem Dev.updRail_mem (n : Nat) (g : Rail → Rail) : (d.updRail n g).mem = d.mem := rfl
@[simp] theorem Dev.updRail_memPoison (n : Nat) (g : Rail → Rail) : (d.updRail n g).memPoison = d.memPoison := rfl
@[simp] theorem Dev.updRail_reads (n : Nat) (g : Rail → Rail) : (d.updRail n g).reads = d.reads := rfl
@[simp] theorem Dev.updRail_stackRegs (n : Nat) (g : Rail → Rail) : (d.updRail n g).stackRegs = d.stackRegs := rfl
@[simp] theorem Dev.updRail_wbatch (n : Nat) (g : Rail → Rail) : (d.updRail n g).wbatch = d.wbatch := rfl
@[simp] theorem Dev.updRail_memCfgErr (n : Nat) (g : Rail → Rail) : (d.updRail n g).memCfgErr = d.memCfgErr := rfl
@[simp] theorem Dev.updRail_stripes (n : Nat) (g : Rail → Rail) : (d.updRail n g).stripes = d.stripes := rfl
@[simp] theorem Dev.updRail_frames (n : Nat) (g : Rail → Rail) : (d.updRail n g).frames = d.frames := rfl
@[simp] theorem Dev.updRail_farPorts (n : Nat) (g : Rail → Rail) : (d.updRail n g).farPorts = d.farPorts := rfl
@[simp] theorem Dev.updRail_farWaits (n : Nat) (g : Rail → Rail) : (d.updRail n g).farWaits = d.farWaits := rfl
@[simp] theorem Dev.updRail_facets (n : Nat) (g : Rail → Rail) : (d.updRail n g).facets = d.facets := rfl
@[simp] theorem Dev.updRail_channels (n : Nat) (g : Rail → Rail) : (d.updRail n g).channels = d.channels := rfl
@[simp] theorem Dev.updRail_dmaGrants (n : Nat) (g : Rail → Rail) : (d.updRail n g).dmaGrants = d.dmaGrants := rfl
@[simp] theorem Dev.updRail_intake (n : Nat) (g : Rail → Rail) : (d.updRail n g).intake = d.intake := rfl
@[simp] theorem Dev.updRail_mbxTurn (n : Nat) (g : Rail → Rail) : (d.updRail n g).mbxTurn = d.mbxTurn := rfl
@[simp] theorem Dev.updRail_lehr (n : Nat) (g : Rail → Rail) : (d.updRail n g).lehr = d.lehr := rfl
@[simp] theorem Dev.updRail_serving (n : Nat) (g : Rail → Rail) : (d.updRail n g).serving = d.serving := rfl
@[simp] theorem Dev.updRail_errors (n : Nat) (g : Rail → Rail) : (d.updRail n g).errors = d.errors := rfl
@[simp] theorem Dev.updRail_security (n : Nat) (g : Rail → Rail) : (d.updRail n g).security = d.security := rfl
@[simp] theorem Dev.updRail_boot (n : Nat) (g : Rail → Rail) : (d.updRail n g).boot = d.boot := rfl
@[simp] theorem Dev.updRail_host (n : Nat) (g : Rail → Rail) : (d.updRail n g).host = d.host := rfl
@[simp] theorem Dev.updRail_images (n : Nat) (g : Rail → Rail) : (d.updRail n g).images = d.images := rfl
@[simp] theorem Dev.updRail_heldBar4 (n : Nat) (g : Rail → Rail) : (d.updRail n g).heldBar4 = d.heldBar4 := rfl
@[simp] theorem Dev.updRail_sent (n : Nat) (g : Rail → Rail) : (d.updRail n g).sent = d.sent := rfl
@[simp] theorem Dev.updRail_freeCount (n : Nat) (g : Rail → Rail) : (d.updRail n g).freeCount = d.freeCount := rfl
@[simp] theorem Dev.updRail_origins (n : Nat) (g : Rail → Rail) : (d.updRail n g).origins = d.origins := rfl
@[simp] theorem Dev.updRail_strikes (n : Nat) (g : Rail → Rail) : (d.updRail n g).strikes = d.strikes := rfl

/-! ## updBase -/

@[simp] theorem Dev.updBase_part48 (n : Nat) (g : BaseDie → BaseDie) : (d.updBase n g).part48 = d.part48 := rfl
@[simp] theorem Dev.updBase_rowMap (n : Nat) (g : BaseDie → BaseDie) : (d.updBase n g).rowMap = d.rowMap := rfl
@[simp] theorem Dev.updBase_latches (n : Nat) (g : BaseDie → BaseDie) : (d.updBase n g).latches = d.latches := rfl
@[simp] theorem Dev.updBase_beats (n : Nat) (g : BaseDie → BaseDie) : (d.updBase n g).beats = d.beats := rfl
@[simp] theorem Dev.updBase_counters (n : Nat) (g : BaseDie → BaseDie) : (d.updBase n g).counters = d.counters := rfl
@[simp] theorem Dev.updBase_facetCounters (n : Nat) (g : BaseDie → BaseDie) : (d.updBase n g).facetCounters = d.facetCounters := rfl
@[simp] theorem Dev.updBase_launches (n : Nat) (g : BaseDie → BaseDie) : (d.updBase n g).launches = d.launches := rfl
@[simp] theorem Dev.updBase_blocks (n : Nat) (g : BaseDie → BaseDie) : (d.updBase n g).blocks = d.blocks := rfl
@[simp] theorem Dev.updBase_clusters (n : Nat) (g : BaseDie → BaseDie) : (d.updBase n g).clusters = d.clusters := rfl
@[simp] theorem Dev.updBase_saved (n : Nat) (g : BaseDie → BaseDie) : (d.updBase n g).saved = d.saved := rfl
@[simp] theorem Dev.updBase_cores (n : Nat) (g : BaseDie → BaseDie) : (d.updBase n g).cores = d.cores := rfl
@[simp] theorem Dev.updBase_nextLaunch (n : Nat) (g : BaseDie → BaseDie) : (d.updBase n g).nextLaunch = d.nextLaunch := rfl
@[simp] theorem Dev.updBase_nextAccept (n : Nat) (g : BaseDie → BaseDie) : (d.updBase n g).nextAccept = d.nextAccept := rfl
@[simp] theorem Dev.updBase_slices (n : Nat) (g : BaseDie → BaseDie) : (d.updBase n g).slices = d.slices := rfl
@[simp] theorem Dev.updBase_net (n : Nat) (g : BaseDie → BaseDie) : (d.updBase n g).net = d.net := rfl
@[simp] theorem Dev.updBase_nextMsg (n : Nat) (g : BaseDie → BaseDie) : (d.updBase n g).nextMsg = d.nextMsg := rfl
@[simp] theorem Dev.updBase_vcTurns (n : Nat) (g : BaseDie → BaseDie) : (d.updBase n g).vcTurns = d.vcTurns := rfl
@[simp] theorem Dev.updBase_inTurns (n : Nat) (g : BaseDie → BaseDie) : (d.updBase n g).inTurns = d.inTurns := rfl
@[simp] theorem Dev.updBase_cache (n : Nat) (g : BaseDie → BaseDie) : (d.updBase n g).cache = d.cache := rfl
@[simp] theorem Dev.updBase_ports (n : Nat) (g : BaseDie → BaseDie) : (d.updBase n g).ports = d.ports := rfl
@[simp] theorem Dev.updBase_groups (n : Nat) (g : BaseDie → BaseDie) : (d.updBase n g).groups = d.groups := rfl
@[simp] theorem Dev.updBase_mem (n : Nat) (g : BaseDie → BaseDie) : (d.updBase n g).mem = d.mem := rfl
@[simp] theorem Dev.updBase_memPoison (n : Nat) (g : BaseDie → BaseDie) : (d.updBase n g).memPoison = d.memPoison := rfl
@[simp] theorem Dev.updBase_reads (n : Nat) (g : BaseDie → BaseDie) : (d.updBase n g).reads = d.reads := rfl
@[simp] theorem Dev.updBase_stackRegs (n : Nat) (g : BaseDie → BaseDie) : (d.updBase n g).stackRegs = d.stackRegs := rfl
@[simp] theorem Dev.updBase_wbatch (n : Nat) (g : BaseDie → BaseDie) : (d.updBase n g).wbatch = d.wbatch := rfl
@[simp] theorem Dev.updBase_memCfgErr (n : Nat) (g : BaseDie → BaseDie) : (d.updBase n g).memCfgErr = d.memCfgErr := rfl
@[simp] theorem Dev.updBase_stripes (n : Nat) (g : BaseDie → BaseDie) : (d.updBase n g).stripes = d.stripes := rfl
@[simp] theorem Dev.updBase_frames (n : Nat) (g : BaseDie → BaseDie) : (d.updBase n g).frames = d.frames := rfl
@[simp] theorem Dev.updBase_farPorts (n : Nat) (g : BaseDie → BaseDie) : (d.updBase n g).farPorts = d.farPorts := rfl
@[simp] theorem Dev.updBase_farWaits (n : Nat) (g : BaseDie → BaseDie) : (d.updBase n g).farWaits = d.farWaits := rfl
@[simp] theorem Dev.updBase_facets (n : Nat) (g : BaseDie → BaseDie) : (d.updBase n g).facets = d.facets := rfl
@[simp] theorem Dev.updBase_channels (n : Nat) (g : BaseDie → BaseDie) : (d.updBase n g).channels = d.channels := rfl
@[simp] theorem Dev.updBase_dmaGrants (n : Nat) (g : BaseDie → BaseDie) : (d.updBase n g).dmaGrants = d.dmaGrants := rfl
@[simp] theorem Dev.updBase_intake (n : Nat) (g : BaseDie → BaseDie) : (d.updBase n g).intake = d.intake := rfl
@[simp] theorem Dev.updBase_mbxTurn (n : Nat) (g : BaseDie → BaseDie) : (d.updBase n g).mbxTurn = d.mbxTurn := rfl
@[simp] theorem Dev.updBase_lehr (n : Nat) (g : BaseDie → BaseDie) : (d.updBase n g).lehr = d.lehr := rfl
@[simp] theorem Dev.updBase_serving (n : Nat) (g : BaseDie → BaseDie) : (d.updBase n g).serving = d.serving := rfl
@[simp] theorem Dev.updBase_errors (n : Nat) (g : BaseDie → BaseDie) : (d.updBase n g).errors = d.errors := rfl
@[simp] theorem Dev.updBase_security (n : Nat) (g : BaseDie → BaseDie) : (d.updBase n g).security = d.security := rfl
@[simp] theorem Dev.updBase_boot (n : Nat) (g : BaseDie → BaseDie) : (d.updBase n g).boot = d.boot := rfl
@[simp] theorem Dev.updBase_host (n : Nat) (g : BaseDie → BaseDie) : (d.updBase n g).host = d.host := rfl
@[simp] theorem Dev.updBase_images (n : Nat) (g : BaseDie → BaseDie) : (d.updBase n g).images = d.images := rfl
@[simp] theorem Dev.updBase_heldBar4 (n : Nat) (g : BaseDie → BaseDie) : (d.updBase n g).heldBar4 = d.heldBar4 := rfl
@[simp] theorem Dev.updBase_sent (n : Nat) (g : BaseDie → BaseDie) : (d.updBase n g).sent = d.sent := rfl
@[simp] theorem Dev.updBase_freeCount (n : Nat) (g : BaseDie → BaseDie) : (d.updBase n g).freeCount = d.freeCount := rfl
@[simp] theorem Dev.updBase_origins (n : Nat) (g : BaseDie → BaseDie) : (d.updBase n g).origins = d.origins := rfl
@[simp] theorem Dev.updBase_strikes (n : Nat) (g : BaseDie → BaseDie) : (d.updBase n g).strikes = d.strikes := rfl

/-! ## updLaunch -/

@[simp] theorem Dev.updLaunch_part48 (n : Nat) (g : Launch → Launch) : (d.updLaunch n g).part48 = d.part48 := rfl
@[simp] theorem Dev.updLaunch_rowMap (n : Nat) (g : Launch → Launch) : (d.updLaunch n g).rowMap = d.rowMap := rfl
@[simp] theorem Dev.updLaunch_latches (n : Nat) (g : Launch → Launch) : (d.updLaunch n g).latches = d.latches := rfl
@[simp] theorem Dev.updLaunch_beats (n : Nat) (g : Launch → Launch) : (d.updLaunch n g).beats = d.beats := rfl
@[simp] theorem Dev.updLaunch_counters (n : Nat) (g : Launch → Launch) : (d.updLaunch n g).counters = d.counters := rfl
@[simp] theorem Dev.updLaunch_facetCounters (n : Nat) (g : Launch → Launch) : (d.updLaunch n g).facetCounters = d.facetCounters := rfl
@[simp] theorem Dev.updLaunch_blocks (n : Nat) (g : Launch → Launch) : (d.updLaunch n g).blocks = d.blocks := rfl
@[simp] theorem Dev.updLaunch_clusters (n : Nat) (g : Launch → Launch) : (d.updLaunch n g).clusters = d.clusters := rfl
@[simp] theorem Dev.updLaunch_saved (n : Nat) (g : Launch → Launch) : (d.updLaunch n g).saved = d.saved := rfl
@[simp] theorem Dev.updLaunch_cores (n : Nat) (g : Launch → Launch) : (d.updLaunch n g).cores = d.cores := rfl
@[simp] theorem Dev.updLaunch_nextLaunch (n : Nat) (g : Launch → Launch) : (d.updLaunch n g).nextLaunch = d.nextLaunch := rfl
@[simp] theorem Dev.updLaunch_nextAccept (n : Nat) (g : Launch → Launch) : (d.updLaunch n g).nextAccept = d.nextAccept := rfl
@[simp] theorem Dev.updLaunch_slices (n : Nat) (g : Launch → Launch) : (d.updLaunch n g).slices = d.slices := rfl
@[simp] theorem Dev.updLaunch_net (n : Nat) (g : Launch → Launch) : (d.updLaunch n g).net = d.net := rfl
@[simp] theorem Dev.updLaunch_nextMsg (n : Nat) (g : Launch → Launch) : (d.updLaunch n g).nextMsg = d.nextMsg := rfl
@[simp] theorem Dev.updLaunch_vcTurns (n : Nat) (g : Launch → Launch) : (d.updLaunch n g).vcTurns = d.vcTurns := rfl
@[simp] theorem Dev.updLaunch_inTurns (n : Nat) (g : Launch → Launch) : (d.updLaunch n g).inTurns = d.inTurns := rfl
@[simp] theorem Dev.updLaunch_cache (n : Nat) (g : Launch → Launch) : (d.updLaunch n g).cache = d.cache := rfl
@[simp] theorem Dev.updLaunch_ports (n : Nat) (g : Launch → Launch) : (d.updLaunch n g).ports = d.ports := rfl
@[simp] theorem Dev.updLaunch_groups (n : Nat) (g : Launch → Launch) : (d.updLaunch n g).groups = d.groups := rfl
@[simp] theorem Dev.updLaunch_mem (n : Nat) (g : Launch → Launch) : (d.updLaunch n g).mem = d.mem := rfl
@[simp] theorem Dev.updLaunch_memPoison (n : Nat) (g : Launch → Launch) : (d.updLaunch n g).memPoison = d.memPoison := rfl
@[simp] theorem Dev.updLaunch_reads (n : Nat) (g : Launch → Launch) : (d.updLaunch n g).reads = d.reads := rfl
@[simp] theorem Dev.updLaunch_stackRegs (n : Nat) (g : Launch → Launch) : (d.updLaunch n g).stackRegs = d.stackRegs := rfl
@[simp] theorem Dev.updLaunch_wbatch (n : Nat) (g : Launch → Launch) : (d.updLaunch n g).wbatch = d.wbatch := rfl
@[simp] theorem Dev.updLaunch_memCfgErr (n : Nat) (g : Launch → Launch) : (d.updLaunch n g).memCfgErr = d.memCfgErr := rfl
@[simp] theorem Dev.updLaunch_stripes (n : Nat) (g : Launch → Launch) : (d.updLaunch n g).stripes = d.stripes := rfl
@[simp] theorem Dev.updLaunch_frames (n : Nat) (g : Launch → Launch) : (d.updLaunch n g).frames = d.frames := rfl
@[simp] theorem Dev.updLaunch_farPorts (n : Nat) (g : Launch → Launch) : (d.updLaunch n g).farPorts = d.farPorts := rfl
@[simp] theorem Dev.updLaunch_farWaits (n : Nat) (g : Launch → Launch) : (d.updLaunch n g).farWaits = d.farWaits := rfl
@[simp] theorem Dev.updLaunch_facets (n : Nat) (g : Launch → Launch) : (d.updLaunch n g).facets = d.facets := rfl
@[simp] theorem Dev.updLaunch_channels (n : Nat) (g : Launch → Launch) : (d.updLaunch n g).channels = d.channels := rfl
@[simp] theorem Dev.updLaunch_dmaGrants (n : Nat) (g : Launch → Launch) : (d.updLaunch n g).dmaGrants = d.dmaGrants := rfl
@[simp] theorem Dev.updLaunch_intake (n : Nat) (g : Launch → Launch) : (d.updLaunch n g).intake = d.intake := rfl
@[simp] theorem Dev.updLaunch_mbxTurn (n : Nat) (g : Launch → Launch) : (d.updLaunch n g).mbxTurn = d.mbxTurn := rfl
@[simp] theorem Dev.updLaunch_lehr (n : Nat) (g : Launch → Launch) : (d.updLaunch n g).lehr = d.lehr := rfl
@[simp] theorem Dev.updLaunch_serving (n : Nat) (g : Launch → Launch) : (d.updLaunch n g).serving = d.serving := rfl
@[simp] theorem Dev.updLaunch_power (n : Nat) (g : Launch → Launch) : (d.updLaunch n g).power = d.power := rfl
@[simp] theorem Dev.updLaunch_errors (n : Nat) (g : Launch → Launch) : (d.updLaunch n g).errors = d.errors := rfl
@[simp] theorem Dev.updLaunch_security (n : Nat) (g : Launch → Launch) : (d.updLaunch n g).security = d.security := rfl
@[simp] theorem Dev.updLaunch_boot (n : Nat) (g : Launch → Launch) : (d.updLaunch n g).boot = d.boot := rfl
@[simp] theorem Dev.updLaunch_host (n : Nat) (g : Launch → Launch) : (d.updLaunch n g).host = d.host := rfl
@[simp] theorem Dev.updLaunch_images (n : Nat) (g : Launch → Launch) : (d.updLaunch n g).images = d.images := rfl
@[simp] theorem Dev.updLaunch_heldBar4 (n : Nat) (g : Launch → Launch) : (d.updLaunch n g).heldBar4 = d.heldBar4 := rfl
@[simp] theorem Dev.updLaunch_sent (n : Nat) (g : Launch → Launch) : (d.updLaunch n g).sent = d.sent := rfl
@[simp] theorem Dev.updLaunch_freeCount (n : Nat) (g : Launch → Launch) : (d.updLaunch n g).freeCount = d.freeCount := rfl
@[simp] theorem Dev.updLaunch_origins (n : Nat) (g : Launch → Launch) : (d.updLaunch n g).origins = d.origins := rfl
@[simp] theorem Dev.updLaunch_strikes (n : Nat) (g : Launch → Launch) : (d.updLaunch n g).strikes = d.strikes := rfl

/-! ## updBlock -/

@[simp] theorem Dev.updBlock_part48 (l i : Nat) (g : Block → Block) : (d.updBlock l i g).part48 = d.part48 := rfl
@[simp] theorem Dev.updBlock_rowMap (l i : Nat) (g : Block → Block) : (d.updBlock l i g).rowMap = d.rowMap := rfl
@[simp] theorem Dev.updBlock_latches (l i : Nat) (g : Block → Block) : (d.updBlock l i g).latches = d.latches := rfl
@[simp] theorem Dev.updBlock_beats (l i : Nat) (g : Block → Block) : (d.updBlock l i g).beats = d.beats := rfl
@[simp] theorem Dev.updBlock_counters (l i : Nat) (g : Block → Block) : (d.updBlock l i g).counters = d.counters := rfl
@[simp] theorem Dev.updBlock_facetCounters (l i : Nat) (g : Block → Block) : (d.updBlock l i g).facetCounters = d.facetCounters := rfl
@[simp] theorem Dev.updBlock_launches (l i : Nat) (g : Block → Block) : (d.updBlock l i g).launches = d.launches := rfl
@[simp] theorem Dev.updBlock_clusters (l i : Nat) (g : Block → Block) : (d.updBlock l i g).clusters = d.clusters := rfl
@[simp] theorem Dev.updBlock_saved (l i : Nat) (g : Block → Block) : (d.updBlock l i g).saved = d.saved := rfl
@[simp] theorem Dev.updBlock_cores (l i : Nat) (g : Block → Block) : (d.updBlock l i g).cores = d.cores := rfl
@[simp] theorem Dev.updBlock_nextLaunch (l i : Nat) (g : Block → Block) : (d.updBlock l i g).nextLaunch = d.nextLaunch := rfl
@[simp] theorem Dev.updBlock_nextAccept (l i : Nat) (g : Block → Block) : (d.updBlock l i g).nextAccept = d.nextAccept := rfl
@[simp] theorem Dev.updBlock_slices (l i : Nat) (g : Block → Block) : (d.updBlock l i g).slices = d.slices := rfl
@[simp] theorem Dev.updBlock_net (l i : Nat) (g : Block → Block) : (d.updBlock l i g).net = d.net := rfl
@[simp] theorem Dev.updBlock_nextMsg (l i : Nat) (g : Block → Block) : (d.updBlock l i g).nextMsg = d.nextMsg := rfl
@[simp] theorem Dev.updBlock_vcTurns (l i : Nat) (g : Block → Block) : (d.updBlock l i g).vcTurns = d.vcTurns := rfl
@[simp] theorem Dev.updBlock_inTurns (l i : Nat) (g : Block → Block) : (d.updBlock l i g).inTurns = d.inTurns := rfl
@[simp] theorem Dev.updBlock_cache (l i : Nat) (g : Block → Block) : (d.updBlock l i g).cache = d.cache := rfl
@[simp] theorem Dev.updBlock_ports (l i : Nat) (g : Block → Block) : (d.updBlock l i g).ports = d.ports := rfl
@[simp] theorem Dev.updBlock_groups (l i : Nat) (g : Block → Block) : (d.updBlock l i g).groups = d.groups := rfl
@[simp] theorem Dev.updBlock_mem (l i : Nat) (g : Block → Block) : (d.updBlock l i g).mem = d.mem := rfl
@[simp] theorem Dev.updBlock_memPoison (l i : Nat) (g : Block → Block) : (d.updBlock l i g).memPoison = d.memPoison := rfl
@[simp] theorem Dev.updBlock_reads (l i : Nat) (g : Block → Block) : (d.updBlock l i g).reads = d.reads := rfl
@[simp] theorem Dev.updBlock_stackRegs (l i : Nat) (g : Block → Block) : (d.updBlock l i g).stackRegs = d.stackRegs := rfl
@[simp] theorem Dev.updBlock_wbatch (l i : Nat) (g : Block → Block) : (d.updBlock l i g).wbatch = d.wbatch := rfl
@[simp] theorem Dev.updBlock_memCfgErr (l i : Nat) (g : Block → Block) : (d.updBlock l i g).memCfgErr = d.memCfgErr := rfl
@[simp] theorem Dev.updBlock_stripes (l i : Nat) (g : Block → Block) : (d.updBlock l i g).stripes = d.stripes := rfl
@[simp] theorem Dev.updBlock_frames (l i : Nat) (g : Block → Block) : (d.updBlock l i g).frames = d.frames := rfl
@[simp] theorem Dev.updBlock_farPorts (l i : Nat) (g : Block → Block) : (d.updBlock l i g).farPorts = d.farPorts := rfl
@[simp] theorem Dev.updBlock_farWaits (l i : Nat) (g : Block → Block) : (d.updBlock l i g).farWaits = d.farWaits := rfl
@[simp] theorem Dev.updBlock_facets (l i : Nat) (g : Block → Block) : (d.updBlock l i g).facets = d.facets := rfl
@[simp] theorem Dev.updBlock_channels (l i : Nat) (g : Block → Block) : (d.updBlock l i g).channels = d.channels := rfl
@[simp] theorem Dev.updBlock_dmaGrants (l i : Nat) (g : Block → Block) : (d.updBlock l i g).dmaGrants = d.dmaGrants := rfl
@[simp] theorem Dev.updBlock_intake (l i : Nat) (g : Block → Block) : (d.updBlock l i g).intake = d.intake := rfl
@[simp] theorem Dev.updBlock_mbxTurn (l i : Nat) (g : Block → Block) : (d.updBlock l i g).mbxTurn = d.mbxTurn := rfl
@[simp] theorem Dev.updBlock_lehr (l i : Nat) (g : Block → Block) : (d.updBlock l i g).lehr = d.lehr := rfl
@[simp] theorem Dev.updBlock_serving (l i : Nat) (g : Block → Block) : (d.updBlock l i g).serving = d.serving := rfl
@[simp] theorem Dev.updBlock_power (l i : Nat) (g : Block → Block) : (d.updBlock l i g).power = d.power := rfl
@[simp] theorem Dev.updBlock_errors (l i : Nat) (g : Block → Block) : (d.updBlock l i g).errors = d.errors := rfl
@[simp] theorem Dev.updBlock_security (l i : Nat) (g : Block → Block) : (d.updBlock l i g).security = d.security := rfl
@[simp] theorem Dev.updBlock_boot (l i : Nat) (g : Block → Block) : (d.updBlock l i g).boot = d.boot := rfl
@[simp] theorem Dev.updBlock_host (l i : Nat) (g : Block → Block) : (d.updBlock l i g).host = d.host := rfl
@[simp] theorem Dev.updBlock_images (l i : Nat) (g : Block → Block) : (d.updBlock l i g).images = d.images := rfl
@[simp] theorem Dev.updBlock_heldBar4 (l i : Nat) (g : Block → Block) : (d.updBlock l i g).heldBar4 = d.heldBar4 := rfl
@[simp] theorem Dev.updBlock_sent (l i : Nat) (g : Block → Block) : (d.updBlock l i g).sent = d.sent := rfl
@[simp] theorem Dev.updBlock_freeCount (l i : Nat) (g : Block → Block) : (d.updBlock l i g).freeCount = d.freeCount := rfl
@[simp] theorem Dev.updBlock_origins (l i : Nat) (g : Block → Block) : (d.updBlock l i g).origins = d.origins := rfl
@[simp] theorem Dev.updBlock_strikes (l i : Nat) (g : Block → Block) : (d.updBlock l i g).strikes = d.strikes := rfl

/-! ## updBeam -/

@[simp] theorem Dev.updBeam_part48 (r : BeamRef) (g : Beam → Beam) : (d.updBeam r g).part48 = d.part48 := rfl
@[simp] theorem Dev.updBeam_rowMap (r : BeamRef) (g : Beam → Beam) : (d.updBeam r g).rowMap = d.rowMap := rfl
@[simp] theorem Dev.updBeam_latches (r : BeamRef) (g : Beam → Beam) : (d.updBeam r g).latches = d.latches := rfl
@[simp] theorem Dev.updBeam_beats (r : BeamRef) (g : Beam → Beam) : (d.updBeam r g).beats = d.beats := rfl
@[simp] theorem Dev.updBeam_counters (r : BeamRef) (g : Beam → Beam) : (d.updBeam r g).counters = d.counters := rfl
@[simp] theorem Dev.updBeam_facetCounters (r : BeamRef) (g : Beam → Beam) : (d.updBeam r g).facetCounters = d.facetCounters := rfl
@[simp] theorem Dev.updBeam_launches (r : BeamRef) (g : Beam → Beam) : (d.updBeam r g).launches = d.launches := rfl
@[simp] theorem Dev.updBeam_clusters (r : BeamRef) (g : Beam → Beam) : (d.updBeam r g).clusters = d.clusters := rfl
@[simp] theorem Dev.updBeam_saved (r : BeamRef) (g : Beam → Beam) : (d.updBeam r g).saved = d.saved := rfl
@[simp] theorem Dev.updBeam_cores (r : BeamRef) (g : Beam → Beam) : (d.updBeam r g).cores = d.cores := rfl
@[simp] theorem Dev.updBeam_nextLaunch (r : BeamRef) (g : Beam → Beam) : (d.updBeam r g).nextLaunch = d.nextLaunch := rfl
@[simp] theorem Dev.updBeam_nextAccept (r : BeamRef) (g : Beam → Beam) : (d.updBeam r g).nextAccept = d.nextAccept := rfl
@[simp] theorem Dev.updBeam_slices (r : BeamRef) (g : Beam → Beam) : (d.updBeam r g).slices = d.slices := rfl
@[simp] theorem Dev.updBeam_net (r : BeamRef) (g : Beam → Beam) : (d.updBeam r g).net = d.net := rfl
@[simp] theorem Dev.updBeam_nextMsg (r : BeamRef) (g : Beam → Beam) : (d.updBeam r g).nextMsg = d.nextMsg := rfl
@[simp] theorem Dev.updBeam_vcTurns (r : BeamRef) (g : Beam → Beam) : (d.updBeam r g).vcTurns = d.vcTurns := rfl
@[simp] theorem Dev.updBeam_inTurns (r : BeamRef) (g : Beam → Beam) : (d.updBeam r g).inTurns = d.inTurns := rfl
@[simp] theorem Dev.updBeam_cache (r : BeamRef) (g : Beam → Beam) : (d.updBeam r g).cache = d.cache := rfl
@[simp] theorem Dev.updBeam_ports (r : BeamRef) (g : Beam → Beam) : (d.updBeam r g).ports = d.ports := rfl
@[simp] theorem Dev.updBeam_groups (r : BeamRef) (g : Beam → Beam) : (d.updBeam r g).groups = d.groups := rfl
@[simp] theorem Dev.updBeam_mem (r : BeamRef) (g : Beam → Beam) : (d.updBeam r g).mem = d.mem := rfl
@[simp] theorem Dev.updBeam_memPoison (r : BeamRef) (g : Beam → Beam) : (d.updBeam r g).memPoison = d.memPoison := rfl
@[simp] theorem Dev.updBeam_reads (r : BeamRef) (g : Beam → Beam) : (d.updBeam r g).reads = d.reads := rfl
@[simp] theorem Dev.updBeam_stackRegs (r : BeamRef) (g : Beam → Beam) : (d.updBeam r g).stackRegs = d.stackRegs := rfl
@[simp] theorem Dev.updBeam_wbatch (r : BeamRef) (g : Beam → Beam) : (d.updBeam r g).wbatch = d.wbatch := rfl
@[simp] theorem Dev.updBeam_memCfgErr (r : BeamRef) (g : Beam → Beam) : (d.updBeam r g).memCfgErr = d.memCfgErr := rfl
@[simp] theorem Dev.updBeam_stripes (r : BeamRef) (g : Beam → Beam) : (d.updBeam r g).stripes = d.stripes := rfl
@[simp] theorem Dev.updBeam_frames (r : BeamRef) (g : Beam → Beam) : (d.updBeam r g).frames = d.frames := rfl
@[simp] theorem Dev.updBeam_farPorts (r : BeamRef) (g : Beam → Beam) : (d.updBeam r g).farPorts = d.farPorts := rfl
@[simp] theorem Dev.updBeam_farWaits (r : BeamRef) (g : Beam → Beam) : (d.updBeam r g).farWaits = d.farWaits := rfl
@[simp] theorem Dev.updBeam_facets (r : BeamRef) (g : Beam → Beam) : (d.updBeam r g).facets = d.facets := rfl
@[simp] theorem Dev.updBeam_channels (r : BeamRef) (g : Beam → Beam) : (d.updBeam r g).channels = d.channels := rfl
@[simp] theorem Dev.updBeam_dmaGrants (r : BeamRef) (g : Beam → Beam) : (d.updBeam r g).dmaGrants = d.dmaGrants := rfl
@[simp] theorem Dev.updBeam_intake (r : BeamRef) (g : Beam → Beam) : (d.updBeam r g).intake = d.intake := rfl
@[simp] theorem Dev.updBeam_mbxTurn (r : BeamRef) (g : Beam → Beam) : (d.updBeam r g).mbxTurn = d.mbxTurn := rfl
@[simp] theorem Dev.updBeam_lehr (r : BeamRef) (g : Beam → Beam) : (d.updBeam r g).lehr = d.lehr := rfl
@[simp] theorem Dev.updBeam_serving (r : BeamRef) (g : Beam → Beam) : (d.updBeam r g).serving = d.serving := rfl
@[simp] theorem Dev.updBeam_power (r : BeamRef) (g : Beam → Beam) : (d.updBeam r g).power = d.power := rfl
@[simp] theorem Dev.updBeam_errors (r : BeamRef) (g : Beam → Beam) : (d.updBeam r g).errors = d.errors := rfl
@[simp] theorem Dev.updBeam_security (r : BeamRef) (g : Beam → Beam) : (d.updBeam r g).security = d.security := rfl
@[simp] theorem Dev.updBeam_boot (r : BeamRef) (g : Beam → Beam) : (d.updBeam r g).boot = d.boot := rfl
@[simp] theorem Dev.updBeam_host (r : BeamRef) (g : Beam → Beam) : (d.updBeam r g).host = d.host := rfl
@[simp] theorem Dev.updBeam_images (r : BeamRef) (g : Beam → Beam) : (d.updBeam r g).images = d.images := rfl
@[simp] theorem Dev.updBeam_heldBar4 (r : BeamRef) (g : Beam → Beam) : (d.updBeam r g).heldBar4 = d.heldBar4 := rfl
@[simp] theorem Dev.updBeam_sent (r : BeamRef) (g : Beam → Beam) : (d.updBeam r g).sent = d.sent := rfl
@[simp] theorem Dev.updBeam_freeCount (r : BeamRef) (g : Beam → Beam) : (d.updBeam r g).freeCount = d.freeCount := rfl
@[simp] theorem Dev.updBeam_origins (r : BeamRef) (g : Beam → Beam) : (d.updBeam r g).origins = d.origins := rfl
@[simp] theorem Dev.updBeam_strikes (r : BeamRef) (g : Beam → Beam) : (d.updBeam r g).strikes = d.strikes := rfl

/-! ## updPower -/

@[simp] theorem Dev.updPower_part48 (g : Power → Power) : (d.updPower g).part48 = d.part48 := rfl
@[simp] theorem Dev.updPower_rowMap (g : Power → Power) : (d.updPower g).rowMap = d.rowMap := rfl
@[simp] theorem Dev.updPower_latches (g : Power → Power) : (d.updPower g).latches = d.latches := rfl
@[simp] theorem Dev.updPower_beats (g : Power → Power) : (d.updPower g).beats = d.beats := rfl
@[simp] theorem Dev.updPower_counters (g : Power → Power) : (d.updPower g).counters = d.counters := rfl
@[simp] theorem Dev.updPower_facetCounters (g : Power → Power) : (d.updPower g).facetCounters = d.facetCounters := rfl
@[simp] theorem Dev.updPower_launches (g : Power → Power) : (d.updPower g).launches = d.launches := rfl
@[simp] theorem Dev.updPower_blocks (g : Power → Power) : (d.updPower g).blocks = d.blocks := rfl
@[simp] theorem Dev.updPower_clusters (g : Power → Power) : (d.updPower g).clusters = d.clusters := rfl
@[simp] theorem Dev.updPower_saved (g : Power → Power) : (d.updPower g).saved = d.saved := rfl
@[simp] theorem Dev.updPower_cores (g : Power → Power) : (d.updPower g).cores = d.cores := rfl
@[simp] theorem Dev.updPower_nextLaunch (g : Power → Power) : (d.updPower g).nextLaunch = d.nextLaunch := rfl
@[simp] theorem Dev.updPower_nextAccept (g : Power → Power) : (d.updPower g).nextAccept = d.nextAccept := rfl
@[simp] theorem Dev.updPower_slices (g : Power → Power) : (d.updPower g).slices = d.slices := rfl
@[simp] theorem Dev.updPower_net (g : Power → Power) : (d.updPower g).net = d.net := rfl
@[simp] theorem Dev.updPower_nextMsg (g : Power → Power) : (d.updPower g).nextMsg = d.nextMsg := rfl
@[simp] theorem Dev.updPower_vcTurns (g : Power → Power) : (d.updPower g).vcTurns = d.vcTurns := rfl
@[simp] theorem Dev.updPower_inTurns (g : Power → Power) : (d.updPower g).inTurns = d.inTurns := rfl
@[simp] theorem Dev.updPower_cache (g : Power → Power) : (d.updPower g).cache = d.cache := rfl
@[simp] theorem Dev.updPower_ports (g : Power → Power) : (d.updPower g).ports = d.ports := rfl
@[simp] theorem Dev.updPower_groups (g : Power → Power) : (d.updPower g).groups = d.groups := rfl
@[simp] theorem Dev.updPower_mem (g : Power → Power) : (d.updPower g).mem = d.mem := rfl
@[simp] theorem Dev.updPower_memPoison (g : Power → Power) : (d.updPower g).memPoison = d.memPoison := rfl
@[simp] theorem Dev.updPower_reads (g : Power → Power) : (d.updPower g).reads = d.reads := rfl
@[simp] theorem Dev.updPower_stackRegs (g : Power → Power) : (d.updPower g).stackRegs = d.stackRegs := rfl
@[simp] theorem Dev.updPower_wbatch (g : Power → Power) : (d.updPower g).wbatch = d.wbatch := rfl
@[simp] theorem Dev.updPower_memCfgErr (g : Power → Power) : (d.updPower g).memCfgErr = d.memCfgErr := rfl
@[simp] theorem Dev.updPower_stripes (g : Power → Power) : (d.updPower g).stripes = d.stripes := rfl
@[simp] theorem Dev.updPower_frames (g : Power → Power) : (d.updPower g).frames = d.frames := rfl
@[simp] theorem Dev.updPower_farPorts (g : Power → Power) : (d.updPower g).farPorts = d.farPorts := rfl
@[simp] theorem Dev.updPower_farWaits (g : Power → Power) : (d.updPower g).farWaits = d.farWaits := rfl
@[simp] theorem Dev.updPower_facets (g : Power → Power) : (d.updPower g).facets = d.facets := rfl
@[simp] theorem Dev.updPower_channels (g : Power → Power) : (d.updPower g).channels = d.channels := rfl
@[simp] theorem Dev.updPower_dmaGrants (g : Power → Power) : (d.updPower g).dmaGrants = d.dmaGrants := rfl
@[simp] theorem Dev.updPower_intake (g : Power → Power) : (d.updPower g).intake = d.intake := rfl
@[simp] theorem Dev.updPower_mbxTurn (g : Power → Power) : (d.updPower g).mbxTurn = d.mbxTurn := rfl
@[simp] theorem Dev.updPower_lehr (g : Power → Power) : (d.updPower g).lehr = d.lehr := rfl
@[simp] theorem Dev.updPower_serving (g : Power → Power) : (d.updPower g).serving = d.serving := rfl
@[simp] theorem Dev.updPower_power (g : Power → Power) : (d.updPower g).power = g d.power := rfl
@[simp] theorem Dev.updPower_errors (g : Power → Power) : (d.updPower g).errors = d.errors := rfl
@[simp] theorem Dev.updPower_security (g : Power → Power) : (d.updPower g).security = d.security := rfl
@[simp] theorem Dev.updPower_boot (g : Power → Power) : (d.updPower g).boot = d.boot := rfl
@[simp] theorem Dev.updPower_host (g : Power → Power) : (d.updPower g).host = d.host := rfl
@[simp] theorem Dev.updPower_images (g : Power → Power) : (d.updPower g).images = d.images := rfl
@[simp] theorem Dev.updPower_heldBar4 (g : Power → Power) : (d.updPower g).heldBar4 = d.heldBar4 := rfl
@[simp] theorem Dev.updPower_sent (g : Power → Power) : (d.updPower g).sent = d.sent := rfl
@[simp] theorem Dev.updPower_freeCount (g : Power → Power) : (d.updPower g).freeCount = d.freeCount := rfl
@[simp] theorem Dev.updPower_origins (g : Power → Power) : (d.updPower g).origins = d.origins := rfl
@[simp] theorem Dev.updPower_strikes (g : Power → Power) : (d.updPower g).strikes = d.strikes := rfl

/-! ## updErrors -/

@[simp] theorem Dev.updErrors_part48 (g : Errors → Errors) : (d.updErrors g).part48 = d.part48 := rfl
@[simp] theorem Dev.updErrors_rowMap (g : Errors → Errors) : (d.updErrors g).rowMap = d.rowMap := rfl
@[simp] theorem Dev.updErrors_latches (g : Errors → Errors) : (d.updErrors g).latches = d.latches := rfl
@[simp] theorem Dev.updErrors_beats (g : Errors → Errors) : (d.updErrors g).beats = d.beats := rfl
@[simp] theorem Dev.updErrors_counters (g : Errors → Errors) : (d.updErrors g).counters = d.counters := rfl
@[simp] theorem Dev.updErrors_facetCounters (g : Errors → Errors) : (d.updErrors g).facetCounters = d.facetCounters := rfl
@[simp] theorem Dev.updErrors_launches (g : Errors → Errors) : (d.updErrors g).launches = d.launches := rfl
@[simp] theorem Dev.updErrors_blocks (g : Errors → Errors) : (d.updErrors g).blocks = d.blocks := rfl
@[simp] theorem Dev.updErrors_clusters (g : Errors → Errors) : (d.updErrors g).clusters = d.clusters := rfl
@[simp] theorem Dev.updErrors_saved (g : Errors → Errors) : (d.updErrors g).saved = d.saved := rfl
@[simp] theorem Dev.updErrors_cores (g : Errors → Errors) : (d.updErrors g).cores = d.cores := rfl
@[simp] theorem Dev.updErrors_nextLaunch (g : Errors → Errors) : (d.updErrors g).nextLaunch = d.nextLaunch := rfl
@[simp] theorem Dev.updErrors_nextAccept (g : Errors → Errors) : (d.updErrors g).nextAccept = d.nextAccept := rfl
@[simp] theorem Dev.updErrors_slices (g : Errors → Errors) : (d.updErrors g).slices = d.slices := rfl
@[simp] theorem Dev.updErrors_net (g : Errors → Errors) : (d.updErrors g).net = d.net := rfl
@[simp] theorem Dev.updErrors_nextMsg (g : Errors → Errors) : (d.updErrors g).nextMsg = d.nextMsg := rfl
@[simp] theorem Dev.updErrors_vcTurns (g : Errors → Errors) : (d.updErrors g).vcTurns = d.vcTurns := rfl
@[simp] theorem Dev.updErrors_inTurns (g : Errors → Errors) : (d.updErrors g).inTurns = d.inTurns := rfl
@[simp] theorem Dev.updErrors_cache (g : Errors → Errors) : (d.updErrors g).cache = d.cache := rfl
@[simp] theorem Dev.updErrors_ports (g : Errors → Errors) : (d.updErrors g).ports = d.ports := rfl
@[simp] theorem Dev.updErrors_groups (g : Errors → Errors) : (d.updErrors g).groups = d.groups := rfl
@[simp] theorem Dev.updErrors_mem (g : Errors → Errors) : (d.updErrors g).mem = d.mem := rfl
@[simp] theorem Dev.updErrors_memPoison (g : Errors → Errors) : (d.updErrors g).memPoison = d.memPoison := rfl
@[simp] theorem Dev.updErrors_reads (g : Errors → Errors) : (d.updErrors g).reads = d.reads := rfl
@[simp] theorem Dev.updErrors_stackRegs (g : Errors → Errors) : (d.updErrors g).stackRegs = d.stackRegs := rfl
@[simp] theorem Dev.updErrors_wbatch (g : Errors → Errors) : (d.updErrors g).wbatch = d.wbatch := rfl
@[simp] theorem Dev.updErrors_memCfgErr (g : Errors → Errors) : (d.updErrors g).memCfgErr = d.memCfgErr := rfl
@[simp] theorem Dev.updErrors_stripes (g : Errors → Errors) : (d.updErrors g).stripes = d.stripes := rfl
@[simp] theorem Dev.updErrors_frames (g : Errors → Errors) : (d.updErrors g).frames = d.frames := rfl
@[simp] theorem Dev.updErrors_farPorts (g : Errors → Errors) : (d.updErrors g).farPorts = d.farPorts := rfl
@[simp] theorem Dev.updErrors_farWaits (g : Errors → Errors) : (d.updErrors g).farWaits = d.farWaits := rfl
@[simp] theorem Dev.updErrors_facets (g : Errors → Errors) : (d.updErrors g).facets = d.facets := rfl
@[simp] theorem Dev.updErrors_channels (g : Errors → Errors) : (d.updErrors g).channels = d.channels := rfl
@[simp] theorem Dev.updErrors_dmaGrants (g : Errors → Errors) : (d.updErrors g).dmaGrants = d.dmaGrants := rfl
@[simp] theorem Dev.updErrors_intake (g : Errors → Errors) : (d.updErrors g).intake = d.intake := rfl
@[simp] theorem Dev.updErrors_mbxTurn (g : Errors → Errors) : (d.updErrors g).mbxTurn = d.mbxTurn := rfl
@[simp] theorem Dev.updErrors_lehr (g : Errors → Errors) : (d.updErrors g).lehr = d.lehr := rfl
@[simp] theorem Dev.updErrors_serving (g : Errors → Errors) : (d.updErrors g).serving = d.serving := rfl
@[simp] theorem Dev.updErrors_power (g : Errors → Errors) : (d.updErrors g).power = d.power := rfl
@[simp] theorem Dev.updErrors_errors (g : Errors → Errors) : (d.updErrors g).errors = g d.errors := rfl
@[simp] theorem Dev.updErrors_security (g : Errors → Errors) : (d.updErrors g).security = d.security := rfl
@[simp] theorem Dev.updErrors_boot (g : Errors → Errors) : (d.updErrors g).boot = d.boot := rfl
@[simp] theorem Dev.updErrors_host (g : Errors → Errors) : (d.updErrors g).host = d.host := rfl
@[simp] theorem Dev.updErrors_images (g : Errors → Errors) : (d.updErrors g).images = d.images := rfl
@[simp] theorem Dev.updErrors_heldBar4 (g : Errors → Errors) : (d.updErrors g).heldBar4 = d.heldBar4 := rfl
@[simp] theorem Dev.updErrors_sent (g : Errors → Errors) : (d.updErrors g).sent = d.sent := rfl
@[simp] theorem Dev.updErrors_freeCount (g : Errors → Errors) : (d.updErrors g).freeCount = d.freeCount := rfl
@[simp] theorem Dev.updErrors_origins (g : Errors → Errors) : (d.updErrors g).origins = d.origins := rfl
@[simp] theorem Dev.updErrors_strikes (g : Errors → Errors) : (d.updErrors g).strikes = d.strikes := rfl

/-! ## updSecurity -/

@[simp] theorem Dev.updSecurity_part48 (g : Security → Security) : (d.updSecurity g).part48 = d.part48 := rfl
@[simp] theorem Dev.updSecurity_rowMap (g : Security → Security) : (d.updSecurity g).rowMap = d.rowMap := rfl
@[simp] theorem Dev.updSecurity_latches (g : Security → Security) : (d.updSecurity g).latches = d.latches := rfl
@[simp] theorem Dev.updSecurity_beats (g : Security → Security) : (d.updSecurity g).beats = d.beats := rfl
@[simp] theorem Dev.updSecurity_counters (g : Security → Security) : (d.updSecurity g).counters = d.counters := rfl
@[simp] theorem Dev.updSecurity_facetCounters (g : Security → Security) : (d.updSecurity g).facetCounters = d.facetCounters := rfl
@[simp] theorem Dev.updSecurity_launches (g : Security → Security) : (d.updSecurity g).launches = d.launches := rfl
@[simp] theorem Dev.updSecurity_blocks (g : Security → Security) : (d.updSecurity g).blocks = d.blocks := rfl
@[simp] theorem Dev.updSecurity_clusters (g : Security → Security) : (d.updSecurity g).clusters = d.clusters := rfl
@[simp] theorem Dev.updSecurity_saved (g : Security → Security) : (d.updSecurity g).saved = d.saved := rfl
@[simp] theorem Dev.updSecurity_cores (g : Security → Security) : (d.updSecurity g).cores = d.cores := rfl
@[simp] theorem Dev.updSecurity_nextLaunch (g : Security → Security) : (d.updSecurity g).nextLaunch = d.nextLaunch := rfl
@[simp] theorem Dev.updSecurity_nextAccept (g : Security → Security) : (d.updSecurity g).nextAccept = d.nextAccept := rfl
@[simp] theorem Dev.updSecurity_slices (g : Security → Security) : (d.updSecurity g).slices = d.slices := rfl
@[simp] theorem Dev.updSecurity_net (g : Security → Security) : (d.updSecurity g).net = d.net := rfl
@[simp] theorem Dev.updSecurity_nextMsg (g : Security → Security) : (d.updSecurity g).nextMsg = d.nextMsg := rfl
@[simp] theorem Dev.updSecurity_vcTurns (g : Security → Security) : (d.updSecurity g).vcTurns = d.vcTurns := rfl
@[simp] theorem Dev.updSecurity_inTurns (g : Security → Security) : (d.updSecurity g).inTurns = d.inTurns := rfl
@[simp] theorem Dev.updSecurity_cache (g : Security → Security) : (d.updSecurity g).cache = d.cache := rfl
@[simp] theorem Dev.updSecurity_ports (g : Security → Security) : (d.updSecurity g).ports = d.ports := rfl
@[simp] theorem Dev.updSecurity_groups (g : Security → Security) : (d.updSecurity g).groups = d.groups := rfl
@[simp] theorem Dev.updSecurity_mem (g : Security → Security) : (d.updSecurity g).mem = d.mem := rfl
@[simp] theorem Dev.updSecurity_memPoison (g : Security → Security) : (d.updSecurity g).memPoison = d.memPoison := rfl
@[simp] theorem Dev.updSecurity_reads (g : Security → Security) : (d.updSecurity g).reads = d.reads := rfl
@[simp] theorem Dev.updSecurity_stackRegs (g : Security → Security) : (d.updSecurity g).stackRegs = d.stackRegs := rfl
@[simp] theorem Dev.updSecurity_wbatch (g : Security → Security) : (d.updSecurity g).wbatch = d.wbatch := rfl
@[simp] theorem Dev.updSecurity_memCfgErr (g : Security → Security) : (d.updSecurity g).memCfgErr = d.memCfgErr := rfl
@[simp] theorem Dev.updSecurity_stripes (g : Security → Security) : (d.updSecurity g).stripes = d.stripes := rfl
@[simp] theorem Dev.updSecurity_frames (g : Security → Security) : (d.updSecurity g).frames = d.frames := rfl
@[simp] theorem Dev.updSecurity_farPorts (g : Security → Security) : (d.updSecurity g).farPorts = d.farPorts := rfl
@[simp] theorem Dev.updSecurity_farWaits (g : Security → Security) : (d.updSecurity g).farWaits = d.farWaits := rfl
@[simp] theorem Dev.updSecurity_facets (g : Security → Security) : (d.updSecurity g).facets = d.facets := rfl
@[simp] theorem Dev.updSecurity_channels (g : Security → Security) : (d.updSecurity g).channels = d.channels := rfl
@[simp] theorem Dev.updSecurity_dmaGrants (g : Security → Security) : (d.updSecurity g).dmaGrants = d.dmaGrants := rfl
@[simp] theorem Dev.updSecurity_intake (g : Security → Security) : (d.updSecurity g).intake = d.intake := rfl
@[simp] theorem Dev.updSecurity_mbxTurn (g : Security → Security) : (d.updSecurity g).mbxTurn = d.mbxTurn := rfl
@[simp] theorem Dev.updSecurity_lehr (g : Security → Security) : (d.updSecurity g).lehr = d.lehr := rfl
@[simp] theorem Dev.updSecurity_serving (g : Security → Security) : (d.updSecurity g).serving = d.serving := rfl
@[simp] theorem Dev.updSecurity_power (g : Security → Security) : (d.updSecurity g).power = d.power := rfl
@[simp] theorem Dev.updSecurity_errors (g : Security → Security) : (d.updSecurity g).errors = d.errors := rfl
@[simp] theorem Dev.updSecurity_security (g : Security → Security) : (d.updSecurity g).security = g d.security := rfl
@[simp] theorem Dev.updSecurity_boot (g : Security → Security) : (d.updSecurity g).boot = d.boot := rfl
@[simp] theorem Dev.updSecurity_host (g : Security → Security) : (d.updSecurity g).host = d.host := rfl
@[simp] theorem Dev.updSecurity_images (g : Security → Security) : (d.updSecurity g).images = d.images := rfl
@[simp] theorem Dev.updSecurity_heldBar4 (g : Security → Security) : (d.updSecurity g).heldBar4 = d.heldBar4 := rfl
@[simp] theorem Dev.updSecurity_sent (g : Security → Security) : (d.updSecurity g).sent = d.sent := rfl
@[simp] theorem Dev.updSecurity_freeCount (g : Security → Security) : (d.updSecurity g).freeCount = d.freeCount := rfl
@[simp] theorem Dev.updSecurity_origins (g : Security → Security) : (d.updSecurity g).origins = d.origins := rfl
@[simp] theorem Dev.updSecurity_strikes (g : Security → Security) : (d.updSecurity g).strikes = d.strikes := rfl

/-! ## updBoot -/

@[simp] theorem Dev.updBoot_part48 (g : Boot → Boot) : (d.updBoot g).part48 = d.part48 := rfl
@[simp] theorem Dev.updBoot_rowMap (g : Boot → Boot) : (d.updBoot g).rowMap = d.rowMap := rfl
@[simp] theorem Dev.updBoot_latches (g : Boot → Boot) : (d.updBoot g).latches = d.latches := rfl
@[simp] theorem Dev.updBoot_beats (g : Boot → Boot) : (d.updBoot g).beats = d.beats := rfl
@[simp] theorem Dev.updBoot_counters (g : Boot → Boot) : (d.updBoot g).counters = d.counters := rfl
@[simp] theorem Dev.updBoot_facetCounters (g : Boot → Boot) : (d.updBoot g).facetCounters = d.facetCounters := rfl
@[simp] theorem Dev.updBoot_launches (g : Boot → Boot) : (d.updBoot g).launches = d.launches := rfl
@[simp] theorem Dev.updBoot_blocks (g : Boot → Boot) : (d.updBoot g).blocks = d.blocks := rfl
@[simp] theorem Dev.updBoot_clusters (g : Boot → Boot) : (d.updBoot g).clusters = d.clusters := rfl
@[simp] theorem Dev.updBoot_saved (g : Boot → Boot) : (d.updBoot g).saved = d.saved := rfl
@[simp] theorem Dev.updBoot_cores (g : Boot → Boot) : (d.updBoot g).cores = d.cores := rfl
@[simp] theorem Dev.updBoot_nextLaunch (g : Boot → Boot) : (d.updBoot g).nextLaunch = d.nextLaunch := rfl
@[simp] theorem Dev.updBoot_nextAccept (g : Boot → Boot) : (d.updBoot g).nextAccept = d.nextAccept := rfl
@[simp] theorem Dev.updBoot_slices (g : Boot → Boot) : (d.updBoot g).slices = d.slices := rfl
@[simp] theorem Dev.updBoot_net (g : Boot → Boot) : (d.updBoot g).net = d.net := rfl
@[simp] theorem Dev.updBoot_nextMsg (g : Boot → Boot) : (d.updBoot g).nextMsg = d.nextMsg := rfl
@[simp] theorem Dev.updBoot_vcTurns (g : Boot → Boot) : (d.updBoot g).vcTurns = d.vcTurns := rfl
@[simp] theorem Dev.updBoot_inTurns (g : Boot → Boot) : (d.updBoot g).inTurns = d.inTurns := rfl
@[simp] theorem Dev.updBoot_cache (g : Boot → Boot) : (d.updBoot g).cache = d.cache := rfl
@[simp] theorem Dev.updBoot_ports (g : Boot → Boot) : (d.updBoot g).ports = d.ports := rfl
@[simp] theorem Dev.updBoot_groups (g : Boot → Boot) : (d.updBoot g).groups = d.groups := rfl
@[simp] theorem Dev.updBoot_mem (g : Boot → Boot) : (d.updBoot g).mem = d.mem := rfl
@[simp] theorem Dev.updBoot_memPoison (g : Boot → Boot) : (d.updBoot g).memPoison = d.memPoison := rfl
@[simp] theorem Dev.updBoot_reads (g : Boot → Boot) : (d.updBoot g).reads = d.reads := rfl
@[simp] theorem Dev.updBoot_stackRegs (g : Boot → Boot) : (d.updBoot g).stackRegs = d.stackRegs := rfl
@[simp] theorem Dev.updBoot_wbatch (g : Boot → Boot) : (d.updBoot g).wbatch = d.wbatch := rfl
@[simp] theorem Dev.updBoot_memCfgErr (g : Boot → Boot) : (d.updBoot g).memCfgErr = d.memCfgErr := rfl
@[simp] theorem Dev.updBoot_stripes (g : Boot → Boot) : (d.updBoot g).stripes = d.stripes := rfl
@[simp] theorem Dev.updBoot_frames (g : Boot → Boot) : (d.updBoot g).frames = d.frames := rfl
@[simp] theorem Dev.updBoot_farPorts (g : Boot → Boot) : (d.updBoot g).farPorts = d.farPorts := rfl
@[simp] theorem Dev.updBoot_farWaits (g : Boot → Boot) : (d.updBoot g).farWaits = d.farWaits := rfl
@[simp] theorem Dev.updBoot_facets (g : Boot → Boot) : (d.updBoot g).facets = d.facets := rfl
@[simp] theorem Dev.updBoot_channels (g : Boot → Boot) : (d.updBoot g).channels = d.channels := rfl
@[simp] theorem Dev.updBoot_dmaGrants (g : Boot → Boot) : (d.updBoot g).dmaGrants = d.dmaGrants := rfl
@[simp] theorem Dev.updBoot_intake (g : Boot → Boot) : (d.updBoot g).intake = d.intake := rfl
@[simp] theorem Dev.updBoot_mbxTurn (g : Boot → Boot) : (d.updBoot g).mbxTurn = d.mbxTurn := rfl
@[simp] theorem Dev.updBoot_lehr (g : Boot → Boot) : (d.updBoot g).lehr = d.lehr := rfl
@[simp] theorem Dev.updBoot_serving (g : Boot → Boot) : (d.updBoot g).serving = d.serving := rfl
@[simp] theorem Dev.updBoot_power (g : Boot → Boot) : (d.updBoot g).power = d.power := rfl
@[simp] theorem Dev.updBoot_errors (g : Boot → Boot) : (d.updBoot g).errors = d.errors := rfl
@[simp] theorem Dev.updBoot_security (g : Boot → Boot) : (d.updBoot g).security = d.security := rfl
@[simp] theorem Dev.updBoot_boot (g : Boot → Boot) : (d.updBoot g).boot = g d.boot := rfl
@[simp] theorem Dev.updBoot_host (g : Boot → Boot) : (d.updBoot g).host = d.host := rfl
@[simp] theorem Dev.updBoot_images (g : Boot → Boot) : (d.updBoot g).images = d.images := rfl
@[simp] theorem Dev.updBoot_heldBar4 (g : Boot → Boot) : (d.updBoot g).heldBar4 = d.heldBar4 := rfl
@[simp] theorem Dev.updBoot_sent (g : Boot → Boot) : (d.updBoot g).sent = d.sent := rfl
@[simp] theorem Dev.updBoot_freeCount (g : Boot → Boot) : (d.updBoot g).freeCount = d.freeCount := rfl
@[simp] theorem Dev.updBoot_origins (g : Boot → Boot) : (d.updBoot g).origins = d.origins := rfl
@[simp] theorem Dev.updBoot_strikes (g : Boot → Boot) : (d.updBoot g).strikes = d.strikes := rfl

/-! ## updHost -/

@[simp] theorem Dev.updHost_part48 (g : HostLink → HostLink) : (d.updHost g).part48 = d.part48 := rfl
@[simp] theorem Dev.updHost_rowMap (g : HostLink → HostLink) : (d.updHost g).rowMap = d.rowMap := rfl
@[simp] theorem Dev.updHost_latches (g : HostLink → HostLink) : (d.updHost g).latches = d.latches := rfl
@[simp] theorem Dev.updHost_beats (g : HostLink → HostLink) : (d.updHost g).beats = d.beats := rfl
@[simp] theorem Dev.updHost_counters (g : HostLink → HostLink) : (d.updHost g).counters = d.counters := rfl
@[simp] theorem Dev.updHost_facetCounters (g : HostLink → HostLink) : (d.updHost g).facetCounters = d.facetCounters := rfl
@[simp] theorem Dev.updHost_launches (g : HostLink → HostLink) : (d.updHost g).launches = d.launches := rfl
@[simp] theorem Dev.updHost_blocks (g : HostLink → HostLink) : (d.updHost g).blocks = d.blocks := rfl
@[simp] theorem Dev.updHost_clusters (g : HostLink → HostLink) : (d.updHost g).clusters = d.clusters := rfl
@[simp] theorem Dev.updHost_saved (g : HostLink → HostLink) : (d.updHost g).saved = d.saved := rfl
@[simp] theorem Dev.updHost_cores (g : HostLink → HostLink) : (d.updHost g).cores = d.cores := rfl
@[simp] theorem Dev.updHost_nextLaunch (g : HostLink → HostLink) : (d.updHost g).nextLaunch = d.nextLaunch := rfl
@[simp] theorem Dev.updHost_nextAccept (g : HostLink → HostLink) : (d.updHost g).nextAccept = d.nextAccept := rfl
@[simp] theorem Dev.updHost_slices (g : HostLink → HostLink) : (d.updHost g).slices = d.slices := rfl
@[simp] theorem Dev.updHost_net (g : HostLink → HostLink) : (d.updHost g).net = d.net := rfl
@[simp] theorem Dev.updHost_nextMsg (g : HostLink → HostLink) : (d.updHost g).nextMsg = d.nextMsg := rfl
@[simp] theorem Dev.updHost_vcTurns (g : HostLink → HostLink) : (d.updHost g).vcTurns = d.vcTurns := rfl
@[simp] theorem Dev.updHost_inTurns (g : HostLink → HostLink) : (d.updHost g).inTurns = d.inTurns := rfl
@[simp] theorem Dev.updHost_cache (g : HostLink → HostLink) : (d.updHost g).cache = d.cache := rfl
@[simp] theorem Dev.updHost_ports (g : HostLink → HostLink) : (d.updHost g).ports = d.ports := rfl
@[simp] theorem Dev.updHost_groups (g : HostLink → HostLink) : (d.updHost g).groups = d.groups := rfl
@[simp] theorem Dev.updHost_mem (g : HostLink → HostLink) : (d.updHost g).mem = d.mem := rfl
@[simp] theorem Dev.updHost_memPoison (g : HostLink → HostLink) : (d.updHost g).memPoison = d.memPoison := rfl
@[simp] theorem Dev.updHost_reads (g : HostLink → HostLink) : (d.updHost g).reads = d.reads := rfl
@[simp] theorem Dev.updHost_stackRegs (g : HostLink → HostLink) : (d.updHost g).stackRegs = d.stackRegs := rfl
@[simp] theorem Dev.updHost_wbatch (g : HostLink → HostLink) : (d.updHost g).wbatch = d.wbatch := rfl
@[simp] theorem Dev.updHost_memCfgErr (g : HostLink → HostLink) : (d.updHost g).memCfgErr = d.memCfgErr := rfl
@[simp] theorem Dev.updHost_stripes (g : HostLink → HostLink) : (d.updHost g).stripes = d.stripes := rfl
@[simp] theorem Dev.updHost_frames (g : HostLink → HostLink) : (d.updHost g).frames = d.frames := rfl
@[simp] theorem Dev.updHost_farPorts (g : HostLink → HostLink) : (d.updHost g).farPorts = d.farPorts := rfl
@[simp] theorem Dev.updHost_farWaits (g : HostLink → HostLink) : (d.updHost g).farWaits = d.farWaits := rfl
@[simp] theorem Dev.updHost_facets (g : HostLink → HostLink) : (d.updHost g).facets = d.facets := rfl
@[simp] theorem Dev.updHost_channels (g : HostLink → HostLink) : (d.updHost g).channels = d.channels := rfl
@[simp] theorem Dev.updHost_dmaGrants (g : HostLink → HostLink) : (d.updHost g).dmaGrants = d.dmaGrants := rfl
@[simp] theorem Dev.updHost_intake (g : HostLink → HostLink) : (d.updHost g).intake = d.intake := rfl
@[simp] theorem Dev.updHost_mbxTurn (g : HostLink → HostLink) : (d.updHost g).mbxTurn = d.mbxTurn := rfl
@[simp] theorem Dev.updHost_lehr (g : HostLink → HostLink) : (d.updHost g).lehr = d.lehr := rfl
@[simp] theorem Dev.updHost_serving (g : HostLink → HostLink) : (d.updHost g).serving = d.serving := rfl
@[simp] theorem Dev.updHost_power (g : HostLink → HostLink) : (d.updHost g).power = d.power := rfl
@[simp] theorem Dev.updHost_errors (g : HostLink → HostLink) : (d.updHost g).errors = d.errors := rfl
@[simp] theorem Dev.updHost_security (g : HostLink → HostLink) : (d.updHost g).security = d.security := rfl
@[simp] theorem Dev.updHost_boot (g : HostLink → HostLink) : (d.updHost g).boot = d.boot := rfl
@[simp] theorem Dev.updHost_host (g : HostLink → HostLink) : (d.updHost g).host = g d.host := rfl
@[simp] theorem Dev.updHost_images (g : HostLink → HostLink) : (d.updHost g).images = d.images := rfl
@[simp] theorem Dev.updHost_heldBar4 (g : HostLink → HostLink) : (d.updHost g).heldBar4 = d.heldBar4 := rfl
@[simp] theorem Dev.updHost_sent (g : HostLink → HostLink) : (d.updHost g).sent = d.sent := rfl
@[simp] theorem Dev.updHost_freeCount (g : HostLink → HostLink) : (d.updHost g).freeCount = d.freeCount := rfl
@[simp] theorem Dev.updHost_origins (g : HostLink → HostLink) : (d.updHost g).origins = d.origins := rfl
@[simp] theorem Dev.updHost_strikes (g : HostLink → HostLink) : (d.updHost g).strikes = d.strikes := rfl

/-! ## updLehr -/

@[simp] theorem Dev.updLehr_part48 (g : Lehr → Lehr) : (d.updLehr g).part48 = d.part48 := rfl
@[simp] theorem Dev.updLehr_rowMap (g : Lehr → Lehr) : (d.updLehr g).rowMap = d.rowMap := rfl
@[simp] theorem Dev.updLehr_latches (g : Lehr → Lehr) : (d.updLehr g).latches = d.latches := rfl
@[simp] theorem Dev.updLehr_beats (g : Lehr → Lehr) : (d.updLehr g).beats = d.beats := rfl
@[simp] theorem Dev.updLehr_counters (g : Lehr → Lehr) : (d.updLehr g).counters = d.counters := rfl
@[simp] theorem Dev.updLehr_facetCounters (g : Lehr → Lehr) : (d.updLehr g).facetCounters = d.facetCounters := rfl
@[simp] theorem Dev.updLehr_launches (g : Lehr → Lehr) : (d.updLehr g).launches = d.launches := rfl
@[simp] theorem Dev.updLehr_blocks (g : Lehr → Lehr) : (d.updLehr g).blocks = d.blocks := rfl
@[simp] theorem Dev.updLehr_clusters (g : Lehr → Lehr) : (d.updLehr g).clusters = d.clusters := rfl
@[simp] theorem Dev.updLehr_saved (g : Lehr → Lehr) : (d.updLehr g).saved = d.saved := rfl
@[simp] theorem Dev.updLehr_cores (g : Lehr → Lehr) : (d.updLehr g).cores = d.cores := rfl
@[simp] theorem Dev.updLehr_nextLaunch (g : Lehr → Lehr) : (d.updLehr g).nextLaunch = d.nextLaunch := rfl
@[simp] theorem Dev.updLehr_nextAccept (g : Lehr → Lehr) : (d.updLehr g).nextAccept = d.nextAccept := rfl
@[simp] theorem Dev.updLehr_slices (g : Lehr → Lehr) : (d.updLehr g).slices = d.slices := rfl
@[simp] theorem Dev.updLehr_net (g : Lehr → Lehr) : (d.updLehr g).net = d.net := rfl
@[simp] theorem Dev.updLehr_nextMsg (g : Lehr → Lehr) : (d.updLehr g).nextMsg = d.nextMsg := rfl
@[simp] theorem Dev.updLehr_vcTurns (g : Lehr → Lehr) : (d.updLehr g).vcTurns = d.vcTurns := rfl
@[simp] theorem Dev.updLehr_inTurns (g : Lehr → Lehr) : (d.updLehr g).inTurns = d.inTurns := rfl
@[simp] theorem Dev.updLehr_cache (g : Lehr → Lehr) : (d.updLehr g).cache = d.cache := rfl
@[simp] theorem Dev.updLehr_ports (g : Lehr → Lehr) : (d.updLehr g).ports = d.ports := rfl
@[simp] theorem Dev.updLehr_groups (g : Lehr → Lehr) : (d.updLehr g).groups = d.groups := rfl
@[simp] theorem Dev.updLehr_mem (g : Lehr → Lehr) : (d.updLehr g).mem = d.mem := rfl
@[simp] theorem Dev.updLehr_memPoison (g : Lehr → Lehr) : (d.updLehr g).memPoison = d.memPoison := rfl
@[simp] theorem Dev.updLehr_reads (g : Lehr → Lehr) : (d.updLehr g).reads = d.reads := rfl
@[simp] theorem Dev.updLehr_stackRegs (g : Lehr → Lehr) : (d.updLehr g).stackRegs = d.stackRegs := rfl
@[simp] theorem Dev.updLehr_wbatch (g : Lehr → Lehr) : (d.updLehr g).wbatch = d.wbatch := rfl
@[simp] theorem Dev.updLehr_memCfgErr (g : Lehr → Lehr) : (d.updLehr g).memCfgErr = d.memCfgErr := rfl
@[simp] theorem Dev.updLehr_stripes (g : Lehr → Lehr) : (d.updLehr g).stripes = d.stripes := rfl
@[simp] theorem Dev.updLehr_frames (g : Lehr → Lehr) : (d.updLehr g).frames = d.frames := rfl
@[simp] theorem Dev.updLehr_farPorts (g : Lehr → Lehr) : (d.updLehr g).farPorts = d.farPorts := rfl
@[simp] theorem Dev.updLehr_farWaits (g : Lehr → Lehr) : (d.updLehr g).farWaits = d.farWaits := rfl
@[simp] theorem Dev.updLehr_facets (g : Lehr → Lehr) : (d.updLehr g).facets = d.facets := rfl
@[simp] theorem Dev.updLehr_channels (g : Lehr → Lehr) : (d.updLehr g).channels = d.channels := rfl
@[simp] theorem Dev.updLehr_dmaGrants (g : Lehr → Lehr) : (d.updLehr g).dmaGrants = d.dmaGrants := rfl
@[simp] theorem Dev.updLehr_intake (g : Lehr → Lehr) : (d.updLehr g).intake = d.intake := rfl
@[simp] theorem Dev.updLehr_mbxTurn (g : Lehr → Lehr) : (d.updLehr g).mbxTurn = d.mbxTurn := rfl
@[simp] theorem Dev.updLehr_lehr (g : Lehr → Lehr) : (d.updLehr g).lehr = g d.lehr := rfl
@[simp] theorem Dev.updLehr_serving (g : Lehr → Lehr) : (d.updLehr g).serving = d.serving := rfl
@[simp] theorem Dev.updLehr_power (g : Lehr → Lehr) : (d.updLehr g).power = d.power := rfl
@[simp] theorem Dev.updLehr_errors (g : Lehr → Lehr) : (d.updLehr g).errors = d.errors := rfl
@[simp] theorem Dev.updLehr_security (g : Lehr → Lehr) : (d.updLehr g).security = d.security := rfl
@[simp] theorem Dev.updLehr_boot (g : Lehr → Lehr) : (d.updLehr g).boot = d.boot := rfl
@[simp] theorem Dev.updLehr_host (g : Lehr → Lehr) : (d.updLehr g).host = d.host := rfl
@[simp] theorem Dev.updLehr_images (g : Lehr → Lehr) : (d.updLehr g).images = d.images := rfl
@[simp] theorem Dev.updLehr_heldBar4 (g : Lehr → Lehr) : (d.updLehr g).heldBar4 = d.heldBar4 := rfl
@[simp] theorem Dev.updLehr_sent (g : Lehr → Lehr) : (d.updLehr g).sent = d.sent := rfl
@[simp] theorem Dev.updLehr_freeCount (g : Lehr → Lehr) : (d.updLehr g).freeCount = d.freeCount := rfl
@[simp] theorem Dev.updLehr_origins (g : Lehr → Lehr) : (d.updLehr g).origins = d.origins := rfl
@[simp] theorem Dev.updLehr_strikes (g : Lehr → Lehr) : (d.updLehr g).strikes = d.strikes := rfl

/-! ## updServing -/

@[simp] theorem Dev.updServing_part48 (g : Serving → Serving) : (d.updServing g).part48 = d.part48 := rfl
@[simp] theorem Dev.updServing_rowMap (g : Serving → Serving) : (d.updServing g).rowMap = d.rowMap := rfl
@[simp] theorem Dev.updServing_latches (g : Serving → Serving) : (d.updServing g).latches = d.latches := rfl
@[simp] theorem Dev.updServing_beats (g : Serving → Serving) : (d.updServing g).beats = d.beats := rfl
@[simp] theorem Dev.updServing_counters (g : Serving → Serving) : (d.updServing g).counters = d.counters := rfl
@[simp] theorem Dev.updServing_facetCounters (g : Serving → Serving) : (d.updServing g).facetCounters = d.facetCounters := rfl
@[simp] theorem Dev.updServing_launches (g : Serving → Serving) : (d.updServing g).launches = d.launches := rfl
@[simp] theorem Dev.updServing_blocks (g : Serving → Serving) : (d.updServing g).blocks = d.blocks := rfl
@[simp] theorem Dev.updServing_clusters (g : Serving → Serving) : (d.updServing g).clusters = d.clusters := rfl
@[simp] theorem Dev.updServing_saved (g : Serving → Serving) : (d.updServing g).saved = d.saved := rfl
@[simp] theorem Dev.updServing_cores (g : Serving → Serving) : (d.updServing g).cores = d.cores := rfl
@[simp] theorem Dev.updServing_nextLaunch (g : Serving → Serving) : (d.updServing g).nextLaunch = d.nextLaunch := rfl
@[simp] theorem Dev.updServing_nextAccept (g : Serving → Serving) : (d.updServing g).nextAccept = d.nextAccept := rfl
@[simp] theorem Dev.updServing_slices (g : Serving → Serving) : (d.updServing g).slices = d.slices := rfl
@[simp] theorem Dev.updServing_net (g : Serving → Serving) : (d.updServing g).net = d.net := rfl
@[simp] theorem Dev.updServing_nextMsg (g : Serving → Serving) : (d.updServing g).nextMsg = d.nextMsg := rfl
@[simp] theorem Dev.updServing_vcTurns (g : Serving → Serving) : (d.updServing g).vcTurns = d.vcTurns := rfl
@[simp] theorem Dev.updServing_inTurns (g : Serving → Serving) : (d.updServing g).inTurns = d.inTurns := rfl
@[simp] theorem Dev.updServing_cache (g : Serving → Serving) : (d.updServing g).cache = d.cache := rfl
@[simp] theorem Dev.updServing_ports (g : Serving → Serving) : (d.updServing g).ports = d.ports := rfl
@[simp] theorem Dev.updServing_groups (g : Serving → Serving) : (d.updServing g).groups = d.groups := rfl
@[simp] theorem Dev.updServing_mem (g : Serving → Serving) : (d.updServing g).mem = d.mem := rfl
@[simp] theorem Dev.updServing_memPoison (g : Serving → Serving) : (d.updServing g).memPoison = d.memPoison := rfl
@[simp] theorem Dev.updServing_reads (g : Serving → Serving) : (d.updServing g).reads = d.reads := rfl
@[simp] theorem Dev.updServing_stackRegs (g : Serving → Serving) : (d.updServing g).stackRegs = d.stackRegs := rfl
@[simp] theorem Dev.updServing_wbatch (g : Serving → Serving) : (d.updServing g).wbatch = d.wbatch := rfl
@[simp] theorem Dev.updServing_memCfgErr (g : Serving → Serving) : (d.updServing g).memCfgErr = d.memCfgErr := rfl
@[simp] theorem Dev.updServing_stripes (g : Serving → Serving) : (d.updServing g).stripes = d.stripes := rfl
@[simp] theorem Dev.updServing_frames (g : Serving → Serving) : (d.updServing g).frames = d.frames := rfl
@[simp] theorem Dev.updServing_farPorts (g : Serving → Serving) : (d.updServing g).farPorts = d.farPorts := rfl
@[simp] theorem Dev.updServing_farWaits (g : Serving → Serving) : (d.updServing g).farWaits = d.farWaits := rfl
@[simp] theorem Dev.updServing_facets (g : Serving → Serving) : (d.updServing g).facets = d.facets := rfl
@[simp] theorem Dev.updServing_channels (g : Serving → Serving) : (d.updServing g).channels = d.channels := rfl
@[simp] theorem Dev.updServing_dmaGrants (g : Serving → Serving) : (d.updServing g).dmaGrants = d.dmaGrants := rfl
@[simp] theorem Dev.updServing_intake (g : Serving → Serving) : (d.updServing g).intake = d.intake := rfl
@[simp] theorem Dev.updServing_mbxTurn (g : Serving → Serving) : (d.updServing g).mbxTurn = d.mbxTurn := rfl
@[simp] theorem Dev.updServing_lehr (g : Serving → Serving) : (d.updServing g).lehr = d.lehr := rfl
@[simp] theorem Dev.updServing_serving (g : Serving → Serving) : (d.updServing g).serving = g d.serving := rfl
@[simp] theorem Dev.updServing_power (g : Serving → Serving) : (d.updServing g).power = d.power := rfl
@[simp] theorem Dev.updServing_errors (g : Serving → Serving) : (d.updServing g).errors = d.errors := rfl
@[simp] theorem Dev.updServing_security (g : Serving → Serving) : (d.updServing g).security = d.security := rfl
@[simp] theorem Dev.updServing_boot (g : Serving → Serving) : (d.updServing g).boot = d.boot := rfl
@[simp] theorem Dev.updServing_host (g : Serving → Serving) : (d.updServing g).host = d.host := rfl
@[simp] theorem Dev.updServing_images (g : Serving → Serving) : (d.updServing g).images = d.images := rfl
@[simp] theorem Dev.updServing_heldBar4 (g : Serving → Serving) : (d.updServing g).heldBar4 = d.heldBar4 := rfl
@[simp] theorem Dev.updServing_sent (g : Serving → Serving) : (d.updServing g).sent = d.sent := rfl
@[simp] theorem Dev.updServing_freeCount (g : Serving → Serving) : (d.updServing g).freeCount = d.freeCount := rfl
@[simp] theorem Dev.updServing_origins (g : Serving → Serving) : (d.updServing g).origins = d.origins := rfl
@[simp] theorem Dev.updServing_strikes (g : Serving → Serving) : (d.updServing g).strikes = d.strikes := rfl

/-! ## send -/

@[simp] theorem Dev.send_part48 (m : Sent) : (d.send m).part48 = d.part48 := rfl
@[simp] theorem Dev.send_rowMap (m : Sent) : (d.send m).rowMap = d.rowMap := rfl
@[simp] theorem Dev.send_latches (m : Sent) : (d.send m).latches = d.latches := rfl
@[simp] theorem Dev.send_beats (m : Sent) : (d.send m).beats = d.beats := rfl
@[simp] theorem Dev.send_counters (m : Sent) : (d.send m).counters = d.counters := rfl
@[simp] theorem Dev.send_facetCounters (m : Sent) : (d.send m).facetCounters = d.facetCounters := rfl
@[simp] theorem Dev.send_launches (m : Sent) : (d.send m).launches = d.launches := rfl
@[simp] theorem Dev.send_blocks (m : Sent) : (d.send m).blocks = d.blocks := rfl
@[simp] theorem Dev.send_clusters (m : Sent) : (d.send m).clusters = d.clusters := rfl
@[simp] theorem Dev.send_saved (m : Sent) : (d.send m).saved = d.saved := rfl
@[simp] theorem Dev.send_cores (m : Sent) : (d.send m).cores = d.cores := rfl
@[simp] theorem Dev.send_nextLaunch (m : Sent) : (d.send m).nextLaunch = d.nextLaunch := rfl
@[simp] theorem Dev.send_nextAccept (m : Sent) : (d.send m).nextAccept = d.nextAccept := rfl
@[simp] theorem Dev.send_slices (m : Sent) : (d.send m).slices = d.slices := rfl
@[simp] theorem Dev.send_net (m : Sent) : (d.send m).net = d.net := rfl
@[simp] theorem Dev.send_nextMsg (m : Sent) : (d.send m).nextMsg = d.nextMsg := rfl
@[simp] theorem Dev.send_vcTurns (m : Sent) : (d.send m).vcTurns = d.vcTurns := rfl
@[simp] theorem Dev.send_inTurns (m : Sent) : (d.send m).inTurns = d.inTurns := rfl
@[simp] theorem Dev.send_cache (m : Sent) : (d.send m).cache = d.cache := rfl
@[simp] theorem Dev.send_ports (m : Sent) : (d.send m).ports = d.ports := rfl
@[simp] theorem Dev.send_groups (m : Sent) : (d.send m).groups = d.groups := rfl
@[simp] theorem Dev.send_mem (m : Sent) : (d.send m).mem = d.mem := rfl
@[simp] theorem Dev.send_memPoison (m : Sent) : (d.send m).memPoison = d.memPoison := rfl
@[simp] theorem Dev.send_reads (m : Sent) : (d.send m).reads = d.reads := rfl
@[simp] theorem Dev.send_stackRegs (m : Sent) : (d.send m).stackRegs = d.stackRegs := rfl
@[simp] theorem Dev.send_wbatch (m : Sent) : (d.send m).wbatch = d.wbatch := rfl
@[simp] theorem Dev.send_memCfgErr (m : Sent) : (d.send m).memCfgErr = d.memCfgErr := rfl
@[simp] theorem Dev.send_stripes (m : Sent) : (d.send m).stripes = d.stripes := rfl
@[simp] theorem Dev.send_frames (m : Sent) : (d.send m).frames = d.frames := rfl
@[simp] theorem Dev.send_farPorts (m : Sent) : (d.send m).farPorts = d.farPorts := rfl
@[simp] theorem Dev.send_farWaits (m : Sent) : (d.send m).farWaits = d.farWaits := rfl
@[simp] theorem Dev.send_facets (m : Sent) : (d.send m).facets = d.facets := rfl
@[simp] theorem Dev.send_channels (m : Sent) : (d.send m).channels = d.channels := rfl
@[simp] theorem Dev.send_dmaGrants (m : Sent) : (d.send m).dmaGrants = d.dmaGrants := rfl
@[simp] theorem Dev.send_intake (m : Sent) : (d.send m).intake = d.intake := rfl
@[simp] theorem Dev.send_mbxTurn (m : Sent) : (d.send m).mbxTurn = d.mbxTurn := rfl
@[simp] theorem Dev.send_lehr (m : Sent) : (d.send m).lehr = d.lehr := rfl
@[simp] theorem Dev.send_serving (m : Sent) : (d.send m).serving = d.serving := rfl
@[simp] theorem Dev.send_power (m : Sent) : (d.send m).power = d.power := rfl
@[simp] theorem Dev.send_errors (m : Sent) : (d.send m).errors = d.errors := rfl
@[simp] theorem Dev.send_security (m : Sent) : (d.send m).security = d.security := rfl
@[simp] theorem Dev.send_boot (m : Sent) : (d.send m).boot = d.boot := rfl
@[simp] theorem Dev.send_host (m : Sent) : (d.send m).host = d.host := rfl
@[simp] theorem Dev.send_images (m : Sent) : (d.send m).images = d.images := rfl
@[simp] theorem Dev.send_heldBar4 (m : Sent) : (d.send m).heldBar4 = d.heldBar4 := rfl
@[simp] theorem Dev.send_freeCount (m : Sent) : (d.send m).freeCount = d.freeCount := rfl
@[simp] theorem Dev.send_origins (m : Sent) : (d.send m).origins = d.origins := rfl
@[simp] theorem Dev.send_strikes (m : Sent) : (d.send m).strikes = d.strikes := rfl

/-! ## count -/

@[simp] theorem Dev.count_part48 (o n : Nat) : (d.count o n).part48 = d.part48 := rfl
@[simp] theorem Dev.count_rowMap (o n : Nat) : (d.count o n).rowMap = d.rowMap := rfl
@[simp] theorem Dev.count_latches (o n : Nat) : (d.count o n).latches = d.latches := rfl
@[simp] theorem Dev.count_beats (o n : Nat) : (d.count o n).beats = d.beats := rfl
@[simp] theorem Dev.count_facetCounters (o n : Nat) : (d.count o n).facetCounters = d.facetCounters := rfl
@[simp] theorem Dev.count_launches (o n : Nat) : (d.count o n).launches = d.launches := rfl
@[simp] theorem Dev.count_blocks (o n : Nat) : (d.count o n).blocks = d.blocks := rfl
@[simp] theorem Dev.count_clusters (o n : Nat) : (d.count o n).clusters = d.clusters := rfl
@[simp] theorem Dev.count_saved (o n : Nat) : (d.count o n).saved = d.saved := rfl
@[simp] theorem Dev.count_cores (o n : Nat) : (d.count o n).cores = d.cores := rfl
@[simp] theorem Dev.count_nextLaunch (o n : Nat) : (d.count o n).nextLaunch = d.nextLaunch := rfl
@[simp] theorem Dev.count_nextAccept (o n : Nat) : (d.count o n).nextAccept = d.nextAccept := rfl
@[simp] theorem Dev.count_slices (o n : Nat) : (d.count o n).slices = d.slices := rfl
@[simp] theorem Dev.count_net (o n : Nat) : (d.count o n).net = d.net := rfl
@[simp] theorem Dev.count_nextMsg (o n : Nat) : (d.count o n).nextMsg = d.nextMsg := rfl
@[simp] theorem Dev.count_vcTurns (o n : Nat) : (d.count o n).vcTurns = d.vcTurns := rfl
@[simp] theorem Dev.count_inTurns (o n : Nat) : (d.count o n).inTurns = d.inTurns := rfl
@[simp] theorem Dev.count_cache (o n : Nat) : (d.count o n).cache = d.cache := rfl
@[simp] theorem Dev.count_ports (o n : Nat) : (d.count o n).ports = d.ports := rfl
@[simp] theorem Dev.count_groups (o n : Nat) : (d.count o n).groups = d.groups := rfl
@[simp] theorem Dev.count_mem (o n : Nat) : (d.count o n).mem = d.mem := rfl
@[simp] theorem Dev.count_memPoison (o n : Nat) : (d.count o n).memPoison = d.memPoison := rfl
@[simp] theorem Dev.count_reads (o n : Nat) : (d.count o n).reads = d.reads := rfl
@[simp] theorem Dev.count_stackRegs (o n : Nat) : (d.count o n).stackRegs = d.stackRegs := rfl
@[simp] theorem Dev.count_wbatch (o n : Nat) : (d.count o n).wbatch = d.wbatch := rfl
@[simp] theorem Dev.count_memCfgErr (o n : Nat) : (d.count o n).memCfgErr = d.memCfgErr := rfl
@[simp] theorem Dev.count_stripes (o n : Nat) : (d.count o n).stripes = d.stripes := rfl
@[simp] theorem Dev.count_frames (o n : Nat) : (d.count o n).frames = d.frames := rfl
@[simp] theorem Dev.count_farPorts (o n : Nat) : (d.count o n).farPorts = d.farPorts := rfl
@[simp] theorem Dev.count_farWaits (o n : Nat) : (d.count o n).farWaits = d.farWaits := rfl
@[simp] theorem Dev.count_facets (o n : Nat) : (d.count o n).facets = d.facets := rfl
@[simp] theorem Dev.count_channels (o n : Nat) : (d.count o n).channels = d.channels := rfl
@[simp] theorem Dev.count_dmaGrants (o n : Nat) : (d.count o n).dmaGrants = d.dmaGrants := rfl
@[simp] theorem Dev.count_intake (o n : Nat) : (d.count o n).intake = d.intake := rfl
@[simp] theorem Dev.count_mbxTurn (o n : Nat) : (d.count o n).mbxTurn = d.mbxTurn := rfl
@[simp] theorem Dev.count_lehr (o n : Nat) : (d.count o n).lehr = d.lehr := rfl
@[simp] theorem Dev.count_serving (o n : Nat) : (d.count o n).serving = d.serving := rfl
@[simp] theorem Dev.count_power (o n : Nat) : (d.count o n).power = d.power := rfl
@[simp] theorem Dev.count_errors (o n : Nat) : (d.count o n).errors = d.errors := rfl
@[simp] theorem Dev.count_security (o n : Nat) : (d.count o n).security = d.security := rfl
@[simp] theorem Dev.count_boot (o n : Nat) : (d.count o n).boot = d.boot := rfl
@[simp] theorem Dev.count_host (o n : Nat) : (d.count o n).host = d.host := rfl
@[simp] theorem Dev.count_images (o n : Nat) : (d.count o n).images = d.images := rfl
@[simp] theorem Dev.count_heldBar4 (o n : Nat) : (d.count o n).heldBar4 = d.heldBar4 := rfl
@[simp] theorem Dev.count_sent (o n : Nat) : (d.count o n).sent = d.sent := rfl
@[simp] theorem Dev.count_freeCount (o n : Nat) : (d.count o n).freeCount = d.freeCount := rfl
@[simp] theorem Dev.count_origins (o n : Nat) : (d.count o n).origins = d.origins := rfl
@[simp] theorem Dev.count_strikes (o n : Nat) : (d.count o n).strikes = d.strikes := rfl

/-! ## Reading parts back -/

@[simp] theorem Dev.facet_updFacet (n : Nat) (g : Facet → Facet) : (d.updFacet n g).facet n = g (d.facet n) := Tab.get_set_same _ _ _ _
theorem Dev.facet_updFacet_ne {n m : Nat} (h : m ≠ n) (g : Facet → Facet) : (d.updFacet n g).facet m = d.facet m := Tab.get_set_other _ _ h _
@[simp] theorem Dev.core_updCore (n : Nat) (g : Core → Core) : (d.updCore n g).core n = g (d.core n) := Tab.get_set_same _ _ _ _
theorem Dev.core_updCore_ne {n m : Nat} (h : m ≠ n) (g : Core → Core) : (d.updCore n g).core m = d.core m := Tab.get_set_other _ _ h _
@[simp] theorem Dev.slice_updSlice (n : Nat) (g : Slice → Slice) : (d.updSlice n g).slice n = g (d.slice n) := Tab.get_set_same _ _ _ _
theorem Dev.slice_updSlice_ne {n m : Nat} (h : m ≠ n) (g : Slice → Slice) : (d.updSlice n g).slice m = d.slice m := Tab.get_set_other _ _ h _
@[simp] theorem Dev.port_updPort (n : Nat) (g : PairPort → PairPort) : (d.updPort n g).port n = g (d.port n) := Tab.get_set_same _ _ _ _
theorem Dev.port_updPort_ne {n m : Nat} (h : m ≠ n) (g : PairPort → PairPort) : (d.updPort n g).port m = d.port m := Tab.get_set_other _ _ h _
@[simp] theorem Dev.stack_updStack (n : Nat) (g : Stack → Stack) : (d.updStack n g).stack n = g (d.stack n) := Tab.get_set_same _ _ _ _
theorem Dev.stack_updStack_ne {n m : Nat} (h : m ≠ n) (g : Stack → Stack) : (d.updStack n g).stack m = d.stack m := Tab.get_set_other _ _ h _
@[simp] theorem Dev.farPort_updFarPort (n : Nat) (g : FarPort → FarPort) : (d.updFarPort n g).farPort n = g (d.farPort n) := Tab.get_set_same _ _ _ _
theorem Dev.farPort_updFarPort_ne {n m : Nat} (h : m ≠ n) (g : FarPort → FarPort) : (d.updFarPort n g).farPort m = d.farPort m := Tab.get_set_other _ _ h _
@[simp] theorem Dev.channel_updChannel (n : Nat) (g : Channel → Channel) : (d.updChannel n g).channel n = g (d.channel n) := Tab.get_set_same _ _ _ _
theorem Dev.channel_updChannel_ne {n m : Nat} (h : m ≠ n) (g : Channel → Channel) : (d.updChannel n g).channel m = d.channel m := Tab.get_set_other _ _ h _
@[simp] theorem Dev.die_updDie (n : Nat) (g : Die → Die) : (d.updDie n g).die n = g (d.die n) := Tab.get_set_same _ _ _ _
theorem Dev.die_updDie_ne {n m : Nat} (h : m ≠ n) (g : Die → Die) : (d.updDie n g).die m = d.die m := Tab.get_set_other _ _ h _
@[simp] theorem Dev.rail_updRail (n : Nat) (g : Rail → Rail) : (d.updRail n g).rail n = g (d.rail n) := Tab.get_set_same _ _ _ _
theorem Dev.rail_updRail_ne {n m : Nat} (h : m ≠ n) (g : Rail → Rail) : (d.updRail n g).rail m = d.rail m := Tab.get_set_other _ _ h _
@[simp] theorem Dev.base_updBase (n : Nat) (g : BaseDie → BaseDie) : (d.updBase n g).base n = g (d.base n) := Tab.get_set_same _ _ _ _
theorem Dev.base_updBase_ne {n m : Nat} (h : m ≠ n) (g : BaseDie → BaseDie) : (d.updBase n g).base m = d.base m := Tab.get_set_other _ _ h _

end Sys2Proof.Machine
end

