-- ==== Sys2Proof/Laws/Issue.lean ====
section
/-! SUPPORT. What issuing an instruction of a ready beam does, once for every instruction. -/

namespace Sys2Proof

/-- The element that `updFirst` changes is the one that `find?` finds. -/
theorem find?_updFirst {α : Type} (p : α → Bool) (f : α → α) (hf : ∀ x, p x = true → p (f x) = true) (l : List α) :
    (updFirst p f l).find? p = (l.find? p).map f := by
  induction l with
  | nil => rfl
  | cons x xs ih =>
    simp only [updFirst]
    split
    · rename_i h
      simp [h, hf x h]
    · rename_i h
      simp [h, ih]

end Sys2Proof

namespace Sys2Proof.Machine

variable {d : Dev} {b : BeamRef} {c : Ctx}

@[simp] theorem Dev.launch?_updBlock (l i : Nat) (g : Block → Block) (n : Nat) : (d.updBlock l i g).launch? n = d.launch? n := rfl

/-- Reading back the block that an update changes, where the update keeps the block's launch and index. -/
theorem Dev.block?_updBlock (l i : Nat) (g : Block → Block) (hl : ∀ x, (g x).launch = x.launch) (hi : ∀ x, (g x).index = x.index) :
    (d.updBlock l i g).block? l i = (d.block? l i).map g :=
  find?_updFirst _ _ (by intro x; simp [hl, hi]) _

/-- The context of a beam once its issue is counted. -/
def Ctx.noted (c : Ctx) (d : Dev) : Ctx :=
  if d.arrivals c then { c with block := { c.block with watchdog := c.block.watchdog + 1 } } else c

@[simp] theorem Ctx.noted_ref : (c.noted d).ref = c.ref := by unfold Ctx.noted; split <;> rfl
@[simp] theorem Ctx.noted_launch : (c.noted d).launch = c.launch := by unfold Ctx.noted; split <;> rfl
@[simp] theorem Ctx.noted_beam : (c.noted d).beam = c.beam := by unfold Ctx.noted; split <;> rfl
@[simp] theorem Ctx.noted_index : (c.noted d).block.index = c.block.index := by unfold Ctx.noted; split <;> rfl
@[simp] theorem Ctx.noted_core : (c.noted d).block.core = c.block.core := by unfold Ctx.noted; split <;> rfl
@[simp] theorem Ctx.noted_blockLaunch : (c.noted d).block.launch = c.block.launch := by unfold Ctx.noted; split <;> rfl
@[simp] theorem Ctx.noted_barId : (c.noted d).block.barId = c.block.barId := by unfold Ctx.noted; split <;> rfl
@[simp] theorem Ctx.noted_phase : (c.noted d).block.phase = c.block.phase := by unfold Ctx.noted; split <;> rfl
@[simp] theorem Ctx.noted_facet : (c.noted d).block.facet = c.block.facet := by unfold Ctx.noted; split <;> rfl
@[simp] theorem Ctx.noted_scratch : (c.noted d).block.scratch = c.block.scratch := by unfold Ctx.noted; split <;> rfl
@[simp] theorem Ctx.noted_tiles : (c.noted d).block.tiles = c.block.tiles := by unfold Ctx.noted; split <;> rfl
@[simp] theorem Ctx.noted_tilePoison : (c.noted d).block.tilePoison = c.block.tilePoison := by unfold Ctx.noted; split <;> rfl

@[simp] theorem Ctx.noted_sVal (n : Nat) : (c.noted d).sVal n = c.sVal n := by unfold Ctx.noted; split <;> rfl
@[simp] theorem Ctx.noted_mask? (m : BitVec 4) : (c.noted d).mask? m = c.mask? m := by unfold Ctx.noted; split <;> rfl
@[simp] theorem Ctx.noted_mask (m : BitVec 4) : (c.noted d).mask m = c.mask m := by unfold Ctx.noted; split <;> rfl
@[simp] theorem Ctx.noted_yieldPoint (f : KFields) : (c.noted d).yieldPoint f = c.yieldPoint f := by unfold Ctx.noted; split <;> rfl
@[simp] theorem Ctx.noted_clusterId : (c.noted d).clusterId = c.clusterId := by unfold Ctx.noted; split <;> rfl

/-- Counting an issue changes only a watchdog's count. -/
theorem Dev.noteIssue_eq : d.noteIssue c = { d with blocks := (d.noteIssue c).blocks } := by
  unfold Dev.noteIssue; split <;> rfl

theorem ctx?_ref (h : d.ctx? b = some c) : c.ref = b := by
  unfold Dev.ctx? at h
  split at h <;> (try split at h) <;> simp_all
  rw [← h]

theorem ctx?_parts (h : d.ctx? b = some c) :
    d.launch? b.launch = some c.launch ∧ d.block? b.launch b.block = some c.block ∧ c.block.beams[b.beam]? = some c.beam := by
  unfold Dev.ctx? at h
  split at h
  · rename_i l k hl hk
    split at h
    · rename_i m hm
      cases h
      exact ⟨hl, hk, hm⟩
    · cases h
  · cases h

theorem ctx?_of_parts {l : Launch} {k : Block} {m : Beam} (hl : d.launch? b.launch = some l) (hk : d.block? b.launch b.block = some k)
    (hm : k.beams[b.beam]? = some m) : d.ctx? b = some { ref := b, launch := l, block := k, beam := m } := by
  unfold Dev.ctx?; rw [hl, hk]; simp [hm]

/-- The context after an issue is counted. -/
theorem ctx?_noteIssue (h : d.ctx? b = some c) : (d.noteIssue c).ctx? b = some (c.noted d) := by
  obtain ⟨hl, hk, hm⟩ := ctx?_parts h
  have hr := ctx?_ref h
  unfold Dev.noteIssue Ctx.noted
  split
  · rw [hr]
    have hk' : (d.updBlock b.launch b.block fun k => { k with watchdog := k.watchdog + 1 }).block? b.launch b.block =
        some { c.block with watchdog := c.block.watchdog + 1 } := by
      rw [Dev.block?_updBlock b.launch b.block (fun k => { k with watchdog := k.watchdog + 1 }) (fun _ => rfl) (fun _ => rfl), hk]; rfl
    rw [ctx?_of_parts (l := c.launch) (m := c.beam) (by simpa using hl) hk' hm, ← hr]
  · exact h

@[simp] theorem Dev.noteIssue_strikes : (d.noteIssue c).strikes = d.strikes := by unfold Dev.noteIssue; split <;> rfl

/-- Where no failed parity check waits, no core is charged. -/
theorem Dev.charge_of_none (h : d.strikes = Strikes.none) (e : Dev) : e.charge d = e := by
  simp [Dev.charge, h, Strikes.none, Dev.forEach]

theorem Dev.rfParity_of_none (h : d.strikes = Strikes.none) (rows : List Nat) : d.rfParity c rows = (d, 0) := by
  simp [Dev.rfParity, h, Strikes.none]

/-- Everything that an issue of a ready beam can do: nothing, a trap, or the instruction's effect. -/
theorem Dev.issue_of_issues (h : Issues d b c) (rows : Ctx → List Nat) (body : Dev → Ctx → Issue) :
    d.issue b rows body = match body (d.noteIssue c) (c.noted d) with
      | .hold => d
      | .part e => e
      | .trap t => ((d.noteIssue c).park (c.noted d) t).updBeam b fun m => { m with debugStep := false }
      | .done e => e := by
  obtain ⟨hc, hr, hs, hd⟩ := h
  have hs' : (d.noteIssue c).strikes = Strikes.none := by simpa using hs
  unfold Dev.issue
  simp only [hc, hr, Bool.not_true, Bool.false_eq_true, ↓reduceIte, Dev.rfParity_of_none hs', ctx?_noteIssue hc, Option.getD_some]
  cases hb : body (d.noteIssue c) (c.noted d) with
  | hold => rfl
  | part e => simp [Dev.charge_of_none hs]
  | trap t => simp [Dev.charge_of_none hs]
  | done e => simp [Dev.stepEnds, hd, Dev.charge_of_none hs]

/-- A scalar instruction of a core without a waiting mismatch issues as any other. -/
theorem Dev.issueScalar_of_issues (h : Issues d b c) (body : Dev → Ctx → Issue) :
    d.issueScalar b body = d.issue b (fun _ => []) body := by
  obtain ⟨hc, _, hs, _⟩ := h
  simp [Dev.issueScalar, hc, hs, Strikes.none]

/-- No check fails: the instruction has its effect. -/
theorem checked_ok {l : List Trap} {k : Issue} (h : l = []) : checked l k = k := by subst h; rfl

/-- A check that fails alone traps. -/
theorem checked_one {t : Trap} {k : Issue} {l : List Trap} (h : l = [t]) : checked l k = .trap t := by subst h; rfl

/-- Draining reads only where a block stands. -/
theorem Dev.drainMatrix_noted (e : Dev) (n : Nat) : e.drainMatrix (c.noted d).block n = e.drainMatrix c.block n := by
  induction n generalizing e with
  | zero => rfl
  | succ n ih => simp only [Dev.drainMatrix, Ctx.noted_core, Ctx.noted_index, Ctx.noted_blockLaunch, ih]

theorem Dev.drained_noted (e : Dev) : e.drained (c.noted d).block = e.drained c.block := by
  simp only [Dev.drained, Dev.drainMatrix_noted, Ctx.noted_core]

@[simp] theorem parkPayload_noted (cmd : Option Cmd) (beam pc : Nat) (t : Trap) :
    parkPayload cmd (c.noted d).block beam pc t = parkPayload cmd c.block beam pc t := by
  simp only [parkPayload, Ctx.noted_core, Ctx.noted_index]

/-- Parking reads of its context only what the count of an issue leaves. -/
theorem Dev.park_noted (e : Dev) (t : Trap) : e.park (c.noted d) t = e.park c t := by
  simp only [Dev.park, Dev.parkAt, Dev.drained_noted, Ctx.noted_ref, Ctx.noted_launch, Ctx.noted_beam, parkPayload_noted]

/-- So does what follows from a beam's new path. -/
theorem Dev.afterPath_noted (e : Dev) : e.afterPath (c.noted d) = e.afterPath c := by
  simp only [Dev.afterPath, Ctx.noted_ref, Ctx.noted_launch, Ctx.noted_clusterId]

end Sys2Proof.Machine
end

