-- ==== Sys2Proof/Laws/Mailbox.lean ====
section
/-! SUPPORT. What the journal's entry of a mailbox command changes, and what the one operation that runs a mailbox command answers for a request
that is served: a command done at once, one that runs on, and a refusal. -/

namespace Sys2Proof.Machine

variable {d e e' : Dev} {fn code : Nat} {body : Dev → List Byte → MbxResult} {subject : Dev → List Byte → Nat} {st : Code}
  {q q' : List Byte}

/-- Below its limit the journal's entry changes the security state alone. -/
theorem Dev.audit_eq {kind actor : Nat} {self : Bool} {c : Code} {subj detail : BitVec 64} (h : d.security.unacked + 1 < auditNearLimit) :
    d.audit kind actor self c st subj detail = { d with security := (d.audit kind actor self c st subj detail).security } := by
  have h1 : ¬ (auditMirror ≤ d.security.unacked) := by simp only [auditNearLimit, auditMirror] at *; omega
  have h2 : ¬ (d.security.unacked + 1 = auditNearLimit) := by omega
  simp [Dev.audit, h1, h2]

theorem Dev.mbxJournaled_eq {subj : Nat} (h : d.security.unacked + 1 < auditNearLimit) :
    d.mbxJournaled fn code subj = { d with security := (d.mbxJournaled fn code subj).security } := Dev.audit_eq h

/-- A request that is served is the one that waits. -/
theorem Dev.mbxRun_served (h : Served d fn code) : d.mbxRun fn code subject body =
    (let p := d.mbxRequest fn
     let entry := if readOnlyCommand code then d else d.mbxJournaled fn code (subject d p)
     match body d p with
      | .refuse st payload => d.mbxRefuse fn st payload
      | .outcome e st => if decide (st = 0) then
          (if readOnlyCommand code then e else e.audit 1 fn false (BitVec.ofNat 16 code) 0 (BitVec.ofNat 64 (subject e p)) (d.facet fn).mailbox.auditDetail).mbxRespond
            fn st []
        else e.mbxRefuse fn st []
      | _ => match body entry p with
        | .ok e payload => e.mbxRespond fn 0 payload
        | .outcome e st => e.mbxRespond fn st []
        | .refuse st payload => entry.mbxRespond fn st payload
        | .wait e => e.mbxAccept fn) := by
  obtain ⟨hgo, hacc, hcmd, hup, hfatal, hnext, hcheck, hver, haudit⟩ := h
  have hfull : d.security.nearFull = false := by
    have : ¬ (auditNearLimit ≤ d.security.unacked) := by omega
    simp [Security.nearFull, this]
  simp only [Dev.mbxRun, hgo, hacc, hcmd, hup, hfatal, hnext, hcheck, hver, hfull, Dev.mbxRequest]
  simp
  split <;> rename_i hb <;> simp only [hb] <;> first | rfl | (split <;> rename_i h2 <;> simp only [Dev.mbxJournaled] at * <;> simp [h2])

/-- A served command that changes the block is journaled, and completes with its response. -/
theorem Dev.mbxRun_ok (h : Served d fn code) (hr : readOnlyCommand code = false) (h1 : body d (d.mbxRequest fn) = .ok e q)
    (h2 : body (d.mbxJournaled fn code (subject d (d.mbxRequest fn))) (d.mbxRequest fn) = .ok e' q') :
    d.mbxRun fn code subject body = e'.mbxRespond fn 0 q' := by
  rw [Dev.mbxRun_served h]; simp only [h1, hr, h2, Bool.false_eq_true, if_false]

/-- A served read-only command completes without an entry. -/
theorem Dev.mbxRun_read (h : Served d fn code) (hr : readOnlyCommand code = true) (h1 : body d (d.mbxRequest fn) = .ok e q) :
    d.mbxRun fn code subject body = e.mbxRespond fn 0 q := by
  rw [Dev.mbxRun_served h]; simp only [h1, hr, if_true]

/-- A served command that runs on is journaled, and its request stays accepted. -/
theorem Dev.mbxRun_wait (h : Served d fn code) (hr : readOnlyCommand code = false) (h1 : body d (d.mbxRequest fn) = .wait e)
    (h2 : body (d.mbxJournaled fn code (subject d (d.mbxRequest fn))) (d.mbxRequest fn) = .wait e') :
    d.mbxRun fn code subject body = e'.mbxAccept fn := by
  rw [Dev.mbxRun_served h]; simp only [h1, hr, h2, Bool.false_eq_true, if_false]

/-- A served command that its own rule refuses completes with the refusal's status. -/
theorem Dev.mbxRun_refuse (h : Served d fn code) (h1 : body d (d.mbxRequest fn) = .refuse st q) :
    d.mbxRun fn code subject body = d.mbxRefuse fn st q := by
  rw [Dev.mbxRun_served h]; simp only [h1]

end Sys2Proof.Machine
end

