-- ==== Sys2Proof/Laws/PerInstr.lean ====
section
/-! SUPPORT. One lemma per command: a word that stands for a well-formed command is issued by a beam that a block has (0 to 31). -/

namespace Sys2Proof.Laws.Encoding

/-- The beam of a well-formed command's word is one of a block's 32 (R38, R52). -/
def Statement (i : Instr) : Prop := ∀ (b : BeamRef) (w : BitVec 64), i.wellFormed = true → encodeIssue i = some (b, w) → b.ok = true

theorem of_none {i : Instr} (h : encodeIssue i = none) : Statement i := fun _ _ _ e => nomatch h.symm.trans e
theorem of_some {i : Instr} {b : BeamRef} {w : BitVec 64} (h : encodeIssue i = some (b, w)) (hw : i.wellFormed = true → b.ok = true) :
    Statement i := by
  intro b' w' hi e
  cases h.symm.trans e
  exact hw hi

theorem add (b : BeamRef) (f : KFields) : Statement (.add b f) := of_some rfl id
theorem sub (b : BeamRef) (f : KFields) : Statement (.sub b f) := of_some rfl id
theorem mul (b : BeamRef) (f : KFields) : Statement (.mul b f) := of_some rfl id
theorem mulhu (b : BeamRef) (f : KFields) : Statement (.mulhu b f) := of_some rfl id
theorem divu (b : BeamRef) (f : KFields) : Statement (.divu b f) := of_some rfl id
theorem remu (b : BeamRef) (f : KFields) : Statement (.remu b f) := of_some rfl id
theorem andS (b : BeamRef) (f : KFields) : Statement (.andS b f) := of_some rfl id
theorem orS (b : BeamRef) (f : KFields) : Statement (.orS b f) := of_some rfl id
theorem xorS (b : BeamRef) (f : KFields) : Statement (.xorS b f) := of_some rfl id
theorem shl (b : BeamRef) (f : KFields) : Statement (.shl b f) := of_some rfl id
theorem shr (b : BeamRef) (f : KFields) : Statement (.shr b f) := of_some rfl id
theorem sra (b : BeamRef) (f : KFields) : Statement (.sra b f) := of_some rfl id
theorem minS (b : BeamRef) (f : KFields) : Statement (.minS b f) := of_some rfl id
theorem maxS (b : BeamRef) (f : KFields) : Statement (.maxS b f) := of_some rfl id
theorem slt (b : BeamRef) (f : KFields) : Statement (.slt b f) := of_some rfl id
theorem sltu (b : BeamRef) (f : KFields) : Statement (.sltu b f) := of_some rfl id
theorem seq (b : BeamRef) (f : KFields) : Statement (.seq b f) := of_some rfl id
theorem movi (b : BeamRef) (f : KFields) : Statement (.movi b f) := of_some rfl id
theorem shor (b : BeamRef) (f : KFields) : Statement (.shor b f) := of_some rfl id
theorem nop (b : BeamRef) (f : KFields) : Statement (.nop b f) := of_some rfl id
theorem bra (b : BeamRef) (f : KFields) : Statement (.bra b f) := of_some rfl id
theorem brx (b : BeamRef) (f : KFields) : Statement (.brx b f) := of_some rfl id
theorem call (b : BeamRef) (f : KFields) : Statement (.call b f) := of_some rfl id
theorem ret (b : BeamRef) (f : KFields) : Statement (.ret b f) := of_some rfl id
theorem divS (b : BeamRef) (f : KFields) : Statement (.divS b f) := of_some rfl id
theorem join (b : BeamRef) (f : KFields) : Statement (.join b f) := of_some rfl id
theorem exit (b : BeamRef) (f : KFields) : Statement (.exit b f) := of_some rfl id
theorem yield (b : BeamRef) (f : KFields) : Statement (.yield b f) := of_some rfl id
theorem trap (b : BeamRef) (f : KFields) : Statement (.trap b f) := of_some rfl id
theorem bar (b : BeamRef) (f : KFields) : Statement (.bar b f) := of_some rfl id
theorem cbar (b : BeamRef) (f : KFields) : Statement (.cbar b f) := of_some rfl id
theorem fence (b : BeamRef) (f : KFields) : Statement (.fence b f) := of_some rfl id
theorem waitc (b : BeamRef) (f : KFields) : Statement (.waitc b f) := of_some rfl id
theorem undefinedInstruction (b : BeamRef) (word : BitVec 64) : Statement (.undefinedInstruction b word) := of_some rfl fun h => ((Bool.and_eq_true _ _).mp h).1
theorem instructionFetchFault (b : BeamRef) : Statement (.instructionFetchFault b) := of_none rfl
theorem watchdog (launch block : Nat) : Statement (.watchdog launch block) := of_none rfl
theorem ldl (b : BeamRef) (f : KFields) : Statement (.ldl b f) := of_some rfl id
theorem stl (b : BeamRef) (f : KFields) : Statement (.stl b f) := of_some rfl id
theorem atoml (b : BeamRef) (f : KFields) : Statement (.atoml b f) := of_some rfl id
theorem ldg (b : BeamRef) (f : KFields) : Statement (.ldg b f) := of_some rfl id
theorem stg (b : BeamRef) (f : KFields) : Statement (.stg b f) := of_some rfl id
theorem ldv (b : BeamRef) (f : KFields) : Statement (.ldv b f) := of_some rfl id
theorem atomg (b : BeamRef) (f : KFields) : Statement (.atomg b f) := of_some rfl id
theorem lds (b : BeamRef) (f : KFields) : Statement (.lds b f) := of_some rfl id
theorem sts (b : BeamRef) (f : KFields) : Statement (.sts b f) := of_some rfl id
theorem cpa (b : BeamRef) (f : KFields) : Statement (.cpa b f) := of_some rfl id
theorem cps (b : BeamRef) (f : KFields) : Statement (.cps b f) := of_some rfl id
theorem asyncCopyComplete (b : BeamRef) (copy : Nat) : Statement (.asyncCopyComplete b copy) := of_none rfl
theorem pref (b : BeamRef) (f : KFields) : Statement (.pref b f) := of_some rfl id
theorem cctlCullet (b : BeamRef) (f : KFields) : Statement (.cctlCullet b f) := of_some rfl fun h => ((Bool.and_eq_true _ _).mp h).1
theorem cctlPin (b : BeamRef) (f : KFields) : Statement (.cctlPin b f) := of_some rfl fun h => ((Bool.and_eq_true _ _).mp h).1
theorem cctlUnpin (b : BeamRef) (f : KFields) : Statement (.cctlUnpin b f) := of_some rfl fun h => ((Bool.and_eq_true _ _).mp h).1
theorem cctlWriteBack (b : BeamRef) (f : KFields) : Statement (.cctlWriteBack b f) := of_some rfl fun h => ((Bool.and_eq_true _ _).mp h).1
theorem cctlPinRetain (b : BeamRef) (f : KFields) : Statement (.cctlPinRetain b f) := of_some rfl fun h => ((Bool.and_eq_true _ _).mp h).1
theorem mma (b : BeamRef) (f : KFields) : Statement (.mma b f) := of_some rfl id
theorem mmas (b : BeamRef) (f : KFields) : Statement (.mmas b f) := of_some rfl id
theorem mbin (b : BeamRef) (f : KFields) : Statement (.mbin b f) := of_some rfl id
theorem mbint (b : BeamRef) (f : KFields) : Statement (.mbint b f) := of_some rfl id
theorem mld (b : BeamRef) (f : KFields) : Statement (.mld b f) := of_some rfl id
theorem mst (b : BeamRef) (f : KFields) : Statement (.mst b f) := of_some rfl id
theorem mzero (b : BeamRef) (f : KFields) : Statement (.mzero b f) := of_some rfl id
theorem matrixInstructionComplete (core : Nat) (move mismatch : Bool) (fails : List (Nat × Nat)) : Statement (.matrixInstructionComplete core move mismatch fails) := of_none rfl
theorem vaddF (b : BeamRef) (f : KFields) : Statement (.vaddF b f) := of_some rfl id
theorem vsubF (b : BeamRef) (f : KFields) : Statement (.vsubF b f) := of_some rfl id
theorem vmulF (b : BeamRef) (f : KFields) : Statement (.vmulF b f) := of_some rfl id
theorem vfmaF (b : BeamRef) (f : KFields) : Statement (.vfmaF b f) := of_some rfl id
theorem vminF (b : BeamRef) (f : KFields) : Statement (.vminF b f) := of_some rfl id
theorem vmaxF (b : BeamRef) (f : KFields) : Statement (.vmaxF b f) := of_some rfl id
theorem vdivF (b : BeamRef) (f : KFields) : Statement (.vdivF b f) := of_some rfl id
theorem vsqrtF (b : BeamRef) (f : KFields) : Statement (.vsqrtF b f) := of_some rfl id
theorem vexp2F (b : BeamRef) (f : KFields) : Statement (.vexp2F b f) := of_some rfl id
theorem vlog2F (b : BeamRef) (f : KFields) : Statement (.vlog2F b f) := of_some rfl id
theorem vrsqF (b : BeamRef) (f : KFields) : Statement (.vrsqF b f) := of_some rfl id
theorem vaddD (b : BeamRef) (f : KFields) : Statement (.vaddD b f) := of_some rfl id
theorem vsubD (b : BeamRef) (f : KFields) : Statement (.vsubD b f) := of_some rfl id
theorem vmulD (b : BeamRef) (f : KFields) : Statement (.vmulD b f) := of_some rfl id
theorem vfmaD (b : BeamRef) (f : KFields) : Statement (.vfmaD b f) := of_some rfl id
theorem vminD (b : BeamRef) (f : KFields) : Statement (.vminD b f) := of_some rfl id
theorem vmaxD (b : BeamRef) (f : KFields) : Statement (.vmaxD b f) := of_some rfl id
theorem vdivD (b : BeamRef) (f : KFields) : Statement (.vdivD b f) := of_some rfl id
theorem vsqrtD (b : BeamRef) (f : KFields) : Statement (.vsqrtD b f) := of_some rfl id
theorem vaddI (b : BeamRef) (f : KFields) : Statement (.vaddI b f) := of_some rfl id
theorem vsubI (b : BeamRef) (f : KFields) : Statement (.vsubI b f) := of_some rfl id
theorem vmulI (b : BeamRef) (f : KFields) : Statement (.vmulI b f) := of_some rfl id
theorem vminI (b : BeamRef) (f : KFields) : Statement (.vminI b f) := of_some rfl id
theorem vmaxI (b : BeamRef) (f : KFields) : Statement (.vmaxI b f) := of_some rfl id
theorem vminu (b : BeamRef) (f : KFields) : Statement (.vminu b f) := of_some rfl id
theorem vmaxu (b : BeamRef) (f : KFields) : Statement (.vmaxu b f) := of_some rfl id
theorem vand (b : BeamRef) (f : KFields) : Statement (.vand b f) := of_some rfl id
theorem vor (b : BeamRef) (f : KFields) : Statement (.vor b f) := of_some rfl id
theorem vxor (b : BeamRef) (f : KFields) : Statement (.vxor b f) := of_some rfl id
theorem vshl (b : BeamRef) (f : KFields) : Statement (.vshl b f) := of_some rfl id
theorem vshr (b : BeamRef) (f : KFields) : Statement (.vshr b f) := of_some rfl id
theorem vsra (b : BeamRef) (f : KFields) : Statement (.vsra b f) := of_some rfl id
theorem vpopc (b : BeamRef) (f : KFields) : Statement (.vpopc b f) := of_some rfl id
theorem vclz (b : BeamRef) (f : KFields) : Statement (.vclz b f) := of_some rfl id
theorem vdot4I (b : BeamRef) (f : KFields) : Statement (.vdot4I b f) := of_some rfl id
theorem vmov (b : BeamRef) (f : KFields) : Statement (.vmov b f) := of_some rfl id
theorem vsel (b : BeamRef) (f : KFields) : Statement (.vsel b f) := of_some rfl id
theorem vcvt (b : BeamRef) (f : KFields) : Statement (.vcvt b f) := of_some rfl id
theorem vmxscale (b : BeamRef) (f : KFields) : Statement (.vmxscale b f) := of_some rfl id
theorem vsetvl (b : BeamRef) (f : KFields) : Statement (.vsetvl b f) := of_some rfl id
theorem vred (b : BeamRef) (f : KFields) : Statement (.vred b f) := of_some rfl id
theorem vldl (b : BeamRef) (f : KFields) : Statement (.vldl b f) := of_some rfl id
theorem vstl (b : BeamRef) (f : KFields) : Statement (.vstl b f) := of_some rfl id
theorem vcmpF (b : BeamRef) (f : KFields) : Statement (.vcmpF b f) := of_some rfl id
theorem vcmpD (b : BeamRef) (f : KFields) : Statement (.vcmpD b f) := of_some rfl id
theorem vcmpI (b : BeamRef) (f : KFields) : Statement (.vcmpI b f) := of_some rfl id
theorem vcmpU (b : BeamRef) (f : KFields) : Statement (.vcmpU b f) := of_some rfl id
theorem vcmpkF (b : BeamRef) (f : KFields) : Statement (.vcmpkF b f) := of_some rfl id
theorem vcmpkD (b : BeamRef) (f : KFields) : Statement (.vcmpkD b f) := of_some rfl id
theorem vcmpkI (b : BeamRef) (f : KFields) : Statement (.vcmpkI b f) := of_some rfl id
theorem vcmpkU (b : BeamRef) (f : KFields) : Statement (.vcmpkU b f) := of_some rfl id
theorem kand (b : BeamRef) (f : KFields) : Statement (.kand b f) := of_some rfl id
theorem kor (b : BeamRef) (f : KFields) : Statement (.kor b f) := of_some rfl id
theorem kxor (b : BeamRef) (f : KFields) : Statement (.kxor b f) := of_some rfl id
theorem knot (b : BeamRef) (f : KFields) : Statement (.knot b f) := of_some rfl id
theorem kmov (b : BeamRef) (f : KFields) : Statement (.kmov b f) := of_some rfl id
theorem ktos (b : BeamRef) (f : KFields) : Statement (.ktos b f) := of_some rfl id
theorem kpopc (b : BeamRef) (f : KFields) : Statement (.kpopc b f) := of_some rfl id
theorem ssort (b : BeamRef) (f : KFields) : Statement (.ssort b f) := of_some rfl id
theorem smerge (b : BeamRef) (f : KFields) : Statement (.smerge b f) := of_some rfl id
theorem scompact (b : BeamRef) (f : KFields) : Statement (.scompact b f) := of_some rfl id
theorem vectorPassComplete (core : Nat) (sort mismatch : Bool) (fails : List Nat) : Statement (.vectorPassComplete core sort mismatch fails) := of_none rfl
theorem launch (fn w : Nat) : Statement (.launch fn w) := of_none rfl
theorem blockPlace (launch : Nat) (cores : List Nat) : Statement (.blockPlace launch cores) := of_none rfl
theorem replay (fn w : Nat) : Statement (.replay fn w) := of_none rfl
theorem abort (fn w : Nat) : Statement (.abort fn w) := of_none rfl
theorem switchRequest (cores : List Nat) : Statement (.switchRequest cores) := of_none rfl
theorem blockSave (launch block : Nat) : Statement (.blockSave launch block) := of_none rfl
theorem switchTimeout (cores : List Nat) : Statement (.switchTimeout cores) := of_none rfl
theorem blockRestore (launch cluster : Nat) (cores : List Nat) : Statement (.blockRestore launch cluster cores) := of_none rfl
theorem rdS (core line : Nat) : Statement (.rdS core line) := of_none rfl
theorem rdU (core line : Nat) : Statement (.rdU core line) := of_none rfl
theorem own (core line : Nat) : Statement (.own core line) := of_none rfl
theorem upg (core line : Nat) : Statement (.upg core line) := of_none rfl
theorem rdNc (agent line : Nat) : Statement (.rdNc agent line) := of_none rfl
theorem wrNc (agent line : Nat) (bytes : List (Nat × Byte)) (poison : Bool) : Statement (.wrNc agent line bytes poison) := of_none rfl
theorem atom (agent addr : Nat) (op : BitVec 4) (x y : BitVec 32) : Statement (.atom agent addr op x y) := of_none rfl
theorem cctl (agent facet line : Nat) (op : BitVec 4) : Statement (.cctl agent facet line op) := of_none rfl
theorem prefRequest (agent line : Nat) : Statement (.prefRequest agent line) := of_none rfl
theorem snpInv (core line : Nat) : Statement (.snpInv core line) := of_none rfl
theorem snpDown (core line : Nat) : Statement (.snpDown core line) := of_none rfl
theorem snpDrop (core line : Nat) : Statement (.snpDrop core line) := of_none rfl
theorem rspAck (core line : Nat) : Statement (.rspAck core line) := of_none rfl
theorem rspData (core line : Nat) : Statement (.rspData core line) := of_none rfl
theorem wb (core line : Nat) : Statement (.wb core line) := of_none rfl
theorem evc (core line : Nat) : Statement (.evc core line) := of_none rfl
theorem cmpS (core line : Nat) : Statement (.cmpS core line) := of_none rfl
theorem cmpE (core line : Nat) : Statement (.cmpE core line) := of_none rfl
theorem cmpM (core line : Nat) : Statement (.cmpM core line) := of_none rfl
theorem cmpOwn (core line : Nat) : Statement (.cmpOwn core line) := of_none rfl
theorem cmpNc (agent line : Nat) : Statement (.cmpNc agent line) := of_none rfl
theorem cmpAck (agent line : Nat) : Statement (.cmpAck agent line) := of_none rfl
theorem sliceFillComplete (line : Nat) : Statement (.sliceFillComplete line) := of_none rfl
theorem homeTimeout (line : Nat) : Statement (.homeTimeout line) := of_none rfl
theorem sliceModeChange (slice : Nat) (missMode : Bool) (cause : BitVec 2) : Statement (.sliceModeChange slice missMode cause) := of_none rfl
theorem sliceHoldDrained (slice : Nat) : Statement (.sliceHoldDrained slice) := of_none rfl
theorem meshFlit (msg fails : Nat) : Statement (.meshFlit msg fails) := of_none rfl
theorem pairPortFlit (port : Nat) (ab : Bool) (msg : Nat) (fec : List Nat) (crcOk : Bool) : Statement (.pairPortFlit port ab msg fec crcOk) := of_none rfl
theorem laneSpare (port : Nat) (ab : Bool) (lane : Nat) : Statement (.laneSpare port ab lane) := of_none rfl
theorem portRetrain (port : Nat) : Statement (.portRetrain port) := of_none rfl
theorem retrainAttemptEnd (port : Nat) (trained : TrainEnd) : Statement (.retrainAttemptEnd port trained) := of_none rfl
theorem tagAbandon (port side index : Nat) : Statement (.tagAbandon port side index) := of_none rfl
theorem drainMarkerReturn (port side index : Nat) : Statement (.drainMarkerReturn port side index) := of_none rfl
theorem reductionContribution (group : Nat) (rank : Contributor) (line : Nat) (data : List Byte) (poison : Bool) : Statement (.reductionContribution group rank line data poison) := of_none rfl
theorem combineHoldExpire (group line level pos : Nat) : Statement (.combineHoldExpire group line level pos) := of_none rfl
theorem doneWordWrite (group : Nat) : Statement (.doneWordWrite group) := of_none rfl
theorem redGroupOpen (fn : Nat) : Statement (.redGroupOpen fn) := of_none rfl
theorem redGroupClose (fn : Nat) : Statement (.redGroupClose fn) := of_none rfl
theorem hbmReadComplete (line : Nat) (first second : ReadCheck) : Statement (.hbmReadComplete line first second) := of_none rfl
theorem hbmWriteBatch (stack pseudo : Nat) : Statement (.hbmWriteBatch stack pseudo) := of_none rfl
theorem writeWaitExpire (stack pseudo : Nat) : Statement (.writeWaitExpire stack pseudo) := of_none rfl
theorem hbmRefresh (stack : Nat) : Statement (.hbmRefresh stack) := of_none rfl
theorem stackTempRead (stack temp : Nat) : Statement (.stackTempRead stack temp) := of_none rfl
theorem farReadComplete (line : Nat) (answer : FarAnswer) : Statement (.farReadComplete line answer) := of_none rfl
theorem farLinkDown (port : Nat) : Statement (.farLinkDown port) := of_none rfl
theorem farLinkRecover (port : Nat) (found : FarDevice) : Statement (.farLinkRecover port found) := of_none rfl
theorem farEnumerate (port : Nat) (found : FarDevice) : Statement (.farEnumerate port found) := of_none rfl
theorem cxlEvent (port : Nat) (lo hi : BitVec 64) : Statement (.cxlEvent port lo hi) := of_none rfl
theorem farScrubProgress (port frames : Nat) : Statement (.farScrubProgress port frames) := of_none rfl
theorem memAlloc (fn vaChoice : Nat) : Statement (.memAlloc fn vaChoice) := of_none rfl
theorem memFree (fn : Nat) : Statement (.memFree fn) := of_none rfl
theorem memSetClass (fn : Nat) : Statement (.memSetClass fn) := of_none rfl
theorem farRescan (fn : Nat) (found : FarDevice) : Statement (.farRescan fn found) := of_none rfl
theorem busMap (fn vaChoice : Nat) (pathOpen : Bool) : Statement (.busMap fn vaChoice pathOpen) := of_none rfl
theorem busUnmap (fn : Nat) : Statement (.busUnmap fn) := of_none rfl
theorem apertureMap (fn offsetChoice : Nat) : Statement (.apertureMap fn offsetChoice) := of_none rfl
theorem apertureUnmap (fn : Nat) : Statement (.apertureUnmap fn) := of_none rfl
theorem bar4Write (fn offset : Nat) (data : List Byte) (ep ide : Bool) (rid : BitVec 16) : Statement (.bar4Write fn offset data ep ide rid) := of_none rfl
theorem bar4Read (fn offset len : Nat) (ide : Bool) (rid : BitVec 16) : Statement (.bar4Read fn offset len ide rid) := of_none rfl
theorem pcieAtomicop (fn offset : Nat) (op : AtomicOp) (bytes : Nat) (x y : BitVec 128) (ide : Bool) (rid : BitVec 16) : Statement (.pcieAtomicop fn offset op bytes x y ide rid) := of_none rfl
theorem bar2Write (fn offset : Nat) (data : List Byte) (ide : Bool) : Statement (.bar2Write fn offset data ide) := of_none rfl
theorem configRequest (fn : Nat) (req : ConfigReq) : Statement (.configRequest fn req) := of_none rfl
theorem hostReadCompletion (addr : Nat) (data : List Byte) (ok : Bool) : Statement (.hostReadCompletion addr data ok) := of_none rfl
theorem peerConfirmComplete (agent : ConfirmAgent) (region : Nat) (ok : Bool) : Statement (.peerConfirmComplete agent region ok) := of_none rfl
theorem corpusRegister (fn : Nat) : Statement (.corpusRegister fn) := of_none rfl
theorem corpusAppend (fn : Nat) : Statement (.corpusAppend fn) := of_none rfl
theorem corpusRetire (fn : Nat) : Statement (.corpusRetire fn) := of_none rfl
theorem corpusDeregister (fn : Nat) : Statement (.corpusDeregister fn) := of_none rfl
theorem lehrStart (fn : Nat) : Statement (.lehrStart fn) := of_none rfl
theorem lehrStop (fn : Nat) : Statement (.lehrStop fn) := of_none rfl
theorem lehrStatus (fn : Nat) : Statement (.lehrStatus fn) := of_none rfl
theorem blockBoundary : Statement .blockBoundary := of_none rfl
theorem farBlockStaged : Statement .farBlockStaged := of_none rfl
theorem candidateMerge (seat die : Nat) : Statement (.candidateMerge seat die) := of_none rfl
theorem riderResultMerged (rider : Nat) : Statement (.riderResultMerged rider) := of_none rfl
theorem rerankGatherDone (rider : Nat) : Statement (.rerankGatherDone rider) := of_none rfl
theorem ride (fn w : Nat) : Statement (.ride fn w) := of_none rfl
theorem rideCancel (fn w : Nat) : Statement (.rideCancel fn w) := of_none rfl
theorem sessionOpen (fn : Nat) : Statement (.sessionOpen fn) := of_none rfl
theorem sessionClose (fn : Nat) : Statement (.sessionClose fn) := of_none rfl
theorem sessionStatus (fn : Nat) : Statement (.sessionStatus fn) := of_none rfl
theorem sessionRestore : Statement .sessionRestore := of_none rfl
theorem modelRegister (fn : Nat) : Statement (.modelRegister fn) := of_none rfl
theorem modelDeregister (fn : Nat) : Statement (.modelDeregister fn) := of_none rfl
theorem modelPin (fn : Nat) : Statement (.modelPin fn) := of_none rfl
theorem modelUnpin (fn : Nat) : Statement (.modelUnpin fn) := of_none rfl
theorem modelStatus (fn : Nat) : Statement (.modelStatus fn) := of_none rfl
theorem slotAcquire (model : Nat) : Statement (.slotAcquire model) := of_none rfl
theorem slotLoadComplete (slot : Nat) : Statement (.slotLoadComplete slot) := of_none rfl
theorem generate (fn w : Nat) : Statement (.generate fn w) := of_none rfl
theorem stepBoundary (slot : Nat) : Statement (.stepBoundary slot) := of_none rfl
theorem commandComplete (fn serial : Nat) : Statement (.commandComplete fn serial) := of_none rfl
theorem irqModDelay (fn ring : Nat) : Statement (.irqModDelay fn ring) := of_none rfl
theorem cmdNop (fn w : Nat) : Statement (.cmdNop fn w) := of_none rfl
theorem dma (fn w : Nat) : Statement (.dma fn w) := of_none rfl
theorem dmaCommandStart (ch : Nat) : Statement (.dmaCommandStart ch) := of_none rfl
theorem descriptorFetch (ch : Nat) : Statement (.descriptorFetch ch) := of_none rfl
theorem dmaLineComplete (ch : Nat) : Statement (.dmaLineComplete ch) := of_none rfl
theorem descriptorConfirmed (ch : Nat) : Statement (.descriptorConfirmed ch) := of_none rfl
theorem headPromote (ch : Nat) : Statement (.headPromote ch) := of_none rfl
theorem actionRetry (fn ch : Nat) : Statement (.actionRetry fn ch) := of_none rfl
theorem actionSkip (fn ch : Nat) : Statement (.actionSkip fn ch) := of_none rfl
theorem actionAbort (fn ch : Nat) : Statement (.actionAbort fn ch) := of_none rfl
theorem commit (fn ch : Nat) : Statement (.commit fn ch) := of_none rfl
theorem mbxGo (fn : Nat) (value : BitVec 32) : Statement (.mbxGo fn value) := of_none rfl
theorem hello (fn : Nat) : Statement (.hello fn) := of_none rfl
theorem ringSet (fn : Nat) : Statement (.ringSet fn) := of_none rfl
theorem ringClear (fn : Nat) : Statement (.ringClear fn) := of_none rfl
theorem intWinCfgWrite (fn n : Nat) (value : BitVec 32) : Statement (.intWinCfgWrite fn n value) := of_none rfl
theorem intCqHeadWrite (fn n : Nat) (value : BitVec 32) : Statement (.intCqHeadWrite fn n value) := of_none rfl
theorem intGqHeadWrite (fn : Nat) (value : BitVec 32) : Statement (.intGqHeadWrite fn value) := of_none rfl
theorem cntClear (fn : Nat) : Statement (.cntClear fn) := of_none rfl
theorem cchLaRetainWrite (fn n : Nat) (value : BitVec 32) : Statement (.cchLaRetainWrite fn n value) := of_none rfl
theorem lowWordRead (fn : Nat) (at_ : RegRead) : Statement (.lowWordRead fn at_) := of_none rfl
theorem registerWrite (fn offset : Nat) (wide : Bool) (value : BitVec 64) : Statement (.registerWrite fn offset wide value) := of_none rfl
theorem linkDown : Statement .linkDown := of_none rfl
theorem linkUp (rate width : Nat) : Statement (.linkUp rate width) := of_none rfl
theorem linkRetrain : Statement .linkRetrain := of_none rfl
theorem linkDegraded (rate width : Nat) : Statement (.linkDegraded rate width) := of_none rfl
theorem bar4Resize (fn size : Nat) : Statement (.bar4Resize fn size) := of_none rfl
theorem flr (fn : Nat) : Statement (.flr fn) := of_none rfl
theorem facetCreate (fn : Nat) : Statement (.facetCreate fn) := of_none rfl
theorem facetDestroy (fn : Nat) : Statement (.facetDestroy fn) := of_none rfl
theorem facetResize (fn : Nat) : Statement (.facetResize fn) := of_none rfl
theorem overCleared (facet : Nat) : Statement (.overCleared facet) := of_none rfl
theorem facetQuiesce (fn : Nat) : Statement (.facetQuiesce fn) := of_none rfl
theorem quiesceDone (facet : Nat) : Statement (.quiesceDone facet) := of_none rfl
theorem quiesceLimit (facet : Nat) : Statement (.quiesceLimit facet) := of_none rfl
theorem facetResume (fn : Nat) : Statement (.facetResume fn) := of_none rfl
theorem facetReset (fn : Nat) : Statement (.facetReset fn) := of_none rfl
theorem facetSave (fn : Nat) : Statement (.facetSave fn) := of_none rfl
theorem facetRestore (fn : Nat) (pathsOpen : Bool) : Statement (.facetRestore fn pathsOpen) := of_none rfl
theorem facetDirtyLog (fn : Nat) : Statement (.facetDirtyLog fn) := of_none rfl
theorem facetQuery (fn : Nat) : Statement (.facetQuery fn) := of_none rfl
theorem powerSetCap (fn : Nat) : Statement (.powerSetCap fn) := of_none rfl
theorem powerSetMode (fn : Nat) : Statement (.powerSetMode fn) := of_none rfl
theorem powerStatus (fn : Nat) : Statement (.powerStatus fn) := of_none rfl
theorem powerLagReport (fn : Nat) : Statement (.powerLagReport fn) := of_none rfl
theorem powerEstimate (die : Nat) (activity : Activity) : Statement (.powerEstimate die activity) := of_none rfl
theorem calibrate (decivolts deciamps : Nat) : Statement (.calibrate decivolts deciamps) := of_none rfl
theorem budgetDistribute : Statement .budgetDistribute := of_none rfl
theorem railUpdate (base : Nat) : Statement (.railUpdate base) := of_none rfl
theorem avsAck (rail : Nat) : Statement (.avsAck rail) := of_none rfl
theorem avsTimeout (rail : Nat) : Statement (.avsTimeout rail) := of_none rfl
theorem droopTrip (row : Nat) : Statement (.droopTrip row) := of_none rfl
theorem droopClear (row : Nat) : Statement (.droopClear row) := of_none rfl
theorem overcurrentAssert : Statement .overcurrentAssert := of_none rfl
theorem overcurrentDeassert : Statement .overcurrentDeassert := of_none rfl
theorem dieTempRead (die : Nat) (sensors : List Nat) : Statement (.dieTempRead die sensors) := of_none rfl
theorem thermalThrottleStep (die : Nat) : Statement (.thermalThrottleStep die) := of_none rfl
theorem dimUpdate (die issued beats : Nat) : Statement (.dimUpdate die issued beats) := of_none rfl
theorem dimExit (die issued beats : Nat) : Statement (.dimExit die issued beats) := of_none rfl
theorem coreIdleGate (core : Nat) : Statement (.coreIdleGate core) := of_none rfl
theorem coreWake (core : Nat) : Statement (.coreWake core) := of_none rfl
theorem darkEntry (die : Nat) : Statement (.darkEntry die) := of_none rfl
theorem darkEntryComplete (die : Nat) : Statement (.darkEntryComplete die) := of_none rfl
theorem darkExit (die : Nat) : Statement (.darkExit die) := of_none rfl
theorem darkExitComplete (die : Nat) : Statement (.darkExitComplete die) := of_none rfl
theorem packageDarkEntry : Statement .packageDarkEntry := of_none rfl
theorem packageDarkExit : Statement .packageDarkExit := of_none rfl
theorem packageDarkExitComplete (ports : List (BitVec 2)) (servitorsMatch : List Bool) : Statement (.packageDarkExitComplete ports servitorsMatch) := of_none rfl
theorem ceWindow : Statement .ceWindow := of_none rfl
theorem weightDamage (model core : Nat) : Statement (.weightDamage model core) := of_none rfl
theorem weightReloadDone (model : Nat) : Statement (.weightReloadDone model) := of_none rfl
theorem scoreDecay (core : Nat) : Statement (.scoreDecay core) := of_none rfl
theorem deviceFatal (cause : Nat) : Statement (.deviceFatal cause) := of_none rfl
theorem attestReport (fn : Nat) : Statement (.attestReport fn) := of_none rfl
theorem identityChain (fn : Nat) : Statement (.identityChain fn) := of_none rfl
theorem doeReportRequest (fn : Nat) (nonce : BitVec 256) : Statement (.doeReportRequest fn nonce) := of_none rfl
theorem doeChainRequest (fn : Nat) : Statement (.doeChainRequest fn) := of_none rfl
theorem signingComplete : Statement .signingComplete := of_none rfl
theorem fwStage (fn : Nat) : Statement (.fwStage fn) := of_none rfl
theorem fwActivate (fn : Nat) : Statement (.fwActivate fn) := of_none rfl
theorem fwCommitSvn (fn : Nat) : Statement (.fwCommitSvn fn) := of_none rfl
theorem ownerInstall (fn : Nat) : Statement (.ownerInstall fn) := of_none rfl
theorem ownerRelease (fn : Nat) : Statement (.ownerRelease fn) := of_none rfl
theorem returnChallenge (fn : Nat) : Statement (.returnChallenge fn) := of_none rfl
theorem lifecycleReturn (fn : Nat) : Statement (.lifecycleReturn fn) := of_none rfl
theorem debugSet (fn : Nat) : Statement (.debugSet fn) := of_none rfl
theorem debugConsent (fn : Nat) : Statement (.debugConsent fn) := of_none rfl
theorem debugBeam (fn : Nat) : Statement (.debugBeam fn) := of_none rfl
theorem debugTrace (fn : Nat) : Statement (.debugTrace fn) := of_none rfl
theorem debugDump (fn : Nat) : Statement (.debugDump fn) := of_none rfl
theorem debugScan (fn : Nat) : Statement (.debugScan fn) := of_none rfl
theorem debugTest (fn : Nat) : Statement (.debugTest fn) := of_none rfl
theorem auditRead (fn : Nat) : Statement (.auditRead fn) := of_none rfl
theorem auditAck (fn : Nat) : Statement (.auditAck fn) := of_none rfl
theorem auditCheckpoint (fn : Nat) : Statement (.auditCheckpoint fn) := of_none rfl
theorem ideKeySet (fn : Nat) : Statement (.ideKeySet fn) := of_none rfl
theorem deviceReset (fn : Nat) : Statement (.deviceReset fn) := of_none rfl
theorem dieReset (fn : Nat) : Statement (.dieReset fn) := of_none rfl
theorem vpHandshakeTimeout (die : Nat) : Statement (.vpHandshakeTimeout die) := of_none rfl
theorem dieResetStepDone (unread : List (Nat × Nat)) (answers : Bool) : Statement (.dieResetStepDone unread answers) := of_none rfl
theorem inputGood (slotId : BitVec 3) : Statement (.inputGood slotId) := of_none rfl
theorem inputGoodDeassert : Statement .inputGoodDeassert := of_none rfl
theorem efuseOpen : Statement .efuseOpen := of_none rfl
theorem warmRst (lowUs : Nat) : Statement (.warmRst lowUs) := of_none rfl
theorem perstAssert : Statement .perstAssert := of_none rfl
theorem perstDeassert : Statement .perstDeassert := of_none rfl
theorem bootStepComplete (report : BootReport) : Statement (.bootStepComplete report) := of_none rfl
theorem bootWatchdog : Statement .bootWatchdog := of_none rfl
theorem setEndpointId (i3c : Bool) (eid : BitVec 8) : Statement (.setEndpointId i3c eid) := of_none rfl
theorem pldmSensorRead (sensor : Nat) : Statement (.pldmSensorRead sensor) := of_none rfl
theorem pldmDeviceReset : Statement .pldmDeviceReset := of_none rfl
theorem coolantRead (inlet outlet : Nat) : Statement (.coolantRead inlet outlet) := of_none rfl
theorem highWordRead (fn offset : Nat) : Statement (.highWordRead fn offset) := of_none rfl
theorem unsupportedRecord (fn w : Nat) : Statement (.unsupportedRecord fn w) := of_none rfl
theorem farWriteComplete (line : Nat) : Statement (.farWriteComplete line) := of_none rfl
theorem completionTimeout (agent : ConfirmAgent) : Statement (.completionTimeout agent) := of_none rfl
theorem warmReset : Statement .warmReset := of_none rfl
theorem tokenBucketRefill (ch ns : Nat) : Statement (.tokenBucketRefill ch ns) := of_none rfl
theorem dynamicAddress (addr : BitVec 7) : Statement (.dynamicAddress addr) := of_none rfl

end Sys2Proof.Laws.Encoding
end

