-- ==== Sys2Proof/Tests/Slice0.lean ====
section
/-! SUPPORT. The author's own tests: words written out from the spec's encodings, ill-formed commands that WellFormed refuses, single steps of
small states, and for each statement with hypotheses a state that meets them (test_meets_<statement>). -/

namespace Sys2Proof.Tests
open Sys2Proof Sys2Proof.Machine

set_option maxRecDepth 20000
set_option exponentiation.threshold 1024

/-! ## Small states -/

/-- Every pair port is up. -/
def portsUp : Tab PairPort := (List.range 6).map fun n => (n, { PairPort.reset with state := .up })
/-- A booted device whose pair ports, stacks and link are up and whose manager's memory space is open. -/
def ready : Dev :=
  { Dev.reset with boot := { Boot.reset with step := 9 },
                   ports := portsUp,
                   stackRegs := (List.range 12).map fun n => (n, { Stack.reset with state := 0 }),
                   host := { HostLink.reset with linkUp := true, perst := false, memEnable := [0] } }

def b0 : BeamRef := { launch := 0, block := 0, beam := 0 }
def zeroFields : KFields := { dst := 0, a := 0, b := 0, msk := 0, mod := 0, imm := 0 }

/-- Launch parameters of a one-beam block. -/
def params0 (vector : Bool) : LaunchParams :=
  { vector := vector, cluster := 1, cacheShare := 0, rays := 32, rayRegs := 24, tileRegs := if vector then 0 else 20, scratchBytes := 65536, gridBlocks := 1,
    kernelAddr := 0, argAddr := 0, liveMapAddr := 0, watchdogLog2 := 20, abortOnFatal := false }
def launch0 (vector : Bool) : Launch :=
  { id := 0, facet := 0, cmd := 0, cls := 0, params := params0 vector, nextBlock := 1, ended := 0, liveMaps := 0, headerRead := true,
    wrotePoison := false, accepted := 0, passed := 0 }
def beam0 : Beam :=
  { pc := 0, path := BitVec.allOnes 32, exited := 0, stack := [], calls := [], k := [], s := [(1, 5), (2, 7)], g := [], gPoison := [], vl := 32,
    copies := [], status := .running, yieldMap := none, parkedOn := none, passOut := false, fenceWait := [], stored := 0, debugStep := false,
    haltPending := false }
def block0 (vector : Bool) (m : Beam) : Block :=
  { launch := 0, index := 0, facet := 0, core := if vector then 1024 else 0, scratch := 0, slots := [0], beams := [m], tiles := [], tilePoison := [], phase := 0,
    barId := none, arrived := [], watchdog := 0, cArrived := [], ended := false }
/-- A booted device with one block of one beam. -/
def kernel (vector : Bool) (m : Beam) : Dev := { ready with launches := [launch0 vector], blocks := [block0 vector m] }
def ctx0 (vector : Bool) (m : Beam) : Ctx := { ref := b0, launch := launch0 vector, block := block0 vector m, beam := m }

/-- The block after a command. -/
def after (c : Instr) (d : Dev) : Dev := effect c d
/-! ## Words of each class (R51 to R57, R89, R106, R110, R112) -/

/-- ADD s1, s2, s3: class 0, OP 0x00, DST 0xC1, SRC_A 0xC2, SRC_B 0xC3. -/
theorem test_word_add : decodeIssue b0 0x000C1C2C30000000 = .add b0 { zeroFields with dst := 0xC1, a := 0xC2, b := 0xC3 } := by decide
/-- MOVI s5, -1: class 0, OP 0x11, DST 0xC5, IMM of twenty ones. -/
theorem test_word_movi : decodeIssue b0 0x011C5000000FFFFF = .movi b0 { zeroFields with dst := 0xC5, imm := 0xFFFFF } := by decide
/-- CALL with IMM 5: class 1, OP 0x03. -/
theorem test_word_call : decodeIssue b0 0x1030000000000005 = .call b0 { zeroFields with imm := 5 } := by decide
/-- BAR: class 2, OP 0x00, SRC_B 0x03 as in R62. -/
theorem test_word_bar : decodeIssue b0 0x2000000030000000 = .bar b0 { zeroFields with b := 3 } := by decide
/-- LDL g4 from g2 + 16, MSK 1, 4 bytes: class 3, OP 0x00, DST 0x04, SRC_A 0x02, MSK 1, MOD 2, IMM 0x10. -/
theorem test_word_ldl :
    decodeIssue b0 0x3000402001200010 = .ldl b0 { dst := 4, a := 2, b := 0, msk := 1, mod := 2, imm := 0x10 } := by decide
/-- CCTL PIN of the lines at (g6, g7): class 3, OP 0x19, MOD 1. -/
theorem test_word_cctl_pin : decodeIssue b0 0x3190506000100000 = .cctlPin b0 { zeroFields with dst := 5, a := 6, mod := 1 } := by decide
/-- MMA into tiles 4 to 7 of tiles 0 and 1, accumulating (IMM[18]): class 4, OP 0x00. -/
theorem test_word_mma : decodeIssue b0 0x4000400010040000 = .mma b0 { zeroFields with dst := 4, b := 1, imm := 0x40000 } := by decide
/-- VFMA_F g8 += g0 × g1: class 5, OP 0x03. -/
theorem test_word_vfma : decodeIssue b0 0x5030800010000000 = .vfmaF b0 { zeroFields with dst := 8, b := 1 } := by decide
/-- KAND k3, k1, k2: class 6, OP 0x10. -/
theorem test_word_kand : decodeIssue b0 0x6100301020000000 = .kand b0 { zeroFields with dst := 3, a := 1, b := 2 } := by decide
/-- SSORT g16 of g8: class 7, OP 0x00. -/
theorem test_word_ssort : decodeIssue b0 0x7001008000000000 = .ssort b0 { zeroFields with dst := 16, a := 8 } := by decide
/-- A class that R51 does not define. -/
theorem test_word_undefined : decodeIssue b0 0x8000000000000000 = .undefinedInstruction b0 0x8000000000000000 := by decide

/-! ## Values -/

/-- Exact results of VEXP2 and VLOG2 come back exact: 2^0 = 1, 2^3 = 8, log2 8 = 3 (R107). -/
theorem test_exp2_log2_exact : f32Exp2 0 = 0x3F800000 ∧ f32Exp2 0x40400000 = 0x41000000 ∧ f32Log2 0x41000000 = 0x40400000 := by
  refine ⟨by decide, by decide, by decide⟩

/-! ## Ill-formed commands, one for each check of WellFormed -/

def b32 : BeamRef := { launch := 0, block := 0, beam := 32 }
def line0 : List Byte := List.replicate 128 0

theorem test_ill_formed_beam :
    ∀ make ∈ ([.add, .bra, .bar, .ldl, .stg, .mma, .vaddF, .kand, .ssort] : List (BeamRef → KFields → Instr)),
      (make b32 zeroFields).wellFormed = false ∧ (make b0 zeroFields).wellFormed = true := by decide

theorem test_ill_formed_words :
    (Instr.undefinedInstruction b0 0x000C1C2C30000000).wellFormed = false ∧ (Instr.undefinedInstruction b0 0x8000000000000000).wellFormed = true ∧
      (∀ p ∈ ([(.cctlCullet, 1), (.cctlPin, 0), (.cctlUnpin, 3), (.cctlWriteBack, 2), (.cctlPinRetain, 5)] :
          List ((BeamRef → KFields → Instr) × BitVec 4)), (p.1 b0 { zeroFields with mod := p.2 }).wellFormed = false) := by decide

theorem test_ill_formed_engines :
    ∀ i ∈ ([.matrixInstructionComplete 768 false false [], .matrixInstructionComplete 0 false false [(128, 0)],
        .matrixInstructionComplete 0 false false [(0, 128)], .vectorPassComplete 1216 false false [], .vectorPassComplete 1024 false false [256],
        .blockPlace 0 [768], .switchRequest [800], .switchTimeout [1216], .blockRestore 0 0 [900], .coreWake 770, .weightDamage 0 1300] : List Instr),
      i.wellFormed = false := by decide

theorem test_ill_formed_records :
    ∀ i ∈ ([.launch 64 0, .launch 0 16, .replay 0 16, .abort 64 0, .ride 0 16, .generate 64 0, .cmdNop 0 16, .dma 64 0, .unsupportedRecord 0 16,
        .commandComplete 64 0, .irqModDelay 0 17] : List Instr), i.wellFormed = false := by decide

theorem test_ill_formed_coherence :
    ∀ i ∈ ([.rdS 768 0, .own 0 (2 ^ 45), .rdNc 2116 0, .rdNc 1216 0, .wrNc 0 0 [(128, 0)] false, .atom 0 2 0 0 0, .atom 0 (2 ^ 52) 0 0 0, .atom 0 0 9 0 0,
        .cctl 0 64 0 0, .cctl 0 0 0 5, .snpInv 2048 0, .cmpNc 2200 0, .sliceFillComplete (2 ^ 45), .sliceModeChange 96 false 0, .sliceHoldDrained 96] :
        List Instr), i.wellFormed = false := by decide

theorem test_ill_formed_fabric :
    ∀ i ∈ ([.pairPortFlit 6 true none [] false, .laneSpare 0 true 68, .portRetrain 6, .retrainAttemptEnd 6 ⟨true, [], []⟩, .retrainAttemptEnd 0 ⟨true, [], [68]⟩, .tagAbandon 0 2 0, .tagAbandon 0 0 1024,
        .drainMarkerReturn 6 0 0, .reductionContribution 512 ⟨0, 0⟩ 0 line0 false, .reductionContribution 0 ⟨1024, 0⟩ 0 line0 false, .reductionContribution 0 ⟨0, 768⟩ 0 line0 false,
        .reductionContribution 0 ⟨0, 0⟩ 8192 line0 false, .reductionContribution 0 ⟨0, 0⟩ 0 [0] false, .combineHoldExpire 512 0 0 0, .doneWordWrite 512,
        .hbmWriteBatch 12 0, .writeWaitExpire 0 64, .hbmRefresh 12, .stackTempRead 12 0, .farLinkDown 4, .cxlEvent 4 0 0, .farScrubProgress 4 0] :
        List Instr), i.wellFormed = false := by decide

theorem test_ill_formed_host :
    ∀ i ∈ ([.hello 64, .bar4Write 0 0 [] false false 0, .bar4Read 0 0 0 false 0, .pcieAtomicop 0 0 .fetchAdd 2 0 0 false 0, .bar2Write 0 0 [] false,
        .hostReadCompletion 0 [] true, .peerConfirmComplete (.channel 64) 0 true, .completionTimeout (.command 64 0), .intWinCfgWrite 0 16 0,
        .intCqHeadWrite 0 16 0, .cchLaRetainWrite 0 24 0, .lowWordRead 0 ⟨2, false⟩, .lowWordRead 0 ⟨16777216, false⟩, .lowWordRead 0 ⟨4, true⟩, .highWordRead 64 0, .registerWrite 0 1 false 0,
        .descriptorFetch 64, .actionRetry 0 64, .quiesceLimit 64, .overCleared 64, .tokenBucketRefill 64 0] : List Instr),
      i.wellFormed = false := by decide

theorem test_ill_formed_power :
    ∀ i ∈ ([.candidateMerge 1024 0, .candidateMerge 0 4, .railUpdate 4, .avsAck 16, .droopTrip 96, .dieTempRead 16 [],
        .thermalThrottleStep 12, .dimExit 12 0 0, .darkEntry 12, .vpHandshakeTimeout 12] : List Instr), i.wellFormed = false := by decide

/-! ## States that meet the statements' hypotheses: kernel instructions -/

/-- The fields of an instruction whose MSK selects the rays of k1, and whose memory width is 4 bytes. -/
def f1 : KFields := { dst := 0xF0, a := 0xC1, b := 0xC2, msk := 1, mod := 2, imm := 3 }
/-- A beam whose k1 holds ray 0 alone. -/
def beam1 : Beam := { beam0 with k := [(1, 1)] }
/-- The manager with the first 2 MiB mapped, read-only or not. -/
def mapped (ro : Bool) (d : Dev) : Dev := { d with facets := [(0, { Facet.manager with pages := [⟨0, 0, 0, ro⟩] })] }

theorem test_issues (v : Bool) (m : Beam) (d : Dev) (hd : d = kernel v m ∨ d = mapped false (kernel v m)) (hr : d.beamReady (ctx0 v m) = true)
    (hs : m.debugStep = false) : Issues d b0 (ctx0 v m) := by
  rcases hd with rfl | rfl <;> cases v <;> exact ⟨by rfl, hr, rfl, hs⟩

theorem test_meets_ScalarInstructions :
    Issues (kernel false beam0) b0 (ctx0 false beam0) ∧ (∀ a ∈ ([0xC0, 0xEF, 0xF0, 0xFB] : List (BitVec 8)), ScalarSource a) ∧
      (∀ a ∈ ([0xC0, 0xEF, 0xF0] : List (BitVec 8)), ScalarDest a) ∧ (∀ a ∈ ([0xBF, 0xFC, 0xFF] : List (BitVec 8)), ¬ ScalarSource a) ∧
      (∀ a ∈ ([0xBF, 0xF1] : List (BitVec 8)), ¬ ScalarDest a) :=
  ⟨test_issues false beam0 _ (.inl rfl) (by rfl) rfl, by unfold ScalarSource; decide, by unfold ScalarDest; decide, by unfold ScalarSource; decide,
    by unfold ScalarDest; decide⟩

theorem test_meets_ScalarFrame :
    Issues (kernel false beam0) b0 (ctx0 false beam0) ∧ ScalarSource 0xC1 ∧ ScalarSource 0xC2 ∧ ScalarDest 0xEF ∧ ScalarDest 0xF0 :=
  ⟨test_issues false beam0 _ (.inl rfl) (by rfl) rfl, by unfold ScalarSource; decide, by unfold ScalarSource; decide, by unfold ScalarDest; decide,
    by unfold ScalarDest; decide⟩

/-- Empty and full call stacks, paths that split and that do not, mask stacks of 14 and 15 entries. -/
theorem test_meets_ControlInstructions :
    (∀ m ∈ ([beam0, beam1, { beam0 with calls := List.replicate 7 1 }, { beam0 with calls := List.replicate 8 1 },
        { beam1 with stack := List.replicate 14 (.reconv 1 9) }, { beam1 with stack := List.replicate 15 (.reconv 1 9) }] : List Beam),
      (kernel false m).beamReady (ctx0 false m) = true ∧ m.debugStep = false) ∧
    ((ctx0 false beam1).mask 0 = BitVec.allOnes 32 ∧ (ctx0 false beam1).mask 1 = 1 ∧ (ctx0 false beam1).mask 2 = 0) ∧ MaskField 15 :=
  ⟨by decide, by decide, by unfold MaskField; decide⟩

theorem test_meets_PathsRejoin :
    (∀ m ∈ ([{ beam0 with stack := [.reconv 3 0] }, { beam0 with stack := [.pending 3 4 0] }, { beam0 with stack := [.wait 3 4 0 (.block 0) none] }] :
        List Beam), (kernel false m).beamReady (ctx0 false m) = true ∧ m.debugStep = false ∧ (3 : BitVec 32) &&& ~~~ m.exited ≠ 0) ∧
      (kernel false beam0).core 0 = Core.reset ∧ (ctx0 false beam1).mask 1 ≠ (ctx0 false beam1).beam.path := by decide

/-- A phase that one beam completes; one that waits; and a second identifier. -/
theorem test_meets_BarriersAndPhases :
    let k := block0 false beam0
    let full : Block := { k with arrived := [(0, BitVec.allOnes 32)] }
    let half : Block := { k with arrived := [(0, 1)] }
    (full.arrived ≠ [] ∧ ∀ i < full.beams.length, full.live i &&& ~~~ Tab.get 0 full.arrived i = 0) ∧
      (∃ i < half.beams.length, half.live i &&& ~~~ Tab.get 0 half.arrived i ≠ 0) ∧
      (Dev.beamReady { kernel false beam0 with blocks := [{ k with barId := some 3 }] }
        { ctx0 false beam0 with block := { k with barId := some 3 } } = true) := by decide

theorem test_meets_WordsThatCannotRun :
    (issueOf (wordClass 0x8000000000000000).toNat (wordOp 0x8000000000000000).toNat 0 = none ∧
      (kernel false beam0).translate 0 ((params0 false).kernelAddr + 8 * beam0.pc).toNat = .unmapped) ∧
    (let k : Block := { block0 false beam0 with arrived := [(0, 1)], watchdog := 1048576 }
     let c : Ctx := { ctx0 false beam0 with block := k }
     Dev.ctx? { kernel false beam0 with blocks := [k] } b0 = some c ∧ Dev.arrivals { kernel false beam0 with blocks := [k] } c = true ∧
       c.launch.watchdogLimit ≤ c.block.watchdog) :=
  ⟨⟨by decide, rfl⟩, by rfl, by decide, by decide⟩

theorem test_meets_LocalMemory :
    let c := ctx0 false beam1
    Issues (kernel false beam1) b0 c ∧ MaskField f1.msk ∧ memWidth f1 = some 4 ∧ RaySource c f1.a ∧ CleanAddress c f1 (c.rPoison f1.a.toNat) ∧
      RayDest c f1.dst ∧ RaySource c f1.b ∧ c.memRays f1 = [0] ∧ LocalOk (kernel false beam1) c (c.localAddr f1 0).toNat 4 true ∧
      LocalOk (kernel false beam1) c 65532 4 false ∧ ¬ LocalOk (kernel false beam1) c 65536 4 false ∧
      LocalOk (kernel false beam1) c 0x0100FFFC 4 true ∧ RayGroup c 190 2 ∧ ¬ RayGroup c 191 2 :=
  ⟨test_issues false beam1 _ (.inl rfl) (by rfl) rfl, by unfold MaskField; decide, by decide, by unfold RaySource; decide,
    by unfold CleanAddress; decide, by unfold RayDest RayGroup; decide, by unfold RaySource; decide, by decide,
    by unfold LocalOk; decide, by unfold LocalOk; decide, by unfold LocalOk; decide, by unfold LocalOk; decide, by unfold RayGroup; decide,
    by unfold RayGroup; decide⟩

/-- A misaligned address, one past the scratchpad and one past the only window; mappings of each kind. -/
theorem test_meets_AccessesTrap :
    let c := ctx0 false beam1
    (c.memRays f1 = [0] ∧ (c.localAddr { f1 with imm := 0 } 0).toNat % 4 ≠ 0 ∧ c.localTarget 65536 4 = none ∧ c.localTarget 0x01800000 4 = none) ∧
      (kernel false beam1).translate 0 0 = .unmapped ∧ (mapped true (kernel false beam1)).translate 0 5 = .device 5 0 true ∧
      (mapped false (kernel false beam1)).translate 0 2097151 = .device 2097151 0 false ∧
      (mapped false (kernel false beam1)).translate 0 2097152 = .unmapped := ⟨by decide, rfl, rfl, rfl, rfl⟩

/-- Sixteen peer regions that an agent has written, and a mapping of another one at 2^40. -/
def sixteen : List PeerRec := (List.range 16).map fun i => ⟨2097152 * i, 0, false⟩
def peered (d : Dev) : Dev := d.updFacet 0 fun x => { x with buses := [⟨2 ^ 40, 0, 2097152, true, false, false⟩] }

/-- A second address that lies in a 17th region. -/
theorem test_meets_GlobalAccesses_held :
    let d := { kernel false beam0 with cores := [(0, { Core.reset with peerRecs := sixteen })] }
    (peered d).heldStores (ctx0 false beam0) [0, 2 ^ 40 + 4] = some 1 := by decide

theorem test_meets_GlobalAccesses :
    let c := ctx0 false beam1
    let d := mapped false (kernel false beam1)
    let f := { f1 with a := 0, imm := 4 }
    Issues d b0 c ∧ MaskField f.msk ∧ RayGroup c f.a 2 ∧ CleanAddress c f (c.groupPoison f.a.toNat 2) ∧ memWidth f = some 4 ∧
      (∀ kind ∈ ([.read, .write, .atomic] : List AccessKind), ∀ r ∈ c.memRays f, GlobalOk (d.noteIssue c) c kind (c.globalAddr f r).toNat 4) ∧
      (d.noteIssue c).heldStores c ((c.memRays f).map fun r => (c.globalAddr f r).toNat) = none :=
  ⟨test_issues false beam1 _ (.inr rfl) (by rfl) rfl, by unfold MaskField; decide, by unfold RayGroup; decide, by unfold CleanAddress; decide, by decide,
    by unfold GlobalOk; decide, by decide⟩

theorem test_meets_ScalarMemory :
    let c := ctx0 false beam0
    let d := mapped false (kernel false beam0)
    let f := { f1 with a := 0xC0, imm := 16, mod := 4, dst := 0xEE }
    Issues d b0 c ∧ memWidth f = some 16 ∧ GlobalOk (d.noteIssue c) c .read 16 16 ∧ ((d.noteIssue c).coreRead c 16 16).1.poison = false ∧
      (Dev.coreRead { d with memPoison := [0] } c 16 16).1.poison = true :=
  ⟨test_issues false beam0 _ (.inr rfl) (by rfl) rfl, by decide, by unfold GlobalOk; decide, by decide, by decide⟩

/-- Lengths of 0 and 1 MiB, room for the 16th copy and none for the 17th. -/
theorem test_meets_AsyncCopies :
    let copy : AsyncCopy := ⟨true, 0, 0, 128⟩
    let m := { beam0 with copies := List.replicate 15 copy, s := [(3, 128)] }
    let d := mapped false (kernel false m)
    Issues d b0 (ctx0 false m) ∧ (ctx0 false m).localTarget 0 65536 = some (0, 0) ∧ (ctx0 false m).localTarget 0 65664 = none ∧
      (d.noteIssue (ctx0 false m)).copyTraps (ctx0 false m) false 0 1048576 = [] ∧ (d.noteIssue (ctx0 false m)).copyTraps (ctx0 false m) true 0 128 = [] ∧
      (d.noteIssue (ctx0 false m)).localBusy (ctx0 false m) 0 128 true = false ∧ m.copies[14]? = some copy :=
  ⟨test_issues false _ _ (.inr rfl) (by rfl) rfl, by decide, by decide, by decide, by decide, by decide, by decide⟩

theorem test_meets_CacheControlInstructions :
    let c := ctx0 false beam1
    let d := mapped false (kernel false beam1)
    let f := { f1 with a := 0, imm := 4 }
    RayGroup c f.a 2 ∧ (∀ r ∈ c.memRays f, (d.noteIssue c).globalTraps c .write (c.globalAddr f r).toNat 1 = []) ∧ RayDest c f.dst ∧ RayDest c 191 ∧
      ¬ RayDest c 0xF1 :=
  ⟨by unfold RayGroup; decide, by decide, .inl rfl, by unfold RayDest RayGroup; decide, by unfold RayDest RayGroup; decide⟩

/-- MMA of tiles 8 and 9 into tiles 0 to 3, and the last quad of 20 tiles. -/
theorem test_meets_MatrixIssueAndChecks :
    let c := ctx0 false beam0
    let f := { zeroFields with dst := 0, a := 8, b := 9 }
    MatrixReady ((kernel false beam0).noteIssue c) c f false ∧ MatrixReady ((kernel false beam0).noteIssue c) c f true ∧
      c.mmaTraps { f with imm := 5130 } false = [] ∧ c.mmaTraps { f with imm := 5130 } true = [] ∧ c.mbinTraps f = [] ∧ c.mbintTraps { f with imm := 10 } = [] ∧ c.mzeroTraps { f with imm := 1 } = [] ∧
      c.moveTraps { f with dst := 19, a := 0xC0, b := 0xC3 } = [] ∧ c.mmaTraps { f with dst := 16, imm := 5130 } false = [] ∧
      c.mmaTraps { f with dst := 20, imm := 5130 } false ≠ [] ∧ (ctx0 false { beam0 with path := 1 }).beam.path ≠ ~~~ beam0.exited := by
  refine ⟨?_, ?_, ?_⟩
  · unfold MatrixReady; decide
  · unfold MatrixReady; decide
  · decide

theorem test_meets_MatrixCompletion :
    let e : QEntry := ⟨.mzero b0 zeroFields, b0, 0, 0, 0⟩
    let k := { Core.reset with matQ := [e], movQ := [{ e with instr := .mld b0 { zeroFields with dst := 1, a := 0xC0, b := 0xC1 }, seq := 1 }] }
    let d := { kernel false beam0 with cores := [(0, k)] }
    d.strikes = Strikes.none ∧ (d.core 0).matQ = [e] ∧ (∀ w ∈ (d.core 0).entries, e.waitsFor w = false) ∧ (d.core 0).movQ ≠ [] := by decide

/-- Formats of one group and of two, and an MX format whose scale is 0xFF. -/
theorem test_meets_MatrixResults :
    (mformat 0).map (fun m => (m.int, m.groups false, m.groups true)) = some (false, 2, 4) ∧ (mformat 10).map (fun m => m.mx) = some true ∧
      ({ block0 false beam0 with tiles := [(0, 0xFF)] } : Block).scale 0 0 0 0 = 0xFF ∧ (zeroFields.imm.getLsbD 0 = false) := by decide

def passing : Beam := { beam0 with passOut := true }
/-- The head of a vector core's queue, or of its sort/select unit's. -/
def pass (sort : Bool) (i : Instr) : Dev :=
  let q : List QEntry := [⟨i, b0, 0, 0, 0⟩]
  { kernel true passing with cores := [(1024, if sort then { Core.reset with sortQ := q } else { Core.reset with vecQ := q })] }

theorem test_pass_head (sort : Bool) (i : Instr) : PassHead (pass sort i) 1024 sort i b0 (ctx0 true passing) [] := by
  cases sort <;> refine ⟨rfl, by rfl, rfl, ⟨⟨i, b0, 0, 0, 0⟩, rfl, rfl, ?_, by rfl⟩⟩ <;> intro w hw <;>
    simp [pass, Dev.core, Tab.get, Core.entries, Core.reset] at hw <;> simp [hw, QEntry.waitsFor]

/-- Fields of a pass over g0 and g1 into g2, and the sort/select unit's. -/
def fv : KFields := { zeroFields with dst := 2, b := 1 }
theorem test_meets_VectorIssue :
    let c := ctx0 true beam0
    Issues (kernel true beam0) b0 c ∧ (kernel true beam0).vectorGated 1024 = false ∧
      (∀ make ∈ ([.vaddF, .vminu, .vcvt, .vcmpF] : List (BeamRef → KFields → Instr)),
        ∃ k, vkind (make b0 fv) = some k ∧ c.vTraps k fv = [] ∧ c.vConsumes (make b0 fv) k fv = []) ∧
      ((kernel true beam0).noteIssue c).core 1024 = Core.reset ∧ c.sortTraps fv ++ c.groupTraps fv.dst.toNat (regs64 c.len64) = [] ∧
      Ctx.mergeTraps (ctx0 true { beam0 with s := [(0, 1)] }) { fv with dst := 0xC1, b := 0xC0 } = [] := by
  refine ⟨test_issues true beam0 _ (.inl rfl) (by rfl) rfl, by decide, ?_, by decide, by decide, by decide⟩
  intro make h
  simp only [List.mem_cons, List.not_mem_nil, or_false] at h
  rcases h with rfl | rfl | rfl | rfl <;> exact ⟨_, rfl, by decide, by decide⟩

theorem test_meets_VectorCompute :
    PassHead (pass false (.vfmaF b0 fv)) 1024 false (.vfmaF b0 fv) b0 (ctx0 true passing) [] ∧
      (tileA fv = true → ∀ e ∈ (ctx0 true passing).active 0 32, (ctx0 true passing).wordPoison ((ctx0 true passing).opA fv) e = false) :=
  ⟨test_pass_head false _, by decide⟩

theorem test_meets_ReductionsAndSorting :
    let c := ctx0 true { beam0 with g := [(0, 9)], vl := 2 }
    c.beam.vl ≤ 256 ∧ ((c.active 0 c.beam.vl).map fun e => c.word (c.opA fv) e).length = 2 ∧
      ((ctx0 true { beam0 with vl := 1 }).active 0 1 = [0]) ∧ ((ctx0 true { beam0 with vl := 0 }).active 0 0 = []) ∧
      isAscending [0, 0, 5] = true ∧ isAscending [5, 0] = false ∧
      (∀ n ∈ [2, 5, 6, 0], ({ zeroFields with imm := BitVec.ofNat 20 n } : KFields).imm.toNat % 8 = n) := by decide

theorem test_meets_SortSelect :
    PassHead (pass true (.ssort b0 fv)) 1024 true (.ssort b0 fv) b0 (ctx0 true passing) [] ∧
      PassHead (pass true (.smerge b0 fv)) 1024 true (.smerge b0 fv) b0 (ctx0 true passing) [] ∧
      PassHead (pass true (.scompact b0 fv)) 1024 true (.scompact b0 fv) b0 (ctx0 true passing) [] ∧
      ((ctx0 true passing).sortEntries fv).length = 32 ∧ (ctx0 true { passing with vl := 0 }).sortEntries fv = [] :=
  ⟨test_pass_head true _, test_pass_head true _, test_pass_head true _, by decide, by decide⟩

theorem test_meets_VectorLoadsAndStores :
    let c := ctx0 true beam0
    let f := { fv with a := 0xC3 }
    Issues (kernel true beam0) b0 c ∧ c.vlTraps f f.dst.toNat = [] ∧ c.vlTraps f f.b.toNat = [] ∧
      (∀ stores ∈ [true, false], ∀ e ∈ c.active 0 32, ((kernel true beam0).noteIssue c).localBusy c (4 * e) 4 stores = false) ∧
      c.vlTraps { f with mod := 1 } f.dst.toNat = [] :=
  ⟨test_issues true beam0 _ (.inl rfl) (by rfl) rfl, by decide, by decide, by decide, by decide⟩

theorem test_meets_MaskInstructions :
    Issues (kernel true beam0) b0 (ctx0 true beam0) ∧
      (∀ k ∈ ([1, 7] : List (BitVec 8)), 1 ≤ k.toNat ∧ k.toNat ≤ 7) ∧ (∀ k ∈ ([0, 8] : List (BitVec 8)), k.toNat = 0 ∨ 8 ≤ k.toNat) :=
  ⟨test_issues true beam0 _ (.inl rfl) (by rfl) rfl, by decide, by decide⟩

/-! ## Launches and switching -/

/-- A record of a type with argument bytes, identifier 5 and the phase bit that an empty window expects. -/
def record (typ : Nat) (args : List Byte) : List Byte :=
  [1, BitVec.ofNat 8 typ, 5, 0, 0, 0, 0, 0] ++ List.replicate 8 0 ++ args ++ List.replicate (47 - args.length) 0 ++ [1]
/-- The manager has a command of each of some kinds out, and a record waits in its first window. -/
def asks (bytes : List Byte) (cmds : List Cmd) (d : Dev) : Dev :=
  { d with facets := [(0, { Facet.manager with
    windows := [(0, { Window.reset with enable := true, slots := Mem.write [] 0 bytes })], cmds := cmds, nextSerial := 9,
    pages := [⟨0, 0, 0, false⟩] })] }
/-- The command that the record asks for. -/
def asked (bytes : List Byte) : Cmd := recordCmd { Facet.manager with nextSerial := 9 } 0 bytes
/-- A running command of a type, with identifier 3. -/
def running (typ : BitVec 8) : Cmd := { asked (record 0 []) with serial := 0, id := 3, typ := typ, state := .running }

/-- The parameter block of a one-beam block. -/
def paramBytes : List Byte := [1, 0, 1, 0, 32, 0, 1, 0] ++ leBytes 4 4096 ++ leBytes 4 1 ++ List.replicate 24 0 ++ [20] ++ List.replicate 23 0

theorem test_meets_LaunchCommands :
    let d := asks (record 1 (leBytes 8 128)) [] { ready with mem := Mem.write [] 128 paramBytes }
    let c := asked (record 1 (leBytes 8 128))
    RecordWaits d 0 0 1 c ∧ leAt c.args 0 8 % 64 = 0 ∧
      (let r := (d.recordTaken 0 0 c).gread 0 128 64
       r.1.ok = true ∧ r.1.poison = false ∧ leAt r.1.bytes 0 1 = 1 ∧ r.2.launchRefusal 0 (launchParams r.1.bytes) = none) := by
  unfold RecordWaits; decide

/-- REPLAY and ABORT of the launch of a command whose identifier is 3. -/
theorem test_meets_LaunchCommands_targets : ∀ typ ∈ [2, 3],
    let d := asks (record typ [3, 0, 0, 0]) [running 1] (kernel false beam0)
    let c := asked (record typ [3, 0, 0, 0])
    RecordWaits d 0 0 typ c ∧ ((d.recordTaken 0 0 c).facet 0).target c 1 = some (running 1) ∧
      (d.launches.find? fun l => decide (l.facet = 0) && decide (l.cmd = (running 1).serial)) = some (launch0 false) ∧
      (leAt c.args 3 1).testBit 0 = false := by
  unfold RecordWaits; decide

theorem test_meets_BlocksArePlaced :
    let l : Launch := { launch0 false with nextBlock := 0 }
    let d : Dev := { ready with launches := [l] }
    (d.launch? 0 = some l ∧ d.launchRuns l = true ∧ l.nextBlock < l.params.gridBlocks ∧ oneRow [0] = true ∧ d.gafferServes = true) ∧
      d.awakeFirst l [0] = true ∧ d.mayPlace (.fresh l) false [0] = true ∧ (d.placeBlock l 0 0).isSome = true := by decide

/-- A block of the last grid cluster that was switched out. -/
theorem test_meets_BlocksArePlaced_saved :
    let v : SavedBlock := ⟨block0 false beam0, [], 4096, [], 0, false, 0⟩
    let d : Dev := { ready with launches := [launch0 false], saved := [v] }
    sortBy (fun a b => decide (a.block.index ≤ b.block.index)) (d.savedOf (launch0 false) 0) = [v] ∧
      d.wholeSaved (launch0 false) 0 = true ∧ d.awakeFirst (launch0 false) [0] = true ∧ d.mayPlace (.saved (launch0 false) 0) false [0] = true ∧ (d.restoreBlock (launch0 false) v 0).isSome = true ∧
      d.clusterBlocks (launch0 false) 0 = [] := by decide

/-- A facet being frozen, a launch whose class pre-empts another's core, a block whose beams have stopped, and one that is late. -/
theorem test_meets_Switching :
    let d := kernel false { beam0 with status := .yielded 0 }
    let f : Dev := { d with facets := [(0, { Facet.manager with freezing := true })] }
    (f.facetsThere = [0] ∧ f.freezeCores 0 = NSet.addAll [] [0] ∧ (NSet.addAll [] [0] : NSet) ≠ []) ∧
      d.strikes = Strikes.none ∧ (d.block? 0 0).map Block.stopped = some true ∧
      (let e := { kernel false beam0 with cores := [(0, { Core.reset with switchReq := true, switchLate := true })] }
       (e.block? 0 0).isSome = true ∧ (e.core 0).switchReq = true ∧ (e.core 0).switchLate = true) := by decide

/-- The partition of facet 9 is core 0, where a launch of class 3 has a block. -/
def low9 : Launch := { launch0 false with cls := 3, facet := 9 }
/-- A launch of class 0 whose block needs the whole scratchpad. -/
def high9 : Launch := { low9 with id := 1, cls := 0, nextBlock := 0, params := { params0 false with scratchBytes := scratchShare false 0 } }
def crowded : Dev :=
  { ready with launches := [low9, high9], blocks := [{ block0 false beam0 with facet := 9 }], cores := [(0, { Core.reset with splitBy := some 0 })],
               facets := [(9, { Facet.manager with quota := { Facet.manager.quota with partition := true, mCores := 1 } })] }
theorem test_meets_Switching_preempts :
    (∀ f ∈ crowded.facetsThere, crowded.freezeCores f ≠ [0]) ∧
      (∃ v ∈ crowded.waiting false ++ crowded.waiting true, crowded.preemptFor v = some ([0], [])) ∧
      (∀ v ∈ crowded.waiting false ++ crowded.waiting true, ∀ p, crowded.preemptFor v = some p → p.1 = [0] → p.2 = []) := by
  have h : crowded.waiting false ++ crowded.waiting true = [.fresh high9] := by rfl
  have g : crowded.preemptFor (.fresh high9) = some ([0], []) := by decide
  rw [h]
  simp [g]
  decide

/-! ## Coherence, the fabric, reductions and memory -/

/-- Core 0 with a share of L1; and with a line in it, or a request out. -/
def cached (state : Option L1State) (reqs : List (Nat × ReqKind)) (net : List Msg) : Dev :=
  let l1 : List L1Line := (state.map fun x => [⟨5, x, line0⟩]).getD []
  { ready with cores := [(0, { Core.reset with split := 1, l1 := l1, reqs := reqs })], net := net }
/-- A message of line 5 that stands at its destination. -/
def arrived (kind : MsgKind) (agent : Nat) : Msg := { mkMsg kind agent 5 with arrived := true }

theorem test_meets_CoherenceRequests :
    (∀ kind ∈ ([.rdS, .rdU, .own, .upg] : List ReqKind), (5, kind) ∈ ((cached none [(5, kind)] []).core 0).reqs) ∧
    (∀ state ∈ ([none, some .shared] : List (Option L1State)),
      let d := cached state [] []
      coreValid 0 = true ∧ d.lineExists 5 = true ∧ shareSets (d.core 0).split ≠ 0 ∧ (d.core 0).gated = false ∧
        (d.core 0).reqs = [] ∧ ((d.core 0).l1? 5).map L1Line.state = state) ∧
      (∀ a ∈ [767, 1215, 2048, 2115], agentValid a = true) ∧ (cached none [] []).net = [] ∧
      (∀ a ∈ [768, 1216, 2116], agentValid a = false) ∧
      (cached none [] []).lineExists 6442450943 = true ∧ (cached none [] []).lineExists 6442450944 = false := by decide

/-- No copy, one other core's, and the requester's own. -/
theorem test_meets_HomeGrants :
    let d := cached none [] []
    let n := d.homeSlice 5
    let held (c : Nat) : Dev := { cached (some .shared) [] [] with slices := [(n, { Slice.reset with dir := [⟨5, none, [c], []⟩] })] }
    d.dirCopies 5 = [] ∧ (held 7).dirCopies 5 ≠ [] ∧ (held 7).isSharer (mkReq .upg 0 0 0 5) = false ∧
      (held 0).isSharer (mkReq .upg 0 0 0 5) = true := by decide

/-- Each snoop and completion at a core with the line and at one without, and behind the completion of the core's own request. -/
theorem test_meets_SnoopsAndCompletions :
    (∀ kind ∈ ([.snpInv, .snpDown, .snpDrop] : List MsgKind), ∀ state ∈ ([none, some .shared, some .modified] : List (Option L1State)),
      (cached state [] [arrived kind 0]).takeMsg kind 0 5 = (some (arrived kind 0), cached state [] []) ∧
        (((cached state [] []).core 0).l1? 5).isSome = state.isSome) ∧
    (∀ kind ∈ ([.snpInv, .snpDown, .snpDrop] : List MsgKind),
      let m : Msg := { arrived .cmpS 0 with id := 1 }
      (cached none [(5, .rdS)] [m, arrived kind 0]).takeMsg kind 0 5 = (some (arrived kind 0), cached none [(5, .rdS)] [m]) ∧
        (cached none [(5, .rdS)] [m]).grantComing 0 5 = true ∧ (cached none [(5, .rdS)] []).grantComing 0 5 = false) ∧
    (∀ kind ∈ ([.cmpS, .cmpE, .cmpM] : List MsgKind),
      let m := { arrived kind 0 with data := line0 }
      let e := cached none [(5, .rdS)] []
      (cached none [(5, .rdS)] [m]).takeMsg kind 0 5 = (some m, e) ∧ m.data ≠ [] ∧ (e.core 0).heldSnoops = [] ∧
        ((e.l1Evict 0 5).core 0).heldSnoops = []) ∧
    ((cached (some .shared) [(5, .upg)] [arrived .cmpOwn 0]).takeMsg .cmpOwn 0 5 = (some (arrived .cmpOwn 0), cached (some .shared) [(5, .upg)] [])) ∧
    (∀ agent ∈ [0, 2112], ∀ kind ∈ ([.cmpNc, .cmpAck] : List MsgKind),
      (cached none [] [arrived kind agent]).takeMsg kind agent 5 = (some (arrived kind agent), cached none [] [])) ∧
    (let e : Dev := { ready with cores := [(0, { Core.reset with wbuf := [(5, line0)] })] }
     ({ e with net := [arrived .cmpAck 0] } : Dev).takeMsg .cmpAck 0 5 = (some (arrived .cmpAck 0), e) ∧ ∃ w ∈ (e.core 0).wbuf, w.1 = 5) := by decide

/-- A home that waits for core 3, one that waits for a fill, one whose fill is late, and slices in and out of hold. -/
theorem test_meets_HomeEvents :
    let d := cached none [] []
    let n := d.homeSlice 5
    let t : Txn := ⟨mkReq .rdS 0 0 0 5, 0, none, [3], false, false, false, [], []⟩
    let at_ (t : Txn) (net : List Msg) : Dev := { d with slices := [(n, { Slice.reset with txns := [t] })], net := net }
    (∀ kind ∈ ([.rspAck, .rspData, .wb, .evc] : List MsgKind),
      ({ d with net := [arrived kind 3] } : Dev).takeMsg kind 3 5 = (some (arrived kind 3), d) ∧
        (at_ t [arrived kind 3]).takeMsg kind 3 5 = (some (arrived kind 3), at_ t [])) ∧
      (at_ t []).txn? 5 = some t ∧ t.own = false ∧ 3 ∈ t.snoops ∧ 3 ∉ t.acks ∧ d.txn? 5 = none ∧ NSet.has d.memPoison 5 = false ∧
      (d.slice n).isStream 3 5 = false ∧ d.way? 5 = none ∧
      (({ Slice.reset with streams := [⟨3, streamRegion 5, 8⟩] } : Slice).isStream 3 5 = true) ∧
      (let x : Dev := { d with slices := [(n, { Slice.reset with lateFills := [5] })] }
       5 ∈ (x.slice n).lateFills) ∧
      (∀ miss ∈ [true, false],
        let f : Txn := { t with snoops := [], fill := true }
        let x : Dev := { d with slices := [(n, { Slice.reset with txns := [f], missMode := miss })] }
        x.txn? 5 = some f ∧ f.joined = [] ∧ (x.slice n).lateFills = [] ∧ x.reading 5 = false ∧ x.lineFacet 5 = 0 ∧
          (let p := ((x.countRead 5).proceed f.req f.cap true).1
           (p.slice n).missMode = miss ∧ p.net.drop x.net.length = fuse (p.net.drop x.net.length) ∧ p.net.take x.net.length = x.net)) ∧
      (d.slice 95).hold = false ∧ d.modeAllowed 95 true 2 = true ∧ d.security.trace = none ∧
      (let x : Dev := { d with slices := [(95, { Slice.reset with hold := true })] }
       (x.slice 95).hold = true ∧ (x.slice 95).txns = []) := by decide

/-- A message in the mesh, with data and without; one that waits at a router for pair port 1; flits, lanes, retraining and tags of a port. -/
theorem test_meets_Fabric :
    (∀ m ∈ ([mkMsg .rspAck 0 5, { mkMsg .rspData 0 5 with data := line0 }] : List Msg),
      let d : Dev := { ready with net := [m] }
      (d.msgHop m 0).map (fun h => (h.out, h.next)) = some (13, some (96, 0)) ∧ isSerial 0 13 = false ∧ d.winner 0 13 = some m ∧
        ({ d with net := [m.poisoned] } : Dev).winner 0 13 = some m.poisoned) ∧
    (let m : Msg := { mkMsg .rspAck 0 64 with node := 96, vc := 2 }
     let d : Dev := { ready with net := [m], ports := [(1, { PairPort.reset with state := .up })] }
     ((d.port 1).dir true).resend = none ∧ routerNode (portEndA 1) = 96 ∧ serialPort (portEndA 1) (portEndB 1) = 40 ∧
       d.winner 96 40 = some m ∧ (d.turn 96 40 m).depart m 40 = (some m, { d.turn 96 40 m with net := [] })) ∧
    (let f : Flit := ⟨2, 7, 0, 0, 96, 0, 2⟩
     let x : PortDir := { PortDir.reset with replay := [f], resend := some 7, fails := 15, lanes := 64, flits := 10, laneErr := [(67, (1, 0))] }
     (x.resend.bind fun q => x.replay.find? fun v => decide (v.seq = q)) = some f ∧ NSet.has x.retired 67 = false ∧
       x.flits * 256 < (Tab.get (0, 0) x.laneErr 67).1 * 1000000 * x.lanes ∧ ¬ x.flits * 256 < (Tab.get (0, 0) x.laneErr 0).1 * 1000000 * x.lanes ∧
       x.spares ≠ 0 ∧ (x.respare [67]).isSome = true ∧ (x.respare [0, 1, 2, 3, 4]).isNone = true) ∧
    (∀ state ∈ ([.up, .degraded, .retrain] : List PortState), ∀ half ∈ [true, false],
      let d : Dev := { ready with ports := [(5, { PairPort.reset with state := state, halfTurn := half })] }
      (d.port 5).state = state ∧ (d.port 5).halfTurn = half ∧ (d.port 5).attempts = 0) ∧
    (let t : Tag := ⟨0, 1023, 0, 2, false, 0, 5, true, true⟩
     let at_ (t : Tag) : Dev := { ready with ports := [(5, { PairPort.reset with tags := [t] })] }
     ((at_ t).port 5).tag? 0 1023 = some t ∧
       ((at_ { t with withheld := true, busy := false }).port 5).tag? 0 1023 = some { t with withheld := true, busy := false }) := by
  decide

def group2 : RedGroup :=
  { num := 511, facet := 0, op := 0, n := 2, payload := 256, window := 0, dest := 2097152, done := 4194304, root := 0, reserved := 0, rounds := 0, nodes := [],
    filled := [], overrun := false, poisoned := false, doneOwed := none, phaseRounds := 0, intervals := [], lags := [], dies := [] }
/-- The last rank and line, filled and not; a node on hold at a hub and at a router; a done word that is owed; a round of one rank whose line
is at the root, and a node with its sibling. -/
theorem test_meets_Reductions :
    let at_ (g : RedGroup) : Dev := { ready with groups := [g] }
    (at_ group2).group? 511 = some group2 ∧ 1 < group2.n ∧ 1 < group2.payload / 128 ∧ line0.length = 128 ∧ NSet.has group2.filled 3 = false ∧
      (let g := { group2 with filled := [3] }
       (at_ g).group? 511 = some g ∧ NSet.has g.filled (1 * (g.payload / 128) + 1) = true) ∧
      (∀ place ∈ [95, 99],
        let v : RedNode := ⟨1, 0, 1, line0, false, place⟩
        (({ group2 with nodes := [v] } : RedGroup).nodes.find? fun v => decide (v.line = 1) && decide (v.level = 0) && decide (v.pos = 1) &&
          decide (v.place ≠ 96 + group2.root)) = some v) ∧
      (({ at_ group2 with ports := [] } : Dev).redCross group2 99).1 = false ∧ ((at_ group2).redCross group2 99).1 = true ∧
      (let g := { group2 with doneOwed := some (true, false, [3]) }
       (at_ g).group? 511 = some g ∧ g.doneOwed.isSome = true) ∧
      (let g := { group2 with n := 1, payload := 128, nodes := [⟨0, 0, 0, line0, false, 96⟩] }
       (at_ g).group? 511 = some g ∧ g.complete = true ∧ g.doneOwed = none ∧ group2.complete = false) ∧
      (let v : RedNode := ⟨1, 0, 0, line0, false, 0⟩
       let w := { v with pos := 1 }
       let g := { group2 with nodes := [w] }
       let sib := fun u : RedNode => u.at v.line v.level (v.pos ^^^ 1) v.place && decide (u.data.length = v.data.length)
       v.level < g.top ∧ ¬ g.n ≤ (v.pos ^^^ 1) * 2 ^ v.level ∧ g.nodes.find? sib = some w ∧ group2.nodes.find? sib = none ∧
         ({ group2 with n := 3 } : RedGroup).n ≤ (2 ^^^ 1) * 2 ^ 0 ∧ 0 < ({ group2 with n := 3 } : RedGroup).top) := by decide

/-- Reads of both tiers, full and short write queues, a working stack, and far ports in states 0, 2 and 3. -/
theorem test_meets_FarAndStacks :
    let far : FarPort := { FarPort.reset with state := 2, capacity := 1, identity := 4, writes := [⟨34359738368, 0, none⟩] }
    let d : Dev := { ready with reads := [⟨5, 0⟩, ⟨34359738368, 0⟩], farPorts := [(0, far), (1, { far with state := 3 })],
                                stackRegs := [(11, { Stack.reset with state := 0, writeQ := [(63, 5)] })] }
    let found : FarDevice := ⟨true, true, true, 1, 1, 268435456, 4⟩
    ((d.nextRead 5).map MemRead.line = some 5 ∧ lineIsFar 5 = false ∧ NSet.has d.memPoison 5 = false ∧
      NSet.has ({ d with memPoison := [5] } : Dev).memPoison 5 = true) ∧
      (d.reading 34359738368 = true ∧ lineIsFar 34359738368 = true ∧ d.linePoisoned 34359738368 = false) ∧
      ((d.stack 11).waits 63 ≠ 0 ∧ d.noReads 11 63 = true ∧ (d.stack 11).state = 0) ∧
      ((d.farPort 0).state = 2 ∧ (d.farPort 0).scrubbed < 128 ∧ 128 ≤ 128 * (d.farPort 0).capacity) ∧
      ((d.farPort 1).state = 3 ∧ found.identity = (d.farPort 1).identity ∧ min (found.capacity / 268435456) 4096 = (d.farPort 1).capacity) ∧
      ((d.farPort 3).state = 0 ∧ d.farHeld 3 = [] ∧ d.boot.step = 9) ∧ { found with identity := 5 }.identity ≠ (d.farPort 1).identity := by decide

/-! ## Mailbox commands -/

/-- The payload of a code's request, from its fields (offset, bytes, value); its version, byte 0, is 1. -/
def fieldBytes (n : Nat) (fields : List (Nat × Nat × Nat)) : List Byte :=
  Mem.read (fields.foldl (fun m e => Mem.write m e.1 (leBytes e.2.1 e.2.2)) [(0, 1)]) 0 n
/-- A request of a code waits in the mailbox of the manager of a block, beside other facets. -/
def askIn (d : Dev) (x : Facet) (others : Tab Facet) (code : Nat) (fields : List (Nat × Nat × Nat)) : Dev :=
  let bytes := fieldBytes ((requestLengths code).headD 0) fields
  let buf := Mem.write [] 0 ([1, 0] ++ leBytes 2 code ++ leBytes 2 bytes.length ++ leBytes 2 0 ++ leBytes 8 7 ++ bytes)
  { d with facets := (0, { x with hello := true, mailbox := { Mailbox.reset with go := true, busy := true, buf := buf } }) :: others }
/-- A request of the manager of the booted device. -/
def ask (code : Nat) (fields : List (Nat × Nat × Nat)) : Dev := askIn ready Facet.manager [] code fields

theorem test_served : ∀ c ∈ [0x0001, 0x0002, 0x0003, 0x0100, 0x0101, 0x0102, 0x0201, 0x0202, 0x0203, 0x0204, 0x0300, 0x0301, 0x0302, 0x0303, 0x0304,
    0x0305, 0x0306, 0x0400, 0x0401, 0x0402, 0x0403, 0x0500, 0x0501, 0x0502, 0x0503, 0x0504, 0x0505, 0x0506, 0x0507, 0x0508, 0x0509], Served (ask c []) 0 c := by
  unfold Served; decide
theorem test_served_more : ∀ c ∈ [0x0600, 0x0601, 0x0602, 0x0603, 0x0610, 0x0611, 0x0612, 0x0613, 0x0620, 0x0621, 0x0700, 0x0701, 0x0800, 0x0801, 0x0802,
    0x0803, 0x0804, 0x0805, 0x0806, 0x0807, 0x0808, 0x0809, 0x080A, 0x080B, 0x080C, 0x080D, 0x080E, 0x080F, 0x0810, 0x0811, 0x0812, 0x0813],
    Served (ask c []) 0 c := by
  unfold Served; decide
theorem test_served_register : Served (ask 0x0200 [(1, 1, 1)]) 0 0x0200 := by unfold Served; decide

/-- Two pages of the manager. -/
def twoPages : Facet := { Facet.manager with pages := [⟨1, 7, 0, false⟩, ⟨2, 9, 0, false⟩] }

theorem test_meets_MemoryAndWindows :
    (let d := ask 0x600 [(3, 1, 31), (4, 4, 2)]
     memTargetOk false false 31 = true ∧ d.stackFailed = false ∧ 2 ≤ d.hbmFree 0 ∧ (d.pickPages 0 false false 31 2).isSome = true ∧
       ((d.mbxJournaled 0 0x600 0).pickPages 0 false false 31 2).isSome = true) ∧
    (let d := askIn { ready with farPorts := [(0, { FarPort.reset with state := 2, capacity := 1 })] } Facet.manager [] 0x600
        [(1, 1, 1), (3, 1, 31), (4, 4, 2)]
     (d.farPort 0).state = 2 ∧ (d.pickPages 0 true false 31 2).isSome = true) ∧
    (let d := askIn ready twoPages [] 0x601 [(8, 8, 2097152), (16, 4, 2)]
     d.allAllocated 0 1 2 = true ∧ d.rangeInUse 0 2097152 4194304 = false) ∧
    (let d := ask 0x603 [(1, 1, 3)]
     d.farHeld 3 = [] ∧ ((d.farEnumerate 3 ⟨true, true, true, 1, 1, 268435456, 4⟩).farPort 3).state = 2) ∧
    ((ask 0x610 [(1, 1, 1), (8, 8, 65536), (16, 8, 4096)]).mayTransmit 0 = true) ∧
    (let d := askIn ready twoPages [] 0x612 [(1, 1, 1), (8, 8, 2097152), (16, 8, 4194304)]
     d.isDevice 0 2097152 4194304 = true ∧ ((d.facet 0).apertureOffset ((d.facet 0).apertureRange true 0) 0 4194304).isSome = true) := by decide

/-! ## The port and the registers -/

/-- The manager with one mapping of BAR4 to its first page. -/
def opened : Facet := { twoPages with apertures := [⟨0, 2097152, 4096, false, 0, true, true, false, 0⟩] }
def barred : Dev := { ready with facets := [(0, opened)] }

theorem test_meets_PortRequests :
    barred.barOpen 0 = true ∧ barred.idePasses false = true ∧ barred.power.pkg = 0 ∧
      opened.bar4Target 4092 4 true 0 = .at 2101244 ∧ opened.bar4Target 0 8 true 0 = .at 2097152 ∧
      opened.bar4Target 4096 4 true 0 = .unmapped ∧ opened.bar4Target 0 4 false 0 = .at 2097152 ∧
      barred.deviceRange 0 2097152 8 true = true ∧ barred.translate 0 2097152 = .device 14680064 0 false ∧
      barred.facetExists 0 = true ∧ barred.onBus 63 = false ∧ barred.onBus 0 = true ∧
      Dev.boot { ready with boot := Boot.reset } ≠ ready.boot :=
  ⟨by decide, by decide, by decide, by rfl, by rfl, by rfl, by rfl, by decide, by rfl, by decide, by decide, by decide, by decide⟩

/-- A fence of a beam, and a command, that wait for region 3. -/
theorem test_meets_PortRequests_confirms :
    let m := { beam0 with fenceWait := [3] }
    let d := asks (record 0 []) [{ running 1 with confirms := [3] }] (kernel false m)
    d.ctx? b0 = some (ctx0 false m) ∧ 3 ∈ m.fenceWait ∧ d.host.linkUp = true ∧
      (d.facet 0).cmd? 0 = some { running 1 with confirms := [3] } := ⟨rfl, by decide, by decide, by decide⟩

/-- A read-clear pair's low word first; a register with a journaled field near the limit and before it; rings 0 and 16. -/
theorem test_meets_RegisterAccesses :
    barred.barOpen 0 = true ∧ isWide 0x20 = false ∧ isWide 0x600000 = true ∧ journalMask 0x600000 = 0 ∧
      (∃ off, off % 4 = 0 ∧ journalMask off ≠ 0) ∧ barred.security.nearFull = false ∧
      (let r := { Ring.reset with registered := true, log2 := 6, written := [5, 6] }
       let x := { Facet.manager with rings := [(0, r), (16, r)] }
       (x.ring 0).registered = true ∧ (x.ring 16).registered = true ∧ 2 < 2 ^ (x.ring 0).log2 ∧
         (2 + 2 ^ (x.ring 0).log2 - (x.ring 0).head) % 2 ^ (x.ring 0).log2 ≤ (x.ring 0).written.length) :=
  ⟨by decide, by decide, by decide, by decide, ⟨0x10000, by decide⟩, by decide, by decide⟩

/-! ## Records and DMA -/

theorem test_meets_RecordsEnd :
    (let d := asks (record 0 []) [] ready
     RecordWaits d 0 0 0 (asked (record 0 []))) ∧
    (∀ state ∈ ([.ended, .waiting] : List CmdState),
      let c := { running 1 with state := state }
      let d := asks (record 0 []) [c] ready
      (d.facet 0).cmd? 0 = some c ∧ c.confirms = [] ∧ d.farWritesOut 0 c = false ∧ (d.facet 0).abortWaits c = false) ∧
    (let r := { Ring.reset with registered := true, irqEn := true, unsignalled := 1 }
     r.registered = true ∧ r.irqEn = true ∧ r.unsignalled ≠ 0) := by
  unfold RecordWaits; decide

/-- A NOP record that ORDERED holds behind a running command of its window. -/
def orderedNop : List Byte := (record 0 []).set 5 16
theorem test_meets_RecordsEnd_held :
    (let d := asks orderedNop [running 1] ready
     RecordHeld d 0 0 0 (asked orderedNop)) ∧
    (let d := asks (record 8 []) [] ready
     let bs := ((d.facet 0).window 0).headBytes
     d.gafferServes = true ∧ d.intakeGrant = some (0, 0, 1023) ∧ 7 < recordType bs ∧ leAt bs 0 1 = 1 ∧
       (∀ o ∈ (d.facet 0).cmds, o.occupies = true → o.dropped = false → o.id ≠ (d.headCmd 0 0).id) ∧
       (d.headCmd 0 0).gen = (d.facet 0).gen (d.headCmd 0 0).id.toNat) ∧
    (let c := { running 1 with barrier := 2 }
     let r : PeerRec := ⟨4194304, 0, false⟩
     let d : Dev := { asks (record 0 []) [c] ready with cores := [(0, { Core.reset with peerRecs := [r] })] }
     (d.facet 0).cmd? 0 = some c ∧ d.facetRegions 0 ≠ [] ∧ d.mayTransmit 0 = true) := by
  unfold RecordHeld; decide

/-- A copy of 256 bytes; a channel with a queue, one with a descriptor on hand, a halted one, and one that confirms. -/
def desc0 : Desc := { va := 0, bad := false, op := 0, swap := 0, barrier := 0, noAlloc := false, length := 256, src := 0, dst := 4096, next := 0, pattern := 0 }
def run0 : DmaRun :=
  { fn := 0, serial := 0, nextVa := 64, maxDesc := 65536, fetched := 65535, desc := [], doneBytes := 0, poison := false, processed := 0, bad := 0,
    poisoned := 0, chainEnd := false, fault := 0, hostRec := none, peerRecs := [], confirms := [], confirmFailed := false,
    held := false, freezing := false }
/-- Channel 63 with a command of the manager. -/
def channel (state : ChanState) (run : DmaRun) (d : Dev) : Dev :=
  { asks (record 0 []) [running 7] d with channels := [(63, { Channel.reset with state := state, run := some run })] }

theorem test_meets_DmaWork :
    (let d := asks (record 7 (leBytes 8 64 ++ [63, 0, 0, 0] ++ leBytes 4 65536)) [] ready
     let c := asked (record 7 (leBytes 8 64 ++ [63, 0, 0, 0] ++ leBytes 4 65536))
     RecordWaits d 0 0 7 c ∧ leAt c.args 0 8 % 64 = 0 ∧ leAt c.args 12 4 = 65536 ∧ leAt c.args 8 1 % 128 = 63 ∧
       ((d.recordTaken 0 0 c).channel 63).holds 0 = true) ∧
    (let d : Dev := { asks (record 0 []) [running 7] ready with channels := [(63, { Channel.reset with queue := [⟨0, 0, 0, 0, 0, 64, 65536⟩] })] }
     (d.channel 63).run = none ∧ (d.channel 63).queue.length = 1 ∧ (d.facet 0).freezing = false ∧ (d.facet 0).state = .running) ∧
    (let d := channel .running run0 { ready with mem := [(64, 1)] }
     (d.channel 63).run = some run0 ∧ d.reaches 0 64 = true ∧
       (let v := d.vread (2048 + 63) 0 false (some 5) 64 64
        v.1.ok = true ∧ v.1.poison = false ∧ leAt v.1.bytes 0 1 = 1)) ∧
    (let d := channel .running { run0 with desc := [desc0] } ready
     desc0.overlaps = false ∧ d.dmaHeld run0 desc0 = false ∧ { desc0 with dst := 255 }.overlaps = true ∧ (d.channel 63).head.isSome = true ∧ d.granted 3 = some 63) ∧
    ((channel .confirming run0 ready).channel 63).state = .confirming ∧
    (let d : Dev := { channel .running { run0 with desc := [desc0] } ready with
        channels := [(63, { Channel.reset with state := .running, run := some { run0 with desc := [desc0] }, passedBy := 48 })] }
     (d.channel 63).head ≠ none ∧ (d.channel 63).promoted = none) ∧
    ((channel .halted run0 ready).channel 63).state = .halted ∧ ready.barOpen ((channel .halted run0 ready).channel 63).owner = true := by
  unfold RecordWaits; decide
/-- A descriptor that writes a 17th peer region. -/
theorem test_meets_DmaWork_held :
    let x := { desc0 with dst := 2 ^ 40 }
    let r := { run0 with desc := [x], peerRecs := sixteen }
    ((channel .running r ready).channel 63).run = some r ∧ (peered (channel .running r ready)).dmaHeld r x = true ∧ ready.dmaFarOut 63 = false := by
  decide
theorem test_meets_DmaWork_swap : ∀ swap ∈ ([0, 1, 2, 3, 4] : List (BitVec 3)), swap.toNat ≤ 4 ∧ 16 % unitOf swap = 0 := by decide

/-! ## The lehr and serving -/

/-- The manager with a block table at 2 MiB, and the codes and attributes of one block read-only at 16 MiB. -/
def library : Facet := { Facet.manager with pages := [⟨1, 7, 0, false⟩, ⟨8, 8, 0, true⟩, ⟨9, 9, 0, true⟩] }
def table0 : Mem := Mem.write [] 14680064 (leBytes 8 16777216 ++ leBytes 8 18874368 ++ leBytes 8 0 ++ leBytes 4 1)
def corpusBlock (far : Bool) : CorpusBlock := ⟨0, 16777216, 18874368, 0, 1, far, 1, none⟩
def corpus0 (far : Bool) : Corpus := ⟨3, false, 1, 1, 1, [corpusBlock far], 1, none⟩
/-- A running lehr with one corpus and some riders, on a block in which no die is being reset. -/
def lehrOf (running far : Bool) (riders : List Rider) : Dev :=
  { ready with mem := table0, lehr := { Lehr.reset with running := running, dies := 1, corpora := [corpus0 far], riders := riders } }
/-- A rider that waits, of the command with serial number 0. -/
def rider0 : Rider :=
  let r := riderOf 0 (running 4) 0 0 0 (List.replicate 64 0) (List.replicate 64 0)
  { r with k := 4, resultVa := 2097152, corpus := 3, kindMask := 0xFFFF, cutoff := 0xFFFFF }

theorem test_meets_LehrCommands :
    (let d := askIn { ready with mem := table0 } library [] 0x300 [(4, 4, 1), (8, 8, 2097152)]
     d.stackFailed = false ∧ (d.readBlocks false 2097152 1 0 1).1.toOption = some [corpusBlock false] ∧
       ((d.mbxJournaled 0 0x300 0).readBlocks false 2097152 1 0 1).1.toOption = some [corpusBlock false] ∧
       ((List.range 16).find? fun c => (d.lehr.corpus? c).isNone) = some 0) ∧
    (let d := askIn (lehrOf true false []) library [] 0x301 [(1, 1, 3), (4, 4, 1), (8, 8, 2097152)]
     d.lehr.corpus? 3 = some (corpus0 false) ∧ (d.readBlocks false 2097152 1 1 2).1.isOk = true ∧ 1 + 1 < 2 ^ 40 / blockCodes false) ∧
    (((corpus0 false).blocks.filter fun b => decide (0 ≤ b.number) && decide (b.number < 0 + 1)).length = 1 ∧ (corpusBlock false).retired = none) ∧
    (lehrOf true false []).lehr.isActive 3 = false ∧ (lehrOf true false []).lehr.current = none ∧
    (let d := ask 0x304 [(1, 1, 8)]
     d.lehr.running = false ∧ d.lehr.starting = none ∧ 128 ≤ d.hbmFree 0 ∧ (∀ f ∈ d.facetsThere, (d.facet f).quota.partition = false) ∧
       ∀ b ∈ [0, 1, 2, 3], d.storeUsed b + lehrStore 8 b ≤ 2097152) := by decide

/-- The block of a LEHR_START on base die 3, before its cores are given up. -/
def starting (d : Dev) : Dev :=
  let e := (d.mbxJournaled 0 0x304 0).updLehr fun l => { l with starting := some 0, dies := 8, current := none, groups := [], copies := 0, reported := [] }
  let e := Dev.forEach ((List.range 12).filter fun n => (8 : BitVec 4).getLsbD (dieBase n)) Dev.wakeDie e
  Dev.forEach (basesCores 8) (fun d c => d.slotLosesCore c) e
/-- A start whose dies are free and one whose dies hold a block; a stop of a lehr that runs with no rider. -/
theorem test_meets_LehrCommands_start :
    (starting (ask 0x304 [(1, 1, 8)])).lehrFree = true ∧
    (starting { ask 0x304 [(1, 1, 8)] with launches := [launch0 false], blocks := [{ block0 false beam0 with core := 700 }] }).lehrFree = false ∧
    (lehrOf true false []).lehr.running = true ∧ (lehrOf true false []).lehr.riders = [] := by decide

/-- The lehr with one rider of the manager, its result area mapped or not. -/
def riding (map : Bool) (r : Rider) : Dev :=
  (lehrOf true false [r]).updFacet 0 fun x => { x with pages := if map then library.pages else [], quota := Facet.manager.quota }

/-- A ride whose request and code lie at 2 MiB + 4 KiB. -/
theorem test_meets_LehrQueries_ride :
    let request := [1, 3, 4, 0] ++ leBytes 4 0xFFFFF ++ [0xFF, 0xFF] ++ List.replicate 14 0 ++ leBytes 8 2097152
    let bytes := record 4 (leBytes 8 2101248)
    let d := { asks bytes [] (lehrOf true false []) with mem := Mem.write [] 14684160 request }
    let d := d.updFacet 0 fun x => { x with pages := library.pages, quota := Facet.manager.quota }
    let c := { d.headCmd 0 0 with copied := ((d.recordRead 0 0 d.intakeLeft).copyDescriptor 0 (d.headCmd 0 0)).1 }
    let t := d.recordTaken 0 0 c
    let bs := request ++ List.replicate 96 0
    RecordWaits d 0 0 4 c ∧ t.lehr.running = true ∧ t.lehr.stopping = none ∧ c.copied = some bs ∧ leAt bs 0 1 = 1 ∧ leAt bs 1 1 % 16 = 3 ∧
      t.lehr.corpus? 3 = some (corpus0 false) ∧ (corpus0 false).access.getLsbD 0 = true ∧ 64 + codeBytes (corpus0 false).i8 ≤ bs.length ∧
      t.riderOk (riderOf 0 { c with state := .running } t.lehr.nextRider t.nextAccept (t.facet 0).quota.maxClass (bs.take 64)
        ((bs.drop 64).take (codeBytes (corpus0 false).i8))) = true ∧
      t.ridersOf 0 < (t.facet 0).quota.riders ∧ countIf Rider.isWaiting t.lehr.riders < 4096 := by
  unfold RecordWaits; decide

/-- A rider that waits, and one aboard, whose command a RIDE_CANCEL names. -/
theorem test_meets_LehrQueries_cancel : ∀ state ∈ ([.waiting, .aboard] : List RiderState),
    let r := { rider0 with state := state }
    let bytes := record 5 [3, 0, 0, 0]
    let d := asks bytes [running 4] (lehrOf true false [r])
    let t := d.recordTaken 0 0 (asked bytes)
    RecordWaits d 0 0 5 (asked bytes) ∧ (t.facet 0).target (asked bytes) 4 = some (running 4) ∧
      (t.lehr.riders.find? fun r => r.present && decide (r.facet = 0) && decide (r.serial = (running 4).serial)) = some r := by
  unfold RecordWaits; decide

/-- An idle lehr; boundaries without a next block, with one in HBM, and with a far one, staged and not; a block to stage; and a candidate of the
rider in the last seat. -/
theorem test_meets_LehrQueries_boundary :
    (lehrOf false false []).lehr.running = false ∧ (lehrOf true false []).lehr.running = true ∧ (lehrOf true false []).boundary.1 = none ∧
    (lehrOf true false [rider0]).boundary.1 = some (3, corpusBlock false) ∧
    (let d := lehrOf true true [rider0]
     let e := d.updLehr fun l => { l with staged := [⟨3, 0, [], []⟩] }
     d.boundary.1 = some (3, corpusBlock true) ∧ d.boundary.2.lehr.isStaged 3 0 = false ∧ e.boundary.1 = some (3, corpusBlock true) ∧
       e.boundary.2.lehr.isStaged 3 0 = true ∧ d.stageNext = some (3, corpusBlock true) ∧ d.lehr.corpus? 3 = some (corpus0 true)) ∧
    (let r := { rider0 with state := .aboard, seat := 1023 }
     let d := (lehrOf true false [r]).updLehr fun l => { l with cands := [(0, 3, 17)] }
     (d.lehr.riders.find? fun r => r.isAboard && decide (r.seat = 1023)) = some r ∧
       (d.lehr.cands.find? fun e => decide (e.1 = 0) && decide (e.2.1 = 3)) = some (0, 3, 17)) := by decide

/-- Riders that merge without a group and through one, their areas mapped and not, with a rerank and without. -/
theorem test_meets_LehrQueries_merge : ∀ rerank ∈ [true, false], ∀ group ∈ ([none, some 448] : List (Option Nat)),
    let r := { rider0 with state := .merging, rerank := rerank, group := group }
    (riding true r).lehr.rider? 0 = some r ∧ 0 ∉ (riding true r).lehr.mergeWait ∧
      (riding true r).deviceRange r.facet r.resultVa (128 + 8 * r.kPrime) true = true ∧
      (riding false r).deviceRange r.facet r.resultVa (128 + 8 * r.kPrime) true = false := by decide

/-- A model of one matrix core with a reference of the manager, and a session of it. -/
def ref0 : ModelRef := ⟨0, 9, false, 2097152, 64, 128, 0, false, 0⟩
def model0 : Model :=
  { num := 0, digest := 0, program := [], sources := [], refs := [ref0], weightBytes := 1024, lost := false,
    damaged := false, damagedCores := [], partition := false }
def session0 : Session := ⟨5, 0, 0, 0, 0, false, 0, [], [], none⟩
def slot0 (loaded stepping : Bool) : Slot := ⟨0, 0, [0], loaded, 0, 0, stepping, []⟩
def serve (m : Model) (sessions : List Session) (slots : List Slot) (d : Dev) : Dev :=
  { d with serving := { Serving.reset with models := [m], sessions := sessions, slots := slots } }

/-- A rider that gathers, without a handoff; with one to a session that is open, and to one that is not. -/
theorem test_meets_LehrQueries_gather : ∀ handoff ∈ [true, false], ∀ opened ∈ [true, false],
    let r := { rider0 with state := .gathering, rerank := true, handoff := handoff, session := 5, rerankVa := 2101248, fullqVa := 2099200 }
    let d : Dev := { riding true r with serving := { Serving.reset with models := [model0], sessions := if opened then [session0] else [] } }
    let v := d.vread agentLehr r.facet true (some 3) r.fullqVa 1024
    let e := (v.2.vwrite agentLehr r.facet true (some 3) r.rerankVa ([1, 0] ++ leBytes 126 0) false).2.count 0x604038 1
    d.lehr.rider? 0 = some r ∧ r.result = [] ∧ (e.handOff r).isSome = opened := by decide

theorem test_meets_ServingCommands :
    (let d := askIn (serve model0 [] [] ready) Facet.manager [] 0x100 [(4, 4, 9)]
     d.modelOf 0 9 = some (model0, ref0) ∧ d.openSessions 0 < (d.facet 0).quota.sessions ∧ d.residentSessions < 4096) ∧
    (let m := { model0 with refs := [{ ref0 with pinned := true }] }
     (serve m [] [slot0 true false] ready).isHot 0 = true ∧ (serve m [] [] ready).isHot 0 = false) ∧ ref0.pinned = false ∧
    ((serve model0 [session0] [] ready).serving.sessions.length < 65536 ∧ ∀ x ∈ (serve model0 [] [] ready).serving.sessions, x.model ≠ 0) ∧
    ((serve model0 [session0] [] ready).sessionOf 0 5 = some session0 ∧ session0.quiet = true) ∧
    (let d := askIn (serve model0 [session0] [] ready) Facet.manager [] 0x102 [(4, 4, 5)]
     d.sessionOf 0 (leAt (d.mbxRequest 0) 4 4) = some session0) ∧
    (let d := askIn (serve model0 [session0] [] ready) Facet.manager [] 0x101 [(1, 1, 1), (4, 4, 5)]
     d.sessionOf 0 (leAt (d.mbxRequest 0) 4 4) = some session0 ∧ (leAt (d.mbxRequest 0) 1 1).testBit 0 = true) := by decide

theorem test_meets_ServingCommands_pin : (serve model0 [] [slot0 true false] ready).pinFits 0 model0 = true := by
  simp [Dev.pinFits, Dev.pinnedCores, serve, model0, ref0, ready, Dev.facet, Model.cores, Model.facets, Model.pinnedBy, countIf, Dev.reset, Tab.get]
  norm_num [NSet.addAll, NSet.add, slotBytes, Facet.manager]

/-- A sequence's descriptor at 2 MiB, and its record. -/
def seqBytes : List Byte := [1, 0, 0, 0] ++ leBytes 4 5 ++ leBytes 4 1 ++ leBytes 4 1 ++ leBytes 8 2097152 ++ leBytes 8 2097408
/-- A restore, with a session to spill for it and without; a slot that is free; a load whose source answers and one that has none. -/
theorem test_meets_ServingWork :
    (let d := { serve model0 [{ session0 with spilled := true }] [] ready with serving := { Serving.reset with restoreQ := [5] } }
     d.serving.restoreQ = [5] ∧ d.residentSessions < 4096) ∧
    (let a : SlotAsk := ⟨0, 0, 0⟩
     let d := (serve model0 [] [] ready).updServing fun v => { v with slotQ := [a] }
     let e := Dev.evictUntil model0 17 d
     d.model? 0 = some model0 ∧ (d.serving.slotQ.find? fun a => decide (a.model = 0)) = some a ∧ d.gafferServes = true ∧
       d.mayPlace (d.loadOf model0 a) false [] = true ∧ e.slotNumFor model0 = some 0 ∧ (e.slotCores model0.owner model0.cores).isSome = true) ∧
    (∀ warm ∈ [true, false],
      let d := serve model0 [] [slot0 false false] ready
      let d := d.updServing fun v => { v with warms := if warm then [⟨0, 128, [20]⟩] else [] }
      d.slot? 0 = some (slot0 false false) ∧ d.model? 0 = some model0 ∧ (∀ c ∈ (slot0 false false).cores, (d.core c).gated = false) ∧
        (d.weights model0).1.isSome = warm) ∧
    (∀ stepping ∈ [true, false],
      let d := serve model0 [] [slot0 true stepping] ready
      d.slot? 0 = some (slot0 true stepping) ∧ d.model? 0 = some model0) ∧
    (NSet.addAll [] ((slot0 true true).cores.map coreDie)).length < 2 := by decide

theorem test_meets_ServingWork_spill :
    let sessions := { session0 with spilled := true, num := 6 } :: List.replicate 4096 session0
    let d := (serve model0 sessions [] ready).updServing fun v => { v with restoreQ := [6] }
    d.serving.restoreQ = [6] ∧ 4096 ≤ d.residentSessions ∧ d.spillVictim = some session0 := by decide +kernel

/-- A GENERATE whose descriptor names the open session. -/
theorem test_meets_ServingWork_generate :
    let bytes := record 6 (leBytes 8 2097152)
    let d := { asks bytes [] (serve model0 [session0] [] ready) with mem := Mem.write [] 14680064 seqBytes }
    let d := d.updFacet 0 fun x => { x with pages := twoPages.pages }
    let c := { d.headCmd 0 0 with copied := ((d.recordRead 0 0 d.intakeLeft).copyDescriptor 0 (d.headCmd 0 0)).1 }
    let t := d.recordTaken 0 0 c
    let bs := c.copied.getD []
    let q := sequenceOf 0 { c with state := .running } t.nextAccept bs
    RecordWaits d 0 0 6 c ∧ c.copied = some bs ∧ leAt bs 0 1 = 1 ∧ leAt bs 4 4 = 5 ∧ t.sessionOf 0 5 = some session0 ∧ t.model? 0 = some model0 ∧
      sequenceOk bs (((model0.ref? 0).map ModelRef.maxContext).getD 0) = true ∧ session0.pending < 4 ∧
      pagesOf (q.pages * 64 * model0.kvFor 0) ≤ t.hbmQuota 0 := by
  unfold RecordWaits; decide

/-! ## Submission, attaching, rings -/

/-- A request before GO and one that is in service; one that a check refuses. -/
theorem test_meets_MailboxSubmission :
    (let d : Dev := { ready with facets := [(0, { Facet.manager with mailbox := { Mailbox.reset with buf := [(0, 1), (2, 1), (4, 24)] } })] }
     d.barOpen 0 = true ∧ (d.facet 0).mailbox.busy = false ∧ (d.facet 0).mailbox.accepted = false ∧ d.power.pkg = 0 ∧ d.errors.fatal = false ∧
       d.mbxCheck 0 = none ∧ (d.facet 0).mailbox.discard = false) ∧
    (let d := ready
     d.barOpen 0 = true ∧ d.mbxCheck 0 = some 0x2) ∧ ((3 : BitVec 32).getLsbD 0 = true ∧ (2 : BitVec 32).getLsbD 0 = false) := by decide

/-- A first HELLO, one that re-attaches, ones that are refused; rings and groups at the ends of their ranges. -/
theorem test_meets_AttachingAndRings :
    (let d := ask 0x1 [(2, 2, 0), (4, 2, 65535)]
     (Dev.facet d 0).holdsState = false ∧ max 0 d.ifRange.1 ≤ min 65535 d.ifRange.2) ∧
    (let x := { Facet.manager with credential := some 77, ifSel := 256 }
     let d := askIn ready x [] 0x1 [(1, 1, 1), (2, 2, 256), (4, 2, 256), (8, 8, 77)]
     (d.facet 0).credential = some (BitVec.ofNat 64 (leAt (d.mbxRequest 0) 8 8)) ∧ d.ifRange.1 ≤ 256 ∧ 256 ≤ d.ifRange.2) ∧
    ((ask 0x1 [(1, 1, 1), (8, 8, 5)]).facet 0).credential ≠ some 5 ∧
    (let d := askIn ready { Facet.manager with rings := [(16, { Ring.reset with registered := true })] } [] 0x3 [(1, 1, 16)]
     ((d.facet 0).ring 16).registered = true ∧ ((d.facet 0).ring 15).registered = false ∧ (d.facet 0).windows = []) ∧
    (let d := askIn ready twoPages [] 0x620 [(2, 2, 2), (4, 4, 1048576), (8, 8, 4294967296), (16, 8, 2097152), (24, 8, 6291448)]
     d.overlapsMapping 0 4294967296 2097152 = false ∧ d.isDevice 0 2097152 1048576 = true ∧ d.isDevice 0 6291448 8 = true ∧
       (List.range 448).find? (fun i => (d.group? i).isNone) = some 0 ∧ (d.redRoot 0 2097152 1048576).isSome = true) ∧
    (let d := { askIn ready twoPages [] 0x621 [(2, 2, 447)] with groups := [{ group2 with num := 447 }] }
     d.group? 447 = some { group2 with num := 447 } ∧ group2.filled = [] ∧ group2.doneOwed = none) := by decide

/-! ## The link, facets -/

/-- The manager's function with two open pages of 2 MiB and its neighbours. -/
def linked : Dev := { ready with host := { ready.host with numVFs := 63 }, facets := [(0, { Facet.manager with apertures := [⟨0, 2097152, 4096, false, 0, true, true, false, 0⟩] })] }
theorem test_meets_LinkEvents :
    (ready.host.linkUp = true ∧ Dev.reset.host.linkUp = false) ∧
    (let d := { ready with host := { HostLink.reset with perst := false } }
     d.host.linkUp = false ∧ d.host.perst = false ∧ 3 ≤ d.boot.step) ∧
    (linked.host.linkUp = true ∧ linked.boot.step = 9 ∧ bar4SizeOk 0 137438953472 = true ∧ bar4SizeOk 63 4294967296 = true ∧
      137438953472 ≠ (linked.facet 0).bar4) ∧
    (linked.onBus 63 = true ∧ linked.facetExists 63 = false ∧ linked.onBus 0 = true ∧ linked.facetExists 0 = true) ∧
    (let d := ready.updFarPort 0 fun q => { q with writes := [⟨34359738368, 0, none⟩] }
     lineIsFar 34359738368 = true ∧ (d.farPort (lineFarPort 34359738368)).writes.find? (fun w => decide (w.line = 34359738368)) = some ⟨34359738368, 0, none⟩) ∧
    ((kernel false { beam0 with fenceWait := [3] }).ctx? b0).isSome = true ∧
    (((asks (record 0 []) [{ running 1 with confirms := [3] }] ready).facet 0).cmd? 0 = some { running 1 with confirms := [3] }) ∧
    (let d := channel .confirming { run0 with confirms := [0] } ready
     (d.channel 63).run = some { run0 with confirms := [0] } ∧ (d.channel 63).state = .confirming) := by decide

/-- A block with an owner, whose manager asks something of facet 9, which is in a state. -/
def other : Facet := { Facet.manager with quota := { Quota.zero with weight := 1 } }
def owned : Dev := { ready with security := { ready.security with lifecycle := 2 } }
def askOf (code : Nat) (s : FacetState) (fields : List (Nat × Nat × Nat)) : Dev :=
  askIn owned Facet.manager [(9, { other with state := s })] code ((1, 1, 9) :: fields)
theorem test_served_facets : ∀ s ∈ [FacetState.running, .quiesced, .frozen],
    (∀ c ∈ [0x0501, 0x0502, 0x0503, 0x0504, 0x0505, 0x0506, 0x0508, 0x0509], Served (askOf c s []) 0 c) ∧
      ∀ c ∈ [0x0501, 0x0506, 0x0508], Served (askIn owned Facet.manager [] c [(1, 1, 63)]) 0 c := by
  unfold Served; decide

theorem test_meets_FacetCommands :
    (let d := askIn owned Facet.manager [] 0x500 [(3, 1, 1), (4, 4, 4)]
     (quotaOf (d.mbxRequest 0)).inRange = true ∧ d.newFacet 0 = some 1 ∧ d.quotaCheck 1 (quotaOf (d.mbxRequest 0)) 0 = none ∧
       (quotaOf (d.mbxRequest 0)).partition = false) ∧
    (let d := askIn owned Facet.manager [] 0x500 [(1, 1, 63), (3, 1, 1), (4, 4, 4000000)]
     (quotaOf (d.mbxRequest 0)).inRange = true ∧ d.newFacet 63 = some 63 ∧ d.quotaCheck 63 (quotaOf (d.mbxRequest 0)) 0 = some 0x513) ∧
    (quotaOf ((askIn owned Facet.manager [] 0x500 []).mbxRequest 0)).inRange = false ∧
    (let d := askOf 0x502 .running [(3, 1, 2), (4, 4, 8)]
     d.facetExists 9 = true ∧ (quotaOf (d.mbxRequest 0)).inRange = true ∧ d.quotaCheck 9 (quotaOf (d.mbxRequest 0)) (d.facet 9).quota.hbmPages = none) ∧
    (let d := askOf 0x508 .running [(8, 8, 64), (16, 8, 128), (24, 8, 0), (32, 8, 4096)]
     d.facetExists 9 = true ∧ (d.facet 9).log.on = false ∧ d.hbmUsed 0 ≤ d.hbmQuota 0 ∧
       leAt (d.mbxRequest 0) 8 8 % 8 = 0 ∧ leAt (d.mbxRequest 0) 24 8 % 4096 = 0 ∧ leAt (d.mbxRequest 0) 32 8 = 4096) ∧
    (let d := askIn owned Facet.manager [(9, { other with log := DirtyLog.mk true false 64 128 0 4096 [3] })] 0x508 [(1, 1, 9), (2, 1, 2)]
     d.facetExists 9 = true ∧ (d.facet 9).log.on = true) ∧
    ({ owned with facets := [(9, { other with overBits := 3 })] } : Dev).facet 9 = { other with overBits := 3 } := by decide

theorem test_meets_QuiesceSaveRestore :
    (let d := askOf 0x503 .running [(2, 1, 1), (4, 2, 60000)]
     (d.facet 9).state = .running ∧ pagesOf (d.storeBytes 9) ≤ d.hbmFree 0 ∧ leAt (d.mbxRequest 0) 4 2 = 60000) ∧
    (let d : Dev := { owned with facets := [(9, { other with state := .quiescing })] }
     (d.facet 9).state = .quiescing ∧ d.workStopped 9 = true ∧ (d.facet 9).freezing = false) ∧
    ((askOf 0x506 .frozen []).facet 9).state = .frozen ∧
    (let d := askIn owned Facet.manager [] 0x507 [(1, 1, 9), (8, 8, 9000000)]
     d.facetExists 9 = false ∧ d.createRefusal = none ∧ (d.readImage 9000000).1.isNone = true) := by decide

/-- Facet 9's rider is aboard as its work is told to end. -/
def quitting (state : FacetState) (aboard : Bool) : Dev :=
  { askIn owned Facet.manager [(9, { other with state := state, cmds := if aboard then [running 4] else [] })] 0x503 [(1, 1, 9)] with
    lehr := (lehrOf true false (if aboard then [{ rider0 with facet := 9, state := .aboard }] else [])).lehr }
/-- A quiesce at once and the end of a limit, each with work that stops and with a rider that leaves first; a freeze that ends, and one with no
pages for its store. -/
theorem test_meets_QuiesceSaveRestore_forced :
    (∀ aboard ∈ [true, false],
      let d := quitting .running aboard
      let e := (d.mbxJournaled 0 0x503 9).updFacet 9 fun x => { x with state := .quiescing, freezing := false, limitMs := 0, endedCount := 0, quiescer := some 0 }
      leAt (d.mbxRequest 0) 2 1 = 0 ∧ leAt (d.mbxRequest 0) 4 2 = 0 ∧ (e.endWork 9 0x516 true).workStopped 9 = !aboard) ∧
    (∀ aboard ∈ [true, false],
      let d := quitting .quiescing aboard
      (d.facet 9).freezing = false ∧
        ((d.endWork 9 0x516 true).updFacet 9 fun v => { v with endedCount := (d.facet 9).unfinished }).workStopped 9 = !aboard) ∧
    (let d := owned.updFacet 9 fun _ => { other with state := .quiescing, freezing := true }
     (d.facet 9).freezing = true ∧ d.workStopped 9 = true) ∧
    (let d := askIn owned Facet.manager [(9, { other with quota := { Quota.zero with hbmPages := 4000000 } })] 0x503 [(1, 1, 9), (2, 1, 1)]
     let d : Dev := { d with launches := [{ launch0 false with facet := 9 }], blocks := [{ block0 false beam0 with facet := 9 }] }
     d.hbmFree 0 < pagesOf (d.storeBytes 9)) := by decide

/-! ## Power -/

/-- Every die at half of its fastest rate on a rail of 650 mV. -/
def powered : Dev :=
  Dev.forEach (List.range 12) (fun d n => d.updRail n fun r => { r with acked := 650 }) ready
theorem test_meets_PowerBudget :
    (∀ n ∈ [800, 2800, 799, 2801], leAt ((ask 0x400 [(2, 2, n)]).mbxRequest 0) 2 2 % 4096 = n) ∧
    (∀ n ∈ [10, 135, 136, 150, 9, 151], (leAt ((ask 0x401 [(1, 1, 1), (2, 1, n)]).mbxRequest 0) 1 1).testBit 0 = true ∧
      leAt ((ask 0x401 [(1, 1, 1), (2, 1, n)]).mbxRequest 0) 2 1 = n) ∧
    (let d : Dev := { askIn ready Facet.manager [] 0x403 [(2, 2, 447)] with groups := [{ group2 with num := 447 }] }
     d.group? 447 = some { group2 with num := 447 } ∧ leAt (d.mbxRequest 0) 2 2 % 512 = 447) ∧
    (ready.diesUp = true ∧ ready.security.trace = none) := by decide

theorem test_meets_RailsAndLimits :
    (ready.diesUp = true ∧ (ready.rail 15).fault = false) ∧
    (let d := powered.updDie 2 fun k => { k with droop := [16] }
     (d.rail 2).outstanding = none ∧ (d.rail 2).acked ≠ 700 ∧ (d.die 2).droop ≠ [] ∧ (powered.die 2).droop = [] ∧ NSet.has (d.die (16 / 8)).droop 16 = true) ∧
    (let d := powered.updRail 15 fun r => { r with outstanding := some 700 }
     d.lastOfTransition 15 = false ∧ (d.rail 15).outstanding = some 700 ∧ (d.rail 15).resent = false) ∧
    (powered.dieRuns 11 = true ∧ powered.power.overcurrent = false ∧ 2 ≤ powered.boot.step) ∧
    (let d := powered.updDie 3 fun k => { k with thermal := 2, temp := 100 }
     (d.die 3).thermal = 2 ∧ 100 ≤ (d.die 3).temp) := by decide

/-- Die 0 with every core of it gated. -/
def gatedDie : Dev := { ready with cores := (dieCores 0).map fun c => (c, { Core.reset with gated := true }) }
/-- Every die DARK. -/
def darkDies : Dev := Dev.forEach (List.range 12) (fun d n => d.updDie n fun k => { k with state := .dark }) ready
theorem test_meets_PowerStates :
    (let d := (ready.updDie 3 fun k => { k with state := .dim }).updPower fun p => { p with actDimEn := true }
     (d.die 3).state = .dim ∧ d.power.actDimEn = true ∧ d.power.fixed = false ∧ (d.rail 3).fault = false ∧ d.security.debug ≠ 3 ∧ (d.die 4).state = .on) ∧
    (ready.mayGate 767 = true ∧ ready.mayGate 1215 = true ∧ NSet.has [5] 5 = true) ∧
    (coreValid 63 = true ∧ (gatedDie.core 63).gated = true ∧ gatedDie.dieRuns (coreDie 63) = true) ∧
    (gatedDie.dieRuns 0 = true ∧ (∀ c ∈ dieCores 0, (gatedDie.core c).gated = true) ∧ gatedDie.isLehrDie (dieBase 0) = false ∧ gatedDie.debugKeeps 0 = false ∧
      gatedDie.dieResets 0 = false) ∧
    (let d := (gatedDie.updDie 0 fun k => { k with state := .transition, entering := true }).updRail 0 fun r => { r with outstanding := some 0 }
     (d.die 0).state = .transition ∧ (d.die 0).entering = true ∧ (d.rail 0).outstanding = some 0 ∧ d.dieRuns (coreDie 63) = false) ∧
    (let d := (ready.updDie 11 fun k => { k with state := .transition }).updRail 11 fun r => { r with outstanding := some 650 }
     (d.die 11).entering = false ∧ (d.rail 11).outstanding = some 650) ∧
    ((darkDies.die 11).state = .dark ∧ (darkDies.updPower fun p => { p with actPkgDarkEn := true }).mayPackageDark = true ∧ ready.mayPackageDark = false) ∧
    (let d := gatedDie.updDie 0 fun k => { k with state := .dark }
     (d.core 63).gated = true ∧ d.dieRuns (coreDie 63) = false ∧ (d.die (coreDie 63)).state = .dark ∧ (d.die 1).state ≠ .dark) ∧
    (darkDies.updPower fun p => { p with pkg := 2 }).power.pkg = 2 ∧
    (let d := Dev.forEach [12, 13, 14, 15] (fun d n => d.updRail n fun r => { r with acked := 750 }) (darkDies.updPower fun p => { p with pkg := 3 })
     d.power.pkg = 3 ∧ ∀ n ∈ [12, 13, 14, 15], (d.rail n).acked = 750) := by decide

theorem test_meets_PowerStates_dim :
    occupancy 10 100 < 25 / 100 ∧ 25 / 100 ≤ occupancy 25 100 ∧ 90 / 100 < occupancy 91 100 := by
  norm_num [occupancy]

/-! ## Errors, the module -/

theorem test_meets_ErrorsAndModule :
    (ready.errors.corrected ≤ ready.errors.actCeThresh.toNat ∧
      let d := ready.updErrors fun e => { e with corrected := 65536 }
      d.errors.actCeThresh.toNat < d.errors.corrected) ∧
    (let d := serve model0 [] [slot0 true true] ready
     d.model? 0 = some model0 ∧ d.slotOf 0 = some (slot0 true true) ∧ NSet.has (slot0 true true).cores 0 = true ∧ model0.damaged = false) ∧
    (let w : WarmCopy := ⟨0, 128, [20]⟩
     let m := { model0 with damaged := true }
     let d := (serve m [] [] ready).updServing fun v => { v with warms := [w] }
     d.model? 0 = some m ∧ d.warmOf m.digest = some w ∧ (w.lines[(800 - 768) % (max 1 w.lines.length)]?).isSome = true ∧
       (d.weights m).1.isSome = true ∧ ((serve m [] [] ready).weights m).1.isNone = true) ∧
    (coreValid 1215 = true ∧ 4 ≤ ready.boot.step ∧ ready.boot.recovery = false ∧ (ready.sensor 1).isSome = true) := by decide

/-! ## Security, debug, the journal -/

def twoMiB : Facet := { Facet.manager with pages := [⟨1, 7, 0, false⟩, ⟨2, 9, 0, false⟩] }
/-- A request of the manager whose pages hold 2 MiB at 2 MiB, in a block with a lifecycle and a debug level. -/
def askSec (lifecycle debug : BitVec 2) (code : Nat) (fields : List (Nat × Nat × Nat)) : Dev :=
  askIn { ready with security := { ready.security with lifecycle := lifecycle, debug := debug } } twoMiB [] code fields
theorem test_served_security :
    (∀ l ∈ [1, 2, 3], ∀ c ∈ [0x0805, 0x0806, 0x0808], Served (askSec l 0 c []) 0 c) ∧
      ∀ c ∈ [0x0809, 0x080B, 0x0811, 0x0812, 0x0813], Served (askSec 3 3 c []) 0 c ∧ Served (askSec 2 2 c []) 0 c := by
  unfold Served; decide
theorem test_meets_SecurityCommands :
    ((askSec 1 0 0x800 [(16, 8, 5), (48, 8, 2097152)]).writable 0 2097152 50368 = true ∧ ready.doeOpen 0 = true ∧ ready.security.signings = []) ∧
    (let d := askSec 1 0 0x802 [(8, 8, 2097152), (16, 8, 128)]
     leAt (d.mbxRequest 0) 16 8 = 128 ∧ (d.gread 0 2097152 128).1.ok = true ∧ imageSigned (d.gread 0 2097152 128).1.bytes = false) ∧
    (ready.bankOf 0).usable = true ∧ leAt ((askSec 1 0 0x810 [(1, 1, 8), (2, 1, 3)]).mbxRequest 0) 1 1 % 16 ≤ 8 ∧
    (let d := { ready with security := { ready.security with signings := [.report 0 true 7 0, .checkpoint none 7 0] } }
     d.security.signings = .report 0 true 7 0 :: [.checkpoint none 7 0] ∧ d.host.linkUp = true) := by decide

/-- A debugged launch of facet 0's command. -/
def debugged (fields : List (Nat × Nat × Nat)) : Dev :=
  askIn { kernel false beam0 with security := { ready.security with lifecycle := 2, debug := 2 } } { twoMiB with cmds := [running 1] } [] 0x80B fields
def journaled : Security :=
  let e : AuditEntry := ⟨1, 0, false, 0x701, 0, 2, 5, 6, 0⟩
  { ready.security with seq := 2, journal := [e, { e with seq := 1 }] }
theorem test_meets_DebugAndAudit :
    (levelPermitted 2 2 = true ∧ levelPermitted 0 3 = false ∧ levelPermitted 3 3 = true ∧ ready.lehr.running = false ∧ ∀ g ∈ ready.facetsThere, g = 0) ∧
    (let d := debugged [(1, 1, 3), (4, 2, 3), (16, 8, 2097152)]
     d.security.debug = 2 ∧ d.namedLaunch d.security.haltFacet 3 0 = some (launch0 false) ∧ d.block? 0 0 = some (block0 false beam0) ∧
       (block0 false beam0).beams[0]? = some beam0) ∧
    (let d := askSec 3 3 0x811 [(1, 1, 15), (8, 8, 2097152)]
     d.security.debug = 3 ∧ d.boot.dieReset = none ∧ leAt (d.mbxRequest 0) 1 1 % 16 = 15) ∧
    (askSec 1 0 0x80F [(48, 8, 2097152)]).writable 0 2097152 49984 = true := by decide
theorem test_meets_DebugAndAudit_trace :
    ((askSec 1 0 0x80C [(8, 8, 2097152), (16, 1, 10)]).writable 0 2097152 (32 * 2 ^ 10) = true ∧
      (askSec 1 0 0x80C [(8, 8, 2097152), (16, 1, 6)]).writable 0 2097152 (32 * 2 ^ 6) = true) := by decide
theorem test_meets_DebugAndAudit_journal :
    (journaled.entries 1 1).isSome = true ∧ (journaled.entries 9 1).isNone = true := by decide

/-! ## Reset and boot -/

def booting (step : Nat) : Dev := { ready with boot := { ready.boot with step := step } }
/-- Die 0 is being reset, at a step. -/
def resetting (step : Nat) : Dev := { kernel false beam0 with boot := { ready.boot with dieReset := some ⟨0, step, 0, [], none⟩ } }
theorem test_meets_ResetAndBoot :
    ((Dev.reset.powerLost.updBoot fun b => { b with inputGood := false }).boot.inputGood = false ∧ ready.boot.inputGood = true) ∧
    (ready.host.perst = false ∧ ready.power.perstWarm = false ∧ (ready.updBoot fun b => { b with warmDue := some 2 }).boot.warmDue = some 2) ∧
    ((booting 3).bankBoots (booting 3).boot.triedFirst = true ∧ (booting 8).host.linkUp = true) ∧
    (∀ f ∈ ready.facetsThere, f = 0) ∧ (9 ∈ (askOf 0x700 .running []).facetsThere) ∧ (ready.boot.dieReset = none) ∧
    ((resetting 2).boot.dieReset = some ⟨0, 2, 0, [], none⟩) ∧
    (let d := (resetting 3).holdSlices 0 true
     let e : Dev := { d with slices := d.slices.map fun x => (x.1, { x.2 with missMode := true }) }
     e.boot.dieReset = some ⟨0, 3, 0, [], none⟩ ∧ e.slicesIn 0 true = true) ∧
    (let d := (resetting 6).updRail 0 fun r => { r with outstanding := some 650 }
     (d.rail 0).fault = false ∧ (d.rail 0).outstanding = some 650) ∧
    (ready.dieRuns 11 = true ∧ ready.dieResets 11 = false ∧ ready.gafferServes = true ∧ (resetting 3).boot.dieReset.isSome = true ∧ (resetting 3).dieResets 11 = false) := by decide

/-! ## The whole block -/

theorem test_meets_MailboxChecks :
    (let d := ask 0x3 []
     d.boot.dieReset = none ∧ (d.facet 0).mailbox.go = true ∧ (d.facet 0).mailbox.accepted = false ∧ (d.facet 0).mailbox.command = 3 ∧ d.gafferUp = true ∧
       d.errors.fatal = false ∧ d.mbxNext 0 = true ∧ d.mbxCheck 0 = none) ∧
    (let waiting := { other with hello := true, mailbox := { Mailbox.reset with go := true } }
     let d := { askIn owned Facet.manager [(9, waiting)] 0x3 [] with mbxTurn := 0 }
     (d.facet 0).mailbox.go = true ∧ d.mbxNext 0 = false ∧ d.mbxNext 9 = true) ∧
    (let d := askIn { ready with security := { ready.security with seq := 20000000 } } Facet.manager [] 0x3 []
     (d.facet 0).mailbox.go = true ∧ d.mbxCheck 0 = none ∧ d.security.nearFull = true ∧ readOnlyCommand 0x3 = false ∧ auditExempt 0x3 = false) ∧
    (let d := askIn ready { Facet.manager with state := .quiescing } [] 0x500 []
     d.boot.recovery = false ∧ ((Dev.facet d 0).state.quiet = true ∨ d.mbxCheck 0 = none)) ∧
    (ready.security.unacked + 1 < auditNearLimit ∧ requestLengths 0x500 ≠ [] ∧ managerOnly 0x500 = true ∧ requestLengths 0x999 = []) ∧
    (ready.updFacet 0 fun x => { x with hello := true, mailbox := { Mailbox.reset with go := true, buf := Mem.write [] 0 [1, 0, 0x99, 9] } }).mbxCheck 0
      = some 0x1 := by decide

theorem test_meets_RegisterContents :
    Tab.get 0 ready.errors.scores 767 < 2048 ∧ Tab.get 0 ready.errors.scores 1215 < 2048 ∧ ready.security.nearFull = false ∧
      (3 : BitVec 32).extractLsb' 0 2 = 3 := by decide

theorem test_meets_DecodeOfEncode :
    (Instr.add b0 { zeroFields with dst := 0xC1, a := 0xC2, b := 0xC3 }).wellFormed = true ∧
      encodeIssue (.add b0 { zeroFields with dst := 0xC1, a := 0xC2, b := 0xC3 }) = some (b0, 0x000C1C2C30000000) := by decide

end Sys2Proof.Tests
end

section
/-! The contents of the identity, score, MEM_CFG_ERR and SEC_CTRL registers: what a word of the cache and memory block reads, when a write
is journaled and when it reaches its block unjournaled, and the statement about these registers. -/

namespace Sys2Proof.Machine

variable (d : Dev) (fn : Nat) {off : Nat} (v : BitVec 32)

theorem boolNat_and_not (a b : Bool) : boolNat (a && !b) = if b then 0 else boolNat a := by
  cases b <;> simp [boolNat]

/-! ## Reads -/

theorem Dev.word_of_cacheBlock (h : 0x200000 ≤ off ∧ off < 0x208000) : d.word fn off = d.readCache off := by
  simp (disch := omega) only [Dev.word, if_neg, if_pos h]

/-- ID_TOPO packs the numbers of the organisation (R24). -/
theorem Dev.word_idTopo : d.word fn 0x20 = pack [(0, 4), (4, 12), (10, 8), (14, 8), (18, 2), (21, 12)] := rfl

/-- MEM_ERR_M_SCORE_n (R443). -/
theorem Dev.word_matrixScore {n : Nat} (h : n < 768) : d.word fn (0x207000 + 4 * n) = Tab.get 0 d.errors.scores n := by
  rw [d.word_of_cacheBlock fn (by omega)]
  simp (disch := omega) only [Dev.readCache, if_neg, if_pos]
  congr
  omega

/-- MEM_ERR_V_SCORE_n (R443). -/
theorem Dev.word_vectorScore {n : Nat} (h : n < 192) : d.word fn (0x207C00 + 4 * n) = Tab.get 0 d.errors.scores (1024 + n) := by
  rw [d.word_of_cacheBlock fn (by omega)]
  simp (disch := omega) only [Dev.readCache, if_neg, if_pos]
  congr
  omega

theorem Dev.word_wbatch : d.word fn 0x205000 = d.wbatch.toNat := rfl
theorem Dev.word_memCfgErr : d.word fn 0x205008 = boolNat d.memCfgErr := rfl
theorem Dev.word_secCtrl : d.word fn 0x500008 = boolNat d.security.requireIde := rfl

/-! ## When a write is journaled -/

theorem Dev.writeWord_of_mask_zero (h : journalMask off = 0) : d.writeWord fn off v = d.writeBar0 fn off v := if_pos h

/-- A write that leaves its register's value makes no entry, whatever fields the journal follows (R458). -/
theorem Dev.writeWord_of_word_eq {d : Dev} {fn : Nat} {v : BitVec 32} (h : (d.writeBar0 fn off v).word fn off = d.word fn off) :
    d.writeWord fn off v = d.writeBar0 fn off v := by
  simp [Dev.writeWord, Dev.journaled, h]

/-- Below the journal's limit a write takes effect, on the block as it was or with the entry appended. -/
theorem Dev.writeWord_cases_of_not_nearFull {d : Dev} (h : d.security.nearFull = false) :
    d.writeWord fn off v = d.writeBar0 fn off v ∨ ∃ value, d.writeWord fn off v = (d.auditWrite fn off value).writeBar0 fn off v := by
  simp only [Dev.writeWord, Dev.journaled, h]
  split
  · exact .inl rfl
  · split
    · exact .inl rfl
    · exact .inr ⟨_, rfl⟩

theorem journalMask_of_score (h : 0x207000 ≤ off) (h' : off < 0x207F00) : journalMask off = 0 := by
  simp (disch := omega) only [journalMask, if_neg]

/-! ## Writes of each register -/

theorem Dev.writeWord_idTopo : d.writeWord fn 0x20 v = d := rfl

/-- The score registers are read-only (R443). -/
theorem Dev.writeWord_score (h : 0x207000 ≤ off) (h' : off < 0x207F00) : d.writeWord 0 off v = d := by
  rw [d.writeWord_of_mask_zero 0 v (journalMask_of_score h h')]
  simp (disch := omega) only [Dev.writeBar0, Dev.writeCache, if_neg, if_pos]

theorem Dev.writeBar0_wbatch_three {v : BitVec 32} (h : v.extractLsb' 0 2 = 3) :
    d.writeBar0 0 0x205000 v = { d with memCfgErr := true } := if_pos h

/-- WBATCH drops the undefined value 3 and flags it: the register keeps its value, so the journal takes no entry (R210, R211). -/
theorem Dev.writeWord_wbatch_three {v : BitVec 32} (h : v.extractLsb' 0 2 = 3) :
    d.writeWord 0 0x205000 v = { d with memCfgErr := true } := by
  have hw := d.writeBar0_wbatch_three h
  rw [Dev.writeWord_of_word_eq (by rw [hw, Dev.word_wbatch, Dev.word_wbatch]), hw]

/-- A one clears MEM_CFG_ERR (R211). -/
theorem Dev.writeWord_memCfgErr : d.writeWord 0 0x205008 v = { d with memCfgErr := d.memCfgErr && !v.getLsbD 0 } := rfl

theorem Dev.writeBar0_secCtrl_requireIde : (d.writeBar0 0 0x500008 v).security.requireIde = v.getLsbD 0 := rfl

theorem Dev.writeBar0_secCtrl_of_ne {fn : Nat} (h : fn ≠ 0) : d.writeBar0 fn 0x500008 v = d := by simp [Dev.writeBar0, h]

/-- The manager's write of SEC_CTRL sets REQUIRE_IDE, whether or not it changes and so is journaled (R458, R474). -/
theorem Dev.writeWord_secCtrl_requireIde {d : Dev} (h : d.security.nearFull = false) :
    (d.writeWord 0 0x500008 v).security.requireIde = v.getLsbD 0 := by
  obtain hw | ⟨value, hw⟩ := Dev.writeWord_cases_of_not_nearFull 0 (off := 0x500008) v h <;> rw [hw, Dev.writeBar0_secCtrl_requireIde]

/-- A write of SEC_CTRL by any other function is ignored (R457, R474). -/
theorem Dev.writeWord_secCtrl_of_ne {fn : Nat} (h : fn ≠ 0) : d.writeWord fn 0x500008 v = d := by
  have hw := d.writeBar0_secCtrl_of_ne v h
  rw [Dev.writeWord_of_word_eq (by rw [hw]), hw]

/-- Settles O59, register by register: what it reads, what a write does, and its value at reset. -/
theorem registerContents : Obligations.RegisterContents := by
  refine ⟨fun d fn v => ⟨d.word_idTopo fn, d.writeWord_idTopo fn v⟩, fun d n _ => ⟨fun hn => ?_, fun hn => ?_⟩, fun d v => ?_,
    fun d v hfull => ?_⟩
  · exact ⟨d.word_matrixScore 0 hn, Dev.word_matrixScore _ 0 hn, fun v => d.writeWord_score v (by omega) (by omega)⟩
  · exact ⟨d.word_vectorScore 0 hn, Dev.word_vectorScore _ 0 hn, fun v => d.writeWord_score v (by omega) (by omega)⟩
  · refine ⟨d.word_memCfgErr 0, Dev.word_memCfgErr _ 0, fun hv => ?_, ?_⟩
    · rw [d.writeWord_wbatch_three hv]
      exact ⟨rfl, rfl⟩
    · rw [d.writeWord_memCfgErr]
      exact boolNat_and_not _ _
  · exact ⟨d.word_secCtrl 0, Dev.word_secCtrl _ 0, Dev.writeWord_secCtrl_requireIde v hfull, fun fn hfn => by rw [d.writeWord_secCtrl_of_ne v hfn]⟩

end Sys2Proof.Machine
end

section
/-! The issue of a kernel instruction by what its body answers, and the trap that is taken of several failed checks (R48, R71, R73). -/

namespace Sys2Proof

/-- `leastBy` finds an element of least key in every list that is not empty. -/
theorem leastBy_eq_some {α : Type} (key : α → Nat) {l : List α} (h : l ≠ []) :
    ∃ x ∈ l, leastBy key l = some x ∧ ∀ y ∈ l, key x ≤ key y := by
  induction l with
  | nil => exact absurd rfl h
  | cons x xs ih =>
    by_cases hxs : xs = []
    · subst hxs
      exact ⟨x, by simp, rfl, by simp⟩
    · obtain ⟨y, hy, hleast, hle⟩ := ih hxs
      by_cases hxy : key x ≤ key y
      · exact ⟨x, by simp, by simp [leastBy, hleast, hxy], by simpa using fun z hz => hxy.trans (hle z hz)⟩
      · exact ⟨y, by simp [hy], by simp [leastBy, hleast, hxy], by simpa using ⟨Nat.le_of_not_le hxy, hle⟩⟩

end Sys2Proof

namespace Sys2Proof.Machine

variable {d : Dev} {b : BeamRef} {c : Ctx}

theorem checked_of_lowest {l : List Trap} {k : Issue} {t : Trap} (h : lowestTrap l = some t) : checked l k = .trap t := by
  simp [checked, h]

/-- Where some check fails, one of lowest cause is the instruction's trap (R73). -/
theorem checked_traps_lowest {l : List Trap} (k : Issue) (h : l ≠ []) :
    ∃ t ∈ l, (∀ u ∈ l, t.cause.code ≤ u.cause.code) ∧ checked l k = .trap t := by
  obtain ⟨t, ht, hleast, hle⟩ := leastBy_eq_some (fun t : Trap => t.cause.code) h
  exact ⟨t, ht, hle, checked_of_lowest hleast⟩

theorem Dev.issue_of_hold (h : Issues d b c) {rows : Ctx → List Nat} {body : Dev → Ctx → Issue}
    (hb : body (d.noteIssue c) (c.noted d) = .hold) : d.issue b rows body = d := by
  rw [Dev.issue_of_issues h, hb]

theorem Dev.issue_of_done (h : Issues d b c) {rows : Ctx → List Nat} {body : Dev → Ctx → Issue} {e : Dev}
    (hb : body (d.noteIssue c) (c.noted d) = .done e) : d.issue b rows body = e := by
  rw [Dev.issue_of_issues h, hb]

theorem Dev.issue_of_trap (h : Issues d b c) {rows : Ctx → List Nat} {body : Dev → Ctx → Issue} {t : Trap}
    (hb : body (d.noteIssue c) (c.noted d) = .trap t) :
    d.issue b rows body = ((d.noteIssue c).park c t).updBeam b fun m => { m with debugStep := false } := by
  rw [Dev.issue_of_issues h, hb]
  simp only [Dev.park_noted]

/-! ## What the count of an issue leaves of a context's operands -/

@[simp] theorem Ctx.noted_memRays (f : KFields) : (c.noted d).memRays f = c.memRays f := by simp [Ctx.memRays]
@[simp] theorem Ctx.noted_rayRegs : (c.noted d).rayRegs = c.rayRegs := by simp [Ctx.rayRegs]
@[simp] theorem Ctx.noted_localAddr (f : KFields) (r : Nat) : (c.noted d).localAddr f r = c.localAddr f r := by
  simp [Ctx.localAddr, Ctx.rVal]
@[simp] theorem Ctx.noted_rPoison (spec : Nat) : (c.noted d).rPoison spec = c.rPoison spec := by simp [Ctx.rPoison]
@[simp] theorem Ctx.noted_mskTraps (m : BitVec 4) : (c.noted d).mskTraps m = c.mskTraps m := by simp [Ctx.mskTraps]
@[simp] theorem Ctx.noted_rSrcTraps (spec : Nat) : (c.noted d).rSrcTraps spec = c.rSrcTraps spec := by simp [Ctx.rSrcTraps]
@[simp] theorem Ctx.noted_dataDstTraps (spec n : Nat) : (c.noted d).dataDstTraps spec n = c.dataDstTraps spec n := by
  simp [Ctx.dataDstTraps, Ctx.rDstTraps, Ctx.groupTraps]
@[simp] theorem Ctx.noted_localTarget (a n : Nat) : (c.noted d).localTarget a n = c.localTarget a n := by simp [Ctx.localTarget]
@[simp] theorem Ctx.noted_localTraps (a n : Nat) : (c.noted d).localTraps a n = c.localTraps a n := by simp [Ctx.localTraps]
@[simp] theorem Dev.localBusy_noted (e : Dev) (a n : Nat) (stores : Bool) :
    e.localBusy (c.noted d) a n stores = e.localBusy c a n stores := by simp [Dev.localBusy]
@[simp] theorem Dev.globalTraps_noted (e : Dev) (kind : AccessKind) (a n : Nat) :
    e.globalTraps (c.noted d) kind a n = e.globalTraps c kind a n := by simp only [Dev.globalTraps, Ctx.noted_launch]
@[simp] theorem Dev.copyTraps_noted (e : Dev) (store : Bool) (va len : Nat) :
    e.copyTraps (c.noted d) store va len = e.copyTraps c store va len := by
  simp only [Dev.copyTraps, Ctx.noted_launch, Dev.globalTraps_noted]
@[simp] theorem Dev.next_noted (e : Dev) : e.next (c.noted d) = e.next c := by simp [Dev.next]

/-! ## Operands that pass their checks -/

theorem Ctx.mskTraps_of_maskField {m : BitVec 4} (h : MaskField m) : c.mskTraps m = [] := by
  have hm : m ≠ 8 := fun e => h (by rw [e]; rfl)
  simp only [Ctx.mskTraps, Ctx.mask?, hm, if_false]
  split_ifs <;> rfl

theorem widthTraps_of_memWidth {f : KFields} {n : Nat} (h : memWidth f = some n) : widthTraps f = [] := by
  simp [widthTraps, h, trapIf]

theorem memBytes_of_memWidth {f : KFields} {n : Nat} (h : memWidth f = some n) : memBytes f = n := by simp [memBytes, h]

theorem Ctx.rSrcTraps_of_raySource {spec : BitVec 8} (h : RaySource c spec) : c.rSrcTraps spec.toNat = [] := by
  obtain ⟨hdef, hreg⟩ := h
  simpa [Ctx.rSrcTraps, trapIf, hdef] using hreg

theorem Ctx.groupTraps_of_rayGroup {spec : BitVec 8} {n : Nat} (h : RayGroup c spec n) : c.groupTraps spec.toNat n = [] := by
  obtain ⟨hray, hfit⟩ := h
  simp [Ctx.groupTraps, trapIf, hray, hfit]

theorem Ctx.rDstTraps_of_rayDest {spec : BitVec 8} (h : RayDest c spec) : c.rDstTraps spec.toNat = [] := by
  obtain hzero | ⟨hray, hfit⟩ := h
  · simp [Ctx.rDstTraps, trapIf, hzero]
  · simp [Ctx.rDstTraps, trapIf, show ¬ 0xF1 ≤ spec.toNat by omega, show ¬ 0xC0 ≤ spec.toNat by omega,
      show ¬ c.rayRegs ≤ spec.toNat by omega]

theorem Ctx.dataDstTraps_of_rayData {spec : BitVec 8} {n : Nat} (h : RayData c true spec n) : c.dataDstTraps spec.toNat n = [] := by
  unfold RayData at h
  unfold Ctx.dataDstTraps
  split
  · exact Ctx.rDstTraps_of_rayDest (by simpa [*] using h)
  · exact Ctx.groupTraps_of_rayGroup (by simpa [*] using h)

theorem addrPoison_of_cleanAddress {f : KFields} {p : Bool} (h : CleanAddress c f p) (spec : Nat) :
    addrPoison p (c.memRays f) spec = [] := by
  cases p with
  | false => rfl
  | true => simp [addrPoison, trapIf, h rfl]

theorem alignTraps_of_mod {a n : Nat} (h : a % n = 0) : alignTraps a n = [] := by simp [alignTraps, trapIf, h]

theorem sSrcBad_of_scalarSource {spec : BitVec 8} (h : ScalarSource spec) : sSrcBad spec.toNat = false := by
  obtain ⟨hlo, hhi⟩ := h
  simp [sSrcBad, hlo, hhi]

end Sys2Proof.Machine
end

section
/-! The checks of a memory access (R59, R67, R71): which trap a local access raises, what a translation lets a global one do, and the statement
about them. -/

namespace Sys2Proof.Machine

variable {d : Dev} {b : BeamRef} {c : Ctx} {f : KFields} {a n : Nat}

/-! ## Local accesses -/

/-- A misaligned access traps as such, in and out of the scratchpad. -/
theorem Ctx.lowest_localTraps_misaligned (h : a % n ≠ 0) : lowestTrap (c.localTraps a n) = some (mkTrap .misaligned a) := by
  unfold Ctx.localTraps
  cases (c.localTarget a n).isNone <;> simp [h, trapIf, lowestTrap, leastBy, mkTrap, Cause.code]

theorem Ctx.lowest_localTraps_range (h : a % n = 0) (ht : c.localTarget a n = none) :
    lowestTrap (c.localTraps a n) = some (mkTrap .scratchRange a) := by
  simp [Ctx.localTraps, h, ht, trapIf, lowestTrap, leastBy]

/-- LDL of one ray with sound operands parks its beam with the trap of the ray's access. -/
theorem execLdl_of_localTrap {s : State} {r : Nat} {t : Trap} (h : Issues s.dev b c) (hm : MaskField f.msk) (hn : memWidth f = some n)
    (ha : RaySource c f.a) (hclean : CleanAddress c f (c.rPoison f.a.toNat)) (hdst : RayData c true f.dst n) (hr : c.memRays f = [r])
    (ht : lowestTrap (c.localTraps (c.localAddr f r).toNat n) = some t) :
    exec (.ldl b f) s = .next (s.to (((s.dev.noteIssue c).park c t).updBeam b fun m => { m with debugStep := false })) := by
  have hp := addrPoison_of_cleanAddress hclean f.a.toNat
  rw [hr] at hp
  refine congrArg (fun e => Host.Outcome.next (s.to e)) (Dev.issue_of_trap h (checked_of_lowest ?_))
  simpa [hr, hp, memBytes_of_memWidth hn, Ctx.mskTraps_of_maskField hm, widthTraps_of_memWidth hn, Ctx.rSrcTraps_of_raySource ha,
    Ctx.dataDstTraps_of_rayData hdst] using ht

/-! ## Global accesses -/

theorem Dev.globalTraps_unmapped (h : d.translate c.launch.facet a = .unmapped) (kind : AccessKind) :
    d.globalTraps c kind a n = [mkTrap .pageFault a] := by simp [Dev.globalTraps, h]

theorem Dev.globalTraps_beyond (h : d.translate c.launch.facet a = .beyond) (kind : AccessKind) :
    d.globalTraps c kind a n = [mkTrap .protection a] := by simp [Dev.globalTraps, h]

theorem Dev.globalTraps_window {g off : Nat} (h : d.translate c.launch.facet a = .window g off) (kind : AccessKind) :
    d.globalTraps c kind a n = [mkTrap .protection a] := by simp [Dev.globalTraps, h]

theorem Dev.globalTraps_readOnly {pa cls : Nat} (h : d.translate c.launch.facet a = .device pa cls true) :
    d.globalTraps c .read a n = [] ∧ d.globalTraps c .write a n = [mkTrap .protection a] ∧
      d.globalTraps c .atomic a n = [mkTrap .protection a] := by simp [Dev.globalTraps, h]

theorem Dev.globalTraps_writable {pa cls : Nat} (h : d.translate c.launch.facet a = .device pa cls false) (kind : AccessKind) :
    d.globalTraps c kind a n = [] := by cases kind <;> simp [Dev.globalTraps, h]

/-- No atomic reaches the bus (R230). -/
theorem Dev.globalTraps_bus_atomic {bus : Nat} {region : Option Nat} {ro closed : Bool}
    (h : d.translate c.launch.facet a = .bus bus region ro closed) : d.globalTraps c .atomic a n = [mkTrap .protection a] := by
  simp [Dev.globalTraps, h]

/-- Settles O12: LDL by the trap of its one access, global accesses by their translation, and several failed checks by the least cause. -/
theorem accessesTrap : Obligations.AccessesTrap := by
  refine ⟨?_, ?_, ?_⟩
  · intro s b f c n r h hm hn d addr ha hclean hdst hr
    have park {t : Trap} := execLdl_of_localTrap (t := t) h hm hn ha hclean hdst hr
    exact ⟨fun hmis => park (Ctx.lowest_localTraps_misaligned hmis), fun hal hout => park (Ctx.lowest_localTraps_range hal hout)⟩
  · intro d c a n
    exact ⟨Dev.globalTraps_unmapped, Dev.globalTraps_beyond, fun _ _ => Dev.globalTraps_window, fun _ _ => Dev.globalTraps_readOnly,
      fun _ _ kind h => Dev.globalTraps_writable h kind, fun _ _ _ _ => Dev.globalTraps_bus_atomic⟩
  · intro d b c l k h hl
    obtain ⟨t, ht, hle, hk⟩ := checked_traps_lowest k hl
    exact ⟨t, ht, hle, Dev.issue_of_trap h hk⟩

end Sys2Proof.Machine
end

section
/-! The asynchronous copies (R56, R58): what CPA and CPS answer at their issue, what a completion moves, and the statement about them. -/

namespace Sys2Proof.Machine

variable {d : Dev} {b : BeamRef} {c : Ctx} {f : KFields} {toScratch : Bool}

/-! ## The start of a copy -/

theorem exec_cpa (s : State) : exec (.cpa b f) s = .next (s.to (s.dev.startCopy b f true)) := rfl
theorem exec_cps (s : State) : exec (.cps b f) s = .next (s.to (s.dev.startCopy b f false)) := rfl

/-- With sixteen copies outstanding nothing issues. -/
theorem Dev.startCopy_of_full (h : Issues d b c) (hfull : 16 ≤ c.beam.copies.length) : d.startCopy b f toScratch = d :=
  Dev.issue_of_hold h (by simp [hfull])

/-- The three operands of a copy are scalar sources, its addresses are those of lines, and a place is free (R56, R58). -/
def CopyOperands (c : Ctx) (f : KFields) : Prop :=
  ScalarSource f.dst ∧ ScalarSource f.a ∧ ScalarSource f.b ∧ c.beam.copies.length < 16 ∧ (c.sVal f.dst.toNat).toNat % 128 = 0 ∧
    (c.sVal f.a.toNat).toNat % 128 = 0

/-- A length of 0 copies nothing, and no place is taken. -/
theorem Dev.startCopy_of_zero (h : Issues d b c) (hops : CopyOperands c f) (hlen : (c.sVal f.b.toNat).toNat = 0) :
    d.startCopy b f toScratch = (d.noteIssue c).next c := by
  obtain ⟨hdst, ha, hb, hroom, hloc, hglob⟩ := hops
  refine Dev.issue_of_done h ?_
  simp only [Ctx.noted_sVal, Ctx.noted_beam, Dev.next_noted, hlen]
  rw [if_neg (by omega), checked_ok, if_pos trivial]
  simp [sSrcBad_of_scalarSource hdst, sSrcBad_of_scalarSource ha, sSrcBad_of_scalarSource hb, alignTraps_of_mod hloc,
    alignTraps_of_mod hglob, trapIf, Dev.copyTraps]

/-- A copy that passes its checks and waits for no tile move takes the place behind the outstanding ones. -/
theorem Dev.startCopy_of_checks (h : Issues d b c) (hops : CopyOperands c f) {loc len : Nat} {glob : BitVec 64}
    (hl : (c.sVal f.dst.toNat).toNat = loc) (hg : c.sVal f.a.toNat = glob) (hn : (c.sVal f.b.toNat).toNat = len)
    (hlen : len ≠ 0) (hline : len % 128 = 0) (hmax : len ≤ 1048576) (ht : (c.localTarget loc len).isSome = true)
    (hcopy : (d.noteIssue c).copyTraps c (!toScratch) glob.toNat len = []) (hbusy : (d.noteIssue c).localBusy c loc len toScratch = false) :
    d.startCopy b f toScratch = ((d.noteIssue c).updBeam b fun m =>
      { m with copies := m.copies ++ [{ toScratch := toScratch, glob := glob, loc := loc, len := len }] }).next c := by
  obtain ⟨hdst, ha, hb, hroom, hloc, hglob⟩ := hops
  rw [hl] at hloc
  rw [hg] at hglob
  have hbad : (decide (len % 128 ≠ 0) || decide (1048576 < len)) = false := by simp [hline, hmax]
  refine Dev.issue_of_done h ?_
  simp only [Ctx.noted_sVal, Ctx.noted_beam, Ctx.noted_localTarget, Ctx.noted_ref, Dev.localBusy_noted, Dev.copyTraps_noted, Dev.next_noted,
    hl, hg, hn, hbad, hbusy, ctx?_ref h.1]
  rw [if_neg (by omega), checked_ok, if_neg hlen, if_neg (by simp)]
  simp [sSrcBad_of_scalarSource hdst, sSrcBad_of_scalarSource ha, sSrcBad_of_scalarSource hb, alignTraps_of_mod hloc,
    alignTraps_of_mod hglob, Option.isSome_iff_ne_none.mp ht, hcopy, trapIf]

/-! ## The completion of a copy -/

/-- A copy of which no 17th peer region holds a line moves whole, and its place is free. -/
theorem Dev.copyDone_of_moved (hc : d.ctx? b = some c) {n : Nat} {a : AsyncCopy} (ha : c.beam.copies[n]? = some a) (hf : c.beam.fenceWait = [])
    (hr : d.copyReady c a = true)
    (hheld : a.toScratch = true ∨ d.heldStores c ((List.range (a.len / 128)).map fun i => a.glob.toNat + 128 * i) = none) :
    d.copyDone b n = (Dev.forEach (List.range (a.len / 128)) (fun d i => d.copyLine c a i) d).updBeam b fun m =>
      { m with copies := m.copies.eraseIdx n } := by
  have hnone : (if a.toScratch = true then none
      else d.heldStores c ((List.range (a.len / 128)).map fun i => a.glob.toNat + 128 * i)) = none := by
    rcases hheld with h | h <;> simp [h]
  simp [Dev.copyDone, hc, ha, hf, hr, hnone]

/-- Where one holds line i, the lines before it move, the copy keeps its place with the rest, and the beam waits (R226). -/
theorem Dev.copyDone_of_held (hc : d.ctx? b = some c) {n i : Nat} {a : AsyncCopy} (ha : c.beam.copies[n]? = some a)
    (hf : c.beam.fenceWait = []) (hr : d.copyReady c a = true) (hs : a.toScratch = false)
    (hheld : d.heldStores c ((List.range (a.len / 128)).map fun i => a.glob.toNat + 128 * i) = some i) :
    d.copyDone b n = ((Dev.forEach ((List.range (a.len / 128)).take i) (fun d i => d.copyLine c a i) d).updBeam b fun m =>
      { m with copies := m.copies.set n (a.after i) }).confirmOldest c := by
  simp [Dev.copyDone, hc, ha, hf, hr, hs, hheld]

theorem execAsyncCopyComplete_of_ctx {s : State} (hc : s.dev.ctx? b = some c) (n : Nat) :
    exec (.asyncCopyComplete b n) s = .next (s.to (((s.dev.copyDone b n).charge s.dev).blockEnds c.launch b.block)) := by
  obtain ⟨hl, -, -⟩ := ctx?_parts hc
  change execAsyncCopyComplete b n s = _
  simp only [execAsyncCopyComplete, State.run, hl]
  rfl

/-- Settles O15: CPA and CPS by the cases of their issue, a completion by whether a 17th peer region holds one of its lines. -/
theorem asyncCopies : Obligations.AsyncCopies := by
  intro s b f c h
  refine ⟨fun hfull => ?_, fun hdst ha hb hroom hloc hglob => ⟨fun hlen => ?_, fun hlen hline hmax ht => ?_⟩, fun n a ha hf hr => ?_⟩
  · rw [exec_cpa, exec_cps, Dev.startCopy_of_full h hfull, Dev.startCopy_of_full h hfull]
    exact ⟨rfl, rfl⟩
  · have hops : CopyOperands c f := ⟨hdst, ha, hb, hroom, hloc, hglob⟩
    rw [exec_cpa, exec_cps, Dev.startCopy_of_zero h hops hlen, Dev.startCopy_of_zero h hops hlen]
    exact ⟨rfl, rfl⟩
  · have hops : CopyOperands c f := ⟨hdst, ha, hb, hroom, hloc, hglob⟩
    refine ⟨fun hcopy hbusy => ?_, fun hcopy hbusy => ?_⟩
    · rw [exec_cpa, Dev.startCopy_of_checks (toScratch := true) h hops rfl rfl rfl hlen hline hmax ht hcopy hbusy]
    · rw [exec_cps, Dev.startCopy_of_checks (toScratch := false) h hops rfl rfl rfl hlen hline hmax ht hcopy hbusy]
  · obtain ⟨hc, -, -, -⟩ := h
    rw [execAsyncCopyComplete_of_ctx hc]
    refine ⟨fun hheld => ?_, fun i hs hheld => ?_⟩
    · rw [Dev.copyDone_of_moved hc ha hf hr hheld]
    · rw [Dev.copyDone_of_held hc ha hf hr hs hheld]

end Sys2Proof.Machine
end

section
/-! The path mask as a scalar reads it (R39, R52), and the refutation of the statement about scalar instructions. -/

namespace Sys2Proof.Machine

/-- PMASK leaves out the rays that have exited (R39). -/
theorem Ctx.sVal_pathMask (c : Ctx) : c.sVal 0xFB = (c.beam.path &&& ~~~ c.beam.exited).setWidth 64 := rfl

/-- It reads as the beam's path exactly where the path holds no exited ray. -/
theorem Ctx.sVal_pathMask_eq_path_iff (c : Ctx) : c.sVal 0xFB = c.beam.path.setWidth 64 ↔ c.beam.path &&& c.beam.exited = 0 := by
  rw [Ctx.sVal_pathMask]
  constructor
  · intro h
    ext i hi
    have hbit := congrArg (BitVec.getLsbD · i) h
    simpa [hi, show i < 64 by omega] using hbit
  · intro h
    congr 1
    ext i hi
    have hbit := congrArg (BitVec.getLsbD · i) h
    simpa [hi] using hbit

/-- The last beam of a launch of 8 rays, whose 24 surplus rays have exited (R39), with those rays on its path. -/
def surplusRaysOnPath : Ctx :=
  let p : LaunchParams := { vector := false, cluster := 1, cacheShare := 0, rays := 8, rayRegs := 1, tileRegs := 0, scratchBytes := 0,
                            gridBlocks := 1, kernelAddr := 0, argAddr := 0, liveMapAddr := 0, watchdogLog2 := 0, abortOnFatal := false }
  let l : Launch := { id := 0, facet := 0, cmd := 0, cls := 0, params := p, nextBlock := 1, ended := 0, liveMaps := 0, headerRead := true,
                      wrotePoison := false, accepted := 0, passed := 0 }
  { ref := { launch := 0, block := 0, beam := 0 }, launch := l, block := startBlock l 0 0 0 [0] true 0,
    beam := { startBeam p true 0 0 with path := BitVec.allOnes 32 } }

/-- Refutes O6: its clause on PMASK speaks of every context and has no premise that the path holds live rays alone, while PMASK, as every
mask that a beam reads, leaves out the exited ones (R39). -/
theorem not_scalarInstructions : ¬ Obligations.ScalarInstructions := by
  intro h
  obtain ⟨-, hreads, -⟩ := h
  obtain ⟨-, -, -, -, -, -, -, -, -, -, -, -, hpath, -⟩ := hreads surplusRaysOnPath
  exact absurd ((Ctx.sVal_pathMask_eq_path_iff _).mp hpath) (by decide)

end Sys2Proof.Machine
end

section
/-! The words of kernel instructions (R51): the fields of a word, and that the decoder and the encoder agree class by class. -/

namespace Sys2Proof

/-! ## A word and its fields -/

theorem wordOf_fields (w : BitVec 64) : wordOf (wordClass w) (wordOp w) (wordFields w) = w := by
  simp only [wordOf, wordClass, wordOp, wordFields]
  ext i hi
  simp only [← BitVec.getLsbD_eq_getElem, BitVec.getLsbD_append, BitVec.getLsbD_extractLsb']
  grind

theorem wordClass_wordOf (cls : BitVec 4) (op : BitVec 8) (f : KFields) : wordClass (wordOf cls op f) = cls := by
  ext i hi
  simp only [wordOf, wordClass, ← BitVec.getLsbD_eq_getElem, BitVec.getLsbD_append, BitVec.getLsbD_extractLsb']
  grind

theorem wordOp_wordOf (cls : BitVec 4) (op : BitVec 8) (f : KFields) : wordOp (wordOf cls op f) = op := by
  ext i hi
  simp only [wordOf, wordOp, ← BitVec.getLsbD_eq_getElem, BitVec.getLsbD_append, BitVec.getLsbD_extractLsb']
  grind

theorem wordFields_wordOf (cls : BitVec 4) (op : BitVec 8) (f : KFields) : wordFields (wordOf cls op f) = f := by
  obtain ⟨dst, a, b, msk, mod, imm⟩ := f
  simp only [wordFields, KFields.mk.injEq]
  refine ⟨?_, ?_, ?_, ?_, ?_, ?_⟩ <;>
    (ext i hi; simp only [wordOf, ← BitVec.getLsbD_eq_getElem, BitVec.getLsbD_append, BitVec.getLsbD_extractLsb']; grind)

/-! ## Decoding a command's word -/

theorem decodeIssue_wordOf {cls : BitVec 4} {op : BitVec 8} {f : KFields} {make : BeamRef → KFields → Instr} (b : BeamRef)
    (h : issueOf cls.toNat op.toNat f.mod.toNat = some make) : decodeIssue b (wordOf cls op f) = make b f := by
  simp only [decodeIssue, wordClass_wordOf, wordOp_wordOf, wordFields_wordOf, h]

theorem decodeIssue_undefined {w : BitVec 64} (b : BeamRef)
    (h : issueOf (wordClass w).toNat (wordOp w).toNat (wordFields w).mod.toNat = none) : decodeIssue b w = .undefinedInstruction b w := by
  simp only [decodeIssue, h]

/-- The word of CCTL's five operations is one word, told apart by MOD (R131). -/
theorem decodeIssue_cctl {b : BeamRef} {f : KFields} {m : BitVec 4} {make : BeamRef → KFields → Instr} (hm : cctlOf m.toNat = some make)
    (hwf : (b.ok && decide (f.mod = m)) = true) : decodeIssue b (wordOf 3 0x19 f) = make b f := by
  obtain ⟨-, hmod⟩ := Bool.and_eq_true_iff.mp hwf
  exact decodeIssue_wordOf b (by rw [of_decide_eq_true hmod]; exact hm)

/-- Settles O4, by the cases of the command: its class and operation name it again, and CCTL's operations are told apart by MOD. -/
theorem decodeOfEncode : Obligations.DecodeOfEncode := by
  intro i b w hwf hw
  cases i <;> cases hw
  case undefinedInstruction =>
    obtain ⟨-, hnone⟩ := Bool.and_eq_true_iff.mp hwf
    exact decodeIssue_undefined _ (Option.isNone_iff_eq_none.mp hnone)
  case cctlCullet => exact decodeIssue_cctl (m := 0) rfl hwf
  case cctlPin => exact decodeIssue_cctl (m := 1) rfl hwf
  case cctlUnpin => exact decodeIssue_cctl (m := 2) rfl hwf
  case cctlWriteBack => exact decodeIssue_cctl (m := 3) rfl hwf
  case cctlPinRetain => exact decodeIssue_cctl (m := 4) rfl hwf
  all_goals exact decodeIssue_wordOf _ rfl

/-! ## Encoding a decoded command -/

/-- The command that a class and an operation name stands for the word of that class, that operation and its fields. -/
theorem encodeIssue_of_issueOf {cls op mod : Nat} {make : BeamRef → KFields → Instr} (h : issueOf cls op mod = some make) (b : BeamRef)
    (f : KFields) : encodeIssue (make b f) = some (b, wordOf (BitVec.ofNat 4 cls) (BitVec.ofNat 8 op) f) := by
  unfold issueOf scalarOf controlOf syncOf cctlOf memoryOf matrixOf vectorOf maskOf sortOf at h
  split at h
  case h_4 =>
    split at h
    case isTrue hop => subst hop; split at h <;> cases h <;> rfl
    case isFalse => split at h <;> cases h <;> rfl
  case h_9 => cases h
  all_goals split at h <;> cases h <;> rfl

/-- Settles O5: a defined word by its class and operation, and an undefined one is kept whole. -/
theorem encodeOfDecode : Obligations.EncodeOfDecode := by
  intro b w
  cases h : issueOf (wordClass w).toNat (wordOp w).toNat (wordFields w).mod.toNat with
  | none => rw [decodeIssue_undefined b h]; rfl
  | some make =>
    have hw := encodeIssue_of_issueOf h b (wordFields w)
    rw [BitVec.ofNat_toNat, BitVec.ofNat_toNat, BitVec.setWidth_eq, BitVec.setWidth_eq, wordOf_fields] at hw
    simpa only [decodeIssue, h] using hw

end Sys2Proof
end

section
/-! The queue (logs 2 and 3): every command is one function of the block, and a step takes the front of the queue. -/

namespace Sys2Proof.Machine

/-- Every command changes the block alone, by a function that does not see the queue. -/
theorem exec_eq_run (c : Instr) : ∃ g : Dev → Dev, ∀ s, exec c s = s.run g := by
  delta exec
  cases c <;> dsimp only <;> exact ⟨_, fun _ => rfl⟩

theorem exec_eq_effect (c : Instr) (s : State) : exec c s = .next (s.to (effect c s.dev)) := by
  obtain ⟨g, hg⟩ := exec_eq_run c
  simp only [effect, hg, State.run, State.to]

/-- Settles O1, by the definition of a step. -/
theorem stepRunsFront : Obligations.StepRunsFront := fun _ _ _ => rfl

/-- Settles O2: a command's outcome is its effect on the block. -/
theorem commandsKeepTheQueue : Obligations.CommandsKeepTheQueue := fun c s => ⟨effect c s.dev, exec_eq_effect c s⟩

/-- As many steps as commands wait run them in order, by induction on the queue. -/
theorem run_queue (cs : List Instr) (d : Dev) :
    Host.Core.run Sys2Proof.core cs.length { pending := cs, dev := d } = .next { pending := [], dev := cs.foldl (fun d c => effect c d) d } := by
  induction cs generalizing d with
  | nil => rfl
  | cons c cs ih =>
    have hstep : Sys2Proof.core.step { pending := c :: cs, dev := d } = .next { pending := cs, dev := effect c d } :=
      exec_eq_effect c { pending := cs, dev := d }
    simp only [List.length_cons, Host.Core.run, hstep]
    exact ih (effect c d)

/-- Settles O3, by induction on the queue; a step of an empty queue leaves the state as it is. -/
theorem queueDrainsInOrder : Obligations.QueueDrainsInOrder := fun cs d => ⟨run_queue cs d, rfl⟩

end Sys2Proof.Machine
end

section
/-! Updates of one beam and one block (R38, R39), and what an issue of a ready beam answers. -/

namespace Sys2Proof

variable {α : Type} {p : α → Bool} {f g : α → α}

theorem updFirst_congr {l : List α} {x : α} (hx : l.find? p = some x) (h : f x = g x) : updFirst p f l = updFirst p g l := by
  induction l with
  | nil => rfl
  | cons y ys ih =>
    simp only [updFirst]
    by_cases hy : p y = true
    · obtain rfl : y = x := by simpa [hy] using hx
      simp [hy, h]
    · simp only [hy, if_false, Bool.false_eq_true]
      rw [ih (by simpa [hy] using hx)]

theorem updFirst_updFirst (hf : ∀ x, p x = true → p (f x) = true) (l : List α) :
    updFirst p g (updFirst p f l) = updFirst p (fun x => g (f x)) l := by
  induction l with
  | nil => rfl
  | cons y ys ih => by_cases hy : p y = true <;> simp [updFirst, hy, hf, ih]

theorem updAt_congr {l : List α} {n : Nat} {x : α} (hx : l[n]? = some x) (h : f x = g x) : updAt f n l = updAt g n l := by
  induction l generalizing n with
  | nil => simp [updAt]
  | cons y ys ih =>
    cases n with
    | zero => simp only [updAt, Option.some.inj hx, h]
    | succ n => simp only [updAt, ih hx]

theorem updAt_updAt (n : Nat) (l : List α) : updAt g n (updAt f n l) = updAt (fun x => g (f x)) n l := by
  induction l generalizing n with
  | nil => simp [updAt]
  | cons y ys ih => cases n <;> simp [updAt, ih]

theorem getElem?_updAt_same (n : Nat) (l : List α) : (updAt f n l)[n]? = l[n]?.map f := by
  induction l generalizing n with
  | nil => simp [updAt]
  | cons y ys ih => cases n <;> simp [updAt, ih]

theorem getElem?_updAt_of_ne {m n : Nat} (h : m ≠ n) (l : List α) : (updAt f n l)[m]? = l[m]? := by
  induction l generalizing m n with
  | nil => simp [updAt]
  | cons y ys ih =>
    cases n <;> cases m <;> simp_all [updAt]

end Sys2Proof

namespace Sys2Proof.Machine

variable {d : Dev} {b : BeamRef} {c : Ctx} {g g' : Beam → Beam} {s : State}

theorem Dev.updBlock_congr {l i : Nat} {f g : Block → Block} {k : Block} (hk : d.block? l i = some k) (h : f k = g k) :
    d.updBlock l i f = d.updBlock l i g :=
  congrArg (fun bs => { d with blocks := bs }) (updFirst_congr hk h)

theorem Dev.updBlock_updBlock (d : Dev) (l i : Nat) (f g : Block → Block) (hl : ∀ x, (f x).launch = x.launch)
    (hi : ∀ x, (f x).index = x.index) : (d.updBlock l i f).updBlock l i g = d.updBlock l i fun k => g (f k) :=
  congrArg (fun bs => { d with blocks := bs }) (updFirst_updFirst (by intro x; simp [hl, hi]) _)

/-- Two updates of a resident beam that agree on the beam are one. -/
theorem Dev.updBeam_congr (hc : d.ctx? b = some c) (h : g c.beam = g' c.beam) : d.updBeam b g = d.updBeam b g' := by
  obtain ⟨-, hk, hm⟩ := ctx?_parts hc
  exact Dev.updBlock_congr hk (by simp only [updAt_congr hm h])

theorem Dev.updBeam_updBeam (d : Dev) (b : BeamRef) (g g' : Beam → Beam) :
    (d.updBeam b g).updBeam b g' = d.updBeam b fun m => g' (g m) := by
  refine (Dev.updBlock_updBlock d _ _ _ _ (fun _ => ?_) (fun _ => ?_)).trans ?_
  · rfl
  · rfl
  · simp only [updAt_updAt, Dev.updBeam]

/-- The context of a beam that an update changes. -/
theorem ctx?_updBeam_same (hc : d.ctx? b = some c) (g : Beam → Beam) :
    (d.updBeam b g).ctx? b = some { c with block := { c.block with beams := updAt g b.beam c.block.beams }, beam := g c.beam } := by
  obtain ⟨hl, hk, hm⟩ := ctx?_parts hc
  have hr := ctx?_ref hc
  have hk' : (d.updBeam b g).block? b.launch b.block = some { c.block with beams := updAt g b.beam c.block.beams } := by
    refine (Dev.block?_updBlock _ _ _ (fun _ => ?_) (fun _ => ?_)).trans ?_
    · rfl
    · rfl
    · rw [hk]; rfl
  rw [ctx?_of_parts (d := d.updBeam b g) hl hk' (m := g c.beam) (by simp [getElem?_updAt_same, hm]), hr]

/-! ## What the issue of a ready beam answers -/

theorem issued_hold (h : Issues s.dev b c) {rows : Ctx → List Nat} {body : Dev → Ctx → Issue}
    (hb : body (s.dev.noteIssue c) (c.noted s.dev) = .hold) : Host.Outcome.next (s.to (s.dev.issue b rows body)) = (.next s : Out) := by
  rw [Dev.issue_of_hold h hb]; rfl

theorem issued_done (h : Issues s.dev b c) {rows : Ctx → List Nat} {body : Dev → Ctx → Issue} {e : Dev}
    (hb : body (s.dev.noteIssue c) (c.noted s.dev) = .done e) : Host.Outcome.next (s.to (s.dev.issue b rows body)) = (.next (s.to e) : Out) := by
  rw [Dev.issue_of_done h hb]

theorem issued_trap (h : Issues s.dev b c) {rows : Ctx → List Nat} {body : Dev → Ctx → Issue} {t : Trap}
    (hb : body (s.dev.noteIssue c) (c.noted s.dev) = .trap t) : Host.Outcome.next (s.to (s.dev.issue b rows body)) =
      (.next (s.to (((s.dev.noteIssue c).park c t).updBeam b fun m => { m with debugStep := false })) : Out) := by
  rw [Dev.issue_of_trap h hb]

/-- A beam of a ready context after the count of its issue. -/
theorem Dev.updBeam_noteIssue_congr (h : Issues d b c) (hg : g c.beam = g' c.beam) :
    (d.noteIssue c).updBeam b g = (d.noteIssue c).updBeam b g' :=
  Dev.updBeam_congr (ctx?_noteIssue h.1) (by rwa [Ctx.noted_beam])

theorem Dev.next_eq (h : d.ctx? b = some c) (e : Dev) : e.next c = e.updBeam b fun m => { m with pc := m.pc + 1 } := by
  rw [Dev.next, ctx?_ref h]

/-- The result of a body that checks nothing. -/
theorem checked_nil (k : Issue) : checked [] k = k := rfl

end Sys2Proof.Machine
end

section
/-! The control instructions (R55, R60, R221): the next pc, the call and mask stacks, and what a fence waits for. -/

namespace Sys2Proof.Machine

variable {d : Dev} {b : BeamRef} {c : Ctx} {f : KFields} {s : State}

/-! ## What the count of an issue leaves -/

@[simp] theorem Dev.core_noteIssue (n : Nat) : (d.noteIssue c).core n = d.core n := by rw [Dev.noteIssue_eq]; rfl
@[simp] theorem Dev.writesOut_noteIssue (n : Nat) : (d.noteIssue c).writesOut n = d.writesOut n := by rw [Dev.noteIssue_eq]; rfl
@[simp] theorem Dev.mayTransmit_noteIssue (n : Nat) : (d.noteIssue c).mayTransmit n = d.mayTransmit n := by rw [Dev.noteIssue_eq]; rfl
@[simp] theorem Dev.mayTransmit_updBeam (g : Beam → Beam) (n : Nat) : (d.updBeam b g).mayTransmit n = d.mayTransmit n := rfl
@[simp] theorem Dev.core_updBeam (g : Beam → Beam) (n : Nat) : (d.updBeam b g).core n = d.core n := rfl
@[simp] theorem Dev.core_markHostLost (g serial n : Nat) : (d.markHostLost g serial).core n = d.core n := rfl

theorem trapIf_false (t : Trap) : trapIf false t = [] := rfl

/-! ## Branches and calls -/

theorem exec_nop (h : Issues s.dev b c) : exec (.nop b f) s = .next (s.to ((s.dev.noteIssue c).updBeam b fun m => { m with pc := m.pc + 1 })) :=
  issued_done h (by rw [Dev.next_noted, Dev.next_eq h.1])

theorem exec_bra (h : Issues s.dev b c) :
    exec (.bra b f) s = .next (s.to ((s.dev.noteIssue c).updBeam b fun m => { m with pc := c.beam.pc + f.imm.signExtend 64 })) :=
  issued_done h (by simp only [Dev.jump, Ctx.noted_ref, Ctx.noted_beam, ctx?_ref h.1, imm64])

theorem exec_brx (h : Issues s.dev b c) (ha : ScalarSource f.a) :
    exec (.brx b f) s = .next (s.to ((s.dev.noteIssue c).updBeam b fun m => { m with pc := c.sVal f.a.toNat })) :=
  issued_done h (by simp only [sSrcBad_of_scalarSource ha, trapIf_false, checked_nil, Dev.jump, Ctx.noted_ref, Ctx.noted_sVal, ctx?_ref h.1])

theorem exec_call (h : Issues s.dev b c) (hroom : c.beam.calls.length < 8) :
    exec (.call b f) s = .next (s.to ((s.dev.noteIssue c).updBeam b fun m =>
      { m with calls := (m.pc + 1) :: m.calls, pc := m.pc + f.imm.signExtend 64 })) := by
  have hn : decide (8 ≤ c.beam.calls.length) = false := by simpa using hroom
  exact issued_done h (by simp only [Ctx.noted_beam, hn, trapIf_false, checked_nil, Ctx.noted_ref, ctx?_ref h.1, imm64])

theorem exec_call_of_full (h : Issues s.dev b c) (hfull : 8 ≤ c.beam.calls.length) :
    exec (.call b f) s = .next (s.to (((s.dev.noteIssue c).park c (mkTrap .callStack 0)).updBeam b fun m => { m with debugStep := false })) :=
  issued_trap h (by simp only [Ctx.noted_beam]; exact checked_one (by simp [hfull, trapIf]))

theorem exec_ret (h : Issues s.dev b c) {p : BitVec 64} {rest : List (BitVec 64)} (hcalls : c.beam.calls = p :: rest) :
    exec (.ret b f) s = .next (s.to ((s.dev.noteIssue c).updBeam b fun m => { m with calls := rest, pc := p })) :=
  issued_done h (by simp only [Ctx.noted_beam, hcalls, Ctx.noted_ref, ctx?_ref h.1])

theorem exec_ret_of_empty (h : Issues s.dev b c) (hcalls : c.beam.calls = []) :
    exec (.ret b f) s = .next (s.to (((s.dev.noteIssue c).park c (mkTrap .callStack 0)).updBeam b fun m => { m with debugStep := false })) :=
  issued_trap h (by simp only [Ctx.noted_beam, hcalls])

theorem exec_trap (h : Issues s.dev b c) : exec (.trap b f) s =
    .next (s.to (((s.dev.noteIssue c).park c (mkTrap .software (f.imm.signExtend 64).toNat)).updBeam b fun m => { m with debugStep := false })) :=
  issued_trap h rfl

/-! ## Fences and waits -/

/-- A fence of core scope, and one of chip scope with no write of the core out, fall through (R221). -/
theorem exec_fence_falls (h : Issues s.dev b c)
    (hscope : f.mod.toNat % 4 = 0 ∨ (f.mod.toNat % 4 = 1 ∧ s.dev.writesOut c.block.core = false)) :
    exec (.fence b f) s = .next (s.to ((s.dev.noteIssue c).updBeam b fun m => { m with pc := m.pc + 1 })) := by
  refine issued_done h ?_
  rcases hscope with h0 | ⟨h1, hout⟩
  · simp [h0, trapIf, checked_nil, Dev.next_eq h.1]
  · simp [h1, hout, trapIf, checked_nil, Dev.next_eq h.1]

theorem exec_fence_holds (h : Issues s.dev b c) (hscope : f.mod.toNat % 4 = 1 ∨ f.mod.toNat % 4 = 2)
    (hout : s.dev.writesOut c.block.core = true) : exec (.fence b f) s = .next s := by
  refine issued_hold h ?_
  rcases hscope with h1 | h1 <;> simp [h1, hout, trapIf, checked_nil]

/-- A fence of system scope, no write of the core out, goes on to the confirmation of its peer regions (R226). -/
theorem exec_fence_confirms (h : Issues s.dev b c) (hscope : f.mod.toNat % 4 = 2) (hout : s.dev.writesOut c.block.core = false) :
    exec (.fence b f) s = .next (s.to (((s.dev.noteIssue c).updBeam b fun m => { m with pc := m.pc + 1 }).confirmRegions c
      ((s.dev.core c.block.core).peerRecs.map PeerRec.region))) := by
  refine issued_done h ?_
  simp [hscope, hout, trapIf, checked_nil, Dev.next_eq h.1, Dev.confirmRegions]

theorem exec_fence_undefined (h : Issues s.dev b c) (hscope : f.mod.toNat % 4 = 3) :
    exec (.fence b f) s = .next (s.to (((s.dev.noteIssue c).park c illegal).updBeam b fun m => { m with debugStep := false })) :=
  issued_trap h (checked_one (by simp [hscope, trapIf]))

theorem Dev.confirmRegions_nil (d : Dev) (c : Ctx) : d.confirmRegions c [] = d := rfl

theorem Dev.confirmRegions_of_link (h : d.ctx? b = some c) {regions : List Nat} (hne : regions ≠ []) {e : Dev}
    (hlink : e.mayTransmit c.launch.facet = true) :
    e.confirmRegions c regions = (e.askRegions c.block.core regions).updBeam b fun m => { m with fenceWait := regions } := by
  simp [Dev.confirmRegions, hne, hlink, ctx?_ref h]

/-- Without a link every record of the core is given up (R326). -/
theorem Dev.confirmRegions_of_no_link {e : Dev}  {regions : List Nat} (hreg : (e.core c.block.core).peerRecs.map PeerRec.region = regions) (hne : regions ≠ [])
    (hlink : e.mayTransmit c.launch.facet = false) :
    e.confirmRegions c regions = (e.markHostLost c.launch.facet c.launch.cmd).updCore c.block.core fun k => { k with peerRecs := [] } := by
  have hnone : (e.core c.block.core).peerRecs.filter (fun r => !regions.contains r.region) = [] := by
    subst hreg; simpa using fun e he => ⟨e, he, rfl⟩
  simp only [Dev.confirmRegions, hne, hlink, if_false, Bool.not_false, if_true]
  simp only [Dev.updCore, Dev.core_markHostLost, hnone]

theorem exec_waitc (h : Issues s.dev b c) (hdone : c.beam.copies.length ≤ f.imm.toNat % 32) :
    exec (.waitc b f) s = .next (s.to ((s.dev.noteIssue c).updBeam b fun m => { m with pc := m.pc + 1 })) :=
  issued_done h (by simp [hdone, Dev.next_eq h.1])

/-! ## Divergence (R60) -/

/-- DIV that overflows no stack rewrites the beam as R60 gives. -/
theorem exec_divS (h : Issues s.dev b c) (hm : MaskField f.msk) {g : Beam → Beam}
    (hroom : c.beam.path &&& c.mask f.msk = 0 ∨ c.beam.path &&& ~~~ c.mask f.msk = 0 ∨ c.beam.stack.length ≤ 14)
    (hg : c.beam.diverge (c.mask f.msk) f = g c.beam) :
    exec (.divS b f) s = .next (s.to ((s.dev.noteIssue c).updBeam b g)) := by
  have hfits : (decide (c.beam.path &&& c.mask f.msk ≠ 0) && decide (c.beam.path &&& ~~~ c.mask f.msk ≠ 0) &&
      decide (16 < c.beam.stack.length + 2)) = false := by
    rcases hroom with h0 | h0 | h0
    · simp [h0]
    · simp [h0]
    · simp [show ¬ 16 < c.beam.stack.length + 2 by omega]
  refine issued_done h ?_
  simp only [Ctx.mskTraps_of_maskField hm, Ctx.noted_beam, Ctx.noted_mask, hfits, trapIf_false, List.append_nil, checked_nil,
    Ctx.noted_ref, ctx?_ref h.1]
  rw [Dev.updBeam_noteIssue_congr h (g' := g) hg]

theorem exec_divS_of_full (h : Issues s.dev b c) (hm : MaskField f.msk) (htaken : c.beam.path &&& c.mask f.msk ≠ 0)
    (hfall : c.beam.path &&& ~~~ c.mask f.msk ≠ 0) (hfull : 14 < c.beam.stack.length) :
    exec (.divS b f) s = .next (s.to (((s.dev.noteIssue c).park c (mkTrap .maskStackOverflow 0)).updBeam b fun m =>
      { m with debugStep := false })) :=
  issued_trap h (checked_one (by
    simp only [Ctx.noted_mask, Ctx.noted_beam, Ctx.mskTraps_of_maskField hm, decide_eq_true htaken, decide_eq_true hfall,
      show 16 < c.beam.stack.length + 2 by omega]
    rfl))

theorem Beam.diverge_none {m : Beam} {cond : BitVec 32} (h : m.path &&& cond = 0) : m.diverge cond f = { m with pc := m.pc + 1 } := by
  simp [Beam.diverge, h]

theorem Beam.diverge_all {m : Beam} {cond : BitVec 32} (h : m.path &&& cond ≠ 0) (hf : m.path &&& ~~~ cond = 0) :
    m.diverge cond f = { m with pc := m.pc + f.imm.signExtend 64 } := by simp only [Beam.diverge, h, hf, if_false, if_true, imm64]

theorem Beam.diverge_some {m : Beam} {cond : BitVec 32} (h : m.path &&& cond ≠ 0) (hf : m.path &&& ~~~ cond ≠ 0) :
    m.diverge cond f = { m with
      stack := .pending (m.path &&& ~~~ cond) (m.pc + 1) (m.pc + (f.a ++ f.b).setWidth 64) ::
        .reconv m.path (m.pc + (f.a ++ f.b).setWidth 64) :: m.stack,
      path := m.path &&& cond, pc := m.pc + f.imm.signExtend 64 } := by simp only [Beam.diverge, h, hf, if_false, imm64]

/-- Settles O7, instruction by instruction; DIV by the rays that take its branch. -/
theorem controlInstructions : Obligations.ControlInstructions := by
  refine ⟨?_, ?_⟩
  · intro s b f c h
    refine ⟨exec_nop h, exec_bra h, exec_brx h, exec_call h, exec_call_of_full h, fun p rest => exec_ret h, exec_ret_of_empty h, exec_trap h,
      exec_fence_falls h, exec_fence_holds h, fun hscope hout => ?_, exec_fence_undefined h, exec_waitc h⟩
    rw [exec_fence_confirms h hscope hout]
    refine ⟨fun hnil => ?_, fun hne hlink => ?_, fun hne hlink => ?_⟩
    · rw [hnil, Dev.confirmRegions_nil]
    · rw [Dev.confirmRegions_of_link h.1 hne (by simpa using hlink)]
    · rw [Dev.confirmRegions_of_no_link (by simp) hne (by simpa using hlink)]
  · intro s b f c h hm
    refine ⟨fun h0 => exec_divS h hm (.inl h0) (Beam.diverge_none h0), fun ht h0 => exec_divS h hm (.inr (.inl h0)) (Beam.diverge_all ht h0),
      fun ht hf hroom => exec_divS h hm (.inr (.inr hroom)) (Beam.diverge_some ht hf), exec_divS_of_full h hm⟩

end Sys2Proof.Machine
end

section
/-! Posting (R301, R316 to R321, R383): a glint, an interrupt and a host write change the facets, the picture of the host, the counters and what
was sent, and nothing else of the block. -/

namespace Sys2Proof.Machine

variable {d e : Dev}

/-- e is d but for what a post changes. -/
def Dev.Posts (d e : Dev) : Prop :=
  e = { d with counters := e.counters, facetCounters := e.facetCounters, facets := e.facets, host := e.host, sent := e.sent }

theorem Dev.Posts.refl (d : Dev) : d.Posts d := rfl

theorem Dev.Posts.trans {x : Dev} (h : d.Posts e) (h' : e.Posts x) : d.Posts x := by
  unfold Dev.Posts at *
  rw [h', h]

theorem Dev.posts_forEach {α : Type} (l : List α) (g : Dev → α → Dev) (h : ∀ e a, Dev.Posts e (g e a)) (d : Dev) :
    d.Posts (Dev.forEach l g d) := by
  induction l generalizing d with
  | nil => exact .refl d
  | cons a l ih => exact (h d a).trans (ih (g d a))

theorem Dev.posts_logDirty (d : Dev) (f bus n : Nat) : d.Posts (d.logDirty f bus n) := by
  refine Dev.posts_forEach _ _ (fun e a => ?_) d
  dsimp only
  split <;> rfl

theorem Dev.posts_updHost (d : Dev) (g : HostLink → HostLink) : d.Posts (d.updHost g) := rfl

theorem Dev.posts_hostWrite (d : Dev) (f bus : Nat) (bs : List Byte) (poison : Bool) : d.Posts (d.hostWrite f bus bs poison) := by
  unfold Dev.hostWrite
  split
  · exact .refl d
  · exact Dev.Posts.trans (Dev.posts_updHost ..) (Dev.posts_logDirty ..)

theorem Dev.posts_msix (d : Dev) (f vector : Nat) : d.Posts (d.msix f vector) := by
  unfold Dev.msix
  split
  · rfl
  · split <;> rfl

theorem Dev.posts_updFacet (d : Dev) (f : Nat) (g : Facet → Facet) : d.Posts (d.updFacet f g) := rfl
theorem Dev.posts_countF (d : Dev) (f off n : Nat) : d.Posts (d.countF f off n) := rfl
theorem Dev.posts_count (d : Dev) (off n : Nat) : d.Posts (d.count off n) := rfl
theorem Dev.posts_send (d : Dev) (m : Sent) : d.Posts (d.send m) := rfl

theorem Dev.posts_ringWrite (d : Dev) (f n : Nat) (record : BitVec 32 → Bool → List Byte) (mark : Nat) :
    d.Posts (d.ringWrite f n record mark) := by
  have hw := Dev.posts_hostWrite d f (((d.facet f).ring n).bus + 32 * ((d.facet f).ring n).tail)
    (record (((d.facet f).ring n).seq + 1) ((d.facet f).ring n).phase) false
  unfold Dev.ringWrite
  dsimp only
  split
  · exact (hw.trans (Dev.posts_updFacet ..)).trans (Dev.posts_msix ..)
  · exact hw.trans (Dev.posts_updFacet ..)

theorem Dev.posts_glintTo (d : Dev) (f typ : Nat) (payload : List Byte) : d.Posts (d.glintTo f typ payload) := by
  unfold Dev.glintTo
  dsimp only
  split
  · exact .trans (Dev.posts_countF ..) (Dev.posts_updFacet ..)
  · exact .trans (Dev.posts_ringWrite ..) (Dev.posts_updFacet ..)

theorem Dev.Posts.blocks (h : d.Posts e) : e.blocks = d.blocks := by rw [h]

end Sys2Proof.Machine
end

section
/-! Paths, barriers and words that cannot run (R51, R60 to R64, R71, R77): what JOIN, EXIT, YIELD, BAR and CBAR do to a beam and its block. -/

namespace Sys2Proof.Machine

variable {d : Dev} {b : BeamRef} {c : Ctx} {f : KFields} {s : State} {m : Beam} {go : BarrierRef → Bool}

/-! ## The mask stack -/

theorem Beam.enter_exited (e : StackEntry) (path : BitVec 32) (join : BitVec 64) : (m.enter go e path join).exited = m.exited := by
  cases e with
  | reconv | pending => rfl
  | wait mask resume rc r map => simp only [Beam.enter]; split <;> rfl

theorem Beam.pathEmpty_exited (m : Beam) (go : BarrierRef → Bool) (l : List StackEntry) : (m.pathEmpty go l).exited = m.exited := by
  induction l with
  | nil => rfl
  | cons e rest ih =>
    simp only [Beam.pathEmpty]
    split
    · exact ih
    · rw [Beam.enter_exited]

/-- Where no entry holds a live ray, the beam ends (R61). -/
theorem Beam.pathEmpty_ends {l : List StackEntry} (h : ∀ e ∈ l, e.mask &&& ~~~ m.exited = 0) :
    m.pathEmpty go l = { m with stack := [], path := 0, status := .ended } := by
  induction l with
  | nil => rfl
  | cons e rest ih => simp only [Beam.pathEmpty, h e (by simp), if_true, ih fun e he => h e (by simp [he])]

theorem Beam.joinAt_of_empty {p : BitVec 64} (h : m.stack = []) : m.joinAt go p = { m with pc := p + 1 } := by simp only [Beam.joinAt, h]

theorem Beam.joinAt_of_ne {p : BitVec 64} {e : StackEntry} {rest : List StackEntry} (h : m.stack = e :: rest) (hrc : e.rc ≠ p) :
    m.joinAt go p = { m with pc := p + 1 } := by simp only [Beam.joinAt, h, ne_eq, hrc, not_false_eq_true, if_true]

/-- At its reconvergence point the top entry is popped, and its live rays go on as the entry says. -/
theorem Beam.joinAt_of_eq {e : StackEntry} {rest : List StackEntry} (h : m.stack = e :: rest) (hlive : e.mask &&& ~~~ m.exited ≠ 0) :
    m.joinAt go e.rc = Beam.enter { m with stack := rest } go e (e.mask &&& ~~~ m.exited) e.rc := by
  simp only [Beam.joinAt, h, ne_eq, not_true_eq_false, if_false, hlive]

theorem Beam.exitRays_exited (m : Beam) (go : BarrierRef → Bool) (rays : BitVec 32) : (m.exitRays go rays).exited = m.exited ||| rays := by
  unfold Beam.exitRays
  dsimp only
  split
  · rw [Beam.pathEmpty_exited]
  · rfl

theorem Beam.exitRays_of_live {rays : BitVec 32} (h : m.path &&& ~~~ rays ≠ 0) :
    m.exitRays go rays = { m with exited := m.exited ||| rays, path := m.path &&& ~~~ rays, pc := m.pc + 1 } := by
  simp only [Beam.exitRays, h, if_false]

theorem Beam.exitRays_of_none {rays : BitVec 32} (h : m.path &&& ~~~ rays = 0)
    (hstack : ∀ e ∈ m.stack, e.mask &&& ~~~ (m.exited ||| rays) = 0) :
    m.exitRays go rays = { m with exited := m.exited ||| rays, stack := [], path := 0, status := .ended } := by
  simp only [Beam.exitRays, h, if_true]
  rw [Beam.pathEmpty_ends hstack]

/-! ## The instructions -/

/-- Which barriers are released does not depend on the count of an issue. -/
theorem Dev.released_noteIssue (h : d.ctx? b = some c) (r : BarrierRef) : (d.noteIssue c).released (c.noted d) r = d.released c r := by
  have hr := ctx?_ref h
  obtain ⟨-, hk, -⟩ := ctx?_parts h
  obtain ⟨-, hk', -⟩ := ctx?_parts (ctx?_noteIssue h)
  cases r with
  | block p => simp only [Dev.released, Ctx.noted_ref, hr, hk, hk', Ctx.noted_phase]
  | cluster p => simp only [Dev.released, Ctx.noted_launch, Ctx.noted_clusterId]; rw [Dev.noteIssue_eq]; rfl

@[simp] theorem Dev.cluster_noteIssue (l cid : Nat) : (d.noteIssue c).cluster l cid = d.cluster l cid := by rw [Dev.noteIssue_eq]; rfl

theorem Dev.released_noteIssue_fun (h : d.ctx? b = some c) : (d.noteIssue c).released (c.noted d) = fun r => d.released c r :=
  funext (Dev.released_noteIssue h)

theorem exec_join (h : Issues s.dev b c) :
    exec (.join b f) s = .next (s.to (((s.dev.noteIssue c).updBeam b fun m => m.joinAt (fun r => s.dev.released c r) m.pc).afterPath c)) :=
  issued_done h (by simp only [Dev.released_noteIssue_fun h.1, Dev.afterPath_noted, Ctx.noted_ref, ctx?_ref h.1])

theorem exec_exit (h : Issues s.dev b c) (hm : MaskField f.msk) :
    exec (.exit b f) s = .next (s.to (((s.dev.noteIssue c).updBeam b fun m =>
      m.exitRays (fun r => s.dev.released c r) (c.mask f.msk)).afterPath c)) :=
  issued_done h (by simp only [Ctx.mskTraps_of_maskField hm, checked_nil, Dev.released_noteIssue_fun h.1, Dev.afterPath_noted, Ctx.noted_ref,
    Ctx.noted_mask, ctx?_ref h.1])

theorem Ctx.yieldPoint_of_lt (h : f.imm.toNat % 65536 < c.launch.liveMaps) : c.yieldPoint f = some (f.imm.toNat % 65536) := if_pos h

theorem Ctx.yieldPoint_of_le (h : c.launch.liveMaps ≤ f.imm.toNat % 65536) : c.yieldPoint f = none := if_neg (Nat.not_lt.mpr h)

theorem exec_yield_stops (h : Issues s.dev b c) (hreq : (s.dev.core c.block.core).switchReq = true)
    (hpoint : f.imm.toNat % 65536 < c.launch.liveMaps) :
    exec (.yield b f) s = .next (s.to ((s.dev.noteIssue c).updBeam b fun m =>
      { m with pc := m.pc + 1, status := .yielded (f.imm.toNat % 65536) })) :=
  issued_done h (by simp only [Ctx.noted_yieldPoint, Ctx.yieldPoint_of_lt hpoint, if_true, Ctx.noted_core, Dev.core_noteIssue, hreq,
    Dev.next_noted, Dev.next_eq h.1, Ctx.noted_ref, ctx?_ref h.1, Dev.updBeam_updBeam])

theorem exec_yield_falls (h : Issues s.dev b c)
    (hgo : (s.dev.core c.block.core).switchReq = false ∨ c.launch.liveMaps ≤ f.imm.toNat % 65536) :
    exec (.yield b f) s = .next (s.to ((s.dev.noteIssue c).updBeam b fun m => { m with pc := m.pc + 1 })) := by
  refine issued_done h ?_
  simp only [Ctx.noted_yieldPoint, Ctx.noted_core, Dev.core_noteIssue, Dev.next_noted, Dev.next_eq h.1]
  rcases hgo with hreq | hpoint
  · simp only [hreq, Bool.false_eq_true, if_false]
    split <;> rfl
  · rw [Ctx.yieldPoint_of_le hpoint]

/-- Settles O8: JOIN by the top entry, EXIT by the rays that stay, YIELD by the request that stands. -/
theorem pathsRejoin : Obligations.PathsRejoin := by
  refine ⟨fun s b f c h => ⟨exec_join h, exec_exit h, exec_yield_stops h, exec_yield_falls h⟩, ?_, ?_⟩
  · intro m go p mask start resume r map rest
    refine ⟨Beam.joinAt_of_empty, fun e => Beam.joinAt_of_ne, fun hs hp => Beam.joinAt_of_eq hs hp, fun hs hp => Beam.joinAt_of_eq hs hp,
      fun hs hp => ?_⟩
    rw [show p = (StackEntry.wait mask resume p r map).rc from rfl, Beam.joinAt_of_eq hs hp]
    simp only [Beam.enter]
    cases go r <;> rfl
  · intro m go rays
    refine ⟨Beam.exitRays_exited m go rays, Beam.exitRays_of_live, fun h0 hstack => ?_⟩
    rw [Beam.exitRays_of_none h0 hstack]
    exact ⟨rfl, rfl, rfl⟩

/-! ## Barriers -/

theorem exec_bar (h : Issues s.dev b c) (hid : c.block.barId = none ∨ c.block.barId = some (f.dst.toNat % 16)) :
    exec (.bar b f) s = .next (s.to ((((s.dev.noteIssue c).updBlock b.launch b.block fun k =>
      { k with barId := some (f.dst.toNat % 16), arrived := arriveRays k.arrived b.beam c.beam.path }).updBeam b fun m =>
        m.arrive (fun r => s.dev.released c r) (.block c.block.phase) (c.yieldPoint f)).afterPath c)) := by
  refine issued_done h ?_
  simp only [Dev.released_noteIssue_fun h.1, Dev.afterPath_noted, Ctx.noted_ref, ctx?_ref h.1, Ctx.noted_barId, Ctx.noted_beam, Ctx.noted_phase,
    Ctx.noted_yieldPoint]
  rcases hid with hid | hid <;> simp only [hid, ne_eq, not_true_eq_false, decide_false, trapIf_false, checked_nil]

theorem exec_bar_mismatch (h : Issues s.dev b c) {i : Nat} (hid : c.block.barId = some i) (hne : i ≠ f.dst.toNat % 16) :
    exec (.bar b f) s = .next (s.to (((s.dev.noteIssue c).park c (mkTrap .barrierMismatch (i + 16 * (f.dst.toNat % 16)))).updBeam b fun m =>
      { m with debugStep := false })) :=
  issued_trap h (checked_one (by simp [hid, hne, trapIf]))

theorem exec_cbar (h : Issues s.dev b c) :
    exec (.cbar b f) s = .next (s.to ((((s.dev.noteIssue c).updBlock b.launch b.block fun k =>
      { k with cArrived := arriveRays k.cArrived b.beam c.beam.path }).updBeam b fun m =>
        m.arrive (fun r => s.dev.released c r) (.cluster (s.dev.cluster c.launch.id c.clusterId).phase) (c.yieldPoint f)).afterPath c)) :=
  issued_done h (by simp only [Dev.released_noteIssue_fun h.1, Dev.afterPath_noted, Ctx.noted_ref, ctx?_ref h.1, Ctx.noted_beam,
    Ctx.noted_yieldPoint, Ctx.noted_launch, Ctx.noted_clusterId, Dev.cluster_noteIssue])

theorem Block.phaseDone_of_all {k : Block} (harr : k.arrived ≠ []) (h : ∀ i < k.beams.length, k.live i &&& ~~~ Tab.get 0 k.arrived i = 0) :
    k.phaseDone = { k with phase := k.phase + 1, barId := none, arrived := [], watchdog := 0, beams := k.beams.map fun m => m.wake true } := by
  have hall : k.allArrived k.arrived = true := by simpa [Block.allArrived] using h
  simp [Block.phaseDone, harr, hall]

theorem Block.phaseDone_of_missing {k : Block} {i : Nat} (hi : i < k.beams.length) (h : k.live i &&& ~~~ Tab.get 0 k.arrived i ≠ 0) :
    k.phaseDone = k := by
  have hall : k.allArrived k.arrived = false := by
    simp only [Block.allArrived, List.all_eq_false, List.mem_range, decide_eq_true_eq]
    exact ⟨i, hi, h⟩
  simp [Block.phaseDone, hall]

/-- Settles O9: an arrival by the identifier that stands, a phase by whether a live ray is missing. -/
theorem barriersAndPhases : Obligations.BarriersAndPhases := by
  refine ⟨fun s b f c h => ⟨exec_bar h, fun i => exec_bar_mismatch h, exec_cbar h⟩, fun k => ⟨Block.phaseDone_of_all,
    fun i => Block.phaseDone_of_missing, fun m p hp => ?_, fun m p hp => ?_⟩⟩ <;> simp [Beam.wake, hp, BarrierRef.isBlock]

/-! ## Words that cannot run -/

theorem exec_undefinedInstruction (h : Issues s.dev b c) {w : BitVec 64}
    (hw : issueOf (wordClass w).toNat (wordOp w).toNat (wordFields w).mod.toNat = none) : exec (.undefinedInstruction b w) s =
      .next (s.to (((s.dev.noteIssue c).park c illegal).updBeam b fun m => { m with debugStep := false })) := by
  change execUndefinedInstruction b w s = _
  simp only [execUndefinedInstruction, State.run, decodeIssue_undefined b hw]
  exact issued_trap h rfl

theorem Dev.fetchTrap_of_unmapped
    (h : d.translate c.launch.facet (c.launch.params.kernelAddr + 8 * c.beam.pc).toNat = .unmapped) :
    d.fetchTrap c = some (mkTrap .pageFault (c.launch.params.kernelAddr + 8 * c.beam.pc).toNat) := by simp only [Dev.fetchTrap, h]

@[simp] theorem Dev.translate_noteIssue (fn va : Nat) : (d.noteIssue c).translate fn va = d.translate fn va := by rw [Dev.noteIssue_eq]; rfl

theorem exec_instructionFetchFault (h : Issues s.dev b c)
    (hpage : s.dev.translate c.launch.facet (c.launch.params.kernelAddr + 8 * c.beam.pc).toNat = .unmapped) :
    exec (.instructionFetchFault b) s =
      .next (s.to (((s.dev.noteIssue c).park c (mkTrap .pageFault (c.launch.params.kernelAddr + 8 * c.beam.pc).toNat)).updBeam b fun m =>
        { m with debugStep := false })) := by
  have hfetch := Dev.fetchTrap_of_unmapped (d := s.dev.noteIssue c) (c := c.noted s.dev) (by simpa using hpage)
  exact issued_trap h (by simp only [hfetch, Ctx.noted_launch, Ctx.noted_beam])

/-- A beam of a block whose watchdog stands at its limit (R64). -/
def Beam.stopped (m : Beam) : Beam :=
  match m.status with
  | .running => { m with status := .parked .watchdog, parkedOn := none, passOut := false }
  | .yielded _ => { m with status := .parked .watchdog, parkedOn := none, passOut := false }
  | .sleeping r => { m with status := .parked .watchdog, parkedOn := some r, passOut := false }
  | .parked _ => m
  | .ended => m

theorem Beam.stopped_status (m : Beam) : m.stopped.status = .ended ∨ ∃ why, m.stopped.status = .parked why := by
  cases h : m.status with
  | running | yielded | sleeping => exact .inr ⟨.watchdog, by simp only [Beam.stopped, h]⟩
  | parked why => exact .inr ⟨why, by simp only [Beam.stopped, h]⟩
  | ended => exact .inl (by simp only [Beam.stopped, h])

/-- The watchdog at its limit stops every beam of the block. -/
theorem watchdog_stops (hb : b.beam = 0) (hc : d.ctx? b = some c) (hdue : d.watchdogDue c = true) :
    (effect (.watchdog b.launch b.block) d).block? b.launch b.block = some { c.block with beams := c.block.beams.map Beam.stopped } := by
  have hc0 : d.ctx? { launch := b.launch, block := b.block, beam := 0 } = some c := by rw [← hb]; exact hc
  obtain ⟨-, hk, -⟩ := ctx?_parts hc
  have hblocks {e : Dev} (f typ : Nat) (p : List Byte) (h : e.block? b.launch b.block = some { c.block with beams := c.block.beams.map Beam.stopped }) :
      (e.glintTo f typ p).block? b.launch b.block = some { c.block with beams := c.block.beams.map Beam.stopped } := by
    simpa only [Dev.block?, (Dev.posts_glintTo e f typ p).blocks] using h
  change (match d.ctx? { launch := b.launch, block := b.block, beam := 0 } with
    | none => d
    | some c => _ : Dev).block? _ _ = _
  simp only [hc0, hdue, Bool.not_true, Bool.false_eq_true, if_false]
  refine hblocks _ _ _ ((Dev.block?_updBlock _ _ _ (fun _ => ?_) (fun _ => ?_)).trans ?_)
  · rfl
  · rfl
  · rw [hk]; rfl

/-- Settles O10: the trap that issue finds in a word and in a fetch, and the beams that the watchdog stops. -/
theorem wordsThatCannotRun : Obligations.WordsThatCannotRun := by
  intro s b c
  refine ⟨fun w h => exec_undefinedInstruction h, exec_instructionFetchFault, fun hb hc harr hlimit => ?_⟩
  refine ⟨_, exec_eq_effect _ s, _, watchdog_stops hb hc (by simp [Dev.watchdogDue, harr, hlimit]), fun m hm => ?_⟩
  obtain ⟨m, -, rfl⟩ := List.mem_map.mp hm
  exact m.stopped_status

end Sys2Proof.Machine
end

section
/-! The memory instructions (R56, R57, R120, R131, R224, R226, R428): operands that pass their checks, the accesses of an instruction's rays in
order, and the statements about LDL to CCTL. -/

namespace Sys2Proof

/-- What is read of a found element where an update of another test's first element changes neither the search nor the part read. -/
theorem map_find?_updFirst {α β : Type} (p q : α → Bool) (f : α → α) (k : α → β) (hq : ∀ x, q (f x) = q x) (hk : ∀ x, k (f x) = k x)
    (l : List α) : ((updFirst p f l).find? q).map k = (l.find? q).map k := by
  induction l with
  | nil => rfl
  | cons x xs ih =>
    by_cases hp : p x = true <;> by_cases hx : q x = true <;> simp [updFirst, List.find?, hp, hx, hq, hk, ih]

end Sys2Proof

namespace Sys2Proof.Machine

variable {d : Dev} {b : BeamRef} {c : Ctx} {f : KFields} {s : State} {n : Nat}

/-! ## What the count of an issue leaves -/

theorem Dev.block?_noteIssue_map {β : Type} (k : Block → β) (hk : ∀ x w, k { x with watchdog := w } = k x) (l i : Nat) :
    ((d.noteIssue c).block? l i).map k = (d.block? l i).map k := by
  unfold Dev.noteIssue
  split
  · exact map_find?_updFirst _ _ (fun x : Block => { x with watchdog := x.watchdog + 1 }) k (fun _ => rfl) (fun x => hk x _) _
  · rfl

/-- The moves that a scratchpad access waits for depend on the block's core alone. -/
theorem Dev.scratchBusy_eq (d : Dev) (launch index off n : Nat) (stores : Bool) : d.scratchBusy launch index off n stores =
    (((d.block? launch index).map Block.core).map fun core => (d.core core).movQ.any fun e =>
      decide (e.beam.launch = launch) && decide (e.beam.block = index) && e.touches off n stores).getD true := by
  unfold Dev.scratchBusy
  cases d.block? launch index <;> rfl

@[simp] theorem Dev.localBusy_noteIssue (a : Nat) (stores : Bool) : (d.noteIssue c).localBusy c a n stores = d.localBusy c a n stores := by
  unfold Dev.localBusy
  cases c.localTarget a n with
  | none => rfl
  | some t =>
    dsimp only
    rw [Dev.scratchBusy_eq, Dev.scratchBusy_eq, Dev.block?_noteIssue_map _ (fun _ _ => rfl)]
    simp only [Dev.core_noteIssue]

@[simp] theorem Ctx.noted_rBytes (spec ray : Nat) : (c.noted d).rBytes spec ray n = c.rBytes spec ray n := by
  simp [Ctx.rBytes, Ctx.rVal]
@[simp] theorem Ctx.noted_groupTraps (spec : Nat) : (c.noted d).groupTraps spec n = c.groupTraps spec n := by simp [Ctx.groupTraps]
@[simp] theorem Ctx.noted_groupPoison (spec : Nat) : (c.noted d).groupPoison spec n = c.groupPoison spec n := by simp [Ctx.groupPoison]
@[simp] theorem Ctx.noted_rDstTraps (spec : Nat) : (c.noted d).rDstTraps spec = c.rDstTraps spec := by simp [Ctx.rDstTraps]
@[simp] theorem Ctx.noted_dataSrcTraps (spec : Nat) : (c.noted d).dataSrcTraps spec n = c.dataSrcTraps spec n := by simp [Ctx.dataSrcTraps]
@[simp] theorem Ctx.noted_dataPoison (spec : Nat) : (c.noted d).dataPoison spec n = c.dataPoison spec n := by simp [Ctx.dataPoison]
@[simp] theorem Ctx.noted_globalAddr (r : Nat) : (c.noted d).globalAddr f r = c.globalAddr f r := by simp [Ctx.globalAddr]
@[simp] theorem Ctx.noted_scalarAddr : (c.noted d).scalarAddr f = c.scalarAddr f := by simp [Ctx.scalarAddr]
@[simp] theorem Ctx.noted_atomTraps : (c.noted d).atomTraps f = c.atomTraps f := by simp [Ctx.atomTraps]
@[simp] theorem Ctx.noted_atomPoison : (c.noted d).atomPoison f = c.atomPoison f := by simp [Ctx.atomPoison]
@[simp] theorem Ctx.noted_atomX (r : Nat) : (c.noted d).atomX f r = c.atomX f r := by simp [Ctx.atomX, Ctx.rVal]
@[simp] theorem Ctx.noted_atomY (r : Nat) : (c.noted d).atomY f r = c.atomY f r := by simp [Ctx.atomY]
@[simp] theorem Dev.localRead_noted (e : Dev) (a : Nat) : e.localRead (c.noted d) a n = e.localRead c a n := by
  simp only [Dev.localRead, Dev.localAt, Ctx.noted_localTarget, Ctx.noted_ref]
@[simp] theorem Dev.localStore_noted (e : Dev) (l : List (Nat × List Byte)) (p : Bool) :
    e.localStore (c.noted d) l p = e.localStore c l p := by
  simp only [Dev.localStore, Dev.localAt, Ctx.noted_localTarget, Ctx.noted_ref]
@[simp] theorem Dev.loadRegs_noted (e : Dev) (spec : Nat) (l : List (Nat × List Byte)) (p : Bool) :
    e.loadRegs (c.noted d) spec n l p = e.loadRegs c spec n l p := by simp only [Dev.loadRegs, Ctx.noted_ref]
@[simp] theorem Dev.beamRead_noted (e : Dev) (a : Nat) : e.beamRead (c.noted d) a n = e.beamRead c a n := by
  simp only [Dev.beamRead, Ctx.noted_launch, Ctx.noted_core]
@[simp] theorem Dev.beamWrite_noted (e : Dev) (a : Nat) (l : List Byte) (p : Bool) : e.beamWrite (c.noted d) a l p = e.beamWrite c a l p := by
  simp only [Dev.beamWrite, Ctx.noted_launch, Ctx.noted_core]
@[simp] theorem Dev.coreRead_noted (e : Dev) (a : Nat) : e.coreRead (c.noted d) a n = e.coreRead c a n := by
  simp only [Dev.coreRead, Dev.beamRead_noted, Ctx.noted_launch, Ctx.noted_core]
@[simp] theorem Dev.storeHome_noted (e : Dev) (cls line : Nat) (l : List (Nat × Byte)) (p : Bool) :
    e.storeHome (c.noted d) cls line l p = e.storeHome c cls line l p := by
  simp only [Dev.storeHome, Ctx.noted_launch, Ctx.noted_core]
@[simp] theorem Dev.storeLine_noted (e : Dev) (cls line : Nat) (l : List (Nat × Byte)) (p : Bool) :
    e.storeLine (c.noted d) cls line l p = e.storeLine c cls line l p := by
  simp only [Dev.storeLine, Dev.storeHome_noted, Ctx.noted_launch, Ctx.noted_core]
@[simp] theorem Dev.globalStore_noted (e : Dev) (l : List (Nat × List Byte)) (p : Bool) :
    e.globalStore (c.noted d) l p = e.globalStore c l p := by
  simp only [Dev.globalStore, Dev.storeLine_noted, Dev.beamWrite_noted, Ctx.noted_launch]
@[simp] theorem Dev.heldStores_noted (e : Dev) (l : List Nat) : e.heldStores (c.noted d) l = e.heldStores c l := by
  simp only [Dev.heldStores, Ctx.noted_launch, Ctx.noted_core]
@[simp] theorem Dev.confirmOldest_noted (e : Dev) : e.confirmOldest (c.noted d) = e.confirmOldest c := by
  simp only [Dev.confirmOldest, Dev.confirmRegions, Ctx.noted_launch, Ctx.noted_core, Ctx.noted_ref]
@[simp] theorem Dev.atomHome_noted (e : Dev) (r a : Nat) : e.atomHome (c.noted d) f r a = e.atomHome c f r a := by
  simp only [Dev.atomHome, Dev.beamRead_noted, Dev.storeHome_noted, Ctx.noted_launch, Ctx.noted_core, Ctx.noted_atomX, Ctx.noted_atomY,
    Ctx.noted_atomPoison]

theorem issued_part (h : Issues s.dev b c) {rows : Ctx → List Nat} {body : Dev → Ctx → Issue} {e : Dev}
    (hb : body (s.dev.noteIssue c) (c.noted s.dev) = .part e) : Host.Outcome.next (s.to (s.dev.issue b rows body)) = (.next (s.to e) : Out) := by
  rw [Dev.issue_of_issues h, hb]

/-! ## Operands that pass their checks -/

theorem Ctx.dataSrcTraps_of_rayData {spec : BitVec 8} (h : RayData c false spec n) : c.dataSrcTraps spec.toNat n = [] := by
  unfold RayData at h
  unfold Ctx.dataSrcTraps
  split
  · exact Ctx.rSrcTraps_of_raySource (by simpa [*] using h)
  · exact Ctx.groupTraps_of_rayGroup (by simpa [*] using h)

theorem Ctx.atomTraps_of_operands (hop : f.mod.toNat ≤ 8) (hdst : RayDest c f.dst) (hsrc : if f.mod = 8 then RayGroup c f.b 2 else RaySource c f.b) :
    c.atomTraps f = [] := by
  have hop' : decide (8 < f.mod.toNat) = false := by simpa using hop
  rw [Ctx.atomTraps, hop', trapIf_false, Ctx.rDstTraps_of_rayDest hdst]
  split
  case isTrue hcas => rw [if_pos hcas] at hsrc; exact Ctx.groupTraps_of_rayGroup hsrc
  case isFalse hcas => rw [if_neg hcas] at hsrc; exact Ctx.rSrcTraps_of_raySource hsrc

theorem Ctx.localTraps_of_localOk {a : Nat} {stores : Bool} (h : LocalOk d c a n stores) : c.localTraps a n = [] := by
  obtain ⟨halign, htarget, -⟩ := h
  simp [Ctx.localTraps, trapIf, halign, Option.isSome_iff_ne_none.mp htarget]

theorem flatten_map_nil {α β : Type} {l : List α} {g : α → List β} (h : ∀ x ∈ l, g x = []) : (l.map g).flatten = [] := by
  simpa [List.flatten_eq_nil_iff] using h

theorem globalTraps_of_globalOk {kind : AccessKind} {a : Nat} (h : GlobalOk d c kind a n) : alignTraps a n ++ d.globalTraps c kind a n = [] := by
  rw [alignTraps_of_mod h.1, h.2]; rfl

theorem any_localBusy_of_localOk {l : List Nat} {addr : Nat → Nat} {stores : Bool} (h : ∀ r ∈ l, LocalOk d c (addr r) n stores) :
    (l.any fun r => d.localBusy c (addr r) n stores) = false := by
  simp only [List.any_eq_false, Bool.not_eq_true]
  exact fun r hr => (h r hr).2.2

theorem scalarDataTraps_dst {spec : BitVec 8} (h : ScalarDest spec) (h16 : n = 16 → spec.toNat < 0xEF) :
    scalarDataTraps n spec.toNat true = [] := by
  obtain ⟨hlo, hhi⟩ := h
  have hpair : ¬ (n = 16 ∧ 0xEF ≤ spec.toNat) := fun e => absurd (h16 e.1) (by omega)
  simpa [scalarDataTraps, trapIf, sDstBad, hlo, Nat.lt_succ_of_le hhi] using hpair

theorem scalarDataTraps_src {spec : BitVec 8} (h : ScalarSource spec) (h16 : n = 16 → spec.toNat < 0xEF) :
    scalarDataTraps n spec.toNat false = [] := by
  have hpair : ¬ (n = 16 ∧ 0xEF ≤ spec.toNat) := fun e => absurd (h16 e.1) (by omega)
  simpa [scalarDataTraps, trapIf, sSrcBad_of_scalarSource h] using hpair

/-! ## The accesses of an instruction's rays -/

/-- The model's fold over an instruction's rays is `rayRun`, behind what the fold began with. -/
theorem foldl_rayRun (access : Dev → Nat → List Byte × Bool × Dev) (rays : List Nat) (l : List (Nat × List Byte)) (p : Bool) (d : Dev) :
    rays.foldl (fun (acc : List (Nat × List Byte) × Bool × Dev) r =>
      (acc.1 ++ [(r, (access acc.2.2 r).1)], acc.2.1 || (access acc.2.2 r).2.1, (access acc.2.2 r).2.2)) (l, p, d) =
    (l ++ (rayRun access d rays).1, p || (rayRun access d rays).2.1, (rayRun access d rays).2.2) := by
  induction rays generalizing l p d with
  | nil => simp [rayRun]
  | cons r rs ih => rw [List.foldl_cons, ih]; simp [rayRun, Bool.or_assoc]

theorem foldl_rayRun_nil (access : Dev → Nat → List Byte × Bool × Dev) (rays : List Nat) (d : Dev) :
    rays.foldl (fun (acc : List (Nat × List Byte) × Bool × Dev) r =>
      (acc.1 ++ [(r, (access acc.2.2 r).1)], acc.2.1 || (access acc.2.2 r).2.1, (access acc.2.2 r).2.2)) ([], false, d) =
    rayRun access d rays := by
  rw [foldl_rayRun, List.nil_append, Bool.false_or]

/-! ## Local accesses -/

theorem exec_ldl (h : Issues s.dev b c) (hm : MaskField f.msk) (hn : memWidth f = some n) (ha : RaySource c f.a)
    (hclean : CleanAddress c f (c.rPoison f.a.toNat)) (hdst : RayData c true f.dst n)
    (hok : ∀ r ∈ c.memRays f, LocalOk s.dev c (c.localAddr f r).toNat n false) :
    exec (.ldl b f) s = .next (s.to (Dev.loaded c f n
      (rayRun (fun d r => d.localRead c (c.localAddr f r).toNat n) (s.dev.noteIssue c) (c.memRays f)))) := by
  refine issued_done h ?_
  simp only [memBytes_of_memWidth hn, Ctx.noted_memRays, Ctx.mskTraps_of_maskField hm, widthTraps_of_memWidth hn, Ctx.noted_rSrcTraps,
    Ctx.rSrcTraps_of_raySource ha, Ctx.noted_dataDstTraps, Ctx.dataDstTraps_of_rayData hdst, Ctx.noted_localAddr, Ctx.noted_localTraps,
    flatten_map_nil fun r hr => Ctx.localTraps_of_localOk (hok r hr), Ctx.noted_rPoison, addrPoison_of_cleanAddress hclean, List.append_nil,
    checked_nil, Dev.localBusy_noted, Dev.localBusy_noteIssue, any_localBusy_of_localOk hok, Bool.false_eq_true, if_false, Dev.localRead_noted,
    Dev.loadRegs_noted, Dev.next_noted]
  rw [foldl_rayRun_nil fun d r => d.localRead c (c.localAddr f r).toNat n]
  rfl

theorem exec_stl (h : Issues s.dev b c) (hm : MaskField f.msk) (hn : memWidth f = some n) (ha : RaySource c f.a)
    (hclean : CleanAddress c f (c.rPoison f.a.toNat)) (hsrc : RayData c false f.b n)
    (hok : ∀ r ∈ c.memRays f, LocalOk s.dev c (c.localAddr f r).toNat n true) :
    exec (.stl b f) s = .next (s.to (((s.dev.noteIssue c).localStore c
      ((c.memRays f).map fun r => ((c.localAddr f r).toNat, c.rBytes f.b.toNat r n)) (c.dataPoison f.b.toNat n)).next c)) := by
  refine issued_done h ?_
  simp only [memBytes_of_memWidth hn, Ctx.noted_memRays, Ctx.mskTraps_of_maskField hm, widthTraps_of_memWidth hn, Ctx.noted_rSrcTraps,
    Ctx.rSrcTraps_of_raySource ha, Ctx.noted_dataSrcTraps, Ctx.dataSrcTraps_of_rayData hsrc, Ctx.noted_localAddr, Ctx.noted_localTraps,
    flatten_map_nil fun r hr => Ctx.localTraps_of_localOk (hok r hr), Ctx.noted_rPoison, addrPoison_of_cleanAddress hclean, List.append_nil,
    checked_nil, Dev.localBusy_noted, Dev.localBusy_noteIssue, any_localBusy_of_localOk hok, Bool.false_eq_true, if_false, Dev.localStore_noted,
    Ctx.noted_rBytes, Ctx.noted_dataPoison, Dev.next_noted]

theorem exec_atoml (h : Issues s.dev b c) (hm : MaskField f.msk) (hop : f.mod.toNat ≤ 8) (ha : RaySource c f.a)
    (hclean : CleanAddress c f (c.rPoison f.a.toNat)) (hdst : RayDest c f.dst) (hsrc : if f.mod = 8 then RayGroup c f.b 2 else RaySource c f.b)
    (hok : ∀ r ∈ c.memRays f, LocalOk s.dev c (c.localAddr f r).toNat 4 true) :
    exec (.atoml b f) s = .next (s.to (Dev.loaded c f 4 (rayRun (Dev.atomlRay c f) (s.dev.noteIssue c) (c.memRays f)))) := by
  refine issued_done h ?_
  simp only [Ctx.noted_memRays, Ctx.mskTraps_of_maskField hm, Ctx.noted_rSrcTraps, Ctx.rSrcTraps_of_raySource ha, Ctx.noted_atomTraps,
    Ctx.atomTraps_of_operands hop hdst hsrc, Ctx.noted_localAddr, Ctx.noted_localTraps,
    flatten_map_nil fun r hr => Ctx.localTraps_of_localOk (hok r hr), Ctx.noted_rPoison, addrPoison_of_cleanAddress hclean, List.append_nil,
    checked_nil, Dev.localBusy_noted, Dev.localBusy_noteIssue, any_localBusy_of_localOk hok, Bool.false_eq_true, if_false, Dev.localRead_noted,
    Dev.localStore_noted, Ctx.noted_atomX, Ctx.noted_atomY, Ctx.noted_atomPoison, Dev.loadRegs_noted, Dev.next_noted]
  refine congrArg Issue.done (congrArg (Dev.loaded c f 4) ?_)
  exact foldl_rayRun_nil (Dev.atomlRay c f) _ _

/-- Settles O11: each instruction's checks pass, and its rays' accesses follow one another. -/
theorem localMemory : Obligations.LocalMemory := by
  refine ⟨fun s b f c n h hm hn => ?_, fun s b f c h hm hop ha hclean hdst hsrc hok => exec_atoml h hm hop ha hclean hdst hsrc hok⟩
  intro d rays addr ha hclean
  exact ⟨exec_ldl h hm hn ha hclean, exec_stl h hm hn ha hclean⟩

/-! ## Global accesses -/

/-- LDG and LDV differ in how a ray's access is read. -/
theorem globalLoad_eq {read : Dev → Ctx → Nat → Nat → ReadResult × Dev} (hread : ∀ e a, read e (c.noted d) a n = read e c a n)
    (h : Issues d b c) (hm : MaskField f.msk) (hn : memWidth f = some n) (ha : RayGroup c f.a 2)
    (hclean : CleanAddress c f (c.groupPoison f.a.toNat 2)) (hdst : RayData c true f.dst n)
    (hok : ∀ r ∈ c.memRays f, GlobalOk (d.noteIssue c) c .read (c.globalAddr f r).toNat n) :
    d.globalLoad b f read = Dev.loaded c f n (rayRun (fun e r =>
      ((read e c (c.globalAddr f r).toNat n).1.bytes, (read e c (c.globalAddr f r).toNat n).1.poison, (read e c (c.globalAddr f r).toNat n).2))
        (d.noteIssue c) (c.memRays f)) := by
  refine Dev.issue_of_done h ?_
  simp only [memBytes_of_memWidth hn, Ctx.noted_memRays, Ctx.mskTraps_of_maskField hm, widthTraps_of_memWidth hn, Ctx.noted_groupTraps,
    Ctx.groupTraps_of_rayGroup ha, Ctx.noted_dataDstTraps, Ctx.dataDstTraps_of_rayData hdst, Ctx.noted_globalAddr, Dev.globalTraps_noted,
    flatten_map_nil fun r hr => globalTraps_of_globalOk (hok r hr), Ctx.noted_groupPoison, addrPoison_of_cleanAddress hclean, List.append_nil,
    checked_nil, hread, Dev.loadRegs_noted, Dev.next_noted]
  refine congrArg Issue.done (congrArg (Dev.loaded c f n) ?_)
  exact foldl_rayRun_nil (fun e r => ((read e c (c.globalAddr f r).toNat n).1.bytes, (read e c (c.globalAddr f r).toNat n).1.poison,
    (read e c (c.globalAddr f r).toNat n).2)) _ _

/-- STG whose checks pass stores the rays that are left, or those before the one that a 17th peer region holds (R226). -/
theorem stg_issue (h : Issues s.dev b c) (hm : MaskField f.msk) (hn : memWidth f = some n) (ha : RayGroup c f.a 2)
    (hclean : CleanAddress c f (c.groupPoison f.a.toNat 2)) (hsrc : RayData c false f.b n)
    (hok : ∀ r ∈ c.memRays f, GlobalOk (s.dev.noteIssue c) c .write (c.globalAddr f r).toNat n) :
    let d := s.dev.noteIssue c
    let left := (c.memRays f).drop c.beam.stored
    let store := fun (rays : List Nat) => d.globalStore c (rays.map fun r => ((c.globalAddr f r).toNat, c.rBytes f.b.toNat r n))
      (c.dataPoison f.b.toNat n)
    exec (.stg b f) s = .next (s.to (match d.heldStores c (left.map fun r => (c.globalAddr f r).toNat) with
      | none => ((store left).updBeam b fun m => { m with stored := 0 }).next c
      | some i => ((store (left.take i)).updBeam b fun m => { m with stored := m.stored + i }).confirmOldest c)) := by
  intro d left store
  change Host.Outcome.next (s.to (s.dev.issue _ _ _)) = _
  rw [Dev.issue_of_issues h]
  simp only [memBytes_of_memWidth hn, Ctx.noted_memRays, Ctx.mskTraps_of_maskField hm, widthTraps_of_memWidth hn, Ctx.noted_groupTraps,
    Ctx.groupTraps_of_rayGroup ha, Ctx.noted_dataSrcTraps, Ctx.dataSrcTraps_of_rayData hsrc, Ctx.noted_globalAddr, Dev.globalTraps_noted,
    flatten_map_nil fun r hr => globalTraps_of_globalOk (hok r hr), Ctx.noted_groupPoison, addrPoison_of_cleanAddress hclean, List.append_nil,
    checked_nil, Ctx.noted_beam, Ctx.noted_rBytes, Ctx.noted_dataPoison, Dev.globalStore_noted, Dev.heldStores_noted, Ctx.noted_ref, ctx?_ref h.1,
    Dev.next_noted, Dev.confirmOldest_noted]
  cases d.heldStores c (left.map fun r => (c.globalAddr f r).toNat) <;> rfl

theorem exec_atomg (h : Issues s.dev b c) (hm : MaskField f.msk) (hop : f.mod.toNat ≤ 8) (ha : RayGroup c f.a 2)
    (hclean : CleanAddress c f (c.groupPoison f.a.toNat 2)) (hdst : RayDest c f.dst)
    (hsrc : if f.mod = 8 then RayGroup c f.b 2 else RaySource c f.b)
    (hok : ∀ r ∈ c.memRays f, GlobalOk (s.dev.noteIssue c) c .atomic (c.globalAddr f r).toNat 4) :
    exec (.atomg b f) s = .next (s.to (Dev.loaded c f 4
      (rayRun (fun d r => d.atomHome c f r (c.globalAddr f r).toNat) (s.dev.noteIssue c) (c.memRays f)))) := by
  refine issued_done h ?_
  simp only [Ctx.noted_memRays, Ctx.mskTraps_of_maskField hm, Ctx.noted_groupTraps, Ctx.groupTraps_of_rayGroup ha, Ctx.noted_atomTraps,
    Ctx.atomTraps_of_operands hop hdst hsrc, Ctx.noted_globalAddr, Dev.globalTraps_noted,
    flatten_map_nil fun r hr => globalTraps_of_globalOk (hok r hr), Ctx.noted_groupPoison, addrPoison_of_cleanAddress hclean, List.append_nil,
    checked_nil, Dev.atomHome_noted, Dev.loadRegs_noted, Dev.next_noted]
  refine congrArg Issue.done (congrArg (Dev.loaded c f 4) ?_)
  exact foldl_rayRun_nil (fun d r => d.atomHome c f r (c.globalAddr f r).toNat) _ _

/-- Settles O13: the checks of each instruction pass; a store by whether a 17th peer region holds one of its rays. -/
theorem globalAccesses : Obligations.GlobalAccesses := by
  intro s b f c n h hm d rays addr ha hclean
  refine ⟨fun hn hdst hok => ⟨?_, ?_⟩, fun hn hsrc hok => ?_, fun hop hdst hsrc hok => exec_atomg h hm hop ha hclean hdst hsrc hok⟩
  · exact congrArg (fun e => Host.Outcome.next (s.to e)) (globalLoad_eq (fun e a => Dev.coreRead_noted e a) h hm hn ha hclean hdst hok)
  · exact congrArg (fun e => Host.Outcome.next (s.to e)) (globalLoad_eq (fun e a => Dev.beamRead_noted e a) h hm hn ha hclean hdst hok)
  · intro left store
    rw [stg_issue h hm hn ha hclean hsrc hok]
    exact ⟨fun hheld => by simp only [d, rays, addr, left, store] at *; rw [hheld],
      fun i hheld => by simp only [d, rays, addr, left, store] at *; rw [hheld]⟩

/-! ## Scalar loads and stores -/

theorem Dev.heldStores_isSome_of_none {l : List Nat} (h : d.heldStores c l = none) : (d.heldStores c l).isSome = false := by rw [h]; rfl

/-- LDS whose checks pass: the word enters the scalar register, or its poison parks the beam (R428). -/
theorem lds_issue (h : Issues s.dev b c) (hn : memWidth f = some n) (ha : ScalarSource f.a) (hdst : ScalarDest f.dst)
    (h16 : n = 16 → f.dst.toNat < 0xEF) (hok : GlobalOk (s.dev.noteIssue c) c .read (c.scalarAddr f).toNat n) :
    let d := s.dev.noteIssue c
    let v := d.coreRead c (c.scalarAddr f).toNat n
    exec (.lds b f) s = .next (s.to (if v.1.poison then (d.park c (mkTrap .poison (c.scalarAddr f).toNat)).updBeam b fun m =>
        { m with debugStep := false }
      else (v.2.updBeam b fun m =>
        let m := m.sWrite f.dst.toNat (BitVec.ofNat 64 (leAt v.1.bytes 0 (min n 8)))
        if n = 16 then m.sWrite (f.dst.toNat + 1) (BitVec.ofNat 64 (leAt v.1.bytes 8 8)) else m).next c)) := by
  intro d v
  change Host.Outcome.next (s.to (s.dev.issue _ _ _)) = _
  rw [Dev.issue_of_issues h]
  simp only [memBytes_of_memWidth hn, widthTraps_of_memWidth hn, sSrcBad_of_scalarSource ha, trapIf_false, scalarDataTraps_dst hdst h16,
    Ctx.noted_scalarAddr, Dev.globalTraps_noted, alignTraps_of_mod hok.1, hok.2, List.append_nil, checked_nil, Dev.coreRead_noted, Ctx.noted_ref,
    ctx?_ref h.1, Dev.next_noted, Dev.park_noted, d, v]
  cases ((s.dev.noteIssue c).coreRead c (c.scalarAddr f).toNat n).1.poison <;> rfl

theorem exec_sts (h : Issues s.dev b c) (hn : memWidth f = some n) (ha : ScalarSource f.a) (hsrc : ScalarSource f.b)
    (h16 : n = 16 → f.b.toNat < 0xEF) (hok : GlobalOk (s.dev.noteIssue c) c .write (c.scalarAddr f).toNat n)
    (hheld : (s.dev.noteIssue c).heldStores c [(c.scalarAddr f).toNat] = none) :
    exec (.sts b f) s = .next (s.to (((s.dev.noteIssue c).globalStore c [((c.scalarAddr f).toNat,
      (leBytes 8 (c.sVal f.b.toNat).toNat ++ leBytes 8 (c.sVal (f.b.toNat + 1)).toNat).take n)] false).next c)) := by
  refine issued_done h ?_
  simp only [memBytes_of_memWidth hn, widthTraps_of_memWidth hn, sSrcBad_of_scalarSource ha, trapIf_false, scalarDataTraps_src hsrc h16,
    Ctx.noted_scalarAddr, Dev.globalTraps_noted, alignTraps_of_mod hok.1, hok.2, List.append_nil, checked_nil, Ctx.noted_sVal,
    Dev.heldStores_noted, Dev.heldStores_isSome_of_none hheld, Bool.false_eq_true, if_false, Dev.globalStore_noted, Dev.next_noted]

/-- Settles O14: LDS by the poison of its word, STS as its checks pass. -/
theorem scalarMemory : Obligations.ScalarMemory := by
  intro s b f c n h hn ha d a
  refine ⟨fun hdst h16 hok hclean => ?_, fun hdst h16 hok hpoison => ?_, exec_sts h hn ha⟩
  · have hread : ((s.dev.noteIssue c).coreRead c (c.scalarAddr f).toNat n).1.poison = false := hclean
    rw [lds_issue h hn ha hdst h16 hok]
    dsimp only
    rw [hread, if_neg Bool.false_ne_true]
    by_cases hwide : n = 16
    · subst hwide; rfl
    · simp only [hwide, if_false]; rfl
  · have hread : ((s.dev.noteIssue c).coreRead c (c.scalarAddr f).toNat n).1.poison = true := hpoison
    rw [lds_issue h hn ha hdst h16 hok]
    dsimp only
    rw [hread, if_pos rfl]
    rfl

/-! ## Prefetch and cache control (R56, R131) -/

theorem exec_pref (h : Issues s.dev b c) (hm : MaskField f.msk) (ha : RayGroup c f.a 2)
    (hclean : CleanAddress c f (c.groupPoison f.a.toNat 2)) :
    exec (.pref b f) s = .next (s.to ((Dev.forEach (c.memRays f) (fun d r => match d.translate c.launch.facet (c.globalAddr f r).toNat with
      | .device pa cls _ => (d.access (mkReq .pref c.block.core c.launch.facet cls (pa / 128))).2
      | _ => d) (s.dev.noteIssue c)).next c)) := by
  refine issued_done h ?_
  simp only [Ctx.noted_memRays, Ctx.mskTraps_of_maskField hm, Ctx.noted_groupTraps, Ctx.groupTraps_of_rayGroup ha, Ctx.noted_groupPoison,
    addrPoison_of_cleanAddress hclean, List.append_nil, checked_nil, Ctx.noted_launch, Ctx.noted_globalAddr, Ctx.noted_core, Dev.next_noted] <;> rfl

/-- No ray of CCTL returns poison. -/
theorem rayRun_cctl_clean (op : BitVec 4) (rays : List Nat) (d : Dev) : (rayRun (Dev.cctlRay c f op) d rays).2.1 = false := by
  induction rays generalizing d with
  | nil => rfl
  | cons r rs ih =>
    have hray : (Dev.cctlRay c f op d r).2.1 = false := by unfold Dev.cctlRay; split <;> rfl
    simp [rayRun, ih, hray]

/-- A fold that takes one ray of CCTL after another is `rayRun`, behind what the fold began with. -/
theorem foldl_cctl {op : BitVec 4} {step : List (Nat × List Byte) × Dev → Nat → List (Nat × List Byte) × Dev}
    (hstep : ∀ acc r, step acc r = (acc.1 ++ [(r, (Dev.cctlRay c f op acc.2 r).1)], (Dev.cctlRay c f op acc.2 r).2.2)) (rays : List Nat)
    (l : List (Nat × List Byte)) (d : Dev) :
    rays.foldl step (l, d) = (l ++ (rayRun (Dev.cctlRay c f op) d rays).1, (rayRun (Dev.cctlRay c f op) d rays).2.2) := by
  induction rays generalizing l d with
  | nil => simp [rayRun]
  | cons r rs ih => rw [List.foldl_cons, hstep, ih]; simp [rayRun]

/-- CCTL acts on its rays' lines; PIN, UNPIN and PIN_RETAIN write their status. -/
theorem cacheControl_eq {op : BitVec 4} (h : Issues d b c) (hm : MaskField f.msk) (ha : RayGroup c f.a 2)
    (hclean : CleanAddress c f (c.groupPoison f.a.toNat 2))
    (hdst : (decide (op = 1) || decide (op = 2) || decide (op = 4)) = true → RayDest c f.dst)
    (hok : ∀ r ∈ c.memRays f, (d.noteIssue c).globalTraps c (if op = 3 then .read else .write) (c.globalAddr f r).toNat 1 = []) :
    d.cacheControl b f op = if decide (op = 1) || decide (op = 2) || decide (op = 4) then
        Dev.loaded c f 4 (rayRun (Dev.cctlRay c f op) (d.noteIssue c) (c.memRays f))
      else (rayRun (Dev.cctlRay c f op) (d.noteIssue c) (c.memRays f)).2.2.next c := by
  have htraps : (if decide (op = 1) || decide (op = 2) || decide (op = 4) then c.rDstTraps f.dst.toNat else []) = [] := by
    split
    case isTrue hop => exact Ctx.rDstTraps_of_rayDest (hdst hop)
    case isFalse => rfl
  refine Dev.issue_of_done h ?_
  simp only [Ctx.noted_memRays, Ctx.mskTraps_of_maskField hm, Ctx.noted_groupTraps, Ctx.groupTraps_of_rayGroup ha, Ctx.noted_rDstTraps, htraps,
    Ctx.noted_globalAddr, Dev.globalTraps_noted, flatten_map_nil hok, Ctx.noted_groupPoison, addrPoison_of_cleanAddress hclean, List.append_nil,
    checked_nil, Ctx.noted_launch, Ctx.noted_core, Dev.loadRegs_noted, Dev.next_noted]
  rw [foldl_cctl (c := c) (f := f) (op := op)]
  case hstep =>
    intro acc r
    unfold Dev.cctlRay
    cases acc.2.translate c.launch.facet (c.globalAddr f r).toNat <;> rfl
  split
  · rw [Dev.loaded, rayRun_cctl_clean, List.nil_append]
  · rfl

/-- Settles O16: PREF and the lines of each CCTL operation, by whether it returns a status. -/
theorem cacheControlInstructions : Obligations.CacheControlInstructions := by
  intro s b f c h hm ha hclean d rays addr
  have cctl {op : BitVec 4} hdst hok := congrArg (fun e => (Host.Outcome.next (s.to e) : Out)) (cacheControl_eq (op := op) h hm ha hclean hdst hok)
  refine ⟨exec_pref h hm ha hclean, fun hok => ?_, fun hok => ⟨?_, fun hdst p hp => ?_⟩⟩
  · exact cctl (op := 3) (fun h => absurd h (by decide)) hok
  · exact cctl (op := 0) (fun h => absurd h (by decide)) hok
  · simp only [List.mem_cons, List.not_mem_nil, or_false] at hp
    rcases hp with rfl | rfl | rfl
    · exact cctl (op := 1) (fun _ => hdst) hok
    · exact cctl (op := 2) (fun _ => hdst) hok
    · exact cctl (op := 4) (fun _ => hdst) hok

end Sys2Proof.Machine
end

section
/-! Sets of numbers, and the rows of tile registers (R86 to R88). -/

namespace Sys2Proof

@[simp] theorem NSet.has_add (s : NSet) (a b : Nat) : NSet.has (NSet.add s a) b = (decide (b = a) || NSet.has s b) := by
  unfold NSet.has
  induction s with
  | nil => simp [NSet.add]
  | cons k t ih =>
    simp only [NSet.add]
    split_ifs with hlt heq
    · simp
    · subst heq; by_cases h : b = a <;> simp [h]
    · rw [List.contains_cons, ih, List.contains_cons, Bool.or_left_comm]

@[simp] theorem NSet.has_del (s : NSet) (a b : Nat) : NSet.has (NSet.del s a) b = (decide (b ≠ a) && NSet.has s b) := by
  unfold NSet.has NSet.del
  by_cases h : b = a <;> simp [h]

theorem NSet.has_put_same (s : NSet) (a : Nat) (x : Bool) : NSet.has (NSet.put s a x) a = x := by
  cases x <;> simp [NSet.put]

theorem NSet.has_put_of_ne {a b : Nat} (h : b ≠ a) (s : NSet) (x : Bool) : NSet.has (NSet.put s a x) b = NSet.has s b := by
  cases x <;> simp [NSet.put, h]

theorem Mem.read_write_same (m : Mem) (a : Nat) (bs : List Byte) : Mem.read (Mem.write m a bs) a bs.length = bs := by
  refine List.ext_getElem (by simp [Mem.read]) fun i hi _ => ?_
  have hi' : i < bs.length := by simpa [Mem.read] using hi
  simp [Mem.read, Mem.get_write, hi']

theorem Mem.read_write_of_disjoint {a b n : Nat} {bs : List Byte} (h : b + n ≤ a ∨ a + bs.length ≤ b) (m : Mem) :
    Mem.read (Mem.write m a bs) b n = Mem.read m b n := by
  refine List.map_congr_left fun i hi => ?_
  have hi := List.mem_range.mp hi
  rw [Mem.get_write, if_neg (by omega)]

theorem length_leBytes (n v : Nat) : (leBytes n v).length = n := by
  induction n generalizing v with
  | zero => rfl
  | succ n ih => simp [leBytes, ih]

theorem leBytes_zero (n : Nat) : leBytes n 0 = List.replicate n 0 := by
  induction n with
  | zero => rfl
  | succ n ih => rw [leBytes, Nat.zero_div, ih]; rfl

end Sys2Proof

namespace Sys2Proof.Machine

/-! ## Tile rows after a write -/

theorem Block.tileRow_setTileRow_same (b : Block) (t row : Nat) {bs : List Byte} (h : bs.length = 128) (p : Bool) :
    (b.setTileRow t row bs p).tileRow t row = bs := by
  have hread := Mem.read_write_same b.tiles (tileAddr t row 0) bs
  rwa [h] at hread

theorem Block.rowPoison_setTileRow_same (b : Block) (t row : Nat) (bs : List Byte) (p : Bool) :
    (b.setTileRow t row bs p).rowPoison t row = p := NSet.has_put_same ..

theorem Block.tileRow_setTileRow_of_ne {t row t' row' : Nat} {bs : List Byte} (hlen : bs.length = 128) (hr : row < 128) (hr' : row' < 128)
    (h : t' ≠ t ∨ row' ≠ row) (b : Block) (p : Bool) : (b.setTileRow t row bs p).tileRow t' row' = b.tileRow t' row' :=
  Mem.read_write_of_disjoint (by simp only [tileAddr, hlen]; omega) b.tiles

theorem Block.rowPoison_setTileRow_of_ne {t row t' row' : Nat} (hr : row < 128) (hr' : row' < 128) (h : t' ≠ t ∨ row' ≠ row) (b : Block)
    (bs : List Byte) (p : Bool) : (b.setTileRow t row bs p).rowPoison t' row' = b.rowPoison t' row' :=
  NSet.has_put_of_ne (by omega) ..

/-- A block whose rows of a tile before row n have been zeroed. -/
def Block.zeroRows (b : Block) (t n : Nat) : Block := (List.range n).foldl (fun acc i => acc.setTileRow t i (leBytes 128 0) false) b

theorem Block.zeroRows_succ (b : Block) (t n : Nat) : b.zeroRows t (n + 1) = (b.zeroRows t n).setTileRow t n (leBytes 128 0) false := by
  simp [Block.zeroRows, List.range_succ]

theorem Block.zeroRows_row (b : Block) (t : Nat) {n r : Nat} (hn : n ≤ 128) (hr : r < n) :
    (b.zeroRows t n).tileRow t r = List.replicate 128 0 ∧ (b.zeroRows t n).rowPoison t r = false := by
  induction n with
  | zero => omega
  | succ n ih =>
    rw [Block.zeroRows_succ]
    by_cases h : r = n
    · subst h
      exact ⟨by rw [Block.tileRow_setTileRow_same _ _ _ (length_leBytes 128 0), leBytes_zero], Block.rowPoison_setTileRow_same ..⟩
    · rw [Block.tileRow_setTileRow_of_ne (length_leBytes 128 0) (by omega) (by omega) (.inr h),
        Block.rowPoison_setTileRow_of_ne (by omega) (by omega) (.inr h)]
      exact ih (by omega) (by omega)

theorem Block.zeroRows_other (b : Block) {t t' n r : Nat} (hn : n ≤ 128) (hr : r < 128) (h : t' ≠ t) :
    (b.zeroRows t n).tileRow t' r = b.tileRow t' r ∧ (b.zeroRows t n).rowPoison t' r = b.rowPoison t' r := by
  induction n with
  | zero => exact ⟨rfl, rfl⟩
  | succ n ih =>
    rw [Block.zeroRows_succ, Block.tileRow_setTileRow_of_ne (length_leBytes 128 0) (by omega) hr (.inl h),
      Block.rowPoison_setTileRow_of_ne (by omega) hr (.inl h)]
    exact ih (by omega)

end Sys2Proof.Machine
end

section
/-! The matrix instructions (R90 to R100, R115): a place in a queue, the checks, a completion, and the values of MMA, MMAS and MZERO. -/

namespace Sys2Proof.Machine

variable {d : Dev} {b : BeamRef} {c : Ctx} {f : KFields} {s : State}

/-! ## Issue -/

@[simp] theorem Ctx.noted_tileSpec (t : Nat) : (c.noted d).tileSpec t = c.tileSpec t := by simp [Ctx.tileSpec]
@[simp] theorem Ctx.noted_classTraps : (c.noted d).classTraps f = c.classTraps f := by simp [Ctx.classTraps]
@[simp] theorem Ctx.noted_quadTraps (t : Nat) (l : List Nat) : (c.noted d).quadTraps t l = c.quadTraps t l := by simp [Ctx.quadTraps]
@[simp] theorem Ctx.noted_mmaTraps (sparse : Bool) : (c.noted d).mmaTraps f sparse = c.mmaTraps f sparse := by
  have htile : (c.noted d).tileSpec = c.tileSpec := funext fun t => Ctx.noted_tileSpec t
  simp only [Ctx.mmaTraps, Ctx.noted_classTraps, Ctx.noted_quadTraps, htile]
@[simp] theorem Ctx.noted_mbinTraps : (c.noted d).mbinTraps f = c.mbinTraps f := by simp [Ctx.mbinTraps]
@[simp] theorem Ctx.noted_mbintTraps : (c.noted d).mbintTraps f = c.mbintTraps f := by simp [Ctx.mbintTraps]
@[simp] theorem Ctx.noted_mzeroTraps : (c.noted d).mzeroTraps f = c.mzeroTraps f := by simp [Ctx.mzeroTraps]
@[simp] theorem Ctx.noted_moveTraps : (c.noted d).moveTraps f = c.moveTraps f := by simp [Ctx.moveTraps, Ctx.sTraps]

/-- The place that a class 0x4 instruction takes, with the scalar operands of its issue. -/
def Dev.matrixEntry (d : Dev) (c : Ctx) (f : KFields) (i : Instr) (b : BeamRef) : QEntry :=
  QEntry.mk i b (d.core c.block.core).nextSeq (c.sVal f.a.toNat + f.imm.signExtend 64).toNat ((c.sVal f.b.toNat).toNat % 2 ^ 32)

theorem issueMatrix_ready {i : Instr} {move : Bool} {traps : Ctx → List Trap} (h : Issues d b c)
    (hready : MatrixReady (d.noteIssue c) c f move) (hnoted : traps (c.noted d) = traps c) (ht : traps c = []) :
    d.issueMatrix i b f move traps = ((d.noteIssue c).updCore c.block.core fun k =>
      if move then { k with movQ := k.movQ ++ [(d.noteIssue c).matrixEntry c f i b] }
      else { k with matQ := k.matQ ++ [(d.noteIssue c).matrixEntry c f i b] }).next c := by
  obtain ⟨-, -, -, hgate, hroom⟩ := hready
  have hroom' : ¬ 4 ≤ (if move = true then ((d.noteIssue c).core c.block.core).movQ else ((d.noteIssue c).core c.block.core).matQ).length := by
    cases move <;> simpa using hroom
  refine Dev.issue_of_done h ?_
  simp only [Ctx.noted_core, hgate, hroom', decide_false, Bool.or_false, Bool.and_false, Bool.false_eq_true, if_false, hnoted, ht, checked_nil,
    Ctx.noted_scalarAddr, Ctx.noted_sVal, Dev.next_noted]
  rfl

/-! ## Checks -/

theorem Ctx.tileSpec_eq_nil {t : Nat} (h : c.tileSpec t = []) : t ≤ 23 ∧ t < c.launch.params.tileRegs := by
  simp only [Ctx.tileSpec, trapIf, List.append_eq_nil_iff, ite_eq_right_iff, reduceCtorEq, imp_false, decide_eq_true_eq, Bool.and_eq_true] at h
  omega

theorem Ctx.quadTraps_eq_nil {dst : Nat} {l : List Nat} (h : c.quadTraps dst l = []) :
    dst % 4 = 0 ∧ dst + 3 < c.launch.params.tileRegs ∧ ∀ t ∈ l, t < dst ∨ dst + 4 ≤ t := by
  simp only [Ctx.quadTraps, List.append_eq_nil_iff] at h
  obtain ⟨⟨⟨halign, hfirst⟩, hlast⟩, hout⟩ := h
  have halign' : dst % 4 = 0 := by simpa [trapIf] using halign
  obtain ⟨hle, -⟩ := Ctx.tileSpec_eq_nil hfirst
  rw [if_pos (by omega)] at hlast
  refine ⟨halign', (Ctx.tileSpec_eq_nil hlast).2, fun t ht => ?_⟩
  have := by simpa [trapIf] using hout
  have := this t ht
  omega

theorem mformat_of_le {n : Nat} (h : 13 ≤ n) : mformat n = none := by
  obtain ⟨k, rfl⟩ := Nat.exists_eq_add_of_le' h
  rfl

/-- MMA's checks leave no tile beyond TILE_REGS, no destination quad off its boundary or with an operand inside, no undefined format and no
partial beam. -/
theorem Ctx.mmaTraps_eq_nil (h : c.mmaTraps f false = []) :
    f.a.toNat < c.launch.params.tileRegs ∧ f.b.toNat < c.launch.params.tileRegs ∧ f.dst.toNat % 4 = 0 ∧
      f.dst.toNat + 3 < c.launch.params.tileRegs ∧ (f.a.toNat < f.dst.toNat ∨ f.dst.toNat + 4 ≤ f.a.toNat) ∧
      (f.b.toNat < f.dst.toNat ∨ f.dst.toNat + 4 ≤ f.b.toNat) ∧ f.mod.toNat < 13 ∧ c.beam.path = ~~~ c.beam.exited := by
  simp only [Ctx.mmaTraps, Bool.false_eq_true, if_false, List.append_eq_nil_iff, List.flatten_eq_nil_iff, List.forall_mem_map] at h
  obtain ⟨⟨⟨hclass, htiles⟩, hquad⟩, hformat⟩ := h
  obtain ⟨halign, hlast, hout⟩ := Ctx.quadTraps_eq_nil hquad
  have hpath : c.beam.path = ~~~ c.beam.exited := by
    have := (List.append_eq_nil_iff.mp hclass).2
    simpa [trapIf] using this
  refine ⟨(Ctx.tileSpec_eq_nil (htiles _ (by simp))).2, (Ctx.tileSpec_eq_nil (htiles _ (by simp))).2, halign, hlast, hout _ (by simp),
    hout _ (by simp), ?_, hpath⟩
  by_contra hmod
  rw [mformat_of_le (by omega)] at hformat
  cases hformat

theorem lowestTrap_cons_of_le {t : Trap} {l : List Trap} (h : ∀ u ∈ l, t.cause.code ≤ u.cause.code) : lowestTrap (t :: l) = some t := by
  unfold lowestTrap leastBy
  by_cases hl : l = []
  · subst hl; rfl
  · obtain ⟨u, hu, hleast, -⟩ := leastBy_eq_some (fun t : Trap => t.cause.code) hl
    simp only [hleast, h u hu, if_true]

theorem Ctx.lowest_classTraps_partial (hpath : c.beam.path ≠ ~~~ c.beam.exited) (hm : f.msk = 0) (hcore : coreIsVector c.block.core = false)
    {l : List Trap} (h : ∀ t ∈ l, 0x0B ≤ t.cause.code) : lowestTrap (c.classTraps f ++ l) = some (mkTrap .partialBeamMatrix 0) := by
  have hclass : c.classTraps f = [mkTrap .partialBeamMatrix 0] := by simp [Ctx.classTraps, trapIf, hpath, hm, hcore]
  rw [hclass]
  exact lowestTrap_cons_of_le h

/-- Settles O17: one issue for the seven instructions, and what the checks that pass leave out. -/
theorem matrixIssueAndChecks : Obligations.MatrixIssueAndChecks := by
  refine ⟨fun s b f c h => ⟨fun hready p hp ht => ?_, fun hready ht make hmake => ?_⟩,
    fun c f => ⟨Ctx.mmaTraps_eq_nil, fun hpath hm hcore l => Ctx.lowest_classTraps_partial hpath hm hcore⟩⟩
  · have go {i : Instr} {traps : Ctx → List Trap} (hnoted : traps (c.noted s.dev) = traps c) (ht : traps c = []) :=
      congrArg (fun e => (Host.Outcome.next (s.to e) : Out)) (issueMatrix_ready (i := i) (move := false) h hready hnoted ht)
    simp only [List.mem_cons, List.not_mem_nil, or_false] at hp
    rcases hp with rfl | rfl | rfl | rfl | rfl
    · exact go (traps := fun c => c.mmaTraps f false) (Ctx.noted_mmaTraps false) ht
    · exact go (traps := fun c => c.mmaTraps f true) (Ctx.noted_mmaTraps true) ht
    · exact go (traps := fun c => c.mbinTraps f) Ctx.noted_mbinTraps ht
    · exact go (traps := fun c => c.mbintTraps f) Ctx.noted_mbintTraps ht
    · exact go (traps := fun c => c.mzeroTraps f) Ctx.noted_mzeroTraps ht
  · have go {i : Instr} := congrArg (fun e => (Host.Outcome.next (s.to e) : Out))
      (issueMatrix_ready (i := i) (move := true) (traps := fun c => c.moveTraps f) h hready Ctx.noted_moveTraps ht)
    simp only [List.mem_cons, List.not_mem_nil, or_false] at hmake
    rcases hmake with rfl | rfl
    · exact go
    · exact go

/-! ## Completion -/

theorem Dev.tileParity_of_none (h : d.strikes = Strikes.none) (e : QEntry) : d.tileParity e = d := by
  simp [Dev.tileParity, h, Strikes.none]

/-- Settles O18: no check is pending and none fails, so the head commits and leaves its queue. -/
theorem matrixCompletion : Obligations.MatrixCompletion := by
  intro s core move e rest hs hq hwait
  have hany : ((s.dev.core core).entries.any fun w => e.waitsFor w) = false := by simpa using hwait
  refine congrArg (fun e => (Host.Outcome.next (s.to e) : Out)) ?_
  simp only [Dev.matrixComplete, hq, hany, Bool.false_eq_true, if_false, Bool.false_and, Dev.tileParity_of_none hs, Dev.charge_of_none hs,
    Dev.workUnit, Bool.not_false, if_true]

/-! ## Results -/

theorem Block.product_nan {k : Block} {m : MFormat} {i j : Nat} {kp : Nat × Nat} (hmx : m.mx = true)
    (hs : k.scale (immAsc f) (immASlot f) i kp.1 = 0xFF) : k.product m f i j kp = .nan := by
  simp [Block.product, hmx, hs]

theorem Block.matrixExec_mzero (k : Block) (b : BeamRef) (h : f.imm.getLsbD 0 = false) :
    k.matrixExec (.mzero b f) [] = k.zeroRows f.dst.toNat 128 := by
  simp only [Block.matrixExec, h, Bool.false_eq_true, if_false, List.range_one, List.foldl_cons, List.foldl_nil, Nat.add_zero, Block.zeroRows]

/-- Settles O19: the groups of an output in order, and MZERO row by row. -/
theorem matrixResults : Obligations.MatrixResults := by
  refine ⟨fun k m sparse f i j => ⟨fun hint hg => ?_, fun hint hg => ?_, fun kp => Block.product_nan, fun g hsparse => ?_⟩,
    fun k b f h => ?_⟩
  · simp only [Block.mmaOut, hint, hg]; rfl
  · simp only [Block.mmaOut, hint, hg]; rfl
  · simp [Block.terms, hsparse]
  · intro t
    rw [show t = k.zeroRows f.dst.toNat 128 from k.matrixExec_mzero b h]
    exact ⟨fun r hr => k.zeroRows_row _ le_rfl hr, fun n r hn hr => k.zeroRows_other le_rfl hr hn⟩

end Sys2Proof.Machine
end

section
/-! The vector engine and the sort/select unit (R101 to R116): a place in a queue, a completion, and local loads and stores. -/

namespace Sys2Proof.Machine

variable {d : Dev} {b : BeamRef} {c : Ctx} {f : KFields} {s : State}

/-! ## Issue -/

@[simp] theorem Ctx.noted_vTraps (k : VKind) : (c.noted d).vTraps k f = c.vTraps k f := by
  unfold Ctx.noted; split <;> rfl
@[simp] theorem Ctx.noted_vConsumes (i : Instr) (k : VKind) : (c.noted d).vConsumes i k f = c.vConsumes i k f := by
  unfold Ctx.noted; split <;> rfl
@[simp] theorem Ctx.noted_sortTraps : (c.noted d).sortTraps f = c.sortTraps f := by unfold Ctx.noted; split <;> rfl
@[simp] theorem Ctx.noted_mergeTraps : (c.noted d).mergeTraps f = c.mergeTraps f := by unfold Ctx.noted; split <;> rfl
@[simp] theorem Dev.vectorGated_noteIssue (core : Nat) : (d.noteIssue c).vectorGated core = d.vectorGated core := by
  rw [Dev.noteIssue_eq]; rfl

/-- The block once the instruction stands last in its engine's queue and its beam waits for it. -/
def Dev.passIssued (d : Dev) (core : Nat) (sort : Bool) (i : Instr) (b : BeamRef) : Dev :=
  (d.updCore core fun q => if sort then { q with sortQ := q.sortQ ++ [QEntry.mk i b (d.core core).nextSeq 0 0] }
    else { q with vecQ := q.vecQ ++ [QEntry.mk i b (d.core core).nextSeq 0 0] }).updBeam b fun m => { m with passOut := true }

theorem Dev.updCore_congr {core : Nat} {g g' : Core → Core} (h : g (d.core core) = g' (d.core core)) : d.updCore core g = d.updCore core g' := by
  simp only [Dev.updCore, Dev.setCore, h]

theorem issueVector_ready {i : Instr} {k : VKind} (h : Issues d b c) (hgate : d.vectorGated c.block.core = false) (hk : vkind i = some k)
    (ht : c.vTraps k f = []) (hp : c.vConsumes i k f = []) :
    d.issueVector i b f = (d.noteIssue c).passIssued c.block.core false i b := by
  simp only [Dev.issueVector, hk]
  refine Dev.issue_of_done h ?_
  simp only [Ctx.noted_core, Dev.vectorGated_noteIssue, hgate, Bool.false_eq_true, if_false, Ctx.noted_vTraps, Ctx.noted_vConsumes, ht, hp,
    List.append_nil, checked_nil]
  rfl

theorem issueSort_ready {i : Instr} {traps : Ctx → List Trap} (h : Issues d b c) (hgate : d.vectorGated c.block.core = false)
    (hroom : (d.core c.block.core).sortQ.length < 4) (hnoted : traps (c.noted d) = traps c) (ht : traps c = []) :
    d.issueSort i b f traps = (d.noteIssue c).passIssued c.block.core true i b := by
  refine Dev.issue_of_done h ?_
  simp only [Ctx.noted_core, Dev.vectorGated_noteIssue, hgate, Dev.core_noteIssue, Nat.not_le.mpr hroom, decide_false, Bool.or_false,
    Bool.and_false, Bool.false_eq_true, if_false, hnoted, ht, checked_nil]
  rfl

/-- Settles O20: every vector instruction by one lemma over its pass, and the three of the sort/select unit by another. -/
theorem vectorIssue : Obligations.VectorIssue := by
  intro s b f c h hgate
  refine ⟨fun make hmake k hk ht hp => ?_, fun hroom p hp ht => ?_⟩
  · have go := congrArg (fun e => (Host.Outcome.next (s.to e) : Out)) (issueVector_ready h hgate hk ht hp)
    fin_cases hmake <;> exact go
  · have hroom : (s.dev.core c.block.core).sortQ.length < 4 := by simpa using hroom
    have go {i : Instr} {traps : Ctx → List Trap} (hnoted : traps (c.noted s.dev) = traps c) (ht : traps c = []) :=
      congrArg (fun e => (Host.Outcome.next (s.to e) : Out)) (issueSort_ready (f := f) (i := i) h hgate hroom hnoted ht)
    simp only [List.mem_cons, List.not_mem_nil, or_false] at hp
    rcases hp with rfl | rfl | rfl
    · exact go (traps := fun c => c.sortTraps f ++ c.groupTraps f.dst.toNat (regs64 c.len64)) (by simp [Ctx.len64]) ht
    · exact go (traps := fun c => c.mergeTraps f) Ctx.noted_mergeTraps ht
    · exact go (traps := fun c => c.sortTraps f ++ c.groupTraps f.dst.toNat (regs64 c.len64) ++
        trapIf (decide (48 ≤ f.imm.toNat % 64)) illegal) (by simp [Ctx.len64]) ht

/-! ## Completion -/

/-- What a vector pass without a failed check writes: a mask, a scalar, or the words of its destination. -/
def Dev.passWrites (d : Dev) (b : BeamRef) (c : Ctx) (i : Instr) (k : VKind) (f : KFields) : Dev :=
  match k with
  | .cmp32 _ true | .cmp64 _ true => d.updBeam b fun m => m.kSet f.dst.toNat (c.cmpkMask i k f)
  | .red => d.updBeam b fun m => m.sWrite f.dst.toNat (c.redValue f)
  | _ => d.writeWords b (c.opD f) (c.vWrites i k f [])

variable {core : Nat} {rest : List QEntry} {i : Instr} {k : VKind}

/-- A pass whose element does not fail again: the entry leaves its queue, and then parks or commits. -/
theorem passComplete_head {sort : Bool} (h : PassHead d core sort i b c rest) (hheld : d.mergeHeld c i = false) :
    d.passComplete core sort false [] =
      let e := d.updCore core fun q => if sort then { q with sortQ := rest } else { q with vecQ := rest }
      match vkind i, vectorFields i with
      | some v, some f => if tileA f && c.consumesA v f then e.park c (poisonReg 1 f.a.toNat) else e.vectorCommit c i v f []
      | _, _ => e.sortCommit c i false := by
  obtain ⟨hs, hc, hout, e, rfl, rfl, hwait, hq⟩ := h
  have hany : ((d.core core).entries.any fun w => e.waitsFor w) = false := by simpa using hwait
  set d' := d.updCore core fun q => if sort then { q with sortQ := rest } else { q with vecQ := rest } with hd'
  have hc' : d'.ctx? e.beam = some c := hc
  simp only [Dev.passComplete, hq, hany, Bool.false_eq_true, if_false, ← hd', hc', hout, Bool.not_true, hheld,
    Dev.tileParity_of_none (d := d') hs, Option.getD_some, Bool.false_and, Dev.charge_of_none hs, Dev.workUnit, Bool.not_false, if_true] <;> rfl

theorem mergeHeld_of_vkind (hk : vkind i = some k) : d.mergeHeld c i = false := by
  unfold Dev.mergeHeld
  split
  · simp [vkind] at hk
  · rfl

theorem ref_of_passHead {sort : Bool} (h : PassHead d core sort i b c rest) : c.ref = b := ctx?_ref h.2.1

/-- The head of the vector queue commits where no poisoned chunk stands in its way. -/
theorem exec_pass (h : PassHead s.dev core false i b c rest) (hk : vkind i = some k) (hf : vectorFields i = some f)
    (hA : tileA f = true → c.consumesA k f = false) :
    exec (.vectorPassComplete core false false []) s =
      .next (s.to (s.dev.passDone core false b rest fun d => d.passWrites b c i k f)) := by
  refine congrArg (fun e => (Host.Outcome.next (s.to e) : Out)) ((passComplete_head h (mergeHeld_of_vkind hk)).trans ?_)
  have hnot : ¬ (tileA f && c.consumesA k f) = true := by simpa using hA
  simp only [hk, hf, if_neg hnot]
  obtain rfl := ref_of_passHead h
  rfl

theorem exec_pass_poisoned (h : PassHead s.dev core false i b c rest) (hk : vkind i = some k) (hf : vectorFields i = some f)
    (ht : tileA f = true) (hA : c.consumesA k f = true) :
    exec (.vectorPassComplete core false false []) s =
      .next (s.to ((s.dev.updCore core fun k => { k with vecQ := rest }).park c (poisonReg 1 f.a.toNat))) := by
  refine congrArg (fun e => (Host.Outcome.next (s.to e) : Out)) ((passComplete_head h (mergeHeld_of_vkind hk)).trans ?_)
  simp only [hk, hf, ht, hA, Bool.and_self, if_true]
  rfl

/-! ### Element functions -/

theorem exec_pass32 {ua ub ud float : Bool} {g g' : BitVec 32 → BitVec 32 → BitVec 32 → BitVec 32}
    (hk : vkind i = some (.f32 ua ub ud g)) (hf : vectorFields i = some f) (hfl : isFloatOp i = float) (hg : ∀ x y z, g x y z = g' x y z)
    (h : PassHead s.dev core false i b c rest) :
    exec (.vectorPassComplete core false false []) s = .next (s.to (s.dev.passDone core false b rest fun d =>
      d.writeWords b (c.opD f) ((c.active f.msk c.beam.vl).map fun e =>
        ⟨e, BitVec.allOnes 32, g' (c.word (c.opA f) e) (c.word (c.opB float f) e) (c.word (c.opD f) e), c.wordMark f float ua ub ud e⟩))) := by
  rw [exec_pass h hk hf fun _ => rfl]
  simp only [Dev.passWrites, Ctx.vWrites, hfl, hg, List.contains_nil, Bool.or_false]
  rfl

theorem exec_pass64 {ub ud : Bool} {g g' : BitVec 64 → BitVec 64 → BitVec 64 → BitVec 64}
    (hk : vkind i = some (.f64 true ub ud g)) (hf : vectorFields i = some f) (hfl : isFloatOp i = false) (hg : ∀ x y z, g x y z = g' x y z)
    (h : PassHead s.dev core false i b c rest) :
    exec (.vectorPassComplete core false false []) s = .next (s.to (s.dev.passDone core false b rest fun d =>
      d.writeWords b (c.opD f) (((c.active f.msk (min c.beam.vl 128)).map fun e =>
        packedWrite 64 e (g' (c.dword (.group f.a.toNat) e) (c.dword (c.opB false f) e) (c.dword (.group f.dst.toNat) e)).toNat
          (c.dwordMark f true ub ud e)).flatten))) := by
  rw [exec_pass h hk hf fun _ => rfl]
  simp only [Dev.passWrites, Ctx.vWrites, hfl, hg, List.contains_nil, Bool.or_false]
  rfl

theorem vmulI_eq (x y : BitVec 32) : x * y = BitVec.ofNat 32 (x.toNat * y.toNat) := by
  apply BitVec.eq_of_toNat_eq; simp

theorem slt_min (x y : BitVec 32) : (if y.slt x then y else x) = if x.toInt ≤ y.toInt then x else y := by
  simp only [BitVec.slt, decide_eq_true_eq, ← Int.not_le, ite_not]

theorem slt_max (x y : BitVec 32) : (if x.slt y then y else x) = if x.toInt ≤ y.toInt then y else x := by
  simp only [BitVec.slt, decide_eq_true_eq]
  split_ifs with h₁ h₂ h₂
  · rfl
  · omega
  · exact BitVec.eq_of_toInt_eq (by omega)
  · rfl

theorem ult_min (x y : BitVec 32) : (if y.ult x then y else x) = if x.toNat ≤ y.toNat then x else y := by
  simp only [BitVec.ult, decide_eq_true_eq, ← Nat.not_le, ite_not]

theorem ult_max (x y : BitVec 32) : (if x.ult y then y else x) = if x.toNat ≤ y.toNat then y else x := by
  simp only [BitVec.ult, decide_eq_true_eq]
  split_ifs with h₁ h₂ h₂
  · rfl
  · omega
  · exact BitVec.eq_of_toNat_eq (by omega)
  · rfl

theorem popcount_toNat (x : BitVec 32) : popcount x.toNat 32 = ((List.range 32).filter fun i => x.getLsbD i).length := by
  simp only [popcount, countIf, BitVec.testBit_toNat]

/-! ### Comparisons -/

/-- The order of two integers, as a comparison takes it. -/
def intOrder (a b : Int) : Option Ordering := if a < b then some .lt else if a = b then some .eq else some .gt

theorem order32_slt (x y : BitVec 32) : order32 BitVec.slt x y = intOrder x.toInt y.toInt := by
  simp only [order32, intOrder, BitVec.slt, decide_eq_true_eq, BitVec.toInt_inj]
  by_cases h : x = y
  · subst h; simp
  · by_cases hlt : x.toInt < y.toInt <;> simp [h, hlt]

theorem order32_ult (x y : BitVec 32) : order32 BitVec.ult x y = intOrder x.toNat y.toNat := by
  simp only [order32, intOrder, BitVec.ult, decide_eq_true_eq, Int.ofNat_lt, Int.natCast_inj, BitVec.toNat_inj]
  by_cases h : x = y
  · subst h; simp
  · by_cases hlt : x.toNat < y.toNat <;> simp [h, hlt]

theorem bits_code (n : Nat) : bits n 0 3 = n % 8 := by simp [bits]

/-- The mask of VCMPK by lanes: bit r is element 32 j + r, compared where it is active. -/
theorem cmpk_lanes (f : KFields) (es : List Nat) (holds : Nat → Bool) :
    (((cmpkElements f).zip (List.range 32)).map fun p => boolNat (es.contains p.1 && holds p.1) * 2 ^ p.2) =
      (List.range 32).map fun r => if 32 * (f.imm.toNat / 8 % 8) + r ∈ es ∧ holds (32 * (f.imm.toNat / 8 % 8) + r) = true then 2 ^ r else 0 := by
  have hzip : (cmpkElements f).zip (List.range 32) = (List.range 32).map fun r => (32 * (f.imm.toNat / 8 % 8) + r, r) := by
    have := List.zip_map' (f := fun r => 32 * (f.imm.toNat / 8 % 8) + r) (g := id) (l := List.range 32)
    rwa [List.map_id] at this
  rw [hzip, List.map_map]
  refine List.map_congr_left fun r _ => ?_
  simp only [Function.comp, boolNat, Bool.and_eq_true, List.contains_iff_mem, ite_mul, one_mul, zero_mul]

/-- A comparison into elements: all ones where it holds, else zero. -/
theorem exec_cmp32 {order o : BitVec 32 → BitVec 32 → Option Ordering} (hk : vkind i = some (.cmp32 order false))
    (hf : vectorFields i = some f) (hfl : isFloatOp i = false) (ho : ∀ x y, order x y = o x y) (h : PassHead s.dev core false i b c rest) :
    exec (.vectorPassComplete core false false []) s = .next (s.to (s.dev.passDone core false b rest fun d =>
      d.writeWords b (c.opD f) ((c.active f.msk c.beam.vl).map fun e => ⟨e, BitVec.allOnes 32,
        if condition (f.imm.toNat % 8) (o (c.word (c.opA f) e) (c.word (c.opB false f) e)) = true then BitVec.allOnes 32 else 0,
        c.wordMark f false true true false e⟩))) := by
  rw [exec_pass h hk hf fun _ => rfl]
  simp only [Dev.passWrites, Ctx.vWrites, hfl, ho, bits_code, Ctx.wordMark, Bool.true_and, Bool.false_and, Bool.or_false]
  rfl

theorem exec_vcmpD (h : PassHead s.dev core false (.vcmpD b f) b c rest) :
    exec (.vectorPassComplete core false false []) s = .next (s.to (s.dev.passDone core false b rest fun d =>
      d.writeWords b (c.opD f) (((c.active f.msk (min c.beam.vl 128)).map fun e => packedWrite 64 e
        (if condition (f.imm.toNat % 8) (fpOrder (f64 (c.dword (.group f.a.toNat) e)) (f64 (c.dword (c.opB false f) e))) = true
          then 2 ^ 64 - 1 else 0) (c.dwordMark f true true false e)).flatten))) := by
  rw [exec_pass h rfl rfl fun _ => rfl]
  simp only [Dev.passWrites, Ctx.vWrites, isFloatOp, bits_code, Ctx.dwordMark, Bool.true_and, Bool.false_and, Bool.or_false]
  rfl

/-- A comparison into a mask, of 32-bit elements. -/
theorem exec_cmpk32 {order o : BitVec 32 → BitVec 32 → Option Ordering} (hk : vkind i = some (.cmp32 order true))
    (hf : vectorFields i = some f) (hfl : isFloatOp i = false) (ho : ∀ x y, order x y = o x y) (h : PassHead s.dev core false i b c rest)
    (hA : tileA f = true → c.consumesA (.cmp32 order true) f = false) :
    exec (.vectorPassComplete core false false []) s = .next (s.to (s.dev.passDone core false b rest fun d => d.updBeam b fun m =>
      m.kSet f.dst.toNat (BitVec.ofNat 32 (((List.range 32).map fun r =>
        if 32 * (f.imm.toNat / 8 % 8) + r ∈ c.active f.msk c.beam.vl ∧ condition (f.imm.toNat % 8)
          (o (c.word (c.opA f) (32 * (f.imm.toNat / 8 % 8) + r)) (c.word (c.opB false f) (32 * (f.imm.toNat / 8 % 8) + r))) = true
        then 2 ^ r else 0).sum)))) := by
  rw [exec_pass h hk hf hA]
  simp only [Dev.passWrites, Ctx.cmpkMask, hfl, ho, bits_code, cmpk_lanes f _ fun e =>
    condition (f.imm.toNat % 8) (o (c.word (c.opA f) e) (c.word (c.opB false f) e))]
  rfl

theorem exec_vcmpkD (h : PassHead s.dev core false (.vcmpkD b f) b c rest)
    (hA : tileA f = true → c.consumesA (.cmp64 (fun a b => fpOrder (f64 a) (f64 b)) true) f = false) :
    exec (.vectorPassComplete core false false []) s = .next (s.to (s.dev.passDone core false b rest fun d => d.updBeam b fun m =>
      m.kSet f.dst.toNat (BitVec.ofNat 32 (((List.range 32).map fun r =>
        if 32 * (f.imm.toNat / 8 % 8) + r ∈ c.active f.msk (min c.beam.vl 128) ∧ condition (f.imm.toNat % 8)
          (fpOrder (f64 (c.dword (.group f.a.toNat) (32 * (f.imm.toNat / 8 % 8) + r)))
            (f64 (c.dword (c.opB false f) (32 * (f.imm.toNat / 8 % 8) + r)))) = true
        then 2 ^ r else 0).sum)))) := by
  rw [exec_pass h rfl rfl hA]
  simp only [Dev.passWrites, Ctx.cmpkMask, isFloatOp, bits_code, cmpk_lanes f _ fun e =>
    condition (f.imm.toNat % 8) (fpOrder (f64 (c.dword (.group f.a.toNat) e)) (f64 (c.dword (c.opB false f) e)))]
  rfl

/-- Settles O21: one lemma for each kind of pass, and each instruction's element function. -/
theorem vectorCompute : Obligations.VectorCompute := by
  refine ⟨fun s core b f c rest => ⟨fun p hp => ?_, fun p hp => ?_⟩,
    fun s core b f c rest => ⟨fun p hp => ?_, exec_vcmpD, fun p hp => ?_, fun h hA => exec_vcmpkD h (hA _ rfl),
      fun h => exec_pass h rfl rfl fun _ => rfl, fun h => exec_pass h rfl rfl fun _ => rfl,
      fun h hA => exec_pass h rfl rfl (hA _ rfl), fun make hmake k h hk ht hA => ?_⟩⟩
  · simp only [List.mem_cons, List.not_mem_nil, or_false] at hp
    obtain ⟨g, hk, hf, hfl, hg⟩ : ∃ g, vkind (p.1 b f) = some (.f32 p.2.2.1 p.2.2.2.1 p.2.2.2.2.1 g) ∧ vectorFields (p.1 b f) = some f ∧
        isFloatOp (p.1 b f) = p.2.1 ∧ ∀ x y z, g x y z = p.2.2.2.2.2 x y z := by
      rcases hp with rfl | rfl | rfl | rfl | rfl | rfl | rfl | rfl | rfl | rfl | rfl | rfl | rfl | rfl | rfl | rfl | rfl | rfl | rfl | rfl |
        rfl | rfl | rfl | rfl | rfl | rfl | rfl | rfl | rfl
      all_goals refine ⟨_, rfl, rfl, rfl, fun x y _ => ?_⟩
      exacts [rfl, rfl, rfl, rfl, rfl, rfl, rfl, rfl, rfl, rfl, rfl, rfl, rfl, vmulI_eq x y, slt_min x y, slt_max x y, ult_min x y,
        ult_max x y, rfl, rfl, rfl, rfl, rfl, rfl, congrArg _ (popcount_toNat x), rfl, rfl, rfl, rfl]
    exact exec_pass32 hk hf hfl hg
  · simp only [List.mem_cons, List.not_mem_nil, or_false] at hp
    rcases hp with rfl | rfl | rfl | rfl | rfl | rfl | rfl | rfl
    all_goals exact exec_pass64 rfl rfl rfl fun _ _ _ => rfl
  · simp only [List.mem_cons, List.not_mem_nil, or_false] at hp
    rcases hp with rfl | rfl | rfl
    · exact exec_cmp32 (o := fun x y => fpOrder (f32 x) (f32 y)) rfl rfl rfl fun _ _ => rfl
    · exact exec_cmp32 (o := fun x y => intOrder x.toInt y.toInt) rfl rfl rfl order32_slt
    · exact exec_cmp32 (o := fun x y => intOrder x.toNat y.toNat) rfl rfl rfl order32_ult
  · simp only [List.mem_cons, List.not_mem_nil, or_false] at hp
    rcases hp with rfl | rfl | rfl
    · exact fun h hA => exec_cmpk32 (o := fun x y => fpOrder (f32 x) (f32 y)) rfl rfl rfl (fun _ _ => rfl) h (hA _ rfl)
    · exact fun h hA => exec_cmpk32 (o := fun x y => intOrder x.toInt y.toInt) rfl rfl rfl order32_slt h (hA _ rfl)
    · exact fun h hA => exec_cmpk32 (o := fun x y => intOrder x.toNat y.toNat) rfl rfl rfl order32_ult h (hA _ rfl)
  · have hf : vectorFields (make b f) = some f := by fin_cases hmake <;> rfl
    exact exec_pass_poisoned h hk hf ht hA

end Sys2Proof.Machine
end

section
/-! Reductions over a tree, and sorting (R107, R111, R112, R114). -/

namespace Sys2Proof.Machine

/-! ## The tree of a reduction -/

section
variable {α : Type} {op : α → α → α}

/-- The values of the positions combined from the last to the first. -/
def treeFold (op : α → α → α) (l : List (Option α)) : Option α := l.foldr (Option.merge op) none

theorem merge_assoc (h : ∀ x y z, op (op x y) z = op x (op y z)) (x y z : Option α) :
    (x.merge op y).merge op z = x.merge op (y.merge op z) := by
  cases x <;> cases y <;> cases z <;> simp [h]

theorem treeFold_treeLevel (h : ∀ x y z, op (op x y) z = op x (op y z)) (l : List (Option α)) :
    treeFold op (treeLevel op l) = treeFold op l := by
  have hcons (x y : Option α) (t : List (Option α)) : treeFold op (x.merge op y :: t) = treeFold op (x :: y :: t) :=
    merge_assoc h x y (treeFold op t)
  have hstep (x : Option α) {t t' : List (Option α)} (ht : treeFold op t = treeFold op t') : treeFold op (x :: t) = treeFold op (x :: t') :=
    congrArg (x.merge op) ht
  fun_induction treeLevel op l with
  | case1 a b t ih => exact (hstep _ ih).trans (hcons (some a) (some b) t)
  | case2 a t ih => exact (hstep _ ih).trans (hcons (some a) none t)
  | case3 b t ih => exact (hstep _ ih).trans (hcons none (some b) t)
  | case4 t ih => exact (hstep _ ih).trans (hcons none none t)
  | case5 a => rfl
  | case6 => rfl

theorem length_treeLevel (op : α → α → α) (l : List (Option α)) : (treeLevel op l).length = (l.length + 1) / 2 := by
  fun_induction treeLevel op l <;> simp_all <;> omega

theorem treeRoot_one (op : α → α → α) {l : List (Option α)} (hl : l.length ≤ 1) : treeRoot op 0 l = treeFold op l := by
  match l, hl with
  | [], _ => rfl
  | [x], _ => cases x <;> rfl

theorem treeRoot_eq (h : ∀ x y z, op (op x y) z = op x (op y z)) (n : Nat) {l : List (Option α)} (hl : l.length ≤ 2 ^ n) :
    treeRoot op n l = treeFold op l := by
  induction n generalizing l with
  | zero => exact treeRoot_one op hl
  | succ n ih => rw [treeRoot, ih (by rw [length_treeLevel]; omega), treeFold_treeLevel h]

/-- The values of the positions that have one. -/
def present (l : List (Option α)) : List α := l.filterMap id

theorem treeFold_eq_present (op : α → α → α) (l : List (Option α)) : treeFold op l = treeFold op ((present l).map some) := by
  induction l with
  | nil => rfl
  | cons x t ih =>
    have hcons : treeFold op (x :: t) = x.merge op (treeFold op t) := rfl
    rw [hcons, ih]
    cases x with
    | none => simp [present]
    | some a => rfl

/-- With at most one value no two are combined, and the tree hands it on, whatever the operation. -/
theorem present_treeLevel (op : α → α → α) {l : List (Option α)} (h : (present l).length ≤ 1) : present (treeLevel op l) = present l := by
  fun_induction treeLevel op l with
  | case1 a b t ih => simp [present] at h
  | case2 a t ih => simp_all [present]
  | case3 b t ih => simp_all [present]
  | case4 t ih => simp_all [present]
  | case5 a => rfl
  | case6 => rfl

theorem treeRoot_of_present {l : List (Option α)} (h : (present l).length ≤ 1) (n : Nat) (hl : l.length ≤ 2 ^ n) :
    treeRoot op n l = (present l).head? := by
  induction n generalizing l with
  | zero =>
    match l, hl with
    | [], _ => rfl
    | [x], _ => cases x <;> rfl
  | succ n ih =>
    have hp := present_treeLevel op h
    rw [treeRoot, ih (by rw [hp]; exact h) (by rw [length_treeLevel]; omega), hp]

end

/-! ## The integer reductions -/

theorem treeFold_add (es : List (BitVec 32)) : (treeFold (· + ·) (es.map some)).getD 0 = es.foldl (· + ·) 0 := by
  have hcons (x : BitVec 32) (t : List (BitVec 32)) :
      treeFold (· + ·) ((x :: t).map some) = (some x).merge (· + ·) (treeFold (· + ·) (t.map some)) := rfl
  rw [List.foldl_eq_foldr]
  induction es with
  | nil => rfl
  | cons x t ih =>
    rw [hcons, List.foldr_cons, ← ih]
    cases treeFold (· + ·) (t.map some) <;> simp

/-- An operation that picks the operand of the lower key leaves one of the lowest. -/
theorem treeFold_least {α : Type} {op : α → α → α} (key : α → Int) (hop : ∀ x y, op x y = if key x ≤ key y then x else y) {es : List α}
    (hne : es ≠ []) : ∃ m, treeFold op (es.map some) = some m ∧ m ∈ es ∧ ∀ x ∈ es, key m ≤ key x := by
  induction es with
  | nil => exact absurd rfl hne
  | cons x t ih =>
    have hcons : treeFold op ((x :: t).map some) = (some x).merge op (treeFold op (t.map some)) := rfl
    by_cases ht : t = []
    · subst ht; exact ⟨x, rfl, by simp, by simp⟩
    · obtain ⟨m, hm, hmem, hle⟩ := ih ht
      rw [hcons, hm]
      refine ⟨op x m, rfl, ?_⟩
      rw [hop]
      split_ifs with hxm
      · refine ⟨by simp, fun y hy => ?_⟩
        rcases List.mem_cons.mp hy with rfl | hy
        · exact le_rfl
        · exact hxm.trans (hle y hy)
      · refine ⟨by simp [hmem], fun y hy => ?_⟩
        rcases List.mem_cons.mp hy with rfl | hy
        · omega
        · exact hle y hy

theorem redOp_min_eq (x y : BitVec 32) : redOp 5 x y = if x.toInt ≤ y.toInt then x else y := slt_min x y

theorem redOp_max_eq (x y : BitVec 32) : redOp 6 x y = if -x.toInt ≤ -y.toInt then x else y := by
  refine (slt_max x y).trans ?_
  split_ifs with h₁ h₂ h₂
  · exact BitVec.eq_of_toInt_eq (by omega)
  · rfl
  · rfl
  · omega

/-- Picking by a key is associative where the key tells the values apart. -/
theorem pick_assoc {α : Type} {op : α → α → α} (key : α → Int) (hinj : ∀ x y, key x = key y → x = y)
    (hop : ∀ x y, op x y = if key x ≤ key y then x else y) (x y z : α) : op (op x y) z = op x (op y z) := by
  have hkey (x y : α) : key (op x y) = min (key x) (key y) := by rw [hop]; split_ifs <;> omega
  exact hinj _ _ (by rw [hkey, hkey, hkey, hkey, min_assoc])

variable {c : Ctx} {f : KFields} {d : Dev}

theorem filter_contains_active (h : c.beam.vl ≤ 256) :
    (List.range 256).filter (c.active f.msk c.beam.vl).contains = c.active f.msk c.beam.vl := by
  obtain ⟨n, hn⟩ := Nat.exists_eq_add_of_le h
  have hmem (e : Nat) : (c.active f.msk c.beam.vl).contains e = (decide (e < c.beam.vl) && (c.mask f.msk).getLsbD (e % 32)) := by
    rw [Bool.eq_iff_iff]; simp [Ctx.active]
  have htail : ((List.range n).map (c.beam.vl + ·)).filter (c.active f.msk c.beam.vl).contains = [] := by
    simp only [List.filter_eq_nil_iff, List.forall_mem_map, hmem]
    simp
  rw [hn, List.range_add, List.filter_append, htail, List.append_nil]
  exact List.filter_congr fun e he => by rw [hmem, decide_eq_true (List.mem_range.mp he), Bool.true_and]

/-- The active elements that a reduction of 32-bit elements combines. -/
def Ctx.redElements (c : Ctx) (f : KFields) : List (BitVec 32) := (c.active f.msk c.beam.vl).map fun e => c.word (c.opA f) e

/-- The positions of the tree of a reduction of 32-bit elements. -/
def Ctx.redLeaves (c : Ctx) (f : KFields) : List (Option (BitVec 32)) :=
  (List.range 256).map fun e => if (c.active f.msk c.beam.vl).contains e then some (c.word (c.opA f) e) else none

theorem present_map_ite {α β : Type} (p : α → Bool) (g : α → β) (l : List α) :
    present (l.map fun e => if p e then some (g e) else none) = (l.filter p).map g := by
  induction l with
  | nil => rfl
  | cons x t ih =>
    have hcons (y : Option β) (u : List (Option β)) : present (y :: u) = y.toList ++ present u := by cases y <;> rfl
    rw [List.map_cons, hcons, ih, List.filter_cons]
    split_ifs <;> rfl

theorem present_redLeaves (h : c.beam.vl ≤ 256) : present (c.redLeaves f) = c.redElements f := by
  rw [Ctx.redLeaves, present_map_ite, filter_contains_active h]; rfl

theorem redValue_32 (h : f.imm.toNat % 8 ≠ 1) : c.redValue f =
    ((treeRoot (redOp (f.imm.toNat % 8)) 8 (c.redLeaves f)).getD (redIdentity (f.imm.toNat % 8))).setWidth 64 := by
  have hred : redIs64 f = false := by simpa [redIs64, bits_code] using h
  simp only [Ctx.redValue, hred, Bool.false_eq_true, if_false, bits_code]
  rfl

theorem setWidth_64_32 (x : BitVec 32) : (x.setWidth 64).setWidth 32 = x := by
  apply BitVec.eq_of_toNat_eq; simp

/-- An associative reduction folds its active elements; without one it gives its identity. -/
theorem redValue_assoc (hvl : c.beam.vl ≤ 256) (h : f.imm.toNat % 8 ≠ 1)
    (hassoc : ∀ x y z, redOp (f.imm.toNat % 8) (redOp (f.imm.toNat % 8) x y) z = redOp (f.imm.toNat % 8) x (redOp (f.imm.toNat % 8) y z)) :
    (c.redValue f).setWidth 32 =
      (treeFold (redOp (f.imm.toNat % 8)) ((c.redElements f).map some)).getD (redIdentity (f.imm.toNat % 8)) := by
  rw [redValue_32 h, setWidth_64_32, treeRoot_eq hassoc 8 (by simp [Ctx.redLeaves]), treeFold_eq_present, present_redLeaves hvl]

/-- A reduction of at most one element gives it, or the identity. -/
theorem redValue_few (hvl : c.beam.vl ≤ 256) (h : f.imm.toNat % 8 ≠ 1) (hfew : (c.redElements f).length ≤ 1) :
    c.redValue f = ((c.redElements f).head?.getD (redIdentity (f.imm.toNat % 8))).setWidth 64 := by
  rw [redValue_32 h, treeRoot_of_present (by rwa [present_redLeaves hvl]) 8 (by simp [Ctx.redLeaves]), present_redLeaves hvl]

/-- A reduction that picks by a key gives one of the elements with the lowest key, and its identity without one. -/
theorem redValue_least (hvl : c.beam.vl ≤ 256) {code : Nat} (h : f.imm.toNat % 8 = code) (hcode : code ≠ 1) (key : BitVec 32 → Int)
    (hinj : ∀ x y, key x = key y → x = y) (hop : ∀ x y, redOp code x y = if key x ≤ key y then x else y) :
    ((c.redValue f).setWidth 32 ∈ c.redElements f ∨ c.redElements f = []) ∧
      (∀ x ∈ c.redElements f, key ((c.redValue f).setWidth 32) ≤ key x) ∧
      (c.redElements f = [] → (c.redValue f).setWidth 32 = redIdentity code) := by
  subst h
  rw [redValue_assoc hvl hcode (pick_assoc key hinj hop)]
  by_cases hes : c.redElements f = []
  · rw [hes]
    exact ⟨.inr rfl, by simp, fun _ => rfl⟩
  · obtain ⟨m, hm, hmem, hle⟩ := treeFold_least key hop hes
    rw [hm]
    exact ⟨.inl hmem, hle, fun h => absurd h hes⟩

/-! ## Sorting and merging -/

theorem insertFront_eq (x : Nat) (l : List Nat) : sortBy.insertFront (fun a b => decide (a ≤ b)) x l = l.orderedInsert (· ≤ ·) x := by
  induction l with
  | nil => rfl
  | cons y ys ih => simp only [sortBy.insertFront, List.orderedInsert, ih, decide_eq_true_eq]

theorem ascending_eq (l : List Nat) : ascending l = l.insertionSort (· ≤ ·) := by
  induction l with
  | nil => rfl
  | cons x xs ih =>
    have hcons : ascending (x :: xs) = sortBy.insertFront (fun a b => decide (a ≤ b)) x (ascending xs) := rfl
    rw [hcons, insertFront_eq, ih, List.insertionSort_cons]

theorem ascending_sorted (l : List Nat) : (ascending l).Pairwise (· ≤ ·) ∧ (ascending l).Perm l := by
  rw [ascending_eq]
  exact ⟨List.pairwise_insertionSort _ l, List.perm_insertionSort _ l⟩

theorem mergeCommit_of_ascending
    (h : isAscending ((List.range (c.mergeK f)).map fun i => leAt (d.localRead c (c.mergeAddr f) (8 * c.mergeK f)).1 (8 * i) 8) = true) :
    d.mergeCommit c f false =
      let r := d.localRead c (c.mergeAddr f) (8 * c.mergeK f)
      let kept := (ascending ((List.range (c.mergeK f)).map (fun i => leAt r.1 (8 * i) 8) ++ c.sortEntries f)).take (c.mergeK f)
      r.2.2.localStore c [(c.mergeAddr f, ((kept ++ [kept.getLast?.getD (2 ^ 64 - 1)]).map (leBytes 8)).flatten)]
        (r.2.1 || c.sortPoison f) := by
  simp only [Dev.mergeCommit, h, if_true, Bool.or_false]
  rfl

/-- Settles O22: addition, minimum and maximum fold their elements, and the sort is an insertion sort. -/
theorem reductionsAndSorting : Obligations.ReductionsAndSorting := by
  refine ⟨fun c f hvl => ?_, ascending_sorted, fun d c f => mergeCommit_of_ascending⟩
  intro es low
  have hes : c.redElements f = es := rfl
  refine ⟨fun h => ?_, fun h => ?_, fun h => ?_, fun hnil h => ?_, fun hone h => ?_⟩
  · have hlow : low = _ := redValue_assoc hvl (by omega) (by rw [h]; exact BitVec.add_assoc)
    rw [hlow, h, hes]
    exact treeFold_add es
  · exact redValue_least hvl h (by omega) BitVec.toInt (fun _ _ => BitVec.eq_of_toInt_eq) redOp_min_eq
  · obtain ⟨hmem, hle, hnil⟩ := redValue_least (c := c) hvl h (by omega) (fun x => -x.toInt)
      (fun _ _ hk => BitVec.eq_of_toInt_eq (Int.neg_inj.mp hk)) redOp_max_eq
    exact ⟨hmem, fun x hx => Int.neg_le_neg_iff.mp (hle x hx), hnil⟩
  · rw [redValue_few hvl (by omega) (by rw [hes, hnil]; simp), hes, hnil, h]
    rfl
  · obtain ⟨x, hx⟩ := hone
    have hlow : low = x := by
      simp only [low]
      rw [redValue_few hvl (by omega) (by rw [hes, hx]; simp), hes, hx, setWidth_64_32]
      rfl
    rw [hx, hlow]

end Sys2Proof.Machine
end

section
/-! The sort/select unit, vector loads and stores, and the mask instructions (R109 to R112). -/

namespace Sys2Proof.Machine

variable {d : Dev} {b : BeamRef} {c : Ctx} {f : KFields} {s : State} {core : Nat} {rest : List QEntry} {i : Instr}

/-! ## Sorting -/

/-- The head of the sort/select unit's queue commits. -/
theorem exec_sortPass (h : PassHead s.dev core true i b c rest) (hk : vkind i = none) (hheld : s.dev.mergeHeld c i = false)
    {writes : Dev → Dev} (hw : ∀ e : Dev, e.sortCommit c i false = (writes e).updBeam b fun m => { m with pc := m.pc + 1, passOut := false }) :
    exec (.vectorPassComplete core true false []) s = .next (s.to (s.dev.passDone core true b rest writes)) := by
  refine congrArg (fun e => (Host.Outcome.next (s.to e) : Out)) ((passComplete_head h hheld).trans ?_)
  simp only [hk, hw]
  rfl

/-- Settles O23: each of the three, with and without an active entry. -/
theorem sortSelect : Obligations.SortSelect := by
  intro s core b f c rest
  have hsome (hes : c.sortEntries f ≠ []) : ¬ (c.sortEntries f).isEmpty = true := by simpa using hes
  refine ⟨fun h hes => ?_, fun h hheld hes => ?_, fun h hes => ?_, fun make hmake h hheld hes => ?_⟩
  · obtain rfl := ref_of_passHead h
    refine exec_sortPass h rfl rfl fun e => ?_
    simp only [Dev.sortCommit, if_neg (hsome hes), Bool.or_false]
    rfl
  · obtain rfl := ref_of_passHead h
    refine exec_sortPass h rfl hheld fun e => ?_
    simp only [Dev.sortCommit, if_neg (hsome hes)]
  · obtain rfl := ref_of_passHead h
    refine exec_sortPass h rfl rfl fun e => ?_
    simp only [Dev.sortCommit, if_neg (hsome hes)]
    rfl
  · obtain rfl := ref_of_passHead h
    have hnone : (c.sortEntries f).isEmpty = true := by rw [show c.sortEntries f = [] from hes]; rfl
    have hk : vkind (make c.ref f) = none := by fin_cases hmake <;> rfl
    refine exec_sortPass h hk hheld fun e => ?_
    fin_cases hmake <;> simp only [Dev.sortCommit, hnone, if_true, id]

/-! ## Local loads and stores -/

@[simp] theorem Ctx.noted_vlTraps (spec : Nat) : (c.noted d).vlTraps f spec = c.vlTraps f spec := by unfold Ctx.noted; split <;> rfl
@[simp] theorem Ctx.noted_active (msk : BitVec 4) (n : Nat) : (c.noted d).active msk n = c.active msk n := by unfold Ctx.noted; split <;> rfl
@[simp] theorem Ctx.noted_len32 : (c.noted d).len32 = c.len32 := by unfold Ctx.noted; split <;> rfl
@[simp] theorem Ctx.noted_vlAddr (e : Nat) : (c.noted d).vlAddr f e = c.vlAddr f e := by unfold Ctx.noted; split <;> rfl
@[simp] theorem Ctx.noted_word (o : VOperand) (w : Nat) : (c.noted d).word o w = c.word o w := by unfold Ctx.noted; split <;> rfl
@[simp] theorem Ctx.noted_dword (o : VOperand) (w : Nat) : (c.noted d).dword o w = c.dword o w := by unfold Ctx.noted; split <;> rfl
@[simp] theorem Ctx.noted_wordPoison (o : VOperand) (w : Nat) : (c.noted d).wordPoison o w = c.wordPoison o w := by
  unfold Ctx.noted; split <;> rfl
@[simp] theorem Ctx.noted_dwordPoison (o : VOperand) (w : Nat) : (c.noted d).dwordPoison o w = c.dwordPoison o w := by
  unfold Ctx.noted; split <;> rfl

/-- No check of a row is pending, so a local read leaves the block as it is. -/
theorem Dev.localRead_of_none (h : d.strikes = Strikes.none) (c : Ctx) (a n : Nat) : (d.localRead c a n).2.2 = d := by
  unfold Dev.localRead
  split
  · rfl
  · simp [Dev.laParity, h, Strikes.none]

theorem Dev.strikes_noteIssue (h : d.strikes = Strikes.none) : (d.noteIssue c).strikes = Strikes.none := by
  rw [Dev.noteIssue_eq]; exact h

/-- The words that VLDL writes for one element. -/
def vlWrites (n e : Nat) (bs : List Byte) (poison : Bool) : List WordWrite :=
  if n = 8 then packedWrite 64 e (leNat bs) poison else [⟨e, BitVec.allOnes 32, BitVec.ofNat 32 (leNat bs), poison⟩]

theorem foldl_localRead (h : d.strikes = Strikes.none) (addr : Nat → Nat) (n : Nat) (l : List Nat) (ws : List WordWrite) :
    l.foldl (fun (acc : List WordWrite × Dev) e => (acc.1 ++ vlWrites n e (acc.2.localRead c (addr e) n).1 (acc.2.localRead c (addr e) n).2.1,
      (acc.2.localRead c (addr e) n).2.2)) (ws, d) =
      (ws ++ (l.map fun e => vlWrites n e (d.localRead c (addr e) n).1 (d.localRead c (addr e) n).2.1).flatten, d) := by
  induction l generalizing ws with
  | nil => simp
  | cons e l ih =>
    rw [List.foldl_cons, Dev.localRead_of_none h, ih]
    simp only [List.map_cons, List.flatten_cons, List.append_assoc]

theorem exec_vldl (h : Issues s.dev b c) (hgate : s.dev.vectorGated c.block.core = false) (ht : c.vlTraps f f.dst.toNat = [])
    (hfree : ∀ e ∈ c.active f.msk c.beam.vl, (s.dev.noteIssue c).localBusy c (c.vlAddr f e) (vlBytes f) false = false) :
    exec (.vldl b f) s = .next (s.to (((s.dev.noteIssue c).writeWords b (.group f.dst.toNat) ((c.active f.msk c.beam.vl).map fun e =>
      vlWrites (vlBytes f) e ((s.dev.noteIssue c).localRead c (c.vlAddr f e) (vlBytes f)).1
        ((s.dev.noteIssue c).localRead c (c.vlAddr f e) (vlBytes f)).2.1).flatten).next c)) := by
  have hbusy : ((c.active f.msk c.len32).any fun e => (s.dev.noteIssue c).localBusy c (c.vlAddr f e) (vlBytes f) false) = false := by
    rw [List.any_eq_false]
    exact fun e he => by rw [hfree e he]; decide
  have hread := foldl_localRead (c := c) (Dev.strikes_noteIssue (c := c) h.2.2.1) (c.vlAddr f) (vlBytes f) (c.active f.msk c.beam.vl) []
  obtain rfl : c.ref = b := ctx?_ref h.1
  refine issued_done h ?_
  simp only [Ctx.noted_core, Dev.vectorGated_noteIssue, hgate, Bool.false_eq_true, if_false, Ctx.noted_vlTraps, ht, checked_nil,
    Ctx.noted_active, Ctx.noted_len32, Ctx.noted_vlAddr, Dev.localBusy_noted, hbusy, Dev.localRead_noted, Ctx.noted_ref, Dev.next_noted]
  rw [List.nil_append] at hread
  exact congrArg (fun p => Issue.done (((p.2 : Dev).writeWords c.ref (.group f.dst.toNat) p.1).next c)) hread

theorem exec_vstl (h : Issues s.dev b c) (hgate : s.dev.vectorGated c.block.core = false) (ht : c.vlTraps f f.b.toNat = [])
    (hfree : ∀ e ∈ c.active f.msk c.beam.vl, (s.dev.noteIssue c).localBusy c (c.vlAddr f e) (vlBytes f) true = false)
    {bytes : Nat → List Byte} {bad : Nat → Bool}
    (hbytes : ∀ e, (if vlBytes f = 8 then leBytes 8 (c.dword (.group f.b.toNat) e).toNat else leBytes 4 (c.word (.group f.b.toNat) e).toNat) = bytes e)
    (hbad : ∀ e, (if vlBytes f = 8 then c.dwordPoison (.group f.b.toNat) e else c.wordPoison (.group f.b.toNat) e) = bad e) :
    exec (.vstl b f) s = .next (s.to ((((s.dev.noteIssue c).localStore c (((c.active f.msk c.beam.vl).filter fun e => !bad e).map fun e =>
      (c.vlAddr f e, bytes e)) false).localStore c (((c.active f.msk c.beam.vl).filter bad).map fun e => (c.vlAddr f e, bytes e)) true).next c)) := by
  have hbusy : ((c.active f.msk c.len32).any fun e => (s.dev.noteIssue c).localBusy c (c.vlAddr f e) (vlBytes f) true) = false := by
    rw [List.any_eq_false]
    exact fun e he => by rw [hfree e he]; decide
  have hclean (l : List Nat) : (l.filter fun e => !(l.filter bad).contains e) = l.filter fun e => !bad e :=
    List.filter_congr fun e he => by simp [he]
  refine issued_done h ?_
  simp only [Ctx.noted_core, Dev.vectorGated_noteIssue, hgate, Bool.false_eq_true, if_false, Ctx.noted_vlTraps, ht, checked_nil,
    Ctx.noted_active, Ctx.noted_len32, Ctx.noted_vlAddr, Dev.localBusy_noted, hbusy, Ctx.noted_word, Ctx.noted_dword, Ctx.noted_wordPoison,
    Ctx.noted_dwordPoison, hbytes, hbad, hclean, Dev.localStore_noted, Dev.next_noted]
  rfl

/-- Settles O24: a load reads its elements in turn, a store writes the clean ones and then the poisoned ones. -/
theorem vectorLoadsAndStores : Obligations.VectorLoadsAndStores := by
  intro s b f c h hgate
  exact ⟨fun ht hfree => exec_vldl h hgate ht hfree, fun ht hfree => exec_vstl h hgate ht hfree (fun _ => rfl) fun _ => rfl⟩

/-! ## Masks -/

theorem issueMask_done {traps : List Trap} {value : Ctx → BitVec 32} (h : Issues d b c) (hchunk : chunkTraps f = []) (ht : traps = [])
    (hdst : kDstTraps f.dst.toNat = []) (hnoted : value (c.noted d) = value c) :
    d.issueMask b f traps value = ((d.noteIssue c).updBeam b fun m => m.kSet f.dst.toNat (value c)).next c := by
  obtain rfl : c.ref = b := ctx?_ref h.1
  refine Dev.issue_of_done h ?_
  simp only [hchunk, ht, hdst, List.append_nil, checked_nil, hnoted, Ctx.noted_ref, Dev.next_noted]

theorem issueMask_illegal {traps : List Trap} {value : Ctx → BitVec 32} (h : Issues d b c)
    (hill : lowestTrap (chunkTraps f ++ traps ++ kDstTraps f.dst.toNat) = some illegal) :
    d.issueMask b f traps value = ((d.noteIssue c).park c illegal).updBeam b fun m => { m with debugStep := false } :=
  Dev.issue_of_trap h (checked_of_lowest hill)

theorem issueMaskScalar_done {value : BitVec 32 → BitVec 64} (h : Issues d b c) (hchunk : chunkTraps f = []) (ha : kSrcTraps f.a.toNat = [])
    (hdst : sDstBad f.dst.toNat = false) :
    d.issueMaskScalar b f value = ((d.noteIssue c).updBeam b fun m => m.sWrite f.dst.toNat (value (c.kSrc f.a.toNat))).next c := by
  obtain rfl : c.ref = b := ctx?_ref h.1
  refine Dev.issue_of_done h ?_
  have hk : (c.noted d).kSrc f.a.toNat = c.kSrc f.a.toNat := by simp only [Ctx.kSrc, Ctx.noted_beam]
  simp only [hchunk, ha, Ctx.sDstTraps, hdst, trapIf_false, List.append_nil, checked_nil, hk, Ctx.noted_ref, Dev.next_noted]

theorem chunkTraps_of_lt (h : f.mod.toNat < 4) : chunkTraps f = [] := by
  have h2 : f.mod.getLsbD 2 = false := by
    rw [← BitVec.testBit_toNat]; exact Nat.testBit_lt_two_pow h
  have h3 : f.mod.getLsbD 3 = false := by
    rw [← BitVec.testBit_toNat]; exact Nat.testBit_lt_two_pow (by omega)
  simp only [chunkTraps, tileA, tileD, h2, h3]
  rfl

theorem chunkTraps_of_le (h : 4 ≤ f.mod.toNat) : chunkTraps f = [illegal] := by
  have hany : ∀ m : BitVec 4, 4 ≤ m.toNat → (m.getLsbD 2 || m.getLsbD 3) = true := by decide
  simp only [chunkTraps, tileA, tileD, hany f.mod h]
  rfl

theorem kSrcTraps_of_le {n : Nat} (h : n ≤ 7) : kSrcTraps n = [] := by
  simp only [kSrcTraps, decide_eq_false (Nat.not_lt.mpr h), trapIf_false]

theorem kDstTraps_of_mem {n : Nat} (h₁ : 1 ≤ n) (h₂ : n ≤ 7) : kDstTraps n = [] := by
  simp only [kDstTraps, decide_eq_false (Nat.not_lt.mpr h₂), decide_eq_false (Nat.ne_of_gt h₁), Bool.or_self, trapIf_false]

theorem kDstTraps_of_not {n : Nat} (h : n = 0 ∨ 8 ≤ n) : kDstTraps n = [illegal] := by
  have : (decide (n = 0) || decide (7 < n)) = true := by simpa [Nat.lt_iff_add_one_le] using h
  simp only [kDstTraps, this]
  rfl

theorem lowestTrap_of_forall {t : Trap} {l : List Trap} (hne : l ≠ []) (h : ∀ u ∈ l, u = t) : lowestTrap l = some t := by
  obtain ⟨u, hu, hleast, -⟩ := leastBy_eq_some (fun t : Trap => t.cause.code) hne
  rw [lowestTrap, hleast, h u hu]

theorem mem_trapIf {q : Bool} {t u : Trap} (h : u ∈ trapIf q t) : u = t := by
  cases q <;> simp_all [trapIf]

/-- A mask instruction whose fields do not stand has failed ILLEGAL checks alone. -/
theorem lowest_maskTraps {traps : List Trap} (htraps : ∀ u ∈ traps, u = illegal) (hbad : chunkTraps f = [illegal] ∨ kDstTraps f.dst.toNat = [illegal]) :
    lowestTrap (chunkTraps f ++ traps ++ kDstTraps f.dst.toNat) = some illegal := by
  refine lowestTrap_of_forall ?_ fun u hu => ?_
  · rcases hbad with hbad | hbad <;> simp [hbad]
  · rcases List.mem_append.mp hu with hu | hu
    · rcases List.mem_append.mp hu with hu | hu
      · exact mem_trapIf hu
      · exact htraps u hu
    · exact mem_trapIf hu

theorem kPair_illegal {u : Trap} (h : u ∈ kPair f) : u = illegal := (List.mem_append.mp h).elim mem_trapIf mem_trapIf

theorem Ctx.kSrc_eq (n : BitVec 8) : c.kSrc n.toNat = (if n = 0 then c.beam.path else c.beam.kGet n.toNat) &&& ~~~ c.beam.exited := by
  have hz : (n.toNat = 0) = (n = 0) := propext ⟨fun hn => BitVec.eq_of_toNat_eq hn, fun hn => by rw [hn]; rfl⟩
  simp only [Ctx.kSrc, hz]

@[simp] theorem Ctx.noted_kSrc (n : Nat) : (c.noted d).kSrc n = c.kSrc n := by simp only [Ctx.kSrc, Ctx.noted_beam]

theorem issueMaskScalar_illegal {value : BitVec 32 → BitVec 64} (h : Issues d b c) (hchunk : chunkTraps f = [illegal]) :
    d.issueMaskScalar b f value = ((d.noteIssue c).park c illegal).updBeam b fun m => { m with debugStep := false } := by
  refine Dev.issue_of_trap h (checked_of_lowest (lowestTrap_of_forall (by simp [hchunk]) fun u hu => ?_))
  rcases List.mem_append.mp hu with hu | hu
  · exact (List.mem_append.mp hu).elim mem_trapIf mem_trapIf
  · exact mem_trapIf hu

/-- A mask instruction whose fields do not stand parks the beam. -/
theorem exec_mask_illegal (h : Issues s.dev b c) (hbad : chunkTraps f = [illegal] ∨ kDstTraps f.dst.toNat = [illegal]) :
    ∀ make ∈ ([.kand, .kor, .kxor, .knot, .kmov] : List (BeamRef → KFields → Instr)),
      exec (make b f) s = .next (s.to (((s.dev.noteIssue c).park c illegal).updBeam b fun m => { m with debugStep := false })) := by
  intro make hmake
  have go {traps : List Trap} {value : Ctx → BitVec 32} (htraps : ∀ u ∈ traps, u = illegal) :=
    congrArg (fun e => (Host.Outcome.next (s.to e) : Out)) (issueMask_illegal (value := value) h (lowest_maskTraps htraps hbad))
  simp only [List.mem_cons, List.not_mem_nil, or_false] at hmake
  rcases hmake with rfl | rfl | rfl | rfl | rfl
  · exact go fun _ => kPair_illegal
  · exact go fun _ => kPair_illegal
  · exact go fun _ => kPair_illegal
  · exact go fun _ => mem_trapIf
  · exact go fun _ => mem_trapIf

/-- Settles O25: the fields that stand, those of no mask destination, and those that name chunks. -/
theorem maskInstructions : Obligations.MaskInstructions := by
  intro s b f c h
  have done {traps : List Trap} {value : Ctx → BitVec 32} {v : BitVec 32} (hmod : f.mod.toNat < 4) (h₁ : 1 ≤ f.dst.toNat) (h₂ : f.dst.toNat ≤ 7)
      (ht : traps = []) (hn : value (c.noted s.dev) = value c) (hv : value c = v) :
      (Host.Outcome.next (s.to (s.dev.issueMask b f traps value)) : Out) =
        .next (s.to (((s.dev.noteIssue c).updBeam b fun m => m.kSet f.dst.toNat v).next c)) := by
    rw [issueMask_done h (chunkTraps_of_lt hmod) ht (kDstTraps_of_mem h₁ h₂) hn, hv]
  have pair (ha : f.a.toNat ≤ 7) (hb : f.b.toNat ≤ 7) : kPair f = [] := by rw [kPair, kSrcTraps_of_le ha, kSrcTraps_of_le hb]; rfl
  have scalar {value : BitVec 32 → BitVec 64} {v : BitVec 64} (hmod : f.mod.toNat < 4) (hdst : ScalarDest f.dst) (ha : f.a.toNat ≤ 7)
      (hv : value (c.kSrc f.a.toNat) = v) : (Host.Outcome.next (s.to (s.dev.issueMaskScalar b f value)) : Out) =
        .next (s.to (((s.dev.noteIssue c).updBeam b fun m => m.sWrite f.dst.toNat v).next c)) := by
    rw [issueMaskScalar_done h (chunkTraps_of_lt hmod) (kSrcTraps_of_le ha)
      (by obtain ⟨hlo, hhi⟩ := hdst; simp only [sDstBad, Bool.or_eq_false_iff, decide_eq_false_iff_not]; omega), hv]
  refine ⟨fun hmod h₁ h₂ ha => ⟨fun hb => ⟨?_, ?_, ?_⟩, ?_⟩, fun hmod h₁ h₂ ha => ?_, fun hmod hdst ha => ⟨?_, ?_⟩,
    fun hdst => exec_mask_illegal h (.inr (kDstTraps_of_not hdst)), fun hmod make hmake => ?_⟩
  · exact done hmod h₁ h₂ (pair ha hb) (by simp) (by rw [Ctx.kSrc_eq, Ctx.kSrc_eq])
  · exact done hmod h₁ h₂ (pair ha hb) (by simp) (by rw [Ctx.kSrc_eq, Ctx.kSrc_eq])
  · exact done hmod h₁ h₂ (pair ha hb) (by simp) (by rw [Ctx.kSrc_eq, Ctx.kSrc_eq])
  · exact done hmod h₁ h₂ (kSrcTraps_of_le ha) (by simp) (by rw [Ctx.kSrc_eq])
  · exact done hmod h₁ h₂ (by rw [sSrcBad_of_scalarSource ha]; rfl) (by simp) rfl
  · exact scalar hmod hdst ha (by rw [Ctx.kSrc_eq])
  · exact scalar hmod hdst ha (by rw [popcount_toNat, Ctx.kSrc_eq])
  · have hchunk := chunkTraps_of_le hmod
    have hscalar {value : BitVec 32 → BitVec 64} :=
      congrArg (fun e => (Host.Outcome.next (s.to e) : Out)) (issueMaskScalar_illegal (value := value) h hchunk)
    have hmask := exec_mask_illegal h (.inl hchunk)
    simp only [List.mem_cons, List.not_mem_nil, or_false] at hmake hmask
    rcases hmake with hmake | hmake | hmake | hmake | hmake | rfl | rfl
    · exact hmask make (by simp [hmake])
    · exact hmask make (by simp [hmake])
    · exact hmask make (by simp [hmake])
    · exact hmask make (by simp [hmake])
    · exact hmask make (by simp [hmake])
    · exact hscalar
    · exact hscalar

end Sys2Proof.Machine
end

section
/-! Records of the intake and launches (R38 to R48, R74 to R79, R311 to R315). -/

namespace Sys2Proof.Machine

variable {d : Dev} {f w typ : Nat} {c : Cmd} {s : State}

/-! ## Records -/

/-- The block once a record is taken whose command ORDERED holds. -/
def Dev.recordKept (d : Dev) (f w : Nat) (c : Cmd) : Dev :=
  ((d.recordRead f w d.intakeLeft).copyDescriptor f (d.headCmd f w)).2.updCmd f c.serial fun _ => c

/-- What the gaffer does with a command of a record that passes its checks, by what the command's start answers. -/
def Dev.recordStarted (d : Dev) (f w : Nat) (c : Cmd) (met : Bool) : Started → Dev
  | .refused st => (d.recordKept f w c).refuseCmd f c.serial st 0
  | .running e => if met then e.countF f 0x606000 1 else (d.recordKept f w c).countF f 0x606000 1
  | .ended e st result => if met then (e.countF f 0x606000 1).endCmd f c.serial st result else (d.recordKept f w c).countF f 0x606000 1

theorem takeRecord_checked {types : Nat → Bool} {start : Dev → Nat → Cmd → Started} (hserves : d.gafferServes = true)
    (hgrant : d.intakeGrant = some (f, w, d.intakeLeft)) (htyp : types (recordType ((d.facet f).window w).headBytes) = true)
    (hc : c = { d.headCmd f w with copied := ((d.recordRead f w d.intakeLeft).copyDescriptor f (d.headCmd f w)).1 })
    (hcheck : (d.facet f).recordCheck (d.headCmd f w) ((d.facet f).window w).headBytes = none) :
    d.takeRecord f w types start =
      d.recordStarted f w c ((d.facet f).orderMet c) (start (d.recordTaken f w c) f { c with state := .running }) := by
  subst hc
  have hcheck' : (d.facet f).recordCheck (recordCmd (d.facet f) w ((d.facet f).window w).headBytes) ((d.facet f).window w).headBytes = none := hcheck
  simp only [Dev.takeRecord, hserves, if_true, hgrant, htyp, decide_true, Bool.not_true, Bool.or_self, Bool.false_eq_true, if_false, hcheck']
  rfl

theorem takeRecord_running {types : Nat → Bool} {start : Dev → Nat → Cmd → Started} {e : Dev} (h : RecordWaits d f w typ c)
    (ht : types typ = true) (hs : start (d.recordTaken f w c) f { c with state := .running } = .running e) :
    d.takeRecord f w types start = e.countF f 0x606000 1 := by
  obtain ⟨hserves, hgrant, htyp, hc, hcheck, hmet⟩ := h
  rw [takeRecord_checked hserves hgrant (by rw [htyp]; exact ht) hc hcheck, hs, hmet]
  rfl

theorem takeRecord_ended {types : Nat → Bool} {start : Dev → Nat → Cmd → Started} {e : Dev} {st : Code} {result : Nat}
    (h : RecordWaits d f w typ c) (ht : types typ = true)
    (hs : start (d.recordTaken f w c) f { c with state := .running } = .ended e st result) :
    d.takeRecord f w types start = (e.countF f 0x606000 1).endCmd f c.serial st result := by
  obtain ⟨hserves, hgrant, htyp, hc, hcheck, hmet⟩ := h
  rw [takeRecord_checked hserves hgrant (by rw [htyp]; exact ht) hc hcheck, hs, hmet]
  rfl

/-! ## LAUNCH, REPLAY and ABORT -/

theorem exec_launch (h : RecordWaits s.dev f w 1 c) {r : ReadResult} {e : Dev}
    (hr : (s.dev.recordTaken f w c).gread f (leAt c.args 0 8) 64 = (r, e)) (halign : leAt c.args 0 8 % 64 = 0) (hok : r.ok = true)
    (hclean : r.poison = false) (hver : leAt r.bytes 0 1 = 1) (hfit : e.launchRefusal f (launchParams r.bytes) = none) :
    exec (.launch f w) s = .next (s.to (Dev.countF { e with
      launches := e.launches ++ [⟨e.nextLaunch, f, c.serial, c.cls, launchParams r.bytes, 0, 0, 0, false, false, e.nextAccept, 0⟩],
      nextLaunch := e.nextLaunch + 1, nextAccept := e.nextAccept + 1 } f 0x606000 1)) := by
  refine congrArg (fun e => (Host.Outcome.next (s.to e) : Out)) (takeRecord_running h rfl ?_)
  simp only [startLaunch, hr, halign, hok, hclean, hver, hfit, ne_eq, not_true_eq_false, Bool.true_eq_false, Bool.false_eq_true, or_self,
    if_false]

theorem exec_replay (h : RecordWaits s.dev f w 2 c) {t : Cmd} {l : Launch} (ht : ((s.dev.recordTaken f w c).facet f).target c 1 = some t)
    (hl : (s.dev.recordTaken f w c).launches.find? (fun l => decide (l.facet = f) && decide (l.cmd = t.serial)) = some l)
    (hone : (leAt c.args 3 1).testBit 0 = false) :
    let d := s.dev.recordTaken f w c
    let go := fun (k : Block) => k.replay none (d.barrierGone l k)
    exec (.replay f w) s = .next (s.to ((Dev.countF { d with
        blocks := updAll (fun k => decide (k.launch = l.id)) (fun k => (go k).1) d.blocks,
        saved := updAll (fun v => decide (v.block.launch = l.id)) (fun v => { v with block := (go v.block).1 }) d.saved }
      f 0x606000 1).endCmd f c.serial 0 (((d.blocks.filter fun k => decide (k.launch = l.id)).map fun k => (go k).2).sum +
        ((d.saved.filter fun v => decide (v.block.launch = l.id)).map fun v => (go v.block).2).sum))) := by
  intro d go
  refine congrArg (fun e => (Host.Outcome.next (s.to e) : Out)) (takeRecord_ended h rfl ?_)
  have ht' : ((s.dev.recordTaken f w c).facet f).target { c with state := .running } 1 = some t := ht
  have hone' : bit (leAt c.args 3 1) 0 = false := hone
  simp only [startReplay, ht', hl, hone', Bool.false_and, Bool.not_false, Bool.true_or, Bool.and_true, Bool.false_eq_true, if_false]
  rfl

theorem exec_abort (h : RecordWaits s.dev f w 3 c) {t : Cmd} {l : Launch} (ht : ((s.dev.recordTaken f w c).facet f).target c 1 = some t)
    (hl : (s.dev.recordTaken f w c).launches.find? (fun l => decide (l.facet = f) && decide (l.cmd = t.serial)) = some l) :
    exec (.abort f w) s = .next (s.to ((((s.dev.recordTaken f w c).endLaunch l.id 0x163).countF f 0x606000 1).endCmd f c.serial 0 0)) := by
  refine congrArg (fun e => (Host.Outcome.next (s.to e) : Out)) (takeRecord_ended h rfl ?_)
  have ht' : ((s.dev.recordTaken f w c).facet f).target { c with state := .running } 1 = some t := ht
  simp only [startAbort, ht', hl]

/-! ## Parked beams -/

theorem Beam.resume_of_not_parked {m : Beam} (h : ∀ why, m.status ≠ .parked why) (gone : BarrierRef → Bool) : m.resume gone = m := by
  unfold Beam.resume
  split
  next why hstatus => exact absurd hstatus (h why)
  · rfl

theorem Beam.resume_of_fatal {m : Beam} {why : Cause} (h : m.status = .parked why) (hr : why.replayable = false) (gone : BarrierRef → Bool) :
    m.resume gone = m := by
  simp only [Beam.resume, h, hr, Bool.not_false, if_true]

theorem Beam.resume_awake {m : Beam} {why : Cause} (h : m.status = .parked why) (hr : why.replayable = true) (hon : m.parkedOn = none)
    (gone : BarrierRef → Bool) :
    m.resume gone = { m with status := .running, pc := if decide (why = .software) then m.pc + 1 else m.pc } := by
  simp only [Beam.resume, h, hr, hon, Bool.not_true, Bool.false_eq_true, if_false]

theorem Beam.resume_asleep {m : Beam} {why : Cause} {r : BarrierRef} (h : m.status = .parked why) (hr : why.replayable = true)
    (hon : m.parkedOn = some r) (gone : BarrierRef → Bool) :
    m.resume gone = { m with status := if gone r then .running else .sleeping r, parkedOn := none,
                             pc := if decide (why = .software) then m.pc + 1 else m.pc } := by
  simp only [Beam.resume, h, hr, hon, Bool.not_true, Bool.false_eq_true, if_false]

/-- Settles O26: the three records, and a beam by the cause that parked it. -/
theorem launchCommands : Obligations.LaunchCommands := by
  refine ⟨fun s f w c => ⟨fun h halign hok hclean hver hfit => exec_launch h rfl halign hok hclean hver hfit,
    fun h t l ht hl hone => exec_replay h ht hl hone, fun h t l ht hl => exec_abort h ht hl⟩, fun m gone => ⟨fun why hwhy h => ?_,
    fun h hon => ?_, fun why hwhy h => ?_, fun h => Beam.resume_of_not_parked h gone⟩⟩
  · have hr : why.replayable = true := by fin_cases hwhy <;> rfl
    have hsoft : why ≠ .software := by fin_cases hwhy <;> decide
    refine ⟨fun hon => (Beam.resume_awake h hr hon gone).trans ?_, fun r hon => (Beam.resume_asleep h hr hon gone).trans ?_⟩
    · rw [if_neg (by simpa using hsoft)]
    · rw [if_neg (by simpa using hsoft)]
  · exact Beam.resume_awake h rfl hon gone
  · exact Beam.resume_of_fatal h (by fin_cases hwhy <;> rfl) gone

end Sys2Proof.Machine
end

section
/-! Placing and restoring blocks, and switching them out (R39, R43, R45, R66, R77 to R79, R102, R366). -/

namespace Sys2Proof.Machine

variable {d : Dev} {s : State}

/-! ## Placement -/

theorem exec_blockPlace {launch : Nat} {cores : List Nat} {l : Launch} {e : Dev} (hl : s.dev.launch? launch = some l)
    (hruns : s.dev.launchRuns l = true) (hnext : l.nextBlock < l.params.gridBlocks) (hlen : cores.length = l.params.cluster)
    (hrow : oneRow cores = true) (hserves : s.dev.gafferServes = true) (hawake : s.dev.awakeFirst l cores = true)
    (hmay : s.dev.mayPlace (.fresh l) l.params.vector cores = true)
    (hplaced : ((List.range cores.length).zip cores).foldl (fun (acc : Option Dev) e => acc.bind fun d => d.placeBlock l (l.nextBlock + e.1) e.2)
      (some s.dev) = some e) :
    exec (.blockPlace launch cores) s = .next (s.to ((if l.nextBlock = 0 then (e.readHeader l).passOver l.params.vector l.accepted
      else e.readHeader l).updLaunch launch fun l => { l with nextBlock := l.nextBlock + l.params.cluster })) := by
  refine congrArg (fun e => (Host.Outcome.next (s.to e) : Out)) ?_
  simp only [Dev.blockPlace, hl, hruns, hnext, hlen, hrow, hserves, hawake, hmay, decide_true, Bool.not_true, Bool.or_self, Bool.false_eq_true,
    if_false]
  rw [hlen] at hplaced
  rw [hplaced]

theorem exec_blockRestore {launch cluster : Nat} {cores : List Nat} {l : Launch} {e : Dev} (hl : s.dev.launch? launch = some l)
    (hwhole : s.dev.wholeSaved l cluster = true)
    (hlen : (sortBy (fun a b => decide (a.block.index ≤ b.block.index)) (s.dev.savedOf l cluster)).length = cores.length)
    (hrow : oneRow cores = true) (hruns : s.dev.launchRuns l = true) (hserves : s.dev.gafferServes = true)
    (hawake : s.dev.awakeFirst l cores = true) (hmay : s.dev.mayPlace (.saved l cluster) l.params.vector cores = true)
    (hplaced : ((sortBy (fun a b => decide (a.block.index ≤ b.block.index)) (s.dev.savedOf l cluster)).zip cores).foldl
      (fun (acc : Option Dev) e => acc.bind fun d => d.restoreBlock l e.1 e.2) (some s.dev) = some e) :
    exec (.blockRestore launch cluster cores) s =
      .next (s.to (((e.passOver l.params.vector l.accepted).clusterPhase l cluster).haltsDue l cluster)) := by
  refine congrArg (fun e => (Host.Outcome.next (s.to e) : Out)) ?_
  simp only [Dev.blockRestore, hl, hwhole, hlen, hrow, hruns, hserves, hawake, hmay, decide_true, Bool.not_true, Bool.or_self,
    Bool.false_eq_true, if_false]
  rw [hplaced]

/-! ## A block at its start -/

theorem getLsbD_lowBits {n r : Nat} (hr : r < 32) : (BitVec.ofNat 32 (2 ^ n - 1)).getLsbD r = decide (r < n) := by
  rw [BitVec.getLsbD_ofNat, decide_eq_true hr, Bool.true_and, Nat.testBit_two_pow_sub_one]

theorem startBeam_path {p : LaunchParams} {zeroed : Bool} {draw i r : Nat} (hr : r < 32) :
    (startBeam p zeroed draw i).path.getLsbD r = decide (32 * i + r < p.rays) := by
  refine (getLsbD_lowBits hr).trans (decide_eq_decide.mpr ?_)
  split_ifs <;> omega

theorem startBlock_beam {l : Launch} {index core scratch draw i : Nat} {slots : List Nat} {zeroed : Bool} {m : Beam}
    (h : (startBlock l index core scratch slots zeroed draw).beams[i]? = some m) : m = startBeam l.params zeroed (draw + i) i := by
  simp only [startBlock, List.getElem?_map, Option.map_eq_some_iff] at h
  obtain ⟨j, hj, rfl⟩ := h
  obtain ⟨hlt, rfl⟩ := List.getElem?_eq_some_iff.mp hj
  simp

/-- Settles O27: a placement that every check lets through, a cluster's restoration, and the beams of a block at its start. -/
theorem blocksArePlaced : Obligations.BlocksArePlaced := by
  refine ⟨fun s launch cores l e hl hruns hnext hlen hrow hserves hawake hmay hplaced =>
      exec_blockPlace hl hruns hnext hlen hrow hserves hawake hmay hplaced,
    fun s launch cluster cores l e hl hwhole hlen hrow hruns hserves hawake hmay hplaced =>
      exec_blockRestore hl hwhole hlen hrow hruns hserves hawake hmay hplaced,
    fun l index core scratch slots zeroed draw i m => ⟨?_, fun hm => ?_⟩⟩
  · simp [startBlock, LaunchParams.beams]
  · obtain rfl := startBlock_beam hm
    exact ⟨rfl, rfl, rfl, rfl, rfl, rfl, rfl, fun r hr => startBeam_path hr, fun hz n r => by subst hz; exact ⟨rfl, rfl, rfl⟩⟩

/-! ## Switching -/

/-- Counting changes no block, so each core's owner may be read before the first count. -/
theorem forEach_countF_owner (off : Nat) (l : List Nat) (d : Dev) :
    Dev.forEach l (fun e c => e.countF (((d.blocksOn c).head?.map Block.facet).getD 0) off 1) d =
      Dev.forEach l (fun e c => e.countF (((e.blocksOn c).head?.map Block.facet).getD 0) off 1) d := by
  have go (l : List Nat) (e : Dev) (he : e.blocks = d.blocks) :
      Dev.forEach l (fun e c => e.countF (((d.blocksOn c).head?.map Block.facet).getD 0) off 1) e =
        Dev.forEach l (fun e c => e.countF (((e.blocksOn c).head?.map Block.facet).getD 0) off 1) e := by
    induction l generalizing e with
    | nil => rfl
    | cons c l ih =>
      have hon : d.blocksOn c = e.blocksOn c := by simp only [Dev.blocksOn, he]
      simp only [Dev.forEach, List.foldl_cons] at ih ⊢
      rw [hon]
      exact ih _ ((Dev.posts_countF e _ off 1).blocks.trans he)
  exact go l d rfl

theorem switchRequest_freeze {cores : List Nat} (hne : NSet.addAll [] cores ≠ [])
    (h : ∃ f ∈ d.facetsThere, d.freezeCores f = NSet.addAll [] cores) :
    d.switchRequest cores = d.standSwitch (NSet.addAll [] cores) := by
  have hne' : (NSet.addAll [] cores).isEmpty = false := by simpa using hne
  have hany : (d.facetsThere.any fun f => decide (d.freezeCores f = NSet.addAll [] cores)) = true := by simpa using h
  simp only [Dev.switchRequest, hne', Bool.false_eq_true, if_false, hany, if_true]

theorem switchRequest_preempt {cores : List Nat} (hne : NSet.addAll [] cores ≠ [])
    (hfreeze : ∀ f ∈ d.facetsThere, d.freezeCores f ≠ NSet.addAll [] cores)
    (hsome : ∃ v ∈ d.waiting false ++ d.waiting true, d.preemptFor v = some (NSet.addAll [] cores, []))
    (hslots : ∀ v ∈ d.waiting false ++ d.waiting true, ∀ p, d.preemptFor v = some p → p.1 = NSet.addAll [] cores → p.2 = []) :
    d.switchRequest cores = (Dev.forEach (NSet.addAll [] cores) (fun e c =>
      e.countF (((e.blocksOn c).head?.map Block.facet).getD 0) 0x605038 1) d).standSwitch (NSet.addAll [] cores) := by
  set set := NSet.addAll [] cores with hset
  have hne' : set.isEmpty = false := by simpa using hne
  have hany : (d.facetsThere.any fun f => decide (d.freezeCores f = set)) = false := by simpa using hfreeze
  have hfind : (((d.waiting false ++ d.waiting true).filterMap d.preemptFor).find? fun p => decide (p.1 = set)) = some (set, []) := by
    obtain ⟨v, hv, hpre⟩ := hsome
    have hmem := List.mem_filterMap.mpr ⟨v, hv, hpre⟩
    have hex : (((d.waiting false ++ d.waiting true).filterMap d.preemptFor).find? fun p => decide (p.1 = set)).isSome = true :=
      List.find?_isSome.mpr ⟨(set, []), hmem, decide_eq_true rfl⟩
    obtain ⟨p, hp⟩ := Option.isSome_iff_exists.mp hex
    obtain ⟨u, hu, hup⟩ := List.mem_filterMap.mp (List.mem_of_find?_eq_some hp)
    have hp₁ : p.1 = set := by simpa using List.find?_some hp
    rw [hp, ← hp₁, ← hslots u hu p hup hp₁]
  simp only [Dev.switchRequest, ← hset, hne', Bool.false_eq_true, if_false, hany, hfind, forEach_countF_owner]
  rfl

theorem exec_blockSave {launch block : Nat} {k : Block} (hk : s.dev.block? launch block = some k) (hreq : (s.dev.core k.core).switchReq = true)
    (hend : k.stopped = true ∨ (s.dev.core k.core).switchLate = true) :
    exec (.blockSave launch block) s =
      .next (s.to ((s.dev.saveBlock launch block (!k.stopped) (s.dev.facet k.facet).freezing).charge s.dev).lehrReady) := by
  have hend' : (k.stopped || (s.dev.core k.core).switchLate) = true := by simpa using hend
  refine congrArg (fun e => (Host.Outcome.next (s.to e) : Out)) ?_
  simp only [Dev.blockSave, hk, hreq, hend', Bool.not_true, Bool.or_self, Bool.false_eq_true, if_false]

theorem Core.blocksLeft_cons (k : Core) (b : Block) (left : List Block) :
    (k.blocksLeft (b :: left)).switchReq = k.switchReq ∧ (k.blocksLeft (b :: left)).split = k.split ∧
      ((k.blocksLeft (b :: left)).splitBy = none ↔ k.splitBy = none) := by
  refine ⟨rfl, rfl, ?_⟩
  simp only [Core.blocksLeft]
  cases k.splitBy with
  | none => exact Iff.rfl
  | some l => simp only; split_ifs <;> simp

/-- Settles O28: each command's case, and what a core and the lehr do at a block's end. -/
theorem switching : Obligations.Switching := by
  intro s cores
  refine ⟨fun hne h => congrArg (fun e => (Host.Outcome.next (s.to e) : Out)) (switchRequest_freeze hne h),
    fun hne hfreeze hsome hslots => congrArg (fun e => (Host.Outcome.next (s.to e) : Out)) (switchRequest_preempt hne hfreeze hsome hslots),
    rfl, fun launch block k _ hk hreq hend => exec_blockSave hk hreq hend,
    fun e => ⟨fun h => by simp only [Dev.lehrReady, h], fun fn h => by simp only [Dev.lehrReady, h]⟩,
    fun k left => ⟨fun h => by rw [h]; rfl, fun h => ?_⟩⟩
  obtain ⟨b, left, rfl⟩ := List.exists_cons_of_ne_nil h
  exact Core.blocksLeft_cons k b left

end Sys2Proof.Machine
end

section
/-! Coherence: requests of the agents, and what a home grants (R145 to R152). -/

namespace Sys2Proof.Machine

variable {d : Dev} {s : State}

/-! ## Requests -/

theorem l1Send_waiting {kind : ReqKind} {core line : Nat} {from_ : Option L1State} (h : (line, kind) ∈ (d.core core).reqs) :
    d.l1Send kind core line from_ = d.takeReq core line := by
  simp only [Dev.l1Send, List.contains_iff_mem.mpr h, if_true]

theorem l1Send_new {kind : ReqKind} {core line : Nat} {from_ : Option L1State} (hvalid : coreValid core = true) (hline : d.lineExists line = true)
    (hshare : shareSets (d.core core).split ≠ 0) (hgated : (d.core core).gated = false) (hnone : ∀ q ∈ (d.core core).reqs, q.1 ≠ line)
    (hfrom : ((d.core core).l1? line).map L1Line.state = from_) :
    d.l1Send kind core line from_ = (d.updCore core fun k => { k with reqs := k.reqs ++ [(line, kind)] }).request
      (mkReq kind core (d.workFacet core) (d.lineClass (d.workFacet core) line) line) := by
  have hnot : ¬ (d.core core).reqs.contains (line, kind) = true := fun h => hnone _ (List.contains_iff_mem.mp h) rfl
  have hany : ((d.core core).reqs.any fun q => decide (q.1 = line)) = false := by simpa using hnone
  simp only [Dev.l1Send, if_neg hnot, hvalid, hline, hgated, hany, hfrom, decide_eq_false hshare, ne_eq, not_true_eq_false, decide_false,
    Bool.not_true, Bool.or_self, Bool.false_eq_true, if_false]

theorem agentSend_new {r : Request} (hvalid : agentValid r.agent = true) (hline : d.lineExists r.line = true)
    (hnone : ∀ m ∈ d.net, ∀ q, m.req = some q → q.agent = r.agent → q.line ≠ r.line) : d.agentSend r = d.request r := by
  have hany : (d.net.any fun m => decide (m.req = some r)) = false := by
    rw [List.any_eq_false]
    exact fun m hm h => hnone m hm r (of_decide_eq_true h) rfl rfl
  simp only [Dev.agentSend, hany, hvalid, hline, Bool.and_self, Bool.false_eq_true, if_false, if_true]

/-- Settles O29: a request that waits goes on, a new one is noted and goes to the home. -/
theorem coherenceRequests : Obligations.CoherenceRequests := by
  intro s agent line
  have run {e e' : Dev} (h : e = e') : (Host.Outcome.next (s.to e) : Out) = .next (s.to e') := congrArg (fun e => Host.Outcome.next (s.to e)) h
  refine ⟨fun p hp h => ?_, fun hvalid hline hshare hgated hnone => ⟨fun hl1 => ?_, fun l hl1 hstate => ?_⟩,
    fun hvalid hline hnone => ⟨run (agentSend_new hvalid hline hnone), run (agentSend_new hvalid hline hnone), fun bytes poison hne hlt => ?_,
      fun off op x y hoff hop => ?_, fun facet op hop => ?_⟩⟩
  · simp only [List.mem_cons, List.not_mem_nil, or_false] at hp
    rcases hp with rfl | rfl | rfl | rfl
    · exact run (l1Send_waiting h)
    · exact run (l1Send_waiting h)
    · exact run (l1Send_waiting h)
    · exact run (l1Send_waiting h)
  · have hfrom : ((s.dev.core agent).l1? line).map L1Line.state = none := by rw [hl1]; rfl
    have send {kind : ReqKind} := l1Send_new (d := s.dev) (kind := kind) hvalid hline hshare hgated hnone hfrom
    exact ⟨run send, run send, run send⟩
  · exact run (l1Send_new hvalid hline hshare hgated hnone (by rw [hl1, Option.map_some, hstate]))
  · have hbytes : (bytes.isEmpty || bytes.any fun e => decide (128 ≤ e.1)) = false := by
      simp only [Bool.or_eq_false_iff, List.isEmpty_eq_false_iff, List.any_eq_false, decide_eq_true_eq, Nat.not_le]
      exact ⟨hne, hlt⟩
    exact run ((if_neg (by rw [hbytes]; exact Bool.false_ne_true)).trans (agentSend_new hvalid hline hnone))
  · have hdiv : (128 * line + 4 * off) / 128 = line := by omega
    have hmod : (128 * line + 4 * off) % 128 = 4 * off := by omega
    refine run ((if_neg (by omega)).trans ?_)
    rw [hdiv, hmod]
    exact agentSend_new hvalid hline hnone
  · exact run ((if_neg (by omega)).trans (agentSend_new hvalid hline hnone))

/-! ## The directory -/

/-- A change that keeps every line's home and every directory. -/
def Dev.KeepsDir (d e : Dev) : Prop := e.stripes = d.stripes ∧ ∀ n, (e.slice n).dir = (d.slice n).dir

theorem Dev.KeepsDir.refl (d : Dev) : d.KeepsDir d := ⟨rfl, fun _ => rfl⟩

theorem Dev.KeepsDir.trans {d e x : Dev} (h : d.KeepsDir e) (h' : e.KeepsDir x) : d.KeepsDir x :=
  ⟨h'.1.trans h.1, fun n => (h'.2 n).trans (h.2 n)⟩

theorem Dev.homeSlice_congr {d e : Dev} (h : e.stripes = d.stripes) (line : Nat) : e.homeSlice line = d.homeSlice line := by
  have hlocal : e.lineLocal line = d.lineLocal line := by
    have hmode (n : Nat) : e.stripeMode n = d.stripeMode n := by rw [Dev.stripeMode, h, Dev.stripeMode]
    rw [Dev.lineLocal, hmode, Dev.lineLocal]
  simp only [Dev.homeSlice, Dev.lineStack, hlocal]

theorem Dev.KeepsDir.dirCopies {d e : Dev} (h : d.KeepsDir e) (line : Nat) : e.dirCopies line = d.dirCopies line := by
  simp only [Dev.dirCopies, Dev.dirEntry?, Slice.dirEntry?, Dev.homeSlice_congr h.1, h.2]

theorem Dev.keepsDir_updHome (d : Dev) (line : Nat) {g : Slice → Slice} (hg : ∀ x, (g x).dir = x.dir) : d.KeepsDir (d.updHome line g) := by
  refine ⟨rfl, fun n => ?_⟩
  unfold Dev.updHome
  by_cases hn : n = d.homeSlice line
  · subst hn; rw [Dev.slice_updSlice, hg]
  · rw [Dev.slice_updSlice_ne d hn]

theorem Dev.keepsDir_post (d : Dev) (m : Msg) : d.KeepsDir (d.post m) := ⟨rfl, fun _ => rfl⟩
theorem Dev.keepsDir_complete (d : Dev) (kind : MsgKind) (r : Request) (data : List Byte) (x : Bool) (st : Code) :
    d.KeepsDir (d.complete kind r data x st) := ⟨rfl, fun _ => rfl⟩
theorem Dev.keepsDir_count (d : Dev) (off n : Nat) : d.KeepsDir (d.count off n) := ⟨rfl, fun _ => rfl⟩
theorem Dev.keepsDir_updStack (d : Dev) (n : Nat) (g : Stack → Stack) : d.KeepsDir (d.updStack n g) := ⟨rfl, fun _ => rfl⟩
theorem Dev.keepsDir_hbmTouch (d : Dev) (line : Nat) (w : Bool) : d.KeepsDir (d.hbmTouch line w) := ⟨rfl, fun _ => rfl⟩

theorem Dev.keepsDir_forEach {α : Type} (l : List α) {g : Dev → α → Dev} (h : ∀ e a, Dev.KeepsDir e (g e a)) (d : Dev) :
    d.KeepsDir (Dev.forEach l g d) := by
  induction l generalizing d with
  | nil => exact .refl d
  | cons a l ih => exact (h d a).trans (ih (g d a))

theorem Dev.keepsDir_drainBatch (d : Dev) (stack p : Nat) : d.KeepsDir (d.drainBatch stack p) := by
  unfold Dev.drainBatch
  refine Dev.keepsDir_forEach _ (fun e a => ?_) d
  exact Dev.KeepsDir.trans (e := e.hbmTouch a.2 true) (Dev.keepsDir_hbmTouch e a.2 true) (Dev.keepsDir_updStack _ _ _)

theorem Dev.keepsDir_queueWrite (d : Dev) (line : Nat) : d.KeepsDir (d.queueWrite line) := by
  unfold Dev.queueWrite
  refine Dev.KeepsDir.trans (e := if 32 ≤ (d.stack (d.lineStack line)).waits (d.linePseudo line) then
    d.drainBatch (d.lineStack line) (d.linePseudo line) else d) ?_ (Dev.keepsDir_updStack _ _ _)
  split_ifs
  · exact Dev.keepsDir_drainBatch ..
  · exact .refl d

theorem Dev.keepsDir_memWriteLine (d : Dev) (line : Nat) (bs : List Byte) (poison : Bool) : d.KeepsDir (d.memWriteLine line bs poison) := by
  unfold Dev.memWriteLine
  split_ifs
  · exact ⟨rfl, fun _ => rfl⟩
  · exact ⟨rfl, fun _ => rfl⟩
  · exact Dev.KeepsDir.trans ⟨rfl, fun _ => rfl⟩ (Dev.keepsDir_queueWrite _ _)

theorem Dev.keepsDir_evictWay (d : Dev) (line : Nat) : d.KeepsDir (d.evictWay line) := by
  unfold Dev.evictWay
  split
  · exact .refl d
  next w _ =>
    refine Dev.KeepsDir.trans (e := if w.dirty then d.memWriteLine line w.data false else d) ?_ (Dev.keepsDir_updHome _ _ fun _ => rfl)
    split_ifs
    · exact Dev.keepsDir_memWriteLine ..
    · exact .refl d

theorem Slice.dir_touch (x : Slice) (line : Nat) : (x.touch line).dir = x.dir := by
  unfold Slice.touch; split <;> rfl

theorem Dev.keepsDir_allocWay (d : Dev) (line : Nat) (data : List Byte) (dirty : Bool) : d.KeepsDir (d.allocWay line data dirty) := by
  unfold Dev.allocWay
  split
  · exact Dev.keepsDir_updHome _ _ fun x => Slice.dir_touch _ _
  · refine Dev.KeepsDir.trans (e := match d.victim (d.slice (d.homeSlice line)) (d.homeSet line) 0 with
      | some v => d.evictWay v
      | none => d) ?_ (Dev.keepsDir_updHome _ _ fun _ => rfl)
    split
    · exact Dev.keepsDir_evictWay ..
    · exact .refl d

theorem Dev.keepsDir_writeThrough (d : Dev) (agent line : Nat) (tag : Option TagRef) (data : List Byte) (poison : Bool) :
    d.KeepsDir (d.writeThrough agent line tag data poison) := by
  unfold Dev.writeThrough
  refine (Dev.keepsDir_memWriteLine d line data poison).trans ?_
  simp only
  split_ifs
  · exact ⟨rfl, fun _ => rfl⟩
  · exact Dev.keepsDir_post ..
  · exact Dev.keepsDir_post ..

theorem Slice.dirEntry?_dirClear (x : Slice) (line : Nat) : (x.dirClear line).dirEntry? line = none := by
  simp [Slice.dirEntry?, Slice.dirClear]

theorem Dev.dirCopies_dirClear (d : Dev) (line : Nat) : (d.updHome line fun x => x.dirClear line).dirCopies line = [] := by
  have hhome : (d.updHome line fun x => x.dirClear line).homeSlice line = d.homeSlice line := Dev.homeSlice_congr rfl line
  simp only [Dev.dirCopies, Dev.dirEntry?, hhome]
  simp only [Dev.updHome, Dev.slice_updSlice, Slice.dirEntry?_dirClear, Option.map_none, Option.getD_none]

theorem Dev.dirCopies_grantOwner (d : Dev) (line c : Nat) : (d.grantOwner line c).dirCopies line = [c] := by
  have hhome : (d.grantOwner line c).homeSlice line = d.homeSlice line := Dev.homeSlice_congr rfl line
  simp only [Dev.dirCopies, Dev.dirEntry?, hhome]
  simp [Dev.grantOwner, Dev.updHome, Slice.setDir, Slice.dirEntry?, DirEntry.copies]

/-- Settles O30: the home's action by the request's kind, and the place of a completion. -/
theorem homeGrants : Obligations.HomeGrants := by
  intro d r cap data
  refine ⟨fun hk h => ?_, fun hk h => ?_, fun hk => ?_, fun hk => ?_, fun hk h => ?_, fun hk h => ?_, fun hk => ?_, fun hk => ?_,
    Dev.dirCopies_grantOwner d r.line r.agent, fun x => ⟨_, rfl, rfl, rfl, rfl, rfl, rfl, rfl, rfl, rfl, rfl, rfl, rfl⟩⟩
  · simp only [Dev.perform, hk, h, List.isEmpty_nil, if_true]
  · have hne : ¬ (d.dirCopies r.line).isEmpty = true := by simpa using h
    simp only [Dev.perform, hk, if_neg hne]
  · simp only [Dev.perform, hk]
  · simp only [Dev.perform, hk]
  · simp only [Dev.perform, hk, h, if_true]
  · simp only [Dev.perform, hk, h, Bool.false_eq_true, if_false, reduceCtorEq]
  · simp only [Dev.perform, hk]
  · have hclear := Dev.dirCopies_dirClear d r.line
    rcases hk with hk | hk
    · simp only [Dev.perform, hk]
      split_ifs
      · rw [(Dev.keepsDir_writeThrough _ _ _ _ _ _).dirCopies, hclear]
      · rw [(Dev.keepsDir_complete _ _ _ _ _ _).dirCopies, (Dev.keepsDir_allocWay _ _ _ _).dirCopies, hclear]
    · simp only [Dev.perform, hk]
      rw [(Dev.keepsDir_complete _ _ _ _ _ _).dirCopies, (Dev.keepsDir_allocWay _ _ _ _).dirCopies, hclear]

/-! ## Snoops -/

theorem snoop_waits {kind : MsgKind} {core line : Nat} {m : Msg} {e : Dev} (h : d.takeMsg kind core line = (some m, e))
    (hreq : ∃ q ∈ (e.core core).reqs, q.1 = line) (hcoming : e.grantComing core line = true) :
    d.snoop kind core line = e.updCore core fun k => { k with heldSnoops := k.heldSnoops ++ [(line, snoopCode kind)] } := by
  have hany : ((e.core core).reqs.any fun q => decide (q.1 = line)) = true := by simpa using hreq
  simp only [Dev.snoop, h, hany, hcoming, Bool.and_self, if_true]

theorem snoop_answers {kind : MsgKind} {core line : Nat} {m : Msg} {e : Dev} (h : d.takeMsg kind core line = (some m, e))
    (hfree : (∀ q ∈ (e.core core).reqs, q.1 ≠ line) ∨ e.grantComing core line = false) :
    d.snoop kind core line = e.answerSnoop kind core line := by
  have hand : (((e.core core).reqs.any fun q => decide (q.1 = line)) && e.grantComing core line) = false := by
    rcases hfree with hfree | hfree
    · have hany : ((e.core core).reqs.any fun q => decide (q.1 = line)) = false := by simpa using hfree
      rw [hany, Bool.false_and]
    · rw [hfree, Bool.and_false]
  simp only [Dev.snoop, h, hand, Bool.false_eq_true, if_false]

theorem answerSnoop_none {kind : MsgKind} {core line : Nat} (h : (d.core core).l1? line = none) :
    d.answerSnoop kind core line = d.post (mkMsg .rspAck core line) := by
  simp only [Dev.answerSnoop, h]

theorem answerSnoop_some {kind : MsgKind} {core line : Nat} {l : L1Line} (h : (d.core core).l1? line = some l) :
    d.answerSnoop kind core line =
      (if kind = .snpDown then d.updCore core fun k => k.l1Set line fun l => { l with state := .shared }
        else d.updCore core fun k => k.l1Drop line).post
        (if l.state = .modified ∧ kind ≠ .snpDrop then { mkMsg .rspData core line with data := l.data } else mkMsg .rspAck core line) := by
  simp only [Dev.answerSnoop, h, Bool.and_eq_true, decide_eq_true_eq, Bool.not_eq_true', decide_eq_false_iff_not, ne_eq]

/-! ## Completions -/

theorem Tab.put_put {α : Type} (t : Tab α) (a : Nat) (v w : α) : Tab.put (Tab.put t a v) a w = Tab.put t a w := by
  induction t with
  | nil => simp [Tab.put]
  | cons x t ih =>
    obtain ⟨k, u⟩ := x
    simp only [Tab.put]
    split_ifs with hlt heq
    · simp [Tab.put]
    · simp [Tab.put]
    · simp [Tab.put, hlt, heq, ih]

theorem Tab.erase_put {α : Type} (t : Tab α) (a : Nat) (v : α) : Tab.erase (Tab.put t a v) a = Tab.erase t a := by
  induction t with
  | nil => simp [Tab.put, Tab.erase]
  | cons x t ih =>
    obtain ⟨k, u⟩ := x
    simp only [Tab.put]
    split_ifs with hlt heq
    · simp [Tab.erase]
    · subst heq; simp [Tab.erase]
    · simp only [Tab.erase, List.filter_cons] at ih ⊢
      rw [ih]

/-- Two writes of one entry are the second one, where the first is no removal. -/
theorem Tab.set_set_of_ne {α : Type} [DecidableEq α] {dflt v : α} (h : v ≠ dflt) (t : Tab α) (a : Nat) (w : α) :
    Tab.set dflt (Tab.set dflt t a v) a w = Tab.set dflt t a w := by
  simp only [Tab.set, if_neg h]
  split_ifs
  · exact Tab.erase_put t a v
  · exact Tab.put_put t a v w

theorem Dev.updCore_updCore_of_ne {core : Nat} {g : Core → Core} (h : g (d.core core) ≠ Core.reset) (g' : Core → Core) :
    (d.updCore core g).updCore core g' = d.updCore core fun k => g' (g k) := by
  have hcore : (d.setCore core (g (d.core core))).core core = g (d.core core) := Tab.get_set_same ..
  simp only [Dev.updCore, hcore]
  exact congrArg (fun t => { d with cores := t }) (Tab.set_set_of_ne h _ _ _)

theorem requestOver_of_none {core line : Nat} (h : ∀ v ∈ (d.core core).heldSnoops, v.1 ≠ line) :
    d.requestOver core line = d.updCore core fun k =>
      { k with reqs := eraseFirst (fun q => decide (q.1 = line)) k.reqs, heldSnoops := k.heldSnoops.filter fun h => decide (h.1 ≠ line) } := by
  have hnil : ((d.core core).heldSnoops.filter fun h => decide (h.1 = line)) = [] := by
    simp only [List.filter_eq_nil_iff, decide_eq_true_eq]
    exact fun v hv => h v hv
  simp only [Dev.requestOver, hnil, List.map_nil]
  rfl

/-- A line is installed and the request that asked for it is over, where no snoop waits for it. -/
theorem install_eq {core : Nat} {x : L1Line} (h : ∀ v ∈ (d.core core).heldSnoops, v.1 ≠ x.line) :
    (d.updCore core fun k => k.l1Put x).requestOver core x.line = d.updCore core fun k =>
      { k.l1Put x with reqs := eraseFirst (fun q => decide (q.1 = x.line)) k.reqs,
                       heldSnoops := k.heldSnoops.filter fun h => decide (h.1 ≠ x.line) } := by
  have hne : (d.core core).l1Put x ≠ Core.reset := fun heq => by
    have := congrArg Core.l1 heq
    cases this
  have hheld : ((d.updCore core fun k => k.l1Put x).core core).heldSnoops = (d.core core).heldSnoops := by rw [Dev.core_updCore]; rfl
  rw [requestOver_of_none (by rw [hheld]; exact h), Dev.updCore_updCore_of_ne hne]
  rfl

/-- The state in which a grant leaves its line. -/
def grantState : MsgKind → L1State
  | .cmpS => .shared
  | .cmpE => .exclusive
  | _ => .modified

theorem grantArrives_new {kind : MsgKind} {core line : Nat} {m : Msg} {e : Dev} (h : d.takeMsg kind core line = (some m, e))
    (hdata : m.data ≠ []) (hnone : (e.core core).l1? line = none) :
    d.grantArrives kind core line =
      ((e.l1Evict core line).updCore core fun k => k.l1Put ⟨line, grantState kind, m.data⟩).requestOver core line := by
  have hdata' : m.data.isEmpty = false := by simpa using hdata
  simp only [Dev.grantArrives, h, hnone, hdata', Bool.false_eq_true, if_false, Option.isSome_none]
  rfl

theorem grantArrives_owned {core line : Nat} {m : Msg} {e : Dev} {l : L1Line} (h : d.takeMsg .cmpOwn core line = (some m, e))
    (hdata : m.data = []) (hl : (e.core core).l1? line = some l) :
    d.grantArrives .cmpOwn core line = (e.updCore core fun k => k.l1Put ⟨line, .modified, l.data⟩).requestOver core line := by
  simp only [Dev.grantArrives, h, hl, hdata, List.isEmpty_nil, if_true, Option.isSome_some, Option.map_some, Option.getD_some]

theorem ackArrives_over {kind : MsgKind} {core line : Nat} {m : Msg} {e : Dev} (h : d.takeMsg kind core line = (some m, e)) (hcore : core < 2048)
    (hbuf : ∀ w ∈ (e.core core).wbuf, w.1 ≠ line) (hheld : ∀ v ∈ (e.core core).heldSnoops, v.1 ≠ line) :
    d.ackArrives kind core line = e.updCore core fun k =>
      { k with reqs := eraseFirst (fun q => decide (q.1 = line)) k.reqs, heldSnoops := k.heldSnoops.filter fun h => decide (h.1 ≠ line) } := by
  have hany : ((e.core core).wbuf.any fun w => decide (w.1 = line)) = false := by simpa using hbuf
  simp only [Dev.ackArrives, h, if_neg (Nat.not_le.mpr hcore), hany, Bool.and_false, Bool.false_eq_true, if_false]
  exact requestOver_of_none hheld

theorem ackArrives_written {core line : Nat} {m : Msg} {e : Dev} (h : d.takeMsg .cmpAck core line = (some m, e)) (hcore : core < 2048)
    (hbuf : ∃ w ∈ (e.core core).wbuf, w.1 = line) :
    d.ackArrives .cmpAck core line = e.updCore core fun k => { k with wbuf := eraseFirst (fun w => decide (w.1 = line)) k.wbuf } := by
  have hany : ((e.core core).wbuf.any fun w => decide (w.1 = line)) = true := by simpa using hbuf
  simp only [Dev.ackArrives, h, if_neg (Nat.not_le.mpr hcore), hany, decide_true, Bool.and_self, if_true]

theorem ackArrives_agent {kind : MsgKind} {core line : Nat} {m : Msg} {e : Dev} (h : d.takeMsg kind core line = (some m, e)) (hcore : 2048 ≤ core) :
    d.ackArrives kind core line = e := by
  simp only [Dev.ackArrives, h, if_pos hcore]

/-- Settles O31: a snoop that waits or is answered, and each completion. -/
theorem snoopsAndCompletions : Obligations.SnoopsAndCompletions := by
  intro s core line m e
  have run {x y : Dev} (h : x = y) : (Host.Outcome.next (s.to x) : Out) = .next (s.to y) := congrArg (fun e => Host.Outcome.next (s.to e)) h
  refine ⟨fun p hp h => ?_, fun hheld => ⟨fun p hp h hdata hnone hheld' => ?_, fun h hdata l hl => ?_⟩, fun hheld hcore hbuf p hp h => ?_,
    fun hcore hbuf h => run (ackArrives_written h hcore hbuf), fun hcore p hp h => ?_⟩
  · have hrun : exec p.2.2 s = .next (s.to (s.dev.snoop p.1 core line)) ∧ p.2.1 = snoopCode p.1 := by
      simp only [List.mem_cons, List.not_mem_nil, or_false] at hp
      rcases hp with rfl | rfl | rfl
      · exact ⟨rfl, rfl⟩
      · exact ⟨rfl, rfl⟩
      · exact ⟨rfl, rfl⟩
    obtain ⟨hrun, hcode⟩ := hrun
    refine ⟨fun hfree => ⟨fun hnone => hrun.trans (run ?_), fun l hl => hrun.trans (run ?_)⟩, fun hreq hcoming => hrun.trans (run ?_)⟩
    · rw [snoop_answers h hfree, answerSnoop_none hnone]
    · rw [snoop_answers h hfree, answerSnoop_some hl]
    · rw [snoop_waits h hreq hcoming, hcode]
  · simp only [List.mem_cons, List.not_mem_nil, or_false] at hp
    rcases hp with rfl | rfl | rfl
    · exact run ((grantArrives_new h hdata hnone).trans (install_eq (x := ⟨line, .shared, m.data⟩) hheld'))
    · exact run ((grantArrives_new h hdata hnone).trans (install_eq (x := ⟨line, .exclusive, m.data⟩) hheld'))
    · exact run ((grantArrives_new h hdata hnone).trans (install_eq (x := ⟨line, .modified, m.data⟩) hheld'))
  · exact run ((grantArrives_owned h hdata hl).trans (install_eq (x := ⟨line, .modified, l.data⟩) hheld))
  · simp only [List.mem_cons, List.not_mem_nil, or_false] at hp
    rcases hp with rfl | rfl
    · exact run (ackArrives_over h hcore hbuf hheld)
    · exact run (ackArrives_over h hcore hbuf hheld)
  · simp only [List.mem_cons, List.not_mem_nil, or_false] at hp
    rcases hp with rfl | rfl
    · exact run (ackArrives_agent h hcore)
    · exact run (ackArrives_agent h hcore)

end Sys2Proof.Machine
end

section
/-! Events at a home: responses, write-backs, fills, the timeout, and a slice's mode (R138 to R141, R148, R151). -/

namespace Sys2Proof.Machine

variable {d : Dev} {s : State}

/-! ## No request moves a stripe -/

@[simp] theorem Dev.stripes_updHome (line : Nat) (g : Slice → Slice) : (d.updHome line g).stripes = d.stripes := rfl
@[simp] theorem Dev.stripes_countF (f off n : Nat) : (d.countF f off n).stripes = d.stripes := rfl
@[simp] theorem Dev.stripes_complete (kind : MsgKind) (r : Request) (data : List Byte) (x : Bool) (st : Code) :
    (d.complete kind r data x st).stripes = d.stripes := rfl
@[simp] theorem Dev.stripes_grantOwner (line c : Nat) : (d.grantOwner line c).stripes = d.stripes := rfl
@[simp] theorem Dev.stripes_grantSharer (line c : Nat) : (d.grantSharer line c).stripes = d.stripes := rfl
@[simp] theorem Dev.stripes_hbmTouch (line : Nat) (w : Bool) : (d.hbmTouch line w).stripes = d.stripes := rfl
@[simp] theorem Dev.stripes_evictWay (line : Nat) : (d.evictWay line).stripes = d.stripes := (Dev.keepsDir_evictWay d line).1
@[simp] theorem Dev.stripes_allocWay (line : Nat) (data : List Byte) (x : Bool) : (d.allocWay line data x).stripes = d.stripes :=
  (Dev.keepsDir_allocWay d line data x).1
@[simp] theorem Dev.stripes_writeThrough (agent line : Nat) (tag : Option TagRef) (data : List Byte) (x : Bool) :
    (d.writeThrough agent line tag data x).stripes = d.stripes := (Dev.keepsDir_writeThrough d agent line tag data x).1

@[simp] theorem Dev.stripes_countRead (line : Nat) : (d.countRead line).stripes = d.stripes := by
  unfold Dev.countRead
  split_ifs <;> simp

@[simp] theorem Dev.stripes_countHit (r : Request) : (d.countHit r).stripes = d.stripes := by
  unfold Dev.countHit
  simp only
  split_ifs <;> simp

@[simp] theorem Dev.stripes_countMiss (r : Request) : (d.countMiss r).stripes = d.stripes := by
  unfold Dev.countMiss
  simp only
  split_ifs <;> simp

@[simp] theorem Dev.stripes_countOutcome (r : Request) (hit filled : Bool) : (d.countOutcome r hit filled).stripes = d.stripes := by
  unfold Dev.countOutcome
  split_ifs <;> simp

@[simp] theorem Dev.stripes_moveWay (line : Nat) (retain : Bool) : (d.moveWay line retain).stripes = d.stripes := by
  unfold Dev.moveWay
  simp only
  split
  · rfl
  · split_ifs
    · rfl
    · rw [Dev.stripes_updHome]
      split
      · split_ifs <;> simp
      · rfl
    · rfl
    · rw [Dev.stripes_updHome]
      split <;> simp

@[simp] theorem Dev.stripes_pinWay (line : Nat) (data : List Byte) (retain : Bool) : (d.pinWay line data retain).stripes = d.stripes := by
  unfold Dev.pinWay
  simp only
  split_ifs
  · simp
  · rw [Dev.stripes_updHome]
    split <;> simp
  · rw [Dev.stripes_updHome]
    split <;> simp

@[simp] theorem Dev.stripes_pinLine (r : Request) (cap : Nat) (data : List Byte) : (d.pinLine r cap data).1.stripes = d.stripes := by
  unfold Dev.pinLine
  simp only
  split
  · simp
  · split_ifs <;> simp

@[simp] theorem Dev.stripes_unpinLine (line f : Nat) : (d.unpinLine line f).1.stripes = d.stripes := by
  unfold Dev.unpinLine
  split
  · rfl
  · split_ifs <;> simp

@[simp] theorem Dev.stripes_perform (r : Request) (cap : Nat) (data : List Byte) : (d.perform r cap data).stripes = d.stripes := by
  unfold Dev.perform
  simp only
  split
  case h_1 => split_ifs <;> simp
  case h_6 => split_ifs <;> simp
  case h_8 =>
    split
    · split_ifs <;> simp
    · simp
    · simp
    · simp
    · split
      · split_ifs <;> simp
      · simp
    · simp
  all_goals simp

@[simp] theorem Dev.stripes_performPoisoned (r : Request) : (d.performPoisoned r).stripes = d.stripes := by
  unfold Dev.performPoisoned
  simp only
  split
  case h_8 => split <;> simp
  all_goals simp

@[simp] theorem Dev.stripes_performPoisonWrite (r : Request) (data : List Byte) : (d.performPoisonWrite r data).stripes = d.stripes := by
  simp [Dev.performPoisonWrite]

theorem Dev.stripes_proceed (r : Request) (cap : Nat) (filled : Bool) : (d.proceed r cap filled).1.stripes = d.stripes := by
  unfold Dev.proceed
  simp only
  split_ifs <;> simp

/-! ## Responses and write-backs -/

theorem sliceReg_eq (n off : Nat) : sliceReg n off = 0x201000 + off + 0x40 * n := by
  unfold sliceReg; omega

theorem rspAck_late {core line : Nat} {m : Msg} {e : Dev} (h : d.takeMsg .rspAck core line = (some m, e)) (ht : e.txn? line = none) :
    d.rspAckArrives core line = e.count (0x201030 + 0x40 * e.homeSlice line) 1 := by
  simp only [Dev.rspAckArrives, h, ht, sliceReg_eq]

theorem rspAck_answers {core line : Nat} {m : Msg} {e : Dev} {t : Txn} (h : d.takeMsg .rspAck core line = (some m, e))
    (ht : e.txn? line = some t) (hown : t.own = false) (hsnoop : core ∈ t.snoops) (hack : core ∉ t.acks)
    (hwb : ∀ w ∈ e.net, w.isFor .wb core line = false) : d.rspAckArrives core line = e.snoopAnswered t core line := by
  have hwb' : (e.net.any fun w => w.isFor .wb core line) = false := by simpa using hwb
  have hack' : t.acks.contains core = false := by simpa using hack
  simp only [Dev.rspAckArrives, h, ht, hown, List.contains_iff_mem.mpr hsnoop, hack', hwb', Bool.not_true, Bool.or_self, Bool.false_eq_true,
    if_false]

theorem rspData_answers {core line : Nat} {m : Msg} {e : Dev} {t : Txn} (h : d.takeMsg .rspData core line = (some m, e))
    (ht : e.txn? line = some t) (hown : t.own = false) (hsnoop : core ∈ t.snoops) (hclean : m.poison = false)
    (hmem : NSet.has e.memPoison line = false) :
    d.rspDataArrives core line = (e.allocWay line m.data true).snoopAnswered t core line := by
  simp only [Dev.rspDataArrives, h, ht, hown, List.contains_iff_mem.mpr hsnoop, hclean, hmem, Bool.not_true, Bool.or_self,
    Bool.false_eq_true, if_false]

/-- The home no longer names a core that gave its copy up. -/
def Dev.goneFrom (d : Dev) (core line : Nat) : Dev := d.updHome line fun x => x.dirRemove line core

theorem wb_merged {core line : Nat} {m : Msg} {e : Dev} (h : d.takeMsg .wb core line = (some m, e)) (hclean : m.poison = false)
    (hmem : NSet.has e.memPoison line = false) (ht : e.txn? line = none)
    (hslice : (e.way? line).isSome = true ∨ (e.slice (e.homeSlice line)).isStream core line = false) :
    d.wbArrives core line = ((e.goneFrom core line).allocWay line m.data true).post (mkMsg .cmpAck core line) := by
  have hnone : ((e.way? line).isNone && (e.slice (e.homeSlice line)).isStream core line) = false := by
    rcases hslice with hway | hstream
    · rw [← Option.not_isSome, hway]; rfl
    · rw [hstream, Bool.and_false]
  have hmem' : NSet.has (e.updHome line fun x => x.dirRemove line core).memPoison line = false := hmem
  simp only [Dev.wbArrives, h, hclean, hmem, ht, hmem', Bool.not_false, Bool.true_and, hnone, Bool.false_eq_true, if_false]
  rfl

theorem wb_streamed {core line : Nat} {m : Msg} {e : Dev} (h : d.takeMsg .wb core line = (some m, e)) (hclean : m.poison = false)
    (hmem : NSet.has e.memPoison line = false) (ht : e.txn? line = none) (hway : e.way? line = none)
    (hstream : (e.slice (e.homeSlice line)).isStream core line = true) :
    d.wbArrives core line = (e.goneFrom core line).writeThrough core line none m.data false := by
  simp only [Dev.wbArrives, h, hclean, hmem, ht, hway, hstream, Option.isNone_none, Bool.not_false, Bool.and_self, if_true]
  rfl

theorem Slice.txns_dirRemove (x : Slice) (line c : Nat) : (x.dirRemove line c).txns = x.txns := by
  unfold Slice.dirRemove Slice.setDir
  split
  · rfl
  · simp only; split_ifs <;> rfl

theorem Dev.txn?_goneFrom (core line : Nat) : (d.goneFrom core line).txn? line = d.txn? line := by
  have hhome : (d.goneFrom core line).homeSlice line = d.homeSlice line := Dev.homeSlice_congr rfl line
  simp only [Dev.txn?, hhome]
  simp only [Dev.goneFrom, Dev.updHome, Dev.slice_updSlice, Slice.txn?, Slice.txns_dirRemove]

theorem evc_gone {core line : Nat} {m : Msg} {e : Dev} (h : d.takeMsg .evc core line = (some m, e)) (ht : e.txn? line = none) :
    d.evcArrives core line = e.goneFrom core line := by
  have ht' : (e.updHome line fun x => x.dirRemove line core).txn? line = none :=
    (Dev.txn?_goneFrom core line).trans ht
  simp only [Dev.evcArrives, h, ht']
  rfl

/-! ## Fills and the timeout -/

theorem fillDone_alone {line : Nat} {t : Txn} (ht : d.txn? line = some t) (hjoined : t.joined = []) (hfill : t.fill = true)
    (hread : d.reading line = false) :
    d.fillDone line =
      (if (((d.countRead line).proceed t.req t.cap true).1.slice (d.homeSlice line)).missMode = true
        then ((d.countRead line).proceed t.req t.cap true).1
        else { ((d.countRead line).proceed t.req t.cap true).1 with
          net := ((d.countRead line).proceed t.req t.cap true).1.net.take d.net.length ++
            fuse (((d.countRead line).proceed t.req t.cap true).1.net.drop d.net.length) }).closeTxn line := by
  have hchecked : d.memChecked line = d := by simp only [Dev.memChecked, hread, Bool.not_false, if_true]
  have hnet : (d.countRead line).net = d.net := by unfold Dev.countRead; split_ifs <;> rfl
  have hhome : ((d.countRead line).proceed t.req t.cap true).1.homeSlice line = d.homeSlice line :=
    Dev.homeSlice_congr ((Dev.stripes_proceed _ _ _).trans (Dev.stripes_countRead _)) line
  have hfew : ([t.req].filter fun r => decide (r.kind = .rdS)).length < 2 := by
    have := List.length_filter_le (fun r : Request => decide (r.kind = .rdS)) [t.req]
    simp only [List.length_singleton] at this
    omega
  simp only [Dev.fillDone, ht, hfill, hjoined, hchecked, Bool.not_true, Bool.false_eq_true, if_false, Dev.forEach, List.foldl_cons, List.foldl_nil,
    decide_eq_false (Nat.not_le.mpr hfew), Bool.and_false, Bool.false_and, hnet, hhome]

theorem homeTimeout_alone {line : Nat} {t : Txn} (ht : d.txn? line = some t) (hjoined : t.joined = []) (hfacet : d.lineFacet line = 0) :
    d.homeTimeout line =
      (((if t.fill = true then ((d.poisonLine line).count (0x201028 + 0x40 * d.homeSlice line) 1).updSlice (d.homeSlice line) fun x =>
          { x with lateFills := x.lateFills ++ [line] }
        else (d.poisonLine line).count (0x201028 + 0x40 * d.homeSlice line) 1).timeoutReply t.req).glint 0 0x601 (d.homeSlice line)
          (128 * line) 0).closeTxn line := by
  simp only [Dev.homeTimeout, ht, hjoined, hfacet, sliceReg_eq, if_true, Dev.forEach, List.foldl_cons, List.foldl_nil]

/-! ## A slice's mode -/

theorem Slice.openFills_of_none {x : Slice} (h : ∀ t ∈ x.txns, t.fill = false) : x.openFills = 0 := by
  simp only [Slice.openFills, countIf, List.length_eq_zero_iff, List.filter_eq_nil_iff, Bool.not_eq_true]
  exact h

theorem holdDrained {slice : Nat} (hslice : slice < 96) (htrace : d.security.trace = none) (hhold : (d.slice slice).hold = true)
    (hfills : ∀ t ∈ (d.slice slice).txns, t.fill = false) :
    (if slice < 96 ∧ (d.slice slice).hold = true ∧ (d.slice slice).openFills = 0 then
      (d.trace 4 slice (boolNat (d.slice slice).nextMode)).endHold slice else d) =
      Dev.serve slice serveFuel [] (d.updSlice slice fun x => { x with missMode := x.nextMode, cause := x.nextCause, hold := false }) := by
  have hopen := Slice.openFills_of_none hfills
  have htr : d.trace 4 slice (boolNat (d.slice slice).nextMode) = d := by simp only [Dev.trace, htrace]
  rw [if_pos ⟨hslice, hhold, hopen⟩, htr]
  simp only [Dev.endHold, hhold, hopen, decide_true, Bool.and_self, if_true]

/-- Settles O32: each event at the home by the transaction that it finds. -/
theorem homeEvents : Obligations.HomeEvents := by
  intro s core line m e
  have run {x y : Dev} (h : x = y) : (Host.Outcome.next (s.to x) : Out) = .next (s.to y) := congrArg (fun e => Host.Outcome.next (s.to e)) h
  refine ⟨fun h ht => run (rspAck_late h ht), fun t ht hown hsnoop hack => ⟨fun h hwb => run (rspAck_answers h ht hown hsnoop hack hwb),
      fun h hclean hmem => run (rspData_answers h ht hown hsnoop hclean hmem)⟩,
    fun h hclean hmem ht => ⟨fun hslice => run (wb_merged h hclean hmem ht hslice),
      fun hway hstream => run (wb_streamed h hclean hmem ht hway hstream)⟩,
    fun h ht => run (evc_gone h ht), fun hlate => run ?_, fun t ht hjoined => ⟨fun hfill hlate hread => ?_,
      fun hfacet => run (homeTimeout_alone ht hjoined hfacet)⟩, fun slice miss cause hslice => ⟨fun hhold hmode => run ?_,
      fun htrace hhold hfills => run (holdDrained hslice htrace hhold hfills)⟩⟩
  · refine (if_pos (List.contains_iff_mem.mpr hlate)).trans ?_
    rw [sliceReg_eq]
  · have hnot : ¬ (s.dev.slice (s.dev.homeSlice line)).lateFills.contains line = true := fun h => hlate (List.contains_iff_mem.mp h)
    have hexec : exec (.sliceFillComplete line) s = .next (s.to (s.dev.fillDone line)) := by
      refine run ((if_neg hnot).trans ?_)
      rw [hread, if_neg Bool.false_ne_true]
    have hdone := fillDone_alone ht hjoined hfill hread
    refine ⟨fun hmiss => hexec.trans (run ?_), fun hmiss hfuse hkeep => hexec.trans (run ?_)⟩
    · rw [hdone, if_pos hmiss]
    · rw [hdone, if_neg (by rw [hmiss]; exact Bool.false_ne_true), ← hfuse, List.take_append_drop]
  · exact if_neg (by simp [hhold, hmode, hslice])

end Sys2Proof.Machine
end

section
/-! The package fabric: hops, flits, lanes, retraining and tags (R162 to R172, R423). -/

namespace Sys2Proof.Machine

variable {d : Dev} {s : State}

/-! ## One hop in the mesh -/

/-- The block once an output has granted a message to a node that no pair port leads to. -/
def Dev.hopped (d : Dev) (m : Msg) (out dest input : Nat) : Dev :=
  { d.turn m.node out m with
    net := eraseFirst (fun v => decide (v.id = m.id)) d.net ++ [{ m with node := dest, input := input, vc := m.kind.cls }] }

theorem destsBy_alone {m : Msg} {h : Hop} (halso : m.also = []) (hh : d.msgHop m m.agent = some h) : d.destsBy m h.out = [(m.agent, m.tag)] := by
  simp only [Dev.destsBy, Msg.dests, halso, List.filter_cons, List.filter_nil, hh, decide_true, if_true]

theorem depart_alone {m : Msg} {h : Hop} (halso : m.also = []) (hh : d.msgHop m m.agent = some h) :
    d.depart m h.out = (some m, d.dropMsg m.id) := by
  have hrest : (m.dests.filter fun e => !(d.destsBy m h.out).contains e) = [] := by
    rw [destsBy_alone halso hh]
    simp [Msg.dests, halso]
  simp only [Dev.depart, hrest, Msg.keep]

theorem grantOut_hop {m : Msg} {h : Hop} {dest input : Nat} (hw : d.winner m.node h.out = some m) (halso : m.also = [])
    (hh : d.msgHop m m.agent = some h) (hnext : h.next = some (dest, input)) (hser : isSerial m.node h.out = false) :
    d.grantOut m.node h.out = some (d.hopped m h.out dest input) := by
  have hdep : (d.turn m.node h.out m).depart m h.out = (some m, (d.turn m.node h.out m).dropMsg m.id) := depart_alone halso hh
  have hh' : (((d.turn m.node h.out m).dropMsg m.id).msgHop m m.agent).bind Hop.next = some (dest, input) :=
    (congrArg (fun o : Option Hop => o.bind Hop.next) hh).trans hnext
  simp only [Dev.grantOut, hw, hdep, hh', hser, Bool.false_eq_true, if_false, outVc, Bool.false_and]
  rfl

/-- A message that stands at a node and whose next hop is granted. -/
structure Granted (d : Dev) (m : Msg) (h : Hop) (dest input : Nat) : Prop where
  found  : d.net.find? (fun v => decide (v.id = m.id)) = some m
  here   : m.arrived = false
  still  : m.flying = false
  alone  : m.also = []
  hop    : d.msgHop m m.agent = some h
  mesh   : isSerial m.node h.out = false
  next   : h.next = some (dest, input)
  winner : d.winner m.node h.out = some m

variable {m : Msg} {h : Hop} {dest input fails : Nat}

/-- The block once a flit of a message has failed beyond its replays: its data is poisoned. -/
def Dev.flitPoisoned (d : Dev) (m : Msg) : Dev :=
  { d.count 0x609038 1 with net := updFirst (fun v => decide (v.id = m.id)) Msg.poisoned d.net }

theorem Granted.goes (g : Granted d m h dest input) :
    ¬ (isSerial m.node h.out = true ∨ h.next = none ∨ (d.winner m.node h.out).map Msg.id ≠ some m.id) := by
  simp [g.mesh, g.next, g.winner]

theorem meshFlit_clean (g : Granted d m h dest input) : d.meshFlit m.id 0 = d.hopped m h.out dest input := by
  simp only [Dev.meshFlit, g.found, g.here, g.still, Bool.or_self, Bool.false_eq_true, if_false, g.hop, if_neg g.goes, true_or, if_true,
    Nat.zero_le, grantOut_hop g.winner g.alone g.hop g.next g.mesh, Option.getD_some]

theorem meshFlit_replayed (g : Granted d m h dest input) (h₁ : 1 ≤ fails) (h₂ : fails ≤ 16) :
    d.meshFlit m.id fails = (d.hopped m h.out dest input).corrected := by
  have hnot : ¬ (fails = 0 ∨ 16 < fails) := by omega
  have hgrant : d.corrected.grantOut m.node h.out = some (d.corrected.hopped m h.out dest input) :=
    grantOut_hop (d := d.corrected) g.winner g.alone g.hop g.next g.mesh
  simp only [Dev.meshFlit, g.found, g.here, g.still, Bool.or_self, Bool.false_eq_true, if_false, g.hop, if_neg g.goes, if_neg hnot,
    if_pos h₂, hgrant, Option.getD_some]
  rfl

theorem meshFlit_dropped (g : Granted d m h dest input) (hfails : 16 < fails) (hdata : m.hasData = false) :
    d.meshFlit m.id fails = (d.count 0x609038 1).dropMsg m.id := by
  simp only [Dev.meshFlit, g.found, g.here, g.still, Bool.or_self, Bool.false_eq_true, if_false, g.hop, if_neg g.goes,
    if_pos (Or.inr hfails : fails = 0 ∨ 16 < fails), if_neg (Nat.not_le.mpr hfails), hdata, Bool.not_false, if_true]

theorem Msg.poisoned_cls (m : Msg) : m.poisoned.kind.cls = m.kind.cls := by
  unfold Msg.poisoned
  split <;> simp_all [MsgKind.cls]

theorem Msg.poisoned_place (m : Msg) : m.poisoned.node = m.node ∧ m.poisoned.second = m.second ∧ m.poisoned.agent = m.agent ∧
    m.poisoned.line = m.line ∧ m.poisoned.also = m.also ∧ m.poisoned.id = m.id := by
  unfold Msg.poisoned
  split <;> exact ⟨rfl, rfl, rfl, rfl, rfl, rfl⟩

theorem msgHop_poisoned (m : Msg) (a : Nat) : d.msgHop m.poisoned a = d.msgHop m a := by
  obtain ⟨hnode, hsecond, -, hline, -, -⟩ := m.poisoned_place
  have hhome : m.poisoned.kind.toHome = m.kind.toHome := by simp only [MsgKind.toHome, Msg.poisoned_cls]
  simp only [Dev.msgHop, Dev.msgGoal, hnode, hsecond, hline, hhome]

theorem meshFlit_poisoned (g : Granted d m h dest input) (hfails : 16 < fails) (hdata : m.hasData = true)
    (hwin : (d.flitPoisoned m).winner m.node h.out = some m.poisoned) :
    d.meshFlit m.id fails = ((d.flitPoisoned m).hopped m.poisoned h.out dest input).poisonOrigin 7 false (128 * m.line)
      ((d.flitPoisoned m).lineFacet m.line) := by
  obtain ⟨hnode, -, hagent, -, halso, -⟩ := m.poisoned_place
  have hhop : (d.flitPoisoned m).msgHop m.poisoned m.poisoned.agent = some h := by
    rw [msgHop_poisoned, hagent]; exact g.hop
  have hgrant : (d.flitPoisoned m).grantOut m.node h.out = some ((d.flitPoisoned m).hopped m.poisoned h.out dest input) := by
    rw [← hnode] at hwin ⊢
    exact grantOut_hop hwin (halso.trans g.alone) hhop g.next (by rw [hnode]; exact g.mesh)
  simp only [Dev.meshFlit, g.found, g.here, g.still, Bool.or_self, Bool.false_eq_true, if_false, g.hop, if_neg g.goes,
    if_pos (Or.inr hfails : fails = 0 ∨ 16 < fails), if_neg (Nat.not_le.mpr hfails), hdata, Bool.not_true]
  exact congrArg (fun o : Option Dev => (o.getD (d.flitPoisoned m)).poisonOrigin 7 false (128 * m.line)
    ((d.flitPoisoned m).lineFacet m.line)) hgrant

/-! ## Flits of a pair port -/

theorem d2dCounter_eq (n off : Nat) : d2dCounter n off = 0x602000 + off + 0x40 * n := by
  unfold d2dCounter; omega

theorem pairPort_live {n : Nat} (hn : n < 6) (hlive : (d.port n).state = .up ∨ (d.port n).state = .degraded) :
    ¬ (6 ≤ n ∨ ¬ ((d.port n).state = .up ∨ (d.port n).state = .degraded)) := by
  rintro (h | h)
  · omega
  · exact h hlive

theorem pairPortFlit_replay {n : Nat} {ab : Bool} {fec : List Nat} {crcOk : Bool} {f : Flit} (hn : n < 6)
    (hlive : (d.port n).state = .up ∨ (d.port n).state = .degraded)
    (hf : (((d.port n).dir ab).resend.bind fun q => ((d.port n).dir ab).replay.find? fun v => decide (v.seq = q)) = some f) :
    d.pairPortFlit n ab (some f.msg) fec crcOk = d.receiveFlit n ab (some f) true fec crcOk := by
  simp only [Dev.pairPortFlit, if_neg (pairPort_live hn hlive), hf, if_true]

theorem PairPort.updDir_other (p : PairPort) (ab : Bool) (g : PortDir → PortDir) : (p.updDir ab g).dir (!ab) = p.dir (!ab) := by
  cases ab <;> rfl

@[simp] theorem PairPort.dir_updDir (p : PairPort) (ab : Bool) (g : PortDir → PortDir) : (p.updDir ab g).dir ab = g (p.dir ab) := by
  cases ab <;> rfl

theorem Dev.updPort_congr {n : Nat} {g g' : PairPort → PairPort} (h : g (d.port n) = g' (d.port n)) : d.updPort n g = d.updPort n g' := by
  simp only [Dev.updPort, h]

theorem pairPortFlit_ack {n : Nat} {ab : Bool} (hn : n < 6) (hlive : (d.port n).state = .up ∨ (d.port n).state = .degraded) :
    d.pairPortFlit n ab none [] true = ((((d.count (0x602030 + 0x40 * n) 1).count (0x602038 + 0x40 * n) 1).updPort n fun p =>
      p.updDir ab fun x => { x with flits := x.flits + 1 })).updPort n fun p => p.updDir (!ab) fun x =>
        { x with replay := x.replay.filter fun v => decide ((p.dir (!ab)).expect ≤ v.seq) } := by
  simp only [Dev.pairPortFlit, if_neg (pairPort_live hn hlive), Dev.ackFlit, Dev.receiveFlit, Bool.not_true, List.length_nil,
    Nat.not_lt_zero, decide_false, Bool.or_self, Bool.false_eq_true, if_false, List.isEmpty_nil, if_true, Nat.zero_le, decide_true,
    Bool.and_self, d2dCounter_eq]
  refine Dev.updPort_congr ?_
  simp only [Dev.port_updPort, PairPort.updDir_other]
  rfl

theorem pairPortFlit_new {n : Nat} {ab : Bool} {fec : List Nat} {crcOk : Bool} {m c : Msg} {e : Dev} (hn : n < 6)
    (hlive : (d.port n).state = .up ∨ (d.port n).state = .degraded) (hresend : ((d.port n).dir ab).resend = none)
    (hwin : d.winner (routerNode (if ab then portEndA n else portEndB n))
      (serialPort (if ab then portEndA n else portEndB n) (if ab then portEndB n else portEndA n)) = some m)
    (hdep : (d.turn (routerNode (if ab then portEndA n else portEndB n))
      (serialPort (if ab then portEndA n else portEndB n) (if ab then portEndB n else portEndA n)) m).depart m
        (serialPort (if ab then portEndA n else portEndB n) (if ab then portEndB n else portEndA n)) = (some c, e)) :
    let base := if ab then portEndA n else portEndB n
    let far := if ab then portEndB n else portEndA n
    let node := routerNode base
    let out := serialPort base far
    let q := e.tagMsg { c with node := routerNode far, input := serialPort far base, vc := outVc node out m, flying := true }
    let f : Flit := { vc := outVc node out m, seq := ((d.port n).dir ab).seq, ack := ((d.port n).dir (!ab)).expect, msg := c.id, node := node,
                      input := m.input, from_ := m.vc }
    d.pairPortFlit n ab (some m.id) fec crcOk =
      Dev.receiveFlit ((Dev.countDetour { q.2 with net := q.2.net ++ [q.1] } m base far).updPort n fun p => p.updDir ab fun x =>
        { x with seq := x.seq + 1, replay := x.replay ++ [f] }) n ab (some f) false fec crcOk := by
  intro base far node out q f
  simp only [Dev.pairPortFlit, if_neg (pairPort_live hn hlive), hresend, Option.bind_none, hwin, ne_eq, not_true_eq_false, if_false, hdep]
  rfl

/-! ## A flit received -/

/-- A flit is counted as sent, and as a replay. -/
def Dev.flitSent (d : Dev) (n : Nat) (again : Bool) : Dev :=
  if again then (d.count (d2dCounter n 0x30) 1).count (d2dCounter n 0x08) 1 else d.count (d2dCounter n 0x30) 1

@[simp] theorem Dev.port_flitSent (n : Nat) (again : Bool) (k : Nat) : (d.flitSent n again).port k = d.port k := by
  unfold Dev.flitSent; split_ifs <;> rfl
@[simp] theorem Dev.net_flitSent (n : Nat) (again : Bool) : (d.flitSent n again).net = d.net := by
  unfold Dev.flitSent; split_ifs <;> rfl

/-- Failed replays of a flit after one that fails. -/
def Dev.flitFails (d : Dev) (n : Nat) (ab again : Bool) : Nat := if again then ((d.port n).dir ab).fails + 1 else 0

/-- The block once a flit's replay is due. -/
def Dev.flitFailed (d : Dev) (n : Nat) (ab : Bool) (f : Flit) (again : Bool) : Dev :=
  (d.flitSent n again).updPort n fun p => p.updDir ab fun x => { x with resend := some f.seq, fails := d.flitFails n ab again }

theorem receiveFlit_failed {n : Nat} {ab again : Bool} {f : Flit} {fec : List Nat} {crcOk : Bool} (h : crcOk = false ∨ 4 < fec.length) :
    d.receiveFlit n ab (some f) again fec crcOk =
      if 16 ≤ d.flitFails n ab again then (d.flitFailed n ab f again).retrain n else d.flitFailed n ab f again := by
  have hbad : (!crcOk || decide (4 < fec.length)) = true := by simpa using h
  simp only [Dev.receiveFlit, hbad, if_true]
  cases again <;> rfl

theorem PairPort.updDir_net (p : PairPort) (ab : Bool) (g : PortDir → PortDir) : (p.updDir ab g).state = p.state := by
  cases ab <;> rfl

theorem flitFailed_dir (n : Nat) (ab : Bool) (f : Flit) (again : Bool) : ((d.flitFailed n ab f again).port n).dir ab =
    { (d.port n).dir ab with resend := some f.seq, fails := d.flitFails n ab again } := by
  simp only [Dev.flitFailed, Dev.port_updPort, PairPort.dir_updDir, Dev.port_flitSent]

theorem flitFailed_state (n : Nat) (ab : Bool) (f : Flit) (again : Bool) :
    ((d.flitFailed n ab f again).port n).state = (d.port n).state := by
  simp only [Dev.flitFailed, Dev.port_updPort, PairPort.updDir_net, Dev.port_flitSent]

theorem retrain_port (n : Nat) : (d.retrain n).port n =
    { d.port n with state := .retrain, attempts := 0, halfTurn := false, ab := { (d.port n).ab with fails := 0 },
                    ba := { (d.port n).ba with fails := 0 } } := by
  simp only [Dev.retrain, Dev.port_updPort]
  rfl

theorem retrain_resend (n : Nat) (ab : Bool) : (((d.retrain n).port n).dir ab).resend = ((d.port n).dir ab).resend := by
  rw [retrain_port]; cases ab <;> rfl

/-- The block once a good flit is counted. -/
def Dev.flitCounted (d : Dev) (n : Nat) (again : Bool) (fec : List Nat) : Dev :=
  let e := if fec.isEmpty then d.flitSent n again else ((d.flitSent n again).count (d2dCounter n 0) 1).corrected
  (if again then e.corrected else e).count (d2dCounter n 0x38) 1

@[simp] theorem Dev.port_flitCounted (n : Nat) (again : Bool) (fec : List Nat) (k : Nat) : (d.flitCounted n again fec).port k = d.port k := by
  rw [← d.port_flitSent n again k]
  unfold Dev.flitCounted
  simp only
  split_ifs <;> rfl

@[simp] theorem Dev.net_flitCounted (n : Nat) (again : Bool) (fec : List Nat) : (d.flitCounted n again fec).net = d.net := by
  rw [← d.net_flitSent n again]
  unfold Dev.flitCounted
  simp only
  split_ifs <;> rfl

/-- The block once a good flit has moved its port on: its acknowledgement has freed the other direction's replay buffer. -/
def Dev.flitTaken (d : Dev) (n : Nat) (ab : Bool) (f : Flit) (again : Bool) (fec : List Nat) : Dev :=
  (((d.flitCounted n again fec).updPort n fun p => p.updDir ab fun x => { x.correct fec with flits := x.flits + 1 }).updPort n fun p =>
    p.updDir (!ab) fun x => { x with replay := x.replay.filter fun v => decide (f.ack ≤ v.seq) }).updPort n fun p => p.updDir ab fun x =>
      { x with expect := if decide (f.seq = ((d.port n).dir ab).expect) then x.expect + 1 else x.expect, fails := 0,
               resend := if x.resend.isSome then (x.replay.find? fun v => decide (f.seq < v.seq)).map Flit.seq else none }

/-- The message of a flit is received, where the flit is not a repetition. -/
def Dev.flitDelivered (d : Dev) (f : Flit) (fresh : Bool) : Dev :=
  match d.net.find? fun m => decide (m.id = f.msg) with
  | some m => if fresh && m.flying then (d.dropMsg m.id).receive m else d
  | none => d

theorem PairPort.dir_updDir_not (p : PairPort) (ab : Bool) (g : PortDir → PortDir) : (p.updDir (!ab) g).dir ab = p.dir ab := by
  cases ab <;> rfl

theorem receiveFlit_taken {n : Nat} {ab again : Bool} {f : Flit} {fec : List Nat} (h : fec.length ≤ 4) :
    d.receiveFlit n ab (some f) again fec true =
      (d.flitTaken n ab f again fec).flitDelivered f (decide (f.seq = ((d.port n).dir ab).expect)) := by
  have hgood : (!true || decide (4 < fec.length)) = false := by simpa using h
  have hexpect : (((((d.flitCounted n again fec).updPort n fun p => p.updDir ab fun x => { x.correct fec with flits := x.flits + 1 }).updPort n
      fun p => p.updDir (!ab) fun x => { x with replay := x.replay.filter fun v => decide (f.ack ≤ v.seq) }).port n).dir ab).expect =
      ((d.port n).dir ab).expect := by
    simp only [Dev.port_updPort, PairPort.dir_updDir_not, PairPort.dir_updDir, Dev.port_flitCounted]
    rfl
  simp only [Dev.flitTaken, ← hexpect]
  simp only [Dev.receiveFlit, hgood, Bool.false_eq_true, if_false, Dev.flitDelivered, Dev.flitCounted, Dev.flitSent]
  cases again <;> rfl

theorem flitTaken_dir (n : Nat) (ab : Bool) (f : Flit) (again : Bool) (fec : List Nat) :
    (((d.flitTaken n ab f again fec).port n).dir ab).expect =
      if f.seq = ((d.port n).dir ab).expect then ((d.port n).dir ab).expect + 1 else ((d.port n).dir ab).expect := by
  simp only [Dev.flitTaken, Dev.port_updPort, PairPort.dir_updDir, PairPort.dir_updDir_not, Dev.port_flitCounted, decide_eq_true_eq]
  rfl

theorem flitTaken_replay (n : Nat) (ab : Bool) (f : Flit) (again : Bool) (fec : List Nat) :
    (((d.flitTaken n ab f again fec).port n).dir (!ab)).replay =
      ((d.port n).dir (!ab)).replay.filter fun v => decide (f.ack ≤ v.seq) := by
  simp only [Dev.flitTaken, Dev.port_updPort, PairPort.updDir_other, PairPort.dir_updDir, Dev.port_flitCounted]

/-- A change that keeps what the pair ports' directions hold. -/
def Dev.KeepsDirs (d e : Dev) : Prop := ∀ n ab, (e.port n).dir ab = (d.port n).dir ab

theorem Dev.KeepsDirs.trans {e x : Dev} (h : d.KeepsDirs e) (h' : e.KeepsDirs x) : d.KeepsDirs x := fun n ab => (h' n ab).trans (h n ab)

theorem keepsDirs_updTag (t : TagRef) (g : Tag → Tag) : d.KeepsDirs (d.updTag t g) := by
  intro n ab
  by_cases hn : n = t.port
  · subst hn
    rw [Dev.updTag, Dev.port_updPort]
    cases ab <;> rfl
  · rw [Dev.updTag, Dev.port_updPort_ne _ hn]

theorem keepsDirs_acceptTag (t : Option TagRef) : d.KeepsDirs (d.acceptTag t).2 := by
  unfold Dev.acceptTag
  split
  · exact fun _ _ => rfl
  · split_ifs
    · exact keepsDirs_updTag _ _
    · exact fun _ _ => rfl

theorem keepsDirs_acceptAll (l : List (Nat × Option TagRef)) : d.KeepsDirs (d.acceptAll l).2 := by
  have go (l : List (Nat × Option TagRef)) (acc : List (Nat × Option TagRef) × Dev) : Dev.KeepsDirs acc.2
      (l.foldl (fun (acc : List (Nat × Option TagRef) × Dev) e =>
        (if (acc.2.acceptTag e.2).1 then acc.1 ++ [e] else acc.1, (acc.2.acceptTag e.2).2)) acc).2 := by
    induction l generalizing acc with
    | nil => exact fun _ _ => rfl
    | cons e l ih => exact (keepsDirs_acceptTag e.2).trans (ih _)
  exact go l ([], d)

theorem keepsDirs_receive (m : Msg) : d.KeepsDirs (d.receive m) := by
  unfold Dev.receive
  by_cases hc : m.kind.isCompletion = true
  · simp only [if_pos hc]
    split
    · exact keepsDirs_acceptAll _
    · exact keepsDirs_acceptAll _
  · simp only [if_neg hc]
    split
    · exact fun _ _ => rfl
    · exact fun _ _ => rfl

theorem keepsDirs_flitDelivered (f : Flit) (fresh : Bool) : d.KeepsDirs (d.flitDelivered f fresh) := by
  unfold Dev.flitDelivered
  split
  · split_ifs
    · exact keepsDirs_receive (d := d.dropMsg _) _
    · exact fun _ _ => rfl
  · exact fun _ _ => rfl

theorem flitDelivered_again (f : Flit) : d.flitDelivered f false = d := by
  unfold Dev.flitDelivered
  split <;> rfl

/-! ## Lanes and retraining -/

theorem retrain_eq (n : Nat) : d.retrain n = (d.count (0x602010 + 0x40 * n) 1).updPort n fun p =>
    { p with state := .retrain, attempts := 0, halfTurn := false, ab := { p.ab with fails := 0 }, ba := { p.ba with fails := 0 } } := by
  simp only [Dev.retrain, d2dCounter_eq]

section
variable {n : Nat} {ab : Bool} {lane : Nat} (hn : n < 6) (hlive : (s.dev.port n).state = .up ∨ (s.dev.port n).state = .degraded)
  (hlane : lane < 68) (hret : NSet.has ((s.dev.port n).dir ab).retired lane = false)
include hn hlive hlane hret

theorem laneSpare_goes : ¬ (6 ≤ n ∨ 68 ≤ lane ∨ NSet.has ((s.dev.port n).dir ab).retired lane = true ∨
    ¬ ((s.dev.port n).state = .up ∨ (s.dev.port n).state = .degraded)) := by
  rw [hret]
  rintro (h | h | h | h)
  · omega
  · omega
  · cases h
  · exact h hlive

theorem exec_laneSpare_good (hpoor : ((s.dev.port n).dir ab).lanePoor lane = false) :
    exec (.laneSpare n ab lane) s = .next (s.to (s.dev.updPort n fun p => p.updDir ab fun x => x.newWindow lane)) := by
  refine congrArg (fun e => (Host.Outcome.next (s.to e) : Out)) ((if_neg (laneSpare_goes hn hlive hlane hret)).trans ?_)
  rw [hpoor]; rfl

theorem exec_laneSpare_spared (hpoor : ((s.dev.port n).dir ab).lanePoor lane = true) (hspares : ((s.dev.port n).dir ab).spares ≠ 0) :
    exec (.laneSpare n ab lane) s = .next (s.to (((s.dev.updPort n fun p => p.updDir ab fun x => x.newWindow lane).count
      (0x602018 + 0x40 * n) 1).updPort n fun p => p.updDir ab fun x => x.spare lane)) := by
  refine congrArg (fun e => (Host.Outcome.next (s.to e) : Out)) ((if_neg (laneSpare_goes hn hlive hlane hret)).trans ?_)
  rw [hpoor, if_neg (by decide), if_neg hspares, d2dCounter_eq]

theorem exec_laneSpare_retrains (hpoor : ((s.dev.port n).dir ab).lanePoor lane = true) (hspares : ((s.dev.port n).dir ab).spares = 0) :
    exec (.laneSpare n ab lane) s = .next (s.to ((s.dev.updPort n fun p => p.updDir ab fun x => x.newWindow lane).retrain n)) := by
  refine congrArg (fun e => (Host.Outcome.next (s.to e) : Out)) ((if_neg (laneSpare_goes hn hlive hlane hret)).trans ?_)
  rw [hpoor, if_neg (by decide), if_pos hspares]

end

theorem attemptFails_half {n : Nat} (h : (d.port n).halfTurn = true) :
    d.attemptFails n = (d.updPort n fun p => { p.trainedAs .down 0 with detour := true }).portsMoved [n] [n] := by
  simp only [Dev.attemptFails, h, if_true]

theorem attemptFails_later {n : Nat} (h : (d.port n).halfTurn = false) (ha : (d.port n).attempts ≠ 0) :
    d.attemptFails n = d.updPort n fun p =>
      { p with attempts := p.attempts + 1, halfTurn := decide (2 ≤ p.attempts), detour := true } := by
  simp only [Dev.attemptFails, h, Bool.false_eq_true, if_false, if_neg ha]

theorem attemptFails_first {n : Nat} (h : (d.port n).halfTurn = false) (ha : (d.port n).attempts = 0) :
    d.attemptFails n = ((((d.updPort n fun p => { p with attempts := 1, halfTurn := false, detour := true }).returnFlits n true).returnFlits n
      false).reissue n) := by
  have hcongr : (d.updPort n fun p => { p with attempts := p.attempts + 1, halfTurn := decide (2 ≤ p.attempts), detour := true }) =
      d.updPort n fun p => { p with attempts := 1, halfTurn := false, detour := true } := by
    refine Dev.updPort_congr ?_
    rw [ha]; rfl
  simp only [Dev.attemptFails, h, Bool.false_eq_true, if_false, ha, if_true, hcongr]

theorem retrain_goes {n : Nat} (hn : n < 6) (hstate : (d.port n).state = .retrain) : ¬ (6 ≤ n ∨ (d.port n).state ≠ .retrain) := by
  rintro (h | h)
  · omega
  · exact h hstate

theorem retrainAttemptEnd_fails {n : Nat} {r : TrainEnd} (hn : n < 6) (hstate : (d.port n).state = .retrain)
    (hfull : r.trained = true → (d.port n).halfTurn = false ∧
      ((d.port n).ab.respare r.failedAB = none ∨ (d.port n).ba.respare r.failedBA = none)) :
    d.retrainAttemptEnd n r = d.attemptFails n := by
  simp only [Dev.retrainAttemptEnd, if_neg (retrain_goes hn hstate)]
  by_cases hr : r.trained = true
  · obtain ⟨hhalf, hnone⟩ := hfull hr
    simp only [hr, hhalf, Bool.not_true, Bool.false_eq_true, if_false]
    split
    next a b ha hb => simp [ha, hb] at hnone
    · rfl
  · simp only [Bool.not_eq_true] at hr
    simp only [hr, Bool.not_false, if_true]

theorem retrainAttemptEnd_half {n : Nat} {l r : List Nat} (hn : n < 6) (hstate : (d.port n).state = .retrain)
    (hhalf : (d.port n).halfTurn = true) : d.retrainAttemptEnd n { trained := true, failedAB := l, failedBA := r } =
      (d.updPort n fun p => p.trainedAs .degraded 32).portsMoved [n] [n] := by
  simp only [Dev.retrainAttemptEnd, if_neg (retrain_goes hn hstate), Bool.not_true, Bool.false_eq_true, if_false, hhalf, if_true]

theorem retrainAttemptEnd_full {n : Nat} {l r : List Nat} {a b : PortDir} (hn : n < 6) (hstate : (d.port n).state = .retrain)
    (hhalf : (d.port n).halfTurn = false) (ha : (d.port n).ab.respare l = some a) (hb : (d.port n).ba.respare r = some b) :
    d.retrainAttemptEnd n { trained := true, failedAB := l, failedBA := r } =
      (((d.count (0x602018 + 0x40 * n) (((d.port n).ab.spares - a.spares) + ((d.port n).ba.spares - b.spares))).updPort n fun p =>
        ({ p with ab := a, ba := b } : PairPort).trainedAs .up 64).portsMoved [n] []) := by
  simp only [Dev.retrainAttemptEnd, if_neg (retrain_goes hn hstate), Bool.not_true, Bool.false_eq_true, if_false, hhalf, ha, hb, d2dCounter_eq]

theorem receiveFlit_bad_facts (n : Nat) (ab again : Bool) (f : Flit) (fec : List Nat) :
    let e := d.receiveFlit n ab (some f) again fec false
    ((e.port n).dir ab).resend = some f.seq ∧
      (again = true → 15 ≤ ((d.port n).dir ab).fails → (e.port n).state = .retrain) ∧
      (again = true → ((d.port n).dir ab).fails < 15 →
        (e.port n).state = (d.port n).state ∧ ((e.port n).dir ab).fails = ((d.port n).dir ab).fails + 1) ∧
      (again = false → ((e.port n).dir ab).fails = 0) ∧ e.net = d.net := by
  intro e
  have he : e = _ := receiveFlit_failed (.inl rfl)
  have hnet : (d.flitFailed n ab f again).net = d.net := Dev.net_flitSent n again
  rw [he]
  by_cases hlimit : 16 ≤ d.flitFails n ab again
  · rw [if_pos hlimit]
    have hagain : again = true := by
      by_contra hne
      simp [Dev.flitFails, hne] at hlimit
    have hfails : 15 ≤ ((d.port n).dir ab).fails := by
      simp only [Dev.flitFails, hagain, if_true] at hlimit
      omega
    refine ⟨by rw [retrain_resend, flitFailed_dir], fun _ _ => by rw [retrain_port], fun _ hlt => absurd hfails (by omega),
      fun hno => absurd (hno.symm.trans hagain) Bool.false_ne_true, hnet⟩
  · rw [if_neg hlimit]
    refine ⟨by rw [flitFailed_dir], fun ha h15 => absurd ?_ hlimit, fun ha hlt => ⟨flitFailed_state n ab f again, ?_⟩, fun ha => ?_, hnet⟩
    · simp only [Dev.flitFails, ha, if_true]; omega
    · rw [flitFailed_dir]; simp only [Dev.flitFails, ha, if_true]
    · rw [flitFailed_dir]; simp only [Dev.flitFails, ha, Bool.false_eq_true, if_false]

theorem receiveFlit_good_facts (n : Nat) (ab again : Bool) (f : Flit) {fec : List Nat} (h : fec.length ≤ 4) :
    let e := d.receiveFlit n ab (some f) again fec true
    ((e.port n).dir ab).expect =
        (if f.seq = ((d.port n).dir ab).expect then ((d.port n).dir ab).expect + 1 else ((d.port n).dir ab).expect) ∧
      (f.seq ≠ ((d.port n).dir ab).expect → e.net = d.net) ∧
      (∀ v ∈ ((e.port n).dir (!ab)).replay, v ∈ ((d.port n).dir (!ab)).replay ∧ f.ack ≤ v.seq) := by
  intro e
  have he : e = _ := receiveFlit_taken h
  refine ⟨?_, fun hseq => ?_, fun v hv => ?_⟩
  · rw [he, keepsDirs_flitDelivered, flitTaken_dir]
  · rw [he, decide_eq_false hseq, flitDelivered_again]
    exact Dev.net_flitCounted n again fec
  · rw [he, keepsDirs_flitDelivered, flitTaken_replay] at hv
    obtain ⟨hmem, hseq⟩ := List.mem_filter.mp hv
    exact ⟨hmem, of_decide_eq_true hseq⟩

/-- Settles O33: a hop of the mesh, a pair port's flits sent and received, its lanes and training, and its tags. -/
theorem fabric : Obligations.Fabric := by
  have run {s : State} {x y : Dev} (h : x = y) : (Host.Outcome.next (s.to x) : Out) = .next (s.to y) := congrArg (fun e => Host.Outcome.next (s.to e)) h
  refine ⟨fun s msg m h dest input hfind harr hfly halso hhop hser hnext hwin => ?_,
    fun s n ab fec crcOk hn hlive => ⟨fun m c e hresend hwin hdep => run (pairPortFlit_new hn hlive hresend hwin hdep),
      fun f hf => run (pairPortFlit_replay hn hlive hf), fun hfec => by subst hfec; exact run (pairPortFlit_ack hn hlive)⟩,
    fun d n ab f again fec hn => ?_, fun s n ab hn => ?_⟩
  · obtain rfl : m.id = msg := by simpa using List.find?_some hfind
    have g : Granted s.dev m h dest input := ⟨hfind, harr, hfly, halso, hhop, hser, hnext, hwin⟩
    refine ⟨run (meshFlit_clean g), fun fails h₁ h₂ => run (meshFlit_replayed g h₁ h₂), fun fails hf hdata => run (meshFlit_dropped g hf hdata),
      fun fails hf hdata hw => run ((meshFlit_poisoned g hf hdata hw).trans ?_)⟩
    obtain ⟨-, -, -, -, -, hid⟩ := m.poisoned_place
    have hfun : (fun v : Msg => decide (v.id = m.poisoned.id)) = fun v => decide (v.id = m.id) := by rw [hid]
    rw [Dev.hopped, hfun]
    rfl
  · obtain ⟨hresend, hretrain, hfails, hzero, hnet⟩ := receiveFlit_bad_facts (d := d) n ab again f fec
    refine ⟨hresend, hretrain, hfails, hzero, hnet, fun hfec => ?_, fun hfec => (receiveFlit_good_facts n ab again f hfec).1,
      fun hfec => (receiveFlit_good_facts n ab again f hfec).2.1, fun hfec => (receiveFlit_good_facts n ab again f hfec).2.2⟩
    exact (receiveFlit_failed (.inr hfec)).trans (receiveFlit_failed (.inr hfec)).symm
  · have hpoor {lane : Nat} (h : ((s.dev.port n).dir ab).lanePoor lane = true) := of_decide_eq_true h
    refine ⟨fun hlive lane hlane hret => ⟨fun h => ?_, fun h hspares => ?_, fun h hspares => ?_⟩, fun hlive => ?_,
      fun hstate hhalf => ⟨fun a b l r ha hb => run (retrainAttemptEnd_full hn hstate hhalf ha hb), fun r hr => ?_⟩,
      fun hstate hhalf l r => ⟨run ?_, run (retrainAttemptEnd_half hn hstate hhalf)⟩, fun lanes y => rfl,
      fun side index t ht => ⟨fun hbusy => run ?_, fun hwith => run ?_⟩⟩
    · exact exec_laneSpare_good hn hlive hlane hret (decide_eq_false h)
    · exact exec_laneSpare_spared hn hlive hlane hret (decide_eq_true h) hspares
    · exact (exec_laneSpare_retrains hn hlive hlane hret (decide_eq_true h) hspares).trans (run (retrain_eq n))
    · exact run ((if_pos ⟨hn, hlive⟩).trans (retrain_eq n))
    · have hfail : s.dev.retrainAttemptEnd n r = s.dev.attemptFails n := by
        refine retrainAttemptEnd_fails hn hstate fun htr => ⟨hhalf, ?_⟩
        rcases hr with hr | hr
        · exact absurd (hr.symm.trans htr) Bool.false_ne_true
        · exact hr
      exact ⟨fun ha => run (hfail.trans (attemptFails_later hhalf ha)), fun ha => run (hfail.trans (attemptFails_first hhalf ha))⟩
    · exact (retrainAttemptEnd_fails hn hstate fun h => absurd h Bool.false_ne_true).trans (attemptFails_half hhalf)
    · simp only [ht, hbusy, Bool.true_eq_false, or_false, if_neg (Nat.not_le.mpr hn)]
      rfl
    · simp only [ht, hwith, Bool.true_eq_false, or_false, if_neg (Nat.not_le.mpr hn)]

end Sys2Proof.Machine
end

section
/-! In-network reduction (R174 to R184). -/

namespace Sys2Proof.Machine

variable {d : Dev} {s : State} {num : Nat} {g : RedGroup}

theorem contribute_overruns {rank line : Nat} {data : List Byte} {poison : Bool} {agent : Nat} (hg : d.group? num = some g) (hrank : rank < g.n)
    (hline : line < g.lines) (hdata : data.length = 128) (hfilled : NSet.has g.filled (rank * g.lines + line) = true) :
    d.contribute num rank line data poison agent = (d.count 0x602188 1).updGroup num fun g => { g with overrun := true } := by
  have hgo : ¬ (g.n ≤ rank ∨ g.lines ≤ line ∨ data.length ≠ 128) := by simp [hrank, hline, hdata]
  simp only [Dev.contribute, hg, if_neg hgo, hfilled, if_true]

theorem contribute_enters {rank line : Nat} {data : List Byte} {poison : Bool} {agent : Nat} (hg : d.group? num = some g) (hrank : rank < g.n)
    (hline : line < g.lines) (hdata : data.length = 128) (hfilled : NSet.has g.filled (rank * g.lines + line) = false) :
    d.contribute num rank line data poison agent = Dev.roundComplete (Dev.redArrive num 4
      { line := line, level := 0, pos := rank, data := data, poison := poison, place := (d.agentGoal agent 0).place.1 }
      (d.updGroup num fun x => { x with
        filled := NSet.add x.filled (rank * x.lines + line), dies := NSet.addAll x.dies (if agent < 2048 then [coreDie agent] else []) })) num := by
  have hgo : ¬ (g.n ≤ rank ∨ g.lines ≤ line ∨ data.length ≠ 128) := by simp [hrank, hline, hdata]
  simp only [Dev.contribute, hg, if_neg hgo, hfilled, Bool.false_eq_true, if_false]

theorem num_of_group? (hg : d.group? num = some g) : g.num = num := by simpa using List.find?_some hg

theorem combineHoldExpire_eq {line level pos : Nat} {v : RedNode} (hg : s.dev.group? num = some g)
    (hv : (g.nodes.find? fun v => decide (v.line = line) && decide (v.level = level) && decide (v.pos = pos) && decide (v.place ≠ 96 + g.root)) = some v) :
    exec (.combineHoldExpire num line level pos) s = .next (s.to (s.dev.redForward g v)) := by
  have hv' : (g.nodes.find? fun v => decide (v.line = line) && decide (v.level = level) && decide (v.pos = pos) &&
      decide (v.place ≠ routerNode g.root)) = some v := hv
  refine congrArg (fun e => (Host.Outcome.next (s.to e) : Out)) ?_
  simp only [hg, hv']

theorem redForward_crosses {v : RedNode} {e : Dev}
    (h : (d.updGroup g.num fun g => { g with nodes := eraseFirst (fun w => decide (w = v)) g.nodes }).redCross g v.place = (true, e)) :
    d.redForward g v = (Dev.redArrive g.num 4 { v with place := g.nextPlace v.place } e).roundComplete g.num := by
  simp only [Dev.redForward, h]

theorem redCross_hub {place : Nat} (h : place < 96) : d.redCross g place = (true, d) := by
  simp only [Dev.redCross, h, true_or, if_true]

theorem redForward_severed {v : RedNode} {e : Dev}
    (h : (d.updGroup g.num fun g => { g with nodes := eraseFirst (fun w => decide (w = v)) g.nodes }).redCross g v.place = (false, e)) :
    d.redForward g v = e := by
  simp only [Dev.redForward, h]

theorem doneWord_eq {poisoned overrun : Bool} {dies : NSet} (hg : d.group? num = some g) (howed : g.doneOwed = some (poisoned, overrun, dies))
    (hdies : dies.length < 2) :
    d.doneWord num = (((Dev.count (Dev.fresh (d.vwrite agentRoot g.facet false none g.done (leBytes 8 ((g.rounds + 1).toNat +
        (if poisoned then 2 ^ 32 else 0) + (if overrun then 2 ^ 33 else 0))) false).2).2 0x602180 1).updGroup num fun x =>
          { x with rounds := g.rounds + 1, doneOwed := none }).roundComplete num) := by
  have hword : (g.rounds + 1).toNat + 2 ^ 32 * boolNat poisoned + 2 ^ 33 * boolNat overrun =
      (g.rounds + 1).toNat + (if poisoned then 2 ^ 32 else 0) + (if overrun then 2 ^ 33 else 0) := by
    cases poisoned <;> cases overrun <;> rfl
  simp only [Dev.doneWord, hg, howed, decide_eq_false (Nat.not_le.mpr hdies), Bool.false_and, Bool.false_eq_true, if_false, hword]

/-! ## Rounds -/

theorem roundComplete_owed (hg : d.group? num = some g) (howed : g.doneOwed.isSome = true) : d.roundComplete num = d := by
  simp only [Dev.roundComplete, hg, howed, Bool.or_true, if_true]

theorem roundComplete_open (hg : d.group? num = some g) (hopen : g.complete = false) : d.roundComplete num = d := by
  simp only [Dev.roundComplete, hg, hopen, Bool.not_false, Bool.true_or, if_true]

theorem roundComplete_writes (hg : d.group? num = some g) (hdone : g.complete = true) (howed : g.doneOwed = none) :
    d.roundComplete num = (Dev.forEach (g.nodes.filter fun v => decide (v.level = g.top) && decide (v.place = routerNode g.root)) (fun d v =>
        (d.vwrite agentRoot g.facet false none (g.dest + 128 * v.line) v.data ((g.overrun || g.poisoned) || v.poison)).2) d).updGroup num fun x =>
      x.nextRound ((g.overrun || g.poisoned) ||
        (g.nodes.filter fun v => decide (v.level = g.top) && decide (v.place = routerNode g.root)).any RedNode.poison) := by
  simp only [Dev.roundComplete, hg, hdone, howed, Bool.not_true, Option.isSome_none, Bool.or_self, Bool.false_eq_true, if_false]

/-! ## The tree -/

theorem rise_empty {v : RedNode} {fuel : Nat} (hlevel : v.level < g.top) (hempty : g.n ≤ (v.pos ^^^ 1) * 2 ^ v.level) :
    g.rise (fuel + 1) v = g.rise fuel { v with level := v.level + 1, pos := v.pos / 2 } := by
  have hempty' : g.emptyAt v.level (v.pos ^^^ 1) = true := decide_eq_true hempty
  rw [RedGroup.rise, if_neg (Nat.not_le.mpr hlevel)]
  simp only [hempty', if_true]

theorem rise_waits {v : RedNode} {fuel : Nat} (hlevel : v.level < g.top) (hfull : ¬ g.n ≤ (v.pos ^^^ 1) * 2 ^ v.level)
    (hnone : (g.nodes.find? fun w => w.at v.line v.level (v.pos ^^^ 1) v.place && decide (w.data.length = v.data.length)) = none) :
    g.rise (fuel + 1) v = { g with nodes := g.nodes ++ [v] } := by
  have hfull' : g.emptyAt v.level (v.pos ^^^ 1) = false := decide_eq_false hfull
  rw [RedGroup.rise, if_neg (Nat.not_le.mpr hlevel)]
  simp only [hfull', Bool.false_eq_true, if_false, hnone]

theorem rise_combines {v w : RedNode} {fuel : Nat} (hlevel : v.level < g.top) (hfull : ¬ g.n ≤ (v.pos ^^^ 1) * 2 ^ v.level)
    (hsome : (g.nodes.find? fun w => w.at v.line v.level (v.pos ^^^ 1) v.place && decide (w.data.length = v.data.length)) = some w) :
    g.rise (fuel + 1) v = RedGroup.rise { g with nodes := eraseFirst (fun u => decide (u = w)) g.nodes } fuel
      { v with level := v.level + 1, pos := v.pos / 2, poison := v.poison || w.poison,
               data := if v.pos % 2 = 0 then redCombine g.op v.data w.data else redCombine g.op w.data v.data } := by
  have hfull' : g.emptyAt v.level (v.pos ^^^ 1) = false := decide_eq_false hfull
  rw [RedGroup.rise, if_neg (Nat.not_le.mpr hlevel)]
  simp only [hfull', Bool.false_eq_true, if_false, hsome]

/-- Settles O34: a contribution, a hold, a done word and a round, and one step of a node up its tree. -/
theorem reductions : Obligations.Reductions := by
  refine ⟨fun s num g hg => ⟨fun rank line data poison hrank hline hdata => ⟨fun hf => ?_, fun hf => ?_⟩,
      fun line level pos v hv hplace => ?_, fun line level pos v e hv hplace => ⟨fun hx => ?_, fun hx => ?_⟩,
      fun poisoned overrun dies howed hdies => ?_⟩,
    fun d num g hg => ⟨roundComplete_owed hg, roundComplete_open hg, roundComplete_writes hg⟩,
    fun g fuel v hlevel => ⟨rise_empty hlevel, fun hfull => ⟨rise_waits hlevel hfull, fun w => rise_combines hlevel hfull⟩⟩⟩
  · exact congrArg (fun e => (Host.Outcome.next (s.to e) : Out)) (contribute_overruns hg hrank hline hdata hf)
  · exact congrArg (fun e => (Host.Outcome.next (s.to e) : Out)) (contribute_enters hg hrank hline hdata hf)
  · obtain rfl := num_of_group? hg
    rw [combineHoldExpire_eq hg hv, redForward_crosses (redCross_hub hplace)]
    simp only [RedGroup.nextPlace, nodeBase, if_pos hplace]
    rfl
  · obtain rfl := num_of_group? hg
    rw [combineHoldExpire_eq hg hv, redForward_crosses hx]
    simp only [RedGroup.nextPlace, if_neg (Nat.not_lt.mpr hplace)]
    rfl
  · obtain rfl := num_of_group? hg
    rw [combineHoldExpire_eq hg hv, redForward_severed hx]
  · exact congrArg (fun e => (Host.Outcome.next (s.to e) : Out)) (doneWord_eq hg howed hdies)

end Sys2Proof.Machine
end

section
/-! The HBM stacks and the far-tier ports (R199 to R209, R484). -/

namespace Sys2Proof.Machine

variable {d : Dev} {s : State}

theorem stackCounter_eq (n off : Nat) : stackCounter n off = 0x603000 + off + 0x40 * n := by
  unfold stackCounter; omega

theorem farCounter_eq (p off : Nat) : farCounter p off = 0x603400 + off + 0x40 * p := by
  unfold farCounter; omega

/-! ## Reads of HBM lines -/

theorem leastBy_mem {α : Type} {key : α → Nat} {l : List α} {x : α} (h : leastBy key l = some x) : x ∈ l := by
  have hl : l ≠ [] := by
    rintro rfl
    simp [leastBy] at h
  obtain ⟨y, hy, hleast, -⟩ := leastBy_eq_some key hl
  rw [hleast] at h
  exact Option.some.inj h ▸ hy

theorem reading_of_nextRead {line : Nat} (h : (d.nextRead line).map MemRead.line = some line) : d.reading line = true := by
  obtain ⟨r, hr, hline⟩ := Option.map_eq_some_iff.mp h
  have hmem : r ∈ d.reads := List.mem_of_mem_filter (List.mem_of_mem_take (leastBy_mem hr))
  exact List.any_eq_true.mpr ⟨r, hmem, decide_eq_true hline⟩

theorem hbmReadComplete_next {line : Nat} {first second : ReadCheck} (h : (d.nextRead line).map MemRead.line = some line)
    (hfar : lineIsFar line = false) : d.hbmReadComplete line first second = (d.bypass line).hbmChecked line first second := by
  simp only [Dev.hbmReadComplete, reading_of_nextRead h, hfar, h, Bool.not_true, ne_eq, not_true_eq_false, decide_false, Bool.or_self,
    Bool.false_eq_true, if_false]

theorem hbmChecked_poisoned {line : Nat} {first second : ReadCheck} (hp : NSet.has d.memPoison line = true) :
    d.hbmChecked line first second = d.dropRead line := if_pos hp

section checked
variable {line : Nat} {first second : ReadCheck} (hp : NSet.has d.memPoison line = false)
include hp

theorem hbmChecked_good : d.hbmChecked line .good second = d.dropRead line :=
  if_neg (Bool.eq_false_iff.mp hp)

theorem hbmChecked_corrected : d.hbmChecked line .corrected second =
    ((d.dropRead line).count (0x603030 + 0x40 * d.lineStack line) 1).corrected := by
  refine (if_neg (Bool.eq_false_iff.mp hp)).trans ?_
  simp only [stackCounter_eq, ne_eq, reduceCtorEq, not_false_eq_true, if_true]

theorem hbmChecked_again (h : second ≠ .failed) : d.hbmChecked line .failed second =
    (if second = .corrected then
      ((((d.dropRead line).count (0x603020 + 0x40 * d.lineStack line) 1).corrected).count (0x603030 + 0x40 * d.lineStack line) 1).corrected
    else ((d.dropRead line).count (0x603020 + 0x40 * d.lineStack line) 1).corrected) := by
  refine (if_neg (Bool.eq_false_iff.mp hp)).trans ?_
  simp only [stackCounter_eq, ne_eq, not_true_eq_false, if_false, if_pos h]

theorem hbmChecked_failed : d.hbmChecked line .failed .failed =
    ((((d.dropRead line).poisonLine line).count (0x603028 + 0x40 * d.lineStack line) 1).poisonOrigin 1 false (128 * line)
      ((d.dropRead line).lineFacet line)) := by
  refine (if_neg (Bool.eq_false_iff.mp hp)).trans ?_
  simp only [stackCounter_eq, ne_eq, not_true_eq_false, if_false]

end checked

/-! ## Write batches -/

/-- One write of a batch: its line is touched and leaves the queue (R199). -/
def Dev.drainOne (stack : Nat) (d : Dev) (e : Nat × Nat) : Dev :=
  (d.hbmTouch e.2 true).updStack stack fun k => { k with writeQ := eraseFirst (fun v => decide (v = e)) k.writeQ }

theorem writeQ_hbmTouch (line : Nat) (write : Bool) (n : Nat) : ((d.hbmTouch line write).stack n).writeQ = (d.stack n).writeQ := by
  unfold Dev.hbmTouch
  by_cases h : n = d.lineStack line
  · subst h
    simp only [Dev.stack_updStack]
    rfl
  · exact congrArg Stack.writeQ (Dev.stack_updStack_ne _ h _)

theorem writeQ_drainOne (stack : Nat) (e : Nat × Nat) :
    ((d.drainOne stack e).stack stack).writeQ = eraseFirst (fun v => decide (v = e)) (d.stack stack).writeQ := by
  simp only [Dev.drainOne, Dev.stack_updStack, writeQ_hbmTouch]

theorem writeQ_forEach_drainOne (stack : Nat) (batch : List (Nat × Nat)) (d : Dev) :
    ((Dev.forEach batch (Dev.drainOne stack) d).stack stack).writeQ =
      batch.foldl (fun q e => eraseFirst (fun v => decide (v = e)) q) (d.stack stack).writeQ := by
  induction batch generalizing d with
  | nil => rfl
  | cons e batch ih =>
    refine (ih (d.drainOne stack e)).trans ?_
    rw [writeQ_drainOne, List.foldl_cons]

theorem writeQ_drainBatch (stack p : Nat) : ((d.drainBatch stack p).stack stack).writeQ =
    (((d.stack stack).writeQ.filter fun e => decide (e.1 = p)).take (8 * 2 ^ d.wbatch.toNat)).foldl
      (fun q e => eraseFirst (fun v => decide (v = e)) q) (d.stack stack).writeQ :=
  writeQ_forEach_drainOne stack _ d

/-! ## Temperatures -/

theorem throttleAfter_eq_three (old temp : Nat) : throttleAfter old temp = 3 ↔ 105 ≤ temp ∨ (3 ≤ old ∧ 100 ≤ temp) := by
  simp only [throttleAfter, Bool.or_eq_true, Bool.and_eq_true, decide_eq_true_eq]
  split
  · exact iff_of_true rfl ‹_›
  · refine iff_of_false ?_ ‹_›
    split
    · decide
    · split <;> decide

theorem throttleAfter_cool (old : Nat) {temp : Nat} (h : temp < 93) : throttleAfter old temp = 0 := by
  simp only [throttleAfter, Bool.or_eq_true, Bool.and_eq_true, decide_eq_true_eq]
  rw [if_neg (by omega), if_neg (by omega), if_neg (by omega)]

theorem throttleAfter_warm (old : Nat) {temp : Nat} (h : 95 ≤ temp) (h' : temp < 98) : throttleAfter old temp = 1 := by
  simp only [throttleAfter, Bool.or_eq_true, Bool.and_eq_true, decide_eq_true_eq]
  rw [if_neg (by omega), if_neg (by omega), if_pos (by omega)]

theorem stackTempRead_eq {n temp : Nat} (hn : n < 12) (hstate : (d.stack n).state = 0) :
    let old := (d.stack n).throttle.toNat
    let new := throttleAfter old temp
    let twice := decide (85 ≤ temp ∨ ((d.stack n).refresh2x = true ∧ 83 ≤ temp))
    let e := (d.updStack n fun k =>
      { k with temp := BitVec.ofNat 8 (min temp 255), throttle := BitVec.ofNat 2 new, refresh2x := twice }).count (0x603038 + 0x40 * n)
        ((if old ≤ new then new - old else old - new) + boolNat (twice != (d.stack n).refresh2x))
    let e := if old = new then e else e.trace 5 n new
    d.stackTempRead n temp = if new = 3 ∧ old ≠ 3 then e.glint 0 0x602 n temp 0 else e := by
  have hgo : ¬ (12 ≤ n ∨ (d.stack n).state ≠ 0) := by
    rintro (h | h)
    · omega
    · exact h hstate
  have htwice : (decide (85 ≤ temp) || ((d.stack n).refresh2x && decide (83 ≤ temp))) =
      decide (85 ≤ temp ∨ ((d.stack n).refresh2x = true ∧ 83 ≤ temp)) := by
    rw [Bool.eq_iff_iff]
    simp only [Bool.or_eq_true, Bool.and_eq_true, decide_eq_true_eq]
  refine (if_neg hgo).trans ?_
  simp only [stackCounter_eq, htwice]

/-! ## Far reads -/

section far
variable {line : Nat} {a : FarAnswer}

theorem farChecked_quiet (h : d.linePoisoned line = true ∨ (a.poisoned = false ∧ a.retries = 0)) :
    d.farChecked line a = (d.dropRead line).count (0x603410 + 0x40 * lineFarPort line) a.retries := by
  change (if d.linePoisoned line then _ else _) = _
  simp only [farCounter_eq]
  rcases h with h | ⟨hp, hr⟩
  · exact if_pos h
  · by_cases hl : d.linePoisoned line = true
    · exact if_pos hl
    · rw [if_neg hl, hp, if_neg Bool.false_ne_true, if_pos hr]

theorem farChecked_retried (hl : d.linePoisoned line = false) (hp : a.poisoned = false) (hr : a.retries ≠ 0) :
    d.farChecked line a = ((d.dropRead line).count (0x603410 + 0x40 * lineFarPort line) a.retries).corrected := by
  refine (if_neg (Bool.eq_false_iff.mp hl)).trans ?_
  rw [hp, if_neg Bool.false_ne_true, if_neg hr, farCounter_eq]

theorem farChecked_poisoned (hl : d.linePoisoned line = false) (hp : a.poisoned = true) :
    d.farChecked line a = (((((d.dropRead line).count (0x603410 + 0x40 * lineFarPort line) a.retries).poisonLine line).count
      (0x603418 + 0x40 * lineFarPort line) 1).poisonOrigin 9 false (128 * line) (d.lineFacet line)) := by
  refine (if_neg (Bool.eq_false_iff.mp hl)).trans ?_
  rw [if_pos hp]
  simp only [farCounter_eq]
  rfl

end far

/-! ## Far ports -/

theorem farLinkDown_eq {port : Nat} (hport : port < 4) (hup : (d.farPort port).state = 2) :
    let q := d.farPort port
    let e := ((d.count (0x603428 + 0x40 * port) 1).updFarPort port fun q => { q with state := 3, ide := false, writes := [] }).markFrames port
      (q.writes.map fun w => lineFarFrame w.line)
    let e := Dev.forEach q.writes (fun d w => d.post { mkMsg .cmpAck w.agent w.line with status := 0x661, tag := w.tag }) e
    let fills := (e.reads.filter fun r => lineIsFar r.line && decide (lineFarPort r.line = port)).map MemRead.line
    let e := Dev.forEach fills (fun d l => (d.dropRead l).fillDone l) e
    d.farLinkDown port =
      (e.dropFarWaits (fun w => w.frames.any fun fr => decide (lineFarPort (fr * 16384) = port)) 0x661).farGlint port := by
  have hgo : ¬ (4 ≤ port ∨ (d.farPort port).state ≠ 2) := by
    rintro (h | h)
    · omega
    · exact h hup
  refine (if_neg hgo).trans ?_
  rw [farCounter_eq]
  rfl

theorem farScrub_eq {port frames : Nat} (hport : port < 4) (hup : (d.farPort port).state = 2) (hnew : (d.farPort port).scrubbed < frames)
    (hle : frames ≤ 128 * (d.farPort port).capacity) :
    d.farScrub port frames =
      (((d.scrubLines (farFrame port (d.farPort port).scrubbed * 16384) ((frames - (d.farPort port).scrubbed) * 16384)).updFarPort port
        fun q => { q with scrubbed := frames }).serveFarWaits d.farWaits.length) := by
  refine if_neg ?_
  unfold FarPort.frames
  rintro (h | h | h | h)
  · omega
  · exact h hup
  · omega
  · omega

theorem farPort_setFarPort (d : Dev) (p : Nat) (q : FarPort) : (d.setFarPort p q).farPort p = q := Tab.get_set_same ..

theorem farPort_setFarPort_ne (d : Dev) {p n : Nat} (h : n ≠ p) (q : FarPort) : (d.setFarPort p q).farPort n = d.farPort n :=
  Tab.get_set_other _ _ h _

theorem farPort_farGlint (d : Dev) (p n : Nat) : (d.farGlint p).farPort n = d.farPort n := by
  have h : d.Posts (d.farGlint p) := Dev.posts_glintTo ..
  rw [h]
  rfl

section enumerate
variable {p : Nat} {found : FarDevice}

theorem farEnumerate_absent (h : found.link = false) : d.farEnumerate p found =
    d.setFarPort p { d.farPort p with state := 0, rate := 0, width := 0, ide := false, capacity := 0 } := by
  simp only [Dev.farEnumerate, h, Bool.not_false, if_true]

theorem farEnumerate_unsupported (h : found.link = true) (hs : found.supported = false) : d.farEnumerate p found =
    d.setFarPort p { d.farPort p with state := 4, rate := found.rate, width := found.width, ide := false, capacity := 0 } := by
  simp only [Dev.farEnumerate, h, hs, Bool.not_true, Bool.not_false, Bool.false_eq_true, if_false, if_true]

theorem farEnumerate_open (h : found.link = true) (hs : found.supported = true) (hi : found.ide = false) : d.farEnumerate p found =
    (if (d.farPort p).state = 3 then d else d.count (farCounter p 0x28) 1).setFarPort p
      { d.farPort p with state := 3, rate := found.rate, width := found.width, ide := false } := by
  simp only [Dev.farEnumerate, h, hs, hi, Bool.not_true, Bool.not_false, Bool.false_eq_true, if_false, if_true]

theorem farEnumerate_up (h : found.link = true) (hs : found.supported = true) (hi : found.ide = true) : d.farEnumerate p found =
    (d.setFarPort p { d.farPort p with
      state := 2, rate := found.rate, width := found.width, ide := true, capacity := min (found.capacity / 268435456) 4096,
      identity := found.identity,
      scrubbed := if (d.farPort p).identity = found.identity ∧ (d.farPort p).capacity = min (found.capacity / 268435456) 4096
        then (d.farPort p).scrubbed else 0 }).farGlint p := by
  simp only [Dev.farEnumerate, h, hs, hi, Bool.not_true, Bool.false_eq_true, if_false, Bool.and_eq_true, decide_eq_true_eq]

theorem farPort_farEnumerate_ne {n : Nat} (hn : n ≠ p) : (d.farEnumerate p found).farPort n = d.farPort n := by
  by_cases h : found.link = true
  · by_cases hs : found.supported = true
    · by_cases hi : found.ide = true
      · rw [farEnumerate_up h hs hi, farPort_farGlint, farPort_setFarPort_ne _ hn]
      · rw [farEnumerate_open h hs (Bool.eq_false_iff.mpr hi), farPort_setFarPort_ne _ hn]
        split <;> rfl
    · rw [farEnumerate_unsupported h (Bool.eq_false_iff.mpr hs), farPort_setFarPort_ne _ hn]
  · rw [farEnumerate_absent (Bool.eq_false_iff.mpr h), farPort_setFarPort_ne _ hn]

end enumerate

/-- A test that a command on a far port makes: the port exists and is in a state. -/
theorem farPort_ok {port : Nat} {st : BitVec 3} (hport : port < 4) (hst : (d.farPort port).state = st) :
    ¬ (4 ≤ port ∨ (d.farPort port).state ≠ st) := by
  rintro (h | h)
  · omega
  · exact h hst

theorem farLinkRecover_eq {port : Nat} (found : FarDevice) (hport : port < 4) (hst : (d.farPort port).state = 3) :
    effect (.farLinkRecover port found) d =
      (if found.link = true ∧ found.supported = true ∧
          (found.identity ≠ (d.farPort port).identity ∨ min (found.capacity / 268435456) 4096 ≠ (d.farPort port).capacity)
        then d.markFrames port (d.farHeld port) else d).farEnumerate port found := by
  refine (if_neg (farPort_ok hport hst)).trans ?_
  simp only [Bool.and_eq_true, Bool.or_eq_true, decide_eq_true_eq, and_assoc]

/-- Settles O35. -/
theorem farAndStacks : Obligations.FarAndStacks := by
  unfold Obligations.FarAndStacks
  have run {s : State} {x y : Dev} (h : x = y) : (Host.Outcome.next (s.to x) : Out) = .next (s.to y) := congrArg (fun e => Host.Outcome.next (s.to e)) h
  refine ⟨fun s => ⟨fun line hnext hfar => ?_, fun stack p => ?_, fun stack => rfl, fun n temp hn hst => ?_, fun line a hr hfar => ?_,
    fun port hport => ?_⟩, fun d p found => ?_⟩
  · have hdone (a b : ReadCheck) {e : Dev} (h : (s.dev.bypass line).hbmChecked line a b = e) :
        exec (.hbmReadComplete line a b) s = .next (s.to e) := run ((hbmReadComplete_next hnext hfar).trans h)
    refine ⟨fun hp a b => hdone a b (hbmChecked_poisoned hp), fun hp => ⟨fun b => ⟨hdone .good b (hbmChecked_good hp),
      hdone .corrected b (hbmChecked_corrected hp)⟩, hdone .failed .good ?_, hdone .failed .corrected ?_, hdone .failed .failed (hbmChecked_failed hp)⟩⟩
    · exact (hbmChecked_again (d := s.dev.bypass line) (second := .good) hp (by decide)).trans (if_neg (by decide))
    · exact (hbmChecked_again (d := s.dev.bypass line) (second := .corrected) hp (by decide)).trans (if_pos rfl)
  · exact ⟨rfl, fun h => run (if_pos h), writeQ_drainBatch stack p⟩
  · refine ⟨run (stackTempRead_eq hn hst), ?_, throttleAfter_cool _, throttleAfter_warm _⟩
    rw [throttleAfter_eq_three]
    have hlt := (s.dev.stack n).throttle.isLt
    have hold : 3 ≤ (s.dev.stack n).throttle.toNat ↔ (s.dev.stack n).throttle.toNat = 3 := by omega
    rw [hold]
  · have hgo : ¬ ((!s.dev.reading line || !lineIsFar line) = true) := by simp [hr, hfar]
    exact ⟨fun h => run ((if_neg hgo).trans (farChecked_quiet h)), fun hl hp h => run ((if_neg hgo).trans (farChecked_retried hl hp h)),
      fun hl hp => run ((if_neg hgo).trans (farChecked_poisoned hl hp))⟩
  · refine ⟨fun hup => run (farLinkDown_eq hport hup), fun found hst => ⟨fun h => run ((farLinkRecover_eq found hport hst).trans ?_),
      fun h => run ((farLinkRecover_eq found hport hst).trans ?_)⟩, fun found hboot hst hheld => run (if_neg ?_),
      fun lo hi hup => run (if_neg (farPort_ok hport hup)), fun frames hup hnew hle => run (farScrub_eq hport hup hnew hle)⟩
    · rw [if_neg h]
    · rw [if_pos h]
    · rintro (h | h | h | h)
      · omega
      · exact h hboot
      · exact h hst
      · exact h hheld
  · refine ⟨fun h => ?_, fun h hs => ?_, fun h hs hi => ?_, fun h hs hi => ?_, fun n hn => farPort_farEnumerate_ne hn⟩
    · rw [farEnumerate_absent h, farPort_setFarPort]
    · rw [farEnumerate_unsupported h hs, farPort_setFarPort]
    · rw [farEnumerate_open h hs hi, farPort_setFarPort]
    · rw [farEnumerate_up h hs hi, farPort_farGlint, farPort_setFarPort]

end Sys2Proof.Machine
end

section
/-! What the journal's entry of a mailbox command leaves as it was, and a served command whose own rule reads none of what the entry changes. -/

namespace Sys2Proof.Machine

variable {d e e' : Dev} {fn code : Nat} {body : Dev → List Byte → MbxResult} {subject : Dev → List Byte → Nat} {st : Code}

/-- A security state with the journal of another one. -/
def Security.withJournal (x y : Security) : Security :=
  { x with journal := y.journal, seq := y.seq, lastDigest := y.lastDigest, acked := y.acked, lost := y.lost, checkpoints := y.checkpoints,
           signings := y.signings, covers := y.covers, sinceCheckpoint := y.sinceCheckpoint }

/-- Only the journal differs. -/
def Security.Journals (x y : Security) : Prop := y = x.withJournal y

theorem Security.Journals.trans {x y z : Security} (h : x.Journals y) (h' : y.Journals z) : x.Journals z := by
  unfold Security.Journals at *
  rw [h', h]
  rfl

theorem Security.journals_startSigning (x : Security) : x.Journals x.startSigning := by
  unfold Security.startSigning
  split <;> rfl

theorem Security.journals_dueCheckpoint (x : Security) (fn : Option Nat) (nonce : BitVec 256) (dest : Nat) :
    x.Journals (x.dueCheckpoint fn nonce dest) := by
  unfold Security.dueCheckpoint
  split
  · rfl
  · split
    · split <;> rfl
    · rfl

theorem Security.journals_checkpointed (x : Security) :
    x.Journals { (x.dueCheckpoint none 0 0).startSigning with sinceCheckpoint := 0 } :=
  ((x.journals_dueCheckpoint none 0 0).trans (Security.journals_startSigning _)).trans rfl

/-- A block with the journal of a security state. -/
def Dev.withJournal (d : Dev) (y : Security) : Dev := { d with security := d.security.withJournal y }

theorem Dev.withJournal_self (d : Dev) : d.withJournal d.security = d := rfl

/-- Below its limit the journal's entry changes the journal alone. -/
theorem Dev.audit_eq_withJournal {kind actor : Nat} {self : Bool} {c : Code} {subj detail : BitVec 64}
    (h : d.security.unacked + 1 < auditNearLimit) :
    d.audit kind actor self c st subj detail = d.withJournal (d.audit kind actor self c st subj detail).security := by
  refine (Dev.audit_eq h).trans (congrArg (fun x => ({ d with security := x } : Dev)) ?_)
  change d.security.Journals _
  have hlapped : ¬ auditMirror ≤ d.security.unacked := by simp only [auditNearLimit, auditMirror] at *; omega
  have hnear : ¬ d.security.unacked + 1 = auditNearLimit := by omega
  simp only [Dev.audit, hlapped, hnear, decide_false, Bool.false_eq_true, if_false]
  split
  · refine Security.Journals.trans ?_ (Security.journals_checkpointed _)
    rfl
  · rfl

theorem Served.journals (h : Served d fn code) (subj : Nat) :
    d.mbxJournaled fn code subj = d.withJournal (d.mbxJournaled fn code subj).security := by
  obtain ⟨-, -, -, -, -, -, -, -, hfull⟩ := h
  exact Dev.audit_eq_withJournal hfull

/-- A served command that is done at once: what it does reads nothing of the journal. -/
theorem Dev.mbxRun_done (h : Served d fn code) (hr : readOnlyCommand code = false) (f : Dev → Dev) (g : Dev → List Byte)
    (hb : ∀ y, body (d.withJournal y) (d.mbxRequest fn) = .ok (f (d.withJournal y)) (g (d.withJournal y))) :
    d.mbxRun fn code subject body = (f (d.mbxJournaled fn code (subject d (d.mbxRequest fn)))).mbxRespond fn 0
      (g (d.mbxJournaled fn code (subject d (d.mbxRequest fn)))) := by
  refine Dev.mbxRun_ok h hr (e := f d) (q := g d) (hb d.security) ?_
  rw [h.journals]
  exact hb _

/-- A served command that runs on. -/
theorem Dev.mbxRun_waits (h : Served d fn code) (hr : readOnlyCommand code = false) (f : Dev → Dev)
    (hb : ∀ y, body (d.withJournal y) (d.mbxRequest fn) = .wait (f (d.withJournal y))) :
    d.mbxRun fn code subject body = (f (d.mbxJournaled fn code (subject d (d.mbxRequest fn)))).mbxAccept fn := by
  refine Dev.mbxRun_wait h hr (e := f d) (hb d.security) ?_
  rw [h.journals]
  exact hb _

/-- A served command whose own rule answers a good outcome is journaled after it. -/
theorem Dev.mbxRun_outcome (h : Served d fn code) (hr : readOnlyCommand code = false) (hb : body d (d.mbxRequest fn) = .outcome e 0) :
    d.mbxRun fn code subject body = (e.audit 1 fn false (BitVec.ofNat 16 code) 0 (BitVec.ofNat 64 (subject e (d.mbxRequest fn)))
      (d.facet fn).mailbox.auditDetail).mbxRespond fn 0 [] := by
  rw [Dev.mbxRun_served h]
  simp only [hb, hr, Bool.false_eq_true, if_false, decide_true, if_true]

end Sys2Proof.Machine
end

section
/-! The memory, host-mapping and aperture commands of the mailbox (R193 to R197, R322 to R324). -/

namespace Sys2Proof.Machine

variable {d : Dev}

/-! ## Pages are picked without the journal -/

/-- A pick with the journal that its block carries. -/
def picked {α : Type} (y : Security) (e : α × Dev) : α × Dev := (e.1, e.2.withJournal y)

theorem pickFar_withJournal (d : Dev) (y : Security) (f p : Nat) : (d.withJournal y).pickFar f p = (d.pickFar f p).map (picked y) := by
  unfold Dev.pickFar
  by_cases h : (d.farPort p).state ≠ 2
  · rw [if_pos h]
    exact if_pos h
  · rw [if_neg h, Option.map_map]
    exact if_neg h

section
variable {f stack stripe mode : Nat}

theorem pickSpread_partly (h : (d.stripes.find? fun e => decide (e.2 = 1) && (d.stripeFreePage e.1).isSome) = some (stripe, mode)) :
    d.pickSpread f = (d.stripeFreePage stripe).map fun p => d.takePage f 1 stripe p := by
  simp only [Dev.pickSpread, h]

theorem pickSpread_bare (h : (d.stripes.find? fun e => decide (e.2 = 1) && (d.stripeFreePage e.1).isSome) = none) :
    d.pickSpread f = d.bareStripe.map fun s => d.takePage f 1 s 0 := by
  simp only [Dev.pickSpread, h]

theorem pickLocal_partly (h : (d.stripes.find? fun e => decide (e.2 = 2) && d.stripePageFree e.1 stack) = some (stripe, mode)) :
    d.pickLocal f stack = some (d.takePage f 2 stripe stack) := by
  simp only [Dev.pickLocal, h]

theorem pickLocal_bare (h : (d.stripes.find? fun e => decide (e.2 = 2) && d.stripePageFree e.1 stack) = none) :
    d.pickLocal f stack = d.bareStripe.map fun s => d.takePage f 2 s stack := by
  simp only [Dev.pickLocal, h]

end

theorem pickSpread_withJournal (d : Dev) (y : Security) (f : Nat) : (d.withJournal y).pickSpread f = (d.pickSpread f).map (picked y) := by
  cases h : d.stripes.find? fun e => decide (e.2 = 1) && (d.stripeFreePage e.1).isSome with
  | some e =>
    rw [pickSpread_partly h, Option.map_map]
    exact pickSpread_partly (d := d.withJournal y) h
  | none =>
    rw [pickSpread_bare h, Option.map_map]
    exact pickSpread_bare (d := d.withJournal y) h

theorem pickLocal_withJournal (d : Dev) (y : Security) (f stack : Nat) :
    (d.withJournal y).pickLocal f stack = (d.pickLocal f stack).map (picked y) := by
  cases h : d.stripes.find? fun e => decide (e.2 = 2) && d.stripePageFree e.1 stack with
  | some e =>
    rw [pickLocal_partly h]
    exact pickLocal_partly (d := d.withJournal y) h
  | none =>
    rw [pickLocal_bare h, Option.map_map]
    exact pickLocal_bare (d := d.withJournal y) h

theorem pickInTurn_withJournal {pick : Dev → Nat → Option (Nat × Dev)} {y : Security}
    (h : ∀ d p, pick (d.withJournal y) p = (pick d p).map (picked y)) (places : List Nat) (n turn : Nat) (d : Dev) :
    pickInTurn pick places n turn (d.withJournal y) = (pickInTurn pick places n turn d).map (picked y) := by
  induction n generalizing turn d with
  | zero => rfl
  | succ n ih =>
    have hfirst (order : List Nat) : (order.findSome? fun p => (pick (d.withJournal y) p).map fun e => (p, e)) =
        (order.findSome? fun p => (pick d p).map fun e => (p, e)).map fun e => (e.1, picked y e.2) := by
      induction order with
      | nil => rfl
      | cons p order ih =>
        simp only [List.findSome?_cons, h d p]
        cases pick d p with
        | none => exact ih
        | some e => rfl
    simp only [pickInTurn, hfirst]
    cases (places.drop turn ++ places.take turn).findSome? fun p => (pick d p).map fun e => (p, e) with
    | none => rfl
    | some e =>
      simp only [Option.map_some, picked, ih, Option.map_map]
      rfl

theorem pickPages_withJournal (d : Dev) (y : Security) (f : Nat) (far loc : Bool) (t n : Nat) :
    (d.withJournal y).pickPages f far loc t n = (d.pickPages f far loc t n).map (picked y) := by
  unfold Dev.pickPages
  cases far
  · cases loc
    · exact pickInTurn_withJournal (fun d _ => pickSpread_withJournal d y f) [0] n 0 d
    · exact pickInTurn_withJournal (fun d s => pickLocal_withJournal d y f s) _ n 0 d
  · exact pickInTurn_withJournal (fun d p => pickFar_withJournal d y f p) _ n 0 d

end Sys2Proof.Machine
end

section
/-! The memory commands of the mailbox (R195 to R197). -/

namespace Sys2Proof.Machine

variable {d : Dev} {fn : Nat}

theorem memClassOk_of_mem {c : Nat} (h : c ∈ [0, 1, 2, 4, 7]) : memClassOk c ≠ false := by
  rw [memClassOk, List.contains_iff_mem.mpr h]
  exact Bool.false_ne_true.symm

/-- What MEM_ALLOC asks for passes the checks of R195 before its pages are picked. -/
structure AllocOk (d : Dev) (fn : Nat) (far loc : Bool) (cls target n asked : Nat) : Prop where
  pages  : n ≠ 0
  tier   : far = false ∨ loc = false
  class_ : cls ∈ [0, 1, 2, 4, 7]
  aim    : memTargetOk far loc target = true
  place  : asked ≠ 0 → asked % 2097152 = 0 ∧ asked + n * 2097152 ≤ 2 ^ 64 ∧ d.overlapsMapping fn asked (n * 2097152) = false
  hbm    : far = false → d.stackFailed = false ∧ n ≤ d.hbmFree fn
  port   : far = true → ∃ q ∈ (if target = 0x1F then [0, 1, 2, 3] else [target]), (d.farPort q).state = 2

theorem AllocOk.withJournal {far loc : Bool} {cls target n asked : Nat} (h : AllocOk d fn far loc cls target n asked) (y : Security) :
    AllocOk (d.withJournal y) fn far loc cls target n asked :=
  ⟨h.pages, h.tier, h.class_, h.aim, h.place, h.hbm, h.port⟩

/-- MEM_ALLOC once its fields are read and its checks pass: the pages, mapped at once or once they are scrubbed. -/
def Dev.allocAnswer (d : Dev) (fn choice : Nat) (far loc : Bool) (cls target n asked : Nat) (ro : Bool) : MbxResult :=
  match d.pickPages fn far loc target n with
  | none => .refuse 0x654 []
  | some (frames, e) =>
    let va := (if asked ≠ 0 then asked else d.chooseVa fn choice (n * 2097152)) / 2097152
    if frames.all (fun fr => !far || frameScrubbed e fr) && (!far || e.farWaits.isEmpty) then
      .ok (e.mapPages fn va frames (BitVec.ofNat 3 cls) ro) (allocResponse va n)
    else .wait { e with farWaits := e.farWaits ++ [{ fn := fn, va := va, frames := frames, cls := BitVec.ofNat 3 cls, ro := ro }] }

/-- The checks of R195, in order, before the pages are picked. -/
theorem AllocOk.passes {far loc : Bool} {cls target n asked : Nat} (h : AllocOk d fn far loc cls target n asked) (k : MbxResult) :
    (if n = 0 ∨ (far && loc) = true ∨ memClassOk cls = false ∨ memTargetOk far loc target = false then .refuse 0x3 []
    else if asked ≠ 0 ∧ (asked % pageBytes ≠ 0 ∨ 2 ^ 64 < asked + n * pageBytes ∨ d.overlapsMapping fn asked (n * pageBytes) = true) then
      .refuse 0x651 []
    else if !far && d.stackFailed then .refuse 0x653 []
    else if !far && decide (d.hbmFree fn < n) then .refuse 0x650 []
    else if far && !(if target = 0x1F then [0, 1, 2, 3] else [target]).any (fun p => decide ((d.farPort p).state = 2)) then
      .refuse 0x660 []
    else k) = k := by
  have hfields : ¬ (n = 0 ∨ (far && loc) = true ∨ memClassOk cls = false ∨ memTargetOk far loc target = false) := by
    rintro (hn | ht | hc | ht)
    · exact h.pages hn
    · rcases h.tier with hf | hl
      · rw [hf] at ht; exact absurd ht Bool.false_ne_true
      · rw [hl, Bool.and_false] at ht; exact absurd ht Bool.false_ne_true
    · exact memClassOk_of_mem h.class_ hc
    · exact absurd (h.aim.symm.trans ht) Bool.false_ne_true.symm
  have hplace : ¬ (asked ≠ 0 ∧ (asked % pageBytes ≠ 0 ∨ 2 ^ 64 < asked + n * pageBytes ∨
      d.overlapsMapping fn asked (n * pageBytes) = true)) := by
    rintro ⟨hne, hbad⟩
    obtain ⟨halign, hend, hfree⟩ := h.place hne
    rcases hbad with hb | hb | hb
    · exact hb halign
    · exact absurd hend (Nat.not_le.mpr hb)
    · exact absurd (hfree.symm.trans hb) Bool.false_ne_true
  rw [if_neg hfields, if_neg hplace]
  cases far with
  | false =>
    obtain ⟨hstack, hroom⟩ := h.hbm rfl
    simp only [hstack, Bool.not_false, Bool.and_false, Bool.false_eq_true, if_false, Nat.not_lt.mpr hroom, decide_false, Bool.false_and]
  | true =>
    have hany : ((if target = 0x1F then [0, 1, 2, 3] else [target]).any fun p => decide ((d.farPort p).state = 2)) = true := by
      obtain ⟨q, hq, hup⟩ := h.port rfl
      exact List.any_eq_true.mpr ⟨q, hq, decide_eq_true hup⟩
    simp only [hany, Bool.not_true, Bool.false_and, Bool.and_false, Bool.false_eq_true, if_false]

theorem allocAnswer_withJournal {choice : Nat} {far loc : Bool} {cls target n asked : Nat} {ro : Bool} (y : Security) {frames : List Nat} {x : Dev}
    (hpick : d.pickPages fn far loc target n = some (frames, x)) :
    let va := (if asked = 0 then d.chooseVa fn choice (n * 2097152) else asked) / 2097152
    (d.withJournal y).allocAnswer fn choice far loc cls target n asked ro =
      if (far = true → x.farWaits = [] ∧ ∀ fr ∈ frames, frameScrubbed x fr = true) then
        .ok ((x.withJournal y).mapPages fn va frames (BitVec.ofNat 3 cls) ro) (allocResponse va n)
      else .wait { x.withJournal y with farWaits := x.farWaits ++ [⟨fn, va, frames, BitVec.ofNat 3 cls, ro⟩] } := by
  have hva : (if asked ≠ 0 then asked else (d.withJournal y).chooseVa fn choice (n * 2097152)) =
      if asked = 0 then d.chooseVa fn choice (n * 2097152) else asked := by
    by_cases h : asked = 0
    · rw [if_pos h, if_neg (not_not_intro h)]
      rfl
    · rw [if_neg h, if_pos h]
  have hready : ((frames.all fun fr => !far || frameScrubbed (x.withJournal y) fr) && (!far || (x.withJournal y).farWaits.isEmpty)) = true ↔
      (far = true → x.farWaits = [] ∧ ∀ fr ∈ frames, frameScrubbed x fr = true) := by
    cases far with
    | false => simp
    | true =>
      simp only [Bool.not_true, Bool.false_or, Bool.and_eq_true, List.all_eq_true, forall_const, List.isEmpty_iff, and_comm]
      exact Iff.rfl
  intro va
  simp only [Dev.allocAnswer, pickPages_withJournal, hpick, Option.map_some, picked, hva, hready]
  rfl

theorem bits_zero (v w : Nat) : bits v 0 w = v % 2 ^ w := by rw [bits, pow_zero, Nat.div_one]

/-- A served MEM_ALLOC whose checks pass ends as its pages are found: mapped at once, or once they are scrubbed. -/
theorem memAlloc_eq {s : State} {choice : Nat} {frames : List Nat} {x y : Dev} (h : Served s.dev fn 0x0600) :
    let d := s.dev
    let p := d.mbxRequest fn
    let e := d.mbxJournaled fn 0x0600 fn
    let far := (leAt p 1 1).testBit 0
    let loc := (leAt p 1 1).testBit 1
    let va := (if leAt p 8 8 = 0 then e.chooseVa fn choice (leAt p 4 4 * 2097152) else leAt p 8 8) / 2097152
    let cls := BitVec.ofNat 3 (leAt p 2 1 % 8)
    let ro := (leAt p 2 1).testBit 3
    AllocOk d fn far loc (leAt p 2 1 % 8) (leAt p 3 1 % 32) (leAt p 4 4) (leAt p 8 8) →
    d.pickPages fn far loc (leAt p 3 1 % 32) (leAt p 4 4) = some (frames, x) →
    e.pickPages fn far loc (leAt p 3 1 % 32) (leAt p 4 4) = some (frames, y) →
    exec (.memAlloc fn choice) s = .next (s.to
      (if (far = true → y.farWaits = [] ∧ ∀ fr ∈ frames, frameScrubbed y fr = true) then
        (y.mapPages fn va frames cls ro).mbxRespond fn 0 (allocResponse va (leAt p 4 4))
      else Dev.mbxAccept { y with farWaits := y.farWaits ++ [⟨fn, va, frames, cls, ro⟩] } fn)) := by
  intro d p e far loc va cls ro hok hx hy
  refine congrArg (fun e => Host.Outcome.next (s.to e)) ?_
  have hj : e = d.withJournal e.security := h.journals fn
  have hyx : y = x.withJournal e.security := by
    rw [hj, pickPages_withJournal, hx] at hy
    exact (congrArg Prod.snd (Option.some.inj hy)).symm
  have hva : va = (if leAt p 8 8 = 0 then d.chooseVa fn choice (leAt p 4 4 * 2097152) else leAt p 8 8) / 2097152 := by
    change (if leAt p 8 8 = 0 then e.chooseVa fn choice _ else _) / _ = _
    rw [hj]
    rfl
  have hbody (z : Security) := ((hok.withJournal z).passes _).trans
    (allocAnswer_withJournal (choice := choice) (cls := leAt p 2 1 % 8) (asked := leAt p 8 8) (ro := ro) z hx)
  rw [← hva] at hbody
  have hscrub : (far = true → y.farWaits = [] ∧ ∀ fr ∈ frames, frameScrubbed y fr = true) ↔
      (far = true → x.farWaits = [] ∧ ∀ fr ∈ frames, frameScrubbed x fr = true) := by
    rw [hyx]
    exact Iff.rfl
  by_cases hnow : far = true → x.farWaits = [] ∧ ∀ fr ∈ frames, frameScrubbed x fr = true
  · rw [if_pos (hscrub.mpr hnow), hyx]
    simp only [if_pos hnow] at hbody
    refine Dev.mbxRun_done h rfl (fun e => (x.withJournal e.security).mapPages fn va frames cls ro) (fun _ => allocResponse va (leAt p 4 4)) fun z => ?_
    simp only [bits_zero]
    exact hbody z
  · rw [if_neg fun hs => hnow (hscrub.mp hs), hyx]
    simp only [if_neg hnow] at hbody
    refine Dev.mbxRun_waits h rfl (fun e => { x.withJournal e.security with farWaits := x.farWaits ++ [⟨fn, va, frames, cls, ro⟩] }) fun z => ?_
    simp only [bits_zero]
    exact hbody z

end Sys2Proof.Machine
end

section
/-! MEM_FREE, MEM_SET_CLASS, FAR_RESCAN and the host and aperture mappings (R196, R197, R206, R322 to R324). -/

namespace Sys2Proof.Machine

variable {s : State} {fn : Nat}

theorem pageRange_ok {d : Dev} {va n : Nat} (halign : va % 2097152 = 0) (hall : d.allAllocated fn (va / 2097152) n = true) :
    ¬ d.pageRangeBad fn va n = true := by
  have h1 : va % pageBytes = 0 := halign
  have h2 : d.allAllocated fn (va / pageBytes) n = true := hall
  simp only [Dev.pageRangeBad, h1, h2, ne_eq, not_true_eq_false, decide_false, Bool.not_true, Bool.or_self, Bool.false_eq_true,
    not_false_eq_true]

theorem allAllocated_withJournal {d : Dev} (y : Security) {f va n : Nat} (h : d.allAllocated f va n = true) :
    (d.withJournal y).allAllocated f va n = true := by
  induction n generalizing va with
  | zero => rfl
  | succ n ih =>
    simp only [Dev.allAllocated, Bool.and_eq_true] at h ⊢
    exact ⟨h.1, ih h.2⟩

theorem not_not_any {α : Type} {l : List α} {p : α → Bool} {x : α} (hx : x ∈ l) (hp : p x = true) : ¬ (!l.any p) = true := by
  rw [List.any_eq_true.mpr ⟨x, hx, hp⟩]
  exact Bool.false_ne_true

theorem memFree_eq (h : Served s.dev fn 0x0601) :
    let d := s.dev
    let p := d.mbxRequest fn
    let va := leAt p 8 8
    let n := leAt p 16 4
    n ≠ 0 → va % 2097152 = 0 → d.allAllocated fn (va / 2097152) n = true → d.rangeInUse fn va (n * 2097152) = false →
    exec (.memFree fn) s = .next (s.to (((d.mbxJournaled fn 0x0601 fn).releasePages fn (inPages va n)).mbxRespond fn 0 [])) := by
  intro d p va n hn halign hall huse
  refine congrArg (fun e => Host.Outcome.next (s.to e))
    (Dev.mbxRun_done h rfl (fun e => e.releasePages fn (inPages va n)) (fun _ => []) fun y => ?_)
  exact (if_neg hn).trans ((if_neg (pageRange_ok halign (allAllocated_withJournal y hall))).trans (if_neg (Bool.eq_false_iff.mp huse)))

theorem memSetClass_eq (h : Served s.dev fn 0x0602) :
    let d := s.dev
    let p := d.mbxRequest fn
    let va := leAt p 8 8
    let n := leAt p 16 4
    let cls := leAt p 2 1 % 8
    let ro := (leAt p 2 1).testBit 3
    n ≠ 0 → cls ∈ [0, 1, 2, 4, 7] → va % 2097152 = 0 → d.allAllocated fn (va / 2097152) n = true →
    exec (.memSetClass fn) s = .next (s.to (((d.mbxJournaled fn 0x0602 fn).updFacet fn fun x =>
      { x with pages := updAll (inPages va n) (fun m => { m with cls := BitVec.ofNat 3 cls, ro := ro }) x.pages }).mbxRespond fn 0 [])) := by
  intro d p va n cls ro hn hcls halign hall
  refine congrArg (fun e => Host.Outcome.next (s.to e)) (Dev.mbxRun_done h rfl (fun e => e.updFacet fn fun x =>
      { x with pages := updAll (inPages va n) (fun m => { m with cls := BitVec.ofNat 3 cls, ro := ro }) x.pages }) (fun _ => []) fun y => ?_)
  simp only [bits_zero]
  refine (if_neg ?_).trans (if_neg (pageRange_ok halign (allAllocated_withJournal y hall)))
  rintro (h0 | h0)
  · exact hn h0
  · exact memClassOk_of_mem hcls h0

theorem farRescan_eq (found : FarDevice) (h : Served s.dev fn 0x0603) :
    let d := s.dev
    let port := leAt (d.mbxRequest fn) 1 1
    port ≤ 3 → d.farHeld port = [] →
    let e := (d.updFarPort port fun q => { q with perst := false }).farEnumerate port found
    (e.farPort port).state = 2 →
    exec (.farRescan fn found) s = .next (s.to
      ((e.audit 1 fn false 0x0603 0 (BitVec.ofNat 64 fn) (d.facet fn).mailbox.auditDetail).mbxRespond fn 0 [])) := by
  intro d port hport hheld e hup
  refine congrArg (fun e => Host.Outcome.next (s.to e)) (Dev.mbxRun_outcome h rfl (e := e) ?_)
  refine (if_neg (Nat.not_lt.mpr hport)).trans ((if_neg (not_not_intro hheld)).trans ?_)
  change MbxResult.outcome e (if (e.farPort port).state = 2 then 0 else _) = _
  rw [if_pos hup]

theorem busMap_eq (choice : Nat) (pathOpen : Bool) (h : Served s.dev fn 0x0610) :
    let d := s.dev
    let p := d.mbxRequest fn
    let x := d.facet fn
    let e := d.mbxJournaled fn 0x0610 fn
    let peer := (leAt p 1 1).testBit 0
    let size := leAt p 16 8
    let asked := leAt p 24 8
    let bytes := alignUp size 2097152
    leAt p 8 8 % 4096 = 0 → size ≠ 0 → size % 4096 = 0 → size ≤ 68719476736 →
    (asked ≠ 0 → asked % 2097152 = 0 ∧ asked + bytes ≤ 2 ^ 64 ∧ d.overlapsMapping fn asked bytes = false) →
    (peer = true → countIf BusMap.peer x.buses < 16 ∧ d.peerMappings < 64 ∧ pathOpen = true ∧ d.mayTransmit fn = true) →
    (peer = false → countIf (fun m => !m.peer) x.buses < 256) →
    let va := if asked = 0 then e.chooseVa fn choice bytes else asked
    exec (.busMap fn choice pathOpen) s = .next (s.to ((e.updFacet fn fun x =>
      { x with buses := x.buses ++ [⟨va, leAt p 8 8, size, peer, (leAt p 1 1).testBit 1, false⟩] }).mbxRespond fn 0 (leBytes 8 1 ++ leBytes 8 va))) := by
  intro d p x e peer size asked bytes hbus hsize hpage hmax hplace hpeer hhost va
  have hva (y : Security) : (if asked ≠ 0 then asked else (d.withJournal y).chooseVa fn choice bytes) = va := by
    change _ = if asked = 0 then e.chooseVa fn choice bytes else asked
    rw [show e = d.withJournal e.security from h.journals fn]
    by_cases h0 : asked = 0
    · rw [if_pos h0, if_neg (not_not_intro h0)]
      rfl
    · rw [if_neg h0, if_pos h0]
  refine congrArg (fun e => Host.Outcome.next (s.to e)) (Dev.mbxRun_done h rfl (fun e => e.updFacet fn fun x =>
      { x with buses := x.buses ++ [⟨va, leAt p 8 8, size, peer, (leAt p 1 1).testBit 1, false⟩] }) (fun _ => leBytes 8 1 ++ leBytes 8 va) fun y => ?_)
  refine (if_neg ?_).trans ((if_neg ?_).trans ((if_neg (?_ : ¬ (if peer = true then _ else _) = true)).trans ((if_neg ?_).trans ?_)))
  · rintro (h0 | h0 | h0 | h0)
    · exact h0 hbus
    · exact hsize h0
    · exact h0 hpage
    · exact absurd hmax (Nat.not_le.mpr h0)
  · rintro ⟨hne, hbad⟩
    obtain ⟨halign, hend, hfree⟩ := hplace hne
    rcases hbad with hb | hb | hb
    · exact hb halign
    · exact absurd hend (Nat.not_le.mpr hb)
    · exact Bool.eq_false_iff.mp hfree hb
  · by_cases hp : peer = true
    · rw [if_pos hp]
      obtain ⟨hfew, hall, -, -⟩ := hpeer hp
      have hall' : (d.withJournal y).peerMappings < 64 := hall
      have hfew' : countIf BusMap.peer ((d.withJournal y).facet fn).buses < 16 := hfew
      simp only [Bool.or_eq_true, decide_eq_true_eq, not_or, Nat.not_le]
      exact ⟨hfew', hall'⟩
    · rw [if_neg hp]
      simp only [decide_eq_true_eq, Nat.not_le]
      exact hhost (Bool.eq_false_iff.mpr hp)
  · intro hbad
    rw [Bool.and_eq_true] at hbad
    obtain ⟨hp, hbad⟩ := hbad
    obtain ⟨-, -, hopen, hmay⟩ := hpeer hp
    have hmay' : (d.withJournal y).mayTransmit fn = true := hmay
    rw [hopen, hmay'] at hbad
    exact absurd hbad Bool.false_ne_true
  · rw [← hva y]
    rfl

theorem busUnmap_eq (h : Served s.dev fn 0x0611) :
    let d := s.dev
    let p := d.mbxRequest fn
    (∃ m ∈ (d.facet fn).buses, m.va = leAt p 8 8) →
    exec (.busUnmap fn) s = .next (s.to (((d.mbxJournaled fn 0x0611 fn).updFacet fn fun x =>
      { x with buses := eraseFirst (fun m => decide (m.va = leAt p 8 8)) x.buses }).mbxRespond fn 0 [])) := by
  rintro d p ⟨m, hm, hva⟩
  refine congrArg (fun e => Host.Outcome.next (s.to e)) (Dev.mbxRun_done h rfl (fun e => e.updFacet fn fun x =>
      { x with buses := eraseFirst (fun m => decide (m.va = leAt p 8 8)) x.buses }) (fun _ => []) fun y => ?_)
  exact if_neg (not_not_any hm (decide_eq_true hva))

theorem apertureMap_eq {choice o : Nat} (h : Served s.dev fn 0x0612) :
    let d := s.dev
    let p := d.mbxRequest fn
    let x := d.facet fn
    let flags := leAt p 1 1
    let size := leAt p 16 8
    leAt p 8 8 % 4096 = 0 → size % 4096 = 0 → size ≠ 0 → d.isDevice fn (leAt p 8 8) size = true →
    x.apertureOffset (x.apertureRange (flags.testBit 0) (leAt p 2 1)) choice size = some o →
    (flags.testBit 0 = true → countIf Aperture.keyed x.apertures < 64 ∧ d.keyedMappings < 256) →
    exec (.apertureMap fn choice) s = .next (s.to (((d.mbxJournaled fn 0x0612 fn).updFacet fn fun x =>
      { x with apertures := x.apertures ++ [⟨o, leAt p 8 8, size, flags.testBit 0, leAt p 2 1, flags.testBit 1, flags.testBit 2, flags.testBit 3,
          BitVec.ofNat 16 (leAt p 4 2)⟩] }).mbxRespond fn 0 (leBytes 8 1 ++ leBytes 8 o))) := by
  intro d p x flags size hva hpage hsize hdev hoff hkeyed
  refine congrArg (fun e => Host.Outcome.next (s.to e)) (Dev.mbxRun_done h rfl (fun e => e.updFacet fn fun x =>
      { x with apertures := x.apertures ++ [⟨o, leAt p 8 8, size, flags.testBit 0, leAt p 2 1, flags.testBit 1, flags.testBit 2, flags.testBit 3,
          BitVec.ofNat 16 (leAt p 4 2)⟩] }) (fun _ => leBytes 8 1 ++ leBytes 8 o) fun y => ?_)
  have hdev' : (d.withJournal y).isDevice fn (leAt p 8 8) size = true := hdev
  have hroom : ¬ (bit flags 0 && (decide (64 ≤ countIf Aperture.keyed ((d.withJournal y).facet fn).apertures) ||
      decide (256 ≤ (d.withJournal y).keyedMappings))) = true := by
    simp only [Bool.and_eq_true, Bool.or_eq_true, decide_eq_true_eq]
    rintro ⟨hk, hbad⟩
    obtain ⟨hfew, hall⟩ := hkeyed hk
    rcases hbad with hb | hb
    · exact absurd hfew (Nat.not_lt.mpr hb)
    · exact absurd hall (Nat.not_lt.mpr hb)
  refine (if_neg ?_).trans ((if_neg ?_).trans ?_)
  · rintro (h0 | h0 | h0)
    · exact h0 hva
    · exact h0 hpage
    · exact hsize h0
  · rw [hdev']
    exact Bool.false_ne_true
  · generalize hfound : Facet.apertureOffset _ _ choice _ = found
    obtain rfl : found = some o := hfound.symm.trans hoff
    exact if_neg hroom

theorem apertureUnmap_eq (h : Served s.dev fn 0x0613) :
    let d := s.dev
    let p := d.mbxRequest fn
    (∃ a ∈ (d.facet fn).apertures, a.offset = leAt p 8 8) →
    exec (.apertureUnmap fn) s = .next (s.to (((d.mbxJournaled fn 0x0613 fn).updFacet fn fun x =>
      { x with apertures := eraseFirst (fun a => decide (a.offset = leAt p 8 8)) x.apertures }).mbxRespond fn 0 [])) := by
  rintro d p ⟨a, ha, hoff⟩
  refine congrArg (fun e => Host.Outcome.next (s.to e)) (Dev.mbxRun_done h rfl (fun e => e.updFacet fn fun x =>
      { x with apertures := eraseFirst (fun a => decide (a.offset = leAt p 8 8)) x.apertures }) (fun _ => []) fun y => ?_)
  exact if_neg (not_not_any ha (decide_eq_true hoff))

/-- Settles O36. -/
theorem memoryAndWindows : Obligations.MemoryAndWindows := by
  unfold Obligations.MemoryAndWindows
  refine ⟨fun s fn => ⟨fun choice h => ?_, fun h => memFree_eq h, fun h => memSetClass_eq h, fun found h => farRescan_eq found h⟩,
    fun s fn => ⟨fun choice pathOpen h => busMap_eq choice pathOpen h, fun h => busUnmap_eq h, fun choice o h => apertureMap_eq h,
      fun h => apertureUnmap_eq h⟩⟩
  intro e far loc cls target n asked hn htier hcls haim hplace hhbm hport frames x y hx hy va ro
  have heq := memAlloc_eq (choice := choice) h ⟨hn, htier, hcls, haim, hplace, hhbm, hport⟩ hx hy
  refine ⟨fun hnow => heq.trans (congrArg (fun e => Host.Outcome.next (s.to e)) (if_pos hnow)), fun hfar hlate =>
    heq.trans (congrArg (fun e => Host.Outcome.next (s.to e)) (if_neg fun hnow => ?_))⟩
  obtain ⟨hwaits, hscrub⟩ := hnow hfar
  rcases hlate with hl | ⟨fr, hfr, hl⟩
  · exact hl hwaits
  · exact absurd ((hscrub fr hfr).symm.trans hl) Bool.false_ne_true.symm

end Sys2Proof.Machine
end

section
/-! Requests to the BARs of an open function, configuration requests and confirmation reads (R226, R230, R300, R302, R311, R323, R326). -/

namespace Sys2Proof.Machine

variable {d : Dev} {s : State} {fn : Nat}

/-- The tests of a posted BAR4 or BAR2 request of an open function. -/
theorem posted_ok {ide : Bool} (hopen : d.barOpen fn = true) (hide : d.idePasses ide = true) : ¬ (!d.barOpen fn || !d.idePasses ide) = true := by
  rw [hopen, hide]
  exact Bool.false_ne_true

theorem linkUp_of_onBus (h : d.onBus fn = true) : d.host.linkUp = true := by
  simp only [Dev.onBus, Bool.and_eq_true] at h
  exact h.1

theorem linkUp_of_barOpen (h : d.barOpen fn = true) : d.host.linkUp = true := by
  simp only [Dev.barOpen, Bool.and_eq_true] at h
  exact linkUp_of_onBus h.1.1.1.1

theorem not_not_true {b : Bool} (h : b = true) : ¬ (!b) = true := by simp [h]

theorem bar4_served (h : d.power.pkg = 0) : ¬ d.bar4Held = true := by simp [Dev.bar4Held, h]

section bar4
variable {ide : Bool} {rid : BitVec 16} {offset : Nat}

theorem exec_bar4Write {data : List Byte} {ep : Bool} (hopen : s.dev.barOpen fn = true) (hide : s.dev.idePasses ide = true)
    (hon : s.dev.power.pkg = 0) : exec (.bar4Write fn offset data ep ide rid) s = .next (s.to (s.dev.bar4Write fn offset data ep rid)) :=
  congrArg (fun e => Host.Outcome.next (s.to e)) ((if_neg (posted_ok hopen hide)).trans (if_neg (bar4_served hon)))

theorem exec_bar4Read {n : Nat} (hopen : s.dev.barOpen fn = true) (hide : s.dev.idePasses ide = true) (hon : s.dev.power.pkg = 0) :
    exec (.bar4Read fn offset n ide rid) s = .next (s.to (s.dev.bar4Read fn offset n rid)) :=
  congrArg (fun e => Host.Outcome.next (s.to e)) ((if_neg (not_not_true (linkUp_of_barOpen hopen))).trans
    ((if_neg (posted_ok hopen hide)).trans (if_neg (bar4_served hon))))

theorem exec_pcieAtomicop {op : AtomicOp} {n : Nat} {x y : BitVec 128} (hopen : s.dev.barOpen fn = true) (hide : s.dev.idePasses ide = true)
    (hon : s.dev.power.pkg = 0) :
    exec (.pcieAtomicop fn offset op n x y ide rid) s = .next (s.to (s.dev.bar4Atomic fn offset op n x y rid)) :=
  congrArg (fun e => Host.Outcome.next (s.to e)) ((if_neg (not_not_true (linkUp_of_barOpen hopen))).trans
    ((if_neg (posted_ok hopen hide)).trans (if_neg (bar4_served hon))))

theorem bar4Write_mapped {data : List Byte} {va : Nat} (hat : (d.facet fn).bar4Target offset data.length true rid = .at va)
    (hdev : d.deviceRange fn va data.length true = true) :
    d.bar4Write fn offset data false rid = (d.vwrite agentPort fn false (some 7) va data false).2 := by
  simp only [Dev.bar4Write, hat, hdev, Bool.not_true, Bool.false_eq_true, if_false, Bool.not_false, if_true]

theorem bar4Write_unmapped {data : List Byte} {ep : Bool} (h : (d.facet fn).bar4Target offset data.length true rid = .unmapped) :
    d.bar4Write fn offset data ep rid = d.send (.aerAdvisory fn) := by
  simp only [Dev.bar4Write, h, Dev.strayWrite]

theorem bar4Read_mapped {n va : Nat} (hat : (d.facet fn).bar4Target offset n false rid = .at va) (hdev : d.deviceRange fn va n false = true) :
    d.bar4Read fn offset n rid =
      (d.vread agentPort fn false (some 7) va n).2.send (.completion (d.vread agentPort fn false (some 7) va n).1.bytes
        (d.vread agentPort fn false (some 7) va n).1.poison) := by
  simp only [Dev.bar4Read, hat, hdev, Bool.not_true, Bool.false_eq_true, if_false]

theorem bar4Read_unmapped {n : Nat} (h : (d.facet fn).bar4Target offset n false rid = .unmapped) :
    d.bar4Read fn offset n rid = d.send .unsupportedRequest := by
  simp only [Dev.bar4Read, h]

theorem bar4Atomic_mapped {op : AtomicOp} {n : Nat} {x y : BitVec 128} {va pa cls : Nat} (hn : n = 4 ∨ n = 8) (halign : offset % n = 0)
    (hat : (d.facet fn).bar4Target offset n true rid = .at va) (hva : d.translate fn va = .device pa cls false) :
    let words := (leBytes 8 (x.toNat % 2 ^ 64) ++ leBytes 8 (y.toNat % 2 ^ 64)).map fun b => (pa % 128, b)
    let req := { mkReq .atom agentPort fn 7 (pa / 128) with bytes := words, op := atomicCode op (decide (n = 8)) }
    let m := d.access { req with x := x.setWidth 32, y := y.setWidth 32 }
    d.bar4Atomic fn offset op n x y rid = m.2.send (.completion (m.1.data.take n) m.1.poison) := by
  have hok : ¬ (¬ (n = 4 ∨ n = 8) ∨ offset % n ≠ 0) := by
    rintro (h | h)
    · exact h hn
    · exact h halign
  simp only [Dev.bar4Atomic, if_neg hok, hat, hva]

end bar4

theorem exec_bar2Write {ide : Bool} {offset : Nat} {b : Byte} (hopen : s.dev.barOpen fn = true) (hide : s.dev.idePasses ide = true)
    (hexists : s.dev.facetExists fn = true) (hlt : offset < 65536) :
    exec (.bar2Write fn offset [b] ide) s = .next (s.to (s.dev.updFacet fn fun x => x.updWindow (offset / 4096) fun w =>
      { w with slots := Mem.set w.slots (offset % 4096) b })) := by
  refine congrArg (fun e => Host.Outcome.next (s.to e)) ((if_neg ?_).trans rfl)
  rw [hopen, hide, hexists, List.length_singleton, decide_eq_false (by omega)]
  exact Bool.false_ne_true

/-! ## Configuration requests -/

/-- What a function's port answers a configuration request with once the device is ready (R326). -/
def Dev.configAnswered (d : Dev) (fn : Nat) : ConfigReq → Dev
  | .read _ => d.fresh.2.send (.configValue (d.fresh.1.setWidth 32))
  | .readField v => d.send (.configValue (BitVec.ofNat 32 (d.host.configField fn v)))
  | .setNumVFs n => if fn = 0 ∧ n ≤ 63 then d.updHost fun h => { h with numVFs := n } else d
  | .setEnables memory msix => d.updHost fun h =>
      { h with memEnable := NSet.put h.memEnable fn memory, msixEnable := NSet.put h.msixEnable fn msix }
  | .write _ _ => d.updHost fun h => h

theorem configRequest_served (req : ConfigReq) (hbus : d.onBus fn = true) (hboot : d.boot.step = 9) (hrec : d.boot.recovery = false) :
    effect (.configRequest fn req) d = d.configAnswered fn req := by
  refine (if_neg (not_not_true (linkUp_of_onBus hbus))).trans ((if_neg (not_not_intro hboot)).trans ((if_neg ?_).trans ?_))
  · rw [hbus, hrec]
    exact Bool.false_ne_true
  · cases req <;> rfl

theorem configRequest_booting (req : ConfigReq) (hlink : d.host.linkUp = true) (hboot : d.boot.step ≠ 9) :
    effect (.configRequest fn req) d = d.send .retryStatus :=
  (if_neg (not_not_true hlink)).trans (if_pos hboot)

/-! ## Host reads and confirmation reads -/

theorem hostReadCompletion_eq {addr : Nat} {data : List Byte} {ok : Bool} (hlink : d.host.linkUp = true) (hne : data ≠ []) :
    let lines := (List.range ((addr + data.length - 1) / 128 + 1 - addr / 128)).map (addr / 128 + ·)
    effect (.hostReadCompletion addr data ok) d = d.updHost fun h =>
        { h with mem := if ok then Mem.write h.mem addr data else h.mem,
                 memPoison := if ok then h.memPoison.filter (fun l => !lines.contains l) else h.memPoison,
                 memFail := if ok then h.memFail.filter (fun l => !lines.contains l) else NSet.addAll h.memFail lines } := by
  refine if_neg ?_
  rw [hlink, List.isEmpty_eq_false_iff.mpr hne]
  exact Bool.false_ne_true

theorem confirmDone_beam {b : BeamRef} {c : Ctx} {region : Nat} (hc : d.ctx? b = some c) (hr : region ∈ c.beam.fenceWait) :
    d.confirmDone (.beam b) region true = (d.regionConfirmed c.block.core region).updBeam b fun m =>
      { m with fenceWait := m.fenceWait.erase region } := by
  simp only [Dev.confirmDone, hc, List.contains_iff_mem.mpr hr, Bool.not_true, Bool.false_eq_true, if_false, if_true]

theorem confirmDone_command {serial region : Nat} {c : Cmd} (hc : (d.facet fn).cmd? serial = some c) (hr : region ∈ c.confirms) :
    d.confirmDone (.command fn serial) region true = (Dev.forEach (d.cores.map Prod.fst) (fun d k => d.regionConfirmed k region) d).updCmd fn serial
      fun c => { c with confirms := c.confirms.erase region } := by
  simp only [Dev.confirmDone, hc, List.contains_iff_mem.mpr hr, Bool.not_true, Bool.false_eq_true, if_false, if_true]

theorem peerConfirm_ok (agent : ConfirmAgent) (region : Nat) (hlink : d.host.linkUp = true) :
    effect (.peerConfirmComplete agent region true) d = d.confirmDone agent region true := by
  change (let e := d.confirmDone agent region (true && d.host.linkUp)
    if true || !d.host.linkUp || decide (e = d) then e else e.pathClosed (match agent with | .channel _ => region - 1 | _ => region)) = _
  simp only [hlink, Bool.true_or, Bool.and_true, if_true]

/-- Settles O37. -/
theorem portRequests : Obligations.PortRequests := by
  unfold Obligations.PortRequests
  have run {s : State} {x y : Dev} (h : x = y) : (Host.Outcome.next (s.to x) : Out) = .next (s.to y) := congrArg (fun e => Host.Outcome.next (s.to e)) h
  intro s fn
  refine ⟨fun hopen ide hide hon rid => ⟨?_, ?_, ?_, ?_, ?_⟩, fun hopen ide hide hexists offset b hlt => exec_bar2Write hopen hide hexists hlt,
    fun hlink hboot req => run (configRequest_booting req hlink hboot), fun hbus hboot hrec => ⟨?_, ?_, ?_, ?_⟩, fun hlink addr data hne => ⟨?_, ?_⟩,
    fun hlink b c region hc hr => run ((peerConfirm_ok _ _ hlink).trans (confirmDone_beam hc hr)),
    fun hlink serial c region hc hr => run ((peerConfirm_ok _ _ hlink).trans (confirmDone_command hc hr))⟩
  · exact fun offset data va hat hdev => (exec_bar4Write hopen hide hon).trans (run (bar4Write_mapped hat hdev))
  · exact fun offset data ep h => (exec_bar4Write hopen hide hon).trans (run (bar4Write_unmapped h))
  · exact fun offset n va hat hdev => (exec_bar4Read hopen hide hon).trans (run (bar4Read_mapped hat hdev))
  · exact fun offset n h => (exec_bar4Read hopen hide hon).trans (run (bar4Read_unmapped h))
  · exact fun offset op n x y va pa cls hn halign hat hva => (exec_pcieAtomicop hopen hide hon).trans (run (bar4Atomic_mapped hn halign hat hva))
  · exact fun off => run (configRequest_served (.read off) hbus hboot hrec)
  · rintro ⟨field, v⟩ hv
    refine run ((configRequest_served (.readField field) hbus hboot hrec).trans ?_)
    simp only [List.mem_cons, List.not_mem_nil, or_false, Prod.mk.injEq] at hv
    rcases hv with ⟨rfl, rfl⟩ | ⟨rfl, rfl⟩ | ⟨rfl, rfl⟩ | ⟨rfl, rfl⟩ | ⟨rfl, rfl⟩ | ⟨rfl, rfl⟩ | ⟨rfl, rfl⟩ | ⟨rfl, rfl⟩ | ⟨rfl, rfl⟩ <;> rfl
  · exact fun n hn hfn => run ((configRequest_served (.setNumVFs n) hbus hboot hrec).trans (if_pos ⟨hfn, hn⟩))
  · exact fun memory msix => run (configRequest_served (.setEnables memory msix) hbus hboot hrec)
  · exact run (hostReadCompletion_eq hlink hne)
  · exact run (hostReadCompletion_eq hlink hne)

end Sys2Proof.Machine
end

section
/-! Reads and writes of BAR0 registers (R8, R12, R34, R154, R157, R329, R331, R458). -/

namespace Sys2Proof.Machine

variable {d : Dev} {fn off n : Nat} {v : BitVec 32}

/-! ## Accesses that reach an open function -/

theorem barRead_open (hopen : d.barOpen fn = true) (k : Dev → Dev) : d.barRead fn k = k d := by
  rw [Dev.barRead, if_neg (not_not_true (linkUp_of_barOpen hopen)), if_pos hopen]

theorem barWrite_open (hopen : d.barOpen fn = true) (k : Dev → Dev) : d.barWrite fn k = k d := if_pos hopen

theorem aligned_word (h : off % 4 = 0) : off / 4 * 4 = off := by omega

/-- An access of an open function is its meaning on the block. -/
theorem run_barWrite {s : State} (hopen : s.dev.barOpen fn = true) (k : Dev → Dev) :
    s.run (fun d => d.barWrite fn k) = .next (s.to (k s.dev)) :=
  congrArg (fun e => Host.Outcome.next (s.to e)) (barWrite_open hopen k)

theorem run_barRead {s : State} (hopen : s.dev.barOpen fn = true) (k : Dev → Dev) :
    s.run (fun d => d.barRead fn k) = .next (s.to (k s.dev)) :=
  congrArg (fun e => Host.Outcome.next (s.to e)) (barRead_open hopen k)

section accesses
variable {s : State} (hopen : s.dev.barOpen fn = true) (h : off % 4 = 0)
include hopen h

theorem registerWrite_word (value : BitVec 64) :
    exec (.registerWrite fn off false value) s = .next (s.to (s.dev.writeWord fn off (value.extractLsb' 0 32))) := by
  refine (run_barWrite hopen _).trans ?_
  simp only [aligned_word h, Bool.false_eq_true, if_false]

theorem registerWrite_wide (value : BitVec 64) :
    exec (.registerWrite fn off true value) s =
      .next (s.to ((s.dev.writeWord fn off (value.extractLsb' 0 32)).writeWord fn (off + 4) (value.extractLsb' 32 32))) := by
  refine (run_barWrite hopen _).trans ?_
  simp only [aligned_word h, if_true]

theorem lowWordRead_wide :
    exec (.lowWordRead fn ⟨off, true⟩) s = .next (s.to (s.dev.readAnswer fn (s.dev.word fn off + 2 ^ 32 * s.dev.word fn (off + 4)))) := by
  refine (run_barRead hopen _).trans ?_
  simp only [aligned_word h, if_true]

theorem lowWordRead_word (hw : isWide off = false) :
    exec (.lowWordRead fn ⟨off, false⟩) s = .next (s.to (s.dev.readAnswer fn (s.dev.word fn off))) := by
  refine (run_barRead hopen _).trans ?_
  simp only [aligned_word h, hw, Bool.false_eq_true, if_false]

theorem lowWordRead_latches (hw : isWide off = true) :
    let e : Dev := { s.dev with latches := Tab.set 0 s.dev.latches (facetKey fn off) (s.dev.word fn (off + 4) + 1) }
    exec (.lowWordRead fn ⟨off, false⟩) s = .next (s.to (e.readAnswer fn (e.word fn off))) := by
  refine (run_barRead hopen _).trans ?_
  simp only [aligned_word h, hw, Bool.false_eq_true, if_false, if_true]

theorem highWordRead_latched (hw : isWide off = true) {w : Nat} (hlatch : Tab.get 0 s.dev.latches (facetKey fn off) = w + 1) :
    exec (.highWordRead fn (off + 4)) s =
      .next (s.to (({ s.dev with latches := Tab.set 0 s.dev.latches (facetKey fn off) 0 } : Dev).readAnswer fn w)) := by
  refine (run_barRead hopen _).trans ?_
  simp only [aligned_word (show (off + 4) % 4 = 0 by omega), Nat.add_sub_cancel, hw, Nat.le_add_left, and_self, if_true, hlatch]

theorem highWordRead_current (hw : isWide off = true) (hlatch : Tab.get 0 s.dev.latches (facetKey fn off) = 0) :
    exec (.highWordRead fn (off + 4)) s = .next (s.to (s.dev.readAnswer fn (s.dev.word fn (off + 4)))) := by
  refine (run_barRead hopen _).trans ?_
  simp only [aligned_word (show (off + 4) % 4 = 0 by omega), Nat.add_sub_cancel, hw, Nat.le_add_left, and_self, if_true, hlatch]

end accesses

/-! ## Journaled writes -/

section journaled
variable (hmask : journalMask off ≠ 0)
include hmask

theorem writeWord_changes_full
    (h : BitVec.ofNat 32 (d.word fn off) &&& journalMask off ≠ BitVec.ofNat 32 ((d.writeBar0 fn off v).word fn off) &&& journalMask off)
    (hfull : d.security.nearFull = true) : d.writeWord fn off v = d := by
  simp only [Dev.writeWord, if_neg hmask, Dev.journaled, decide_eq_true h, Bool.not_true, Bool.false_eq_true, if_false, hfull, if_true]

theorem writeWord_changes
    (h : BitVec.ofNat 32 (d.word fn off) &&& journalMask off ≠ BitVec.ofNat 32 ((d.writeBar0 fn off v).word fn off) &&& journalMask off)
    (hfull : d.security.nearFull = false) : d.writeWord fn off v =
      (d.auditWrite fn off (BitVec.ofNat 32 ((d.writeBar0 fn off v).word fn off)).toNat).writeBar0 fn off v := by
  simp only [Dev.writeWord, if_neg hmask, Dev.journaled, decide_eq_true h, Bool.not_true, Bool.false_eq_true, if_false, hfull]

theorem writeWord_same
    (h : ¬ BitVec.ofNat 32 (d.word fn off) &&& journalMask off ≠ BitVec.ofNat 32 ((d.writeBar0 fn off v).word fn off) &&& journalMask off) :
    d.writeWord fn off v = d.writeBar0 fn off v := by
  simp only [Dev.writeWord, if_neg hmask, Dev.journaled, decide_eq_false h, Bool.not_false, if_true]

end journaled

/-- Below the journal's limit a write acts on the block as it was or with its entry appended. -/
theorem writeWord_acts (h : d.security.nearFull = false) :
    ∃ e, (e = d ∨ ∃ w, e = d.auditWrite fn off w) ∧ d.writeWord fn off v = e.writeBar0 fn off v := by
  obtain hw | ⟨w, hw⟩ := Dev.writeWord_cases_of_not_nearFull fn v h
  · exact ⟨d, .inl rfl, hw⟩
  · exact ⟨_, .inr ⟨w, rfl⟩, hw⟩

theorem writeBar0_winCfg (h : n < 16) : d.writeBar0 fn (0x10000 + 4 * n) v = d.updFacet fn fun x => x.writeWinCfg n v := by
  have hn : (0x10000 + 4 * n - 0x10000) / 4 = n := by omega
  simp (disch := omega) only [Dev.writeBar0, Dev.writeInt, if_neg, if_pos, hn]

theorem writeBar0_retain (h : n < 24) : d.writeBar0 fn (0x200100 + 4 * n) v = d.writeRetain fn n v := by
  have hn : (0x200100 + 4 * n - 0x200100) / 4 = n := by omega
  simp (disch := omega) only [Dev.writeBar0, Dev.writeCache, if_neg, if_pos, hn]

/-! ## Queue heads -/

theorem writeHead_passes (hreg : ((d.facet fn).ring n).registered = true) (hlt : (v.extractLsb' 0 16).toNat < 2 ^ ((d.facet fn).ring n).log2)
    (hpass : ((v.extractLsb' 0 16).toNat + 2 ^ ((d.facet fn).ring n).log2 - ((d.facet fn).ring n).head) % 2 ^ ((d.facet fn).ring n).log2 ≤
      ((d.facet fn).ring n).written.length) :
    let r := (d.facet fn).ring n
    let h := (v.extractLsb' 0 16).toNat
    let passed := (h + 2 ^ r.log2 - r.head) % 2 ^ r.log2
    d.writeHead fn n v = (d.updFacet fn fun x => ((if n = 16 then [] else r.written.take passed).foldl Facet.consume x).updRing n fun r =>
      { r with head := h, written := r.written.drop passed }).flushRings fn := by
  refine (if_neg (not_not_true hreg)).trans (if_neg ?_)
  rintro (h | h)
  · exact absurd hlt (Nat.not_lt.mpr h)
  · exact absurd hpass (Nat.not_le.mpr h)

/-! ## Retention marks -/

/-- One mark of a CCH_LA_RETAIN word: the core's, where it is the writer's and not retired (R157). -/
def retainMark (d : Dev) (fn n : Nat) (v : BitVec 32) (s : NSet) (j : Nat) : NSet :=
  if d.coreOfFacet fn (32 * n + j) && !d.coreRetired (32 * n + j) then NSet.put s (32 * n + j) (v.getLsbD j) else s

theorem has_foldl_retainMark (d : Dev) (fn n : Nat) (v : BitVec 32) (s : NSet) (k c : Nat) :
    NSet.has ((List.range k).foldl (retainMark d fn n v) s) c =
      if 32 * n ≤ c ∧ c < 32 * n + k ∧ d.coreOfFacet fn c = true ∧ d.coreRetired c = false then v.getLsbD (c - 32 * n) else NSet.has s c := by
  induction k with
  | zero => rw [if_neg (by omega)]; rfl
  | succ k ih =>
    rw [List.range_succ, List.foldl_append, List.foldl_cons, List.foldl_nil]
    generalize (List.range k).foldl (retainMark d fn n v) s = t at ih
    by_cases hc : c = 32 * n + k
    · subst hc
      rw [if_neg (by omega)] at ih
      by_cases hmark : d.coreOfFacet fn (32 * n + k) = true ∧ d.coreRetired (32 * n + k) = false
      · rw [if_pos ⟨by omega, by omega, hmark⟩, retainMark, if_pos (by simp [hmark]), NSet.has_put_same, Nat.add_sub_cancel_left]
      · rw [if_neg fun h => hmark h.2.2, retainMark, if_neg (by simpa using hmark), ih]
    · have hsame : NSet.has (retainMark d fn n v t k) c = NSet.has t c := by
        unfold retainMark
        split
        · exact NSet.has_put_of_ne hc t _
        · rfl
      have hin : (32 * n ≤ c ∧ c < 32 * n + (k + 1) ∧ d.coreOfFacet fn c = true ∧ d.coreRetired c = false) ↔
          (32 * n ≤ c ∧ c < 32 * n + k ∧ d.coreOfFacet fn c = true ∧ d.coreRetired c = false) := by
        constructor
        · rintro ⟨h1, h2, h3⟩
          exact ⟨h1, by omega, h3⟩
        · rintro ⟨h1, h2, h3⟩
          exact ⟨h1, by omega, h3⟩
      rw [hsame, ih]
      simp only [hin]

theorem has_retain_writeRetain (d : Dev) (fn n : Nat) (v : BitVec 32) (c : Nat) :
    NSet.has (d.writeRetain fn n v).cache.retain c =
      if 32 * n ≤ c ∧ c < 32 * n + 32 ∧ d.coreOfFacet fn c = true ∧ d.coreRetired c = false then v.getLsbD (c - 32 * n)
      else NSet.has d.cache.retain c :=
  has_foldl_retainMark d fn n v d.cache.retain 32 c

theorem retainMarks_journaled (hfull : d.security.unacked + 1 < auditNearLimit) (w : Nat) (c : Nat) :
    NSet.has ((d.auditWrite fn (0x200100 + 4 * n) w).writeRetain fn n v).cache.retain c =
      NSet.has (d.writeRetain fn n v).cache.retain c := by
  have haudit : d.auditWrite fn (0x200100 + 4 * n) w = d.withJournal (d.auditWrite fn (0x200100 + 4 * n) w).security :=
    Dev.audit_eq_withJournal hfull
  rw [haudit]
  rfl

/-- Settles O38. -/
theorem registerAccesses : Obligations.RegisterAccesses := by
  unfold Obligations.RegisterAccesses
  have run {s : State} {x y : Dev} (h : x = y) : (Host.Outcome.next (s.to x) : Out) = .next (s.to y) := congrArg (fun e => Host.Outcome.next (s.to e)) h
  intro s fn hopen
  refine ⟨fun off h hw => lowWordRead_word hopen h hw, fun off h => lowWordRead_wide hopen h,
    fun off h hw => ⟨lowWordRead_latches hopen h hw, fun w hl => highWordRead_latched hopen h hw hl,
      fun hl => highWordRead_current hopen h hw hl⟩,
    fun off v h hmask => ⟨(registerWrite_word hopen h v).trans (run (Dev.writeWord_of_mask_zero _ _ _ hmask)), fun hmask' => ?_⟩,
    fun off v h hmask => ⟨fun hc hfull => (registerWrite_word hopen h v).trans (run (writeWord_changes_full hmask hc hfull)),
      fun hc hfull => (registerWrite_word hopen h v).trans (run (writeWord_changes hmask hc hfull)),
      fun hc => (registerWrite_word hopen h v).trans (run (writeWord_same hmask hc))⟩,
    fun n v hn hfull => ?_, fun n v hn hreg hlt hpass => ?_, fun hfn => run ((barWrite_open hopen _).trans (if_pos hfn)),
    fun hfn => run (y := s.dev) ((barWrite_open hopen _).trans (if_neg hfn)), fun n v hn hfull => ?_⟩
  · refine (registerWrite_wide hopen h v).trans ?_
    rw [Dev.writeWord_of_mask_zero _ _ _ hmask, Dev.writeWord_of_mask_zero _ _ _ hmask']
  · obtain ⟨e, he, hw⟩ := writeWord_acts (fn := fn) (off := 0x10000 + 4 * n) (v := v) hfull
    exact ⟨e, he, run ((if_neg (Nat.not_le.mpr hn)).trans ((barWrite_open hopen _).trans (hw.trans (writeBar0_winCfg hn))))⟩
  · have hpassed := writeHead_passes hreg hlt hpass
    by_cases h16 : n = 16
    · subst h16
      exact run ((barWrite_open hopen _).trans hpassed)
    · rw [if_neg h16]
      exact run ((if_neg (by omega)).trans ((barWrite_open hopen _).trans hpassed))
  · have hnear : s.dev.security.nearFull = false := decide_eq_false (by omega)
    obtain ⟨e, he, hw⟩ := writeWord_acts (fn := fn) (off := 0x200100 + 4 * n) (v := v) hnear
    refine ⟨e, he, run ((if_neg (Nat.not_le.mpr hn)).trans ((barWrite_open hopen _).trans (hw.trans (writeBar0_retain hn)))), fun c => ?_⟩
    rcases he with rfl | ⟨w, rfl⟩
    · exact has_retain_writeRetain _ fn n v c
    · rw [retainMarks_journaled hfull]
      exact has_retain_writeRetain _ fn n v c

end Sys2Proof.Machine
end

section
/-! Records and completions: NOP and undefined records, the end of commands, interrupt moderation (R226, R313 to R319, R326). -/

namespace Sys2Proof.Machine

variable {d : Dev} {s : State} {f w serial : Nat} {c : Cmd}

/-! ## Records -/

theorem takeRecord_held {types : Nat → Bool} {start : Dev → Nat → Cmd → Started} {e : Dev} {st : Code} {result typ : Nat}
    (h : RecordHeld d f w typ c) (ht : types typ = true)
    (hs : start (d.recordTaken f w c) f { c with state := .running } = .ended e st result) :
    d.takeRecord f w types start = (d.recordKept f w c).countF f 0x606000 1 := by
  obtain ⟨hserves, hgrant, htyp, hc, hcheck, hmet⟩ := h
  rw [takeRecord_checked hserves hgrant (by rw [htyp]; exact ht) hc hcheck, hs, hmet]
  rfl

theorem recordCheck_undefined {x : Facet} {bs : List Byte} (htyp : 7 < recordType bs) (hver : leAt bs 0 1 = 1)
    (hid : ∀ o ∈ x.cmds, o.occupies = true → o.dropped = false → o.id ≠ c.id) (hgen : c.gen = x.gen c.id.toNat) :
    x.recordCheck c bs = some (0x1, 0) := by
  have hfree : (x.cmds.any fun o => o.occupies && !o.dropped && decide (o.id = c.id)) = false := by
    simpa using fun o ho h1 h2 => hid o ho h1 h2
  simp only [Facet.recordCheck, hver, hfree, ← hgen, ne_eq, not_true_eq_false, decide_false, Bool.false_eq_true, if_false, htyp, decide_true, if_true]

theorem unsupportedRecord_eq {left : Nat} (hserves : d.gafferServes = true) (hgrant : d.intakeGrant = some (f, w, left)) :
    let bs := ((d.facet f).window w).headBytes
    let h := d.headCmd f w
    7 < recordType bs → leAt bs 0 1 = 1 → (∀ o ∈ (d.facet f).cmds, o.occupies = true → o.dropped = false → o.id ≠ h.id) →
    h.gen = (d.facet f).gen h.id.toNat →
    d.takeRecord f w (fun t => decide (7 < t)) (fun _ _ _ => .refused 0x1) = (d.recordRead f w left).refuseCmd f h.serial 0x1 0 := by
  intro bs h htyp hver hid hgen
  have hcheck : (d.facet f).recordCheck (recordCmd (d.facet f) w ((d.facet f).window w).headBytes) ((d.facet f).window w).headBytes =
      some (0x1, 0) := recordCheck_undefined htyp hver hid hgen
  have htyp' : decide (7 < recordType ((d.facet f).window w).headBytes) = true := decide_eq_true htyp
  simp only [Dev.takeRecord, hserves, if_true, hgrant, decide_true, Bool.not_true, Bool.or_self, htyp', Bool.false_eq_true, if_false, hcheck]
  rfl

/-! ## Completions -/

theorem commandComplete_due (hc : (d.facet f).cmd? serial = some c) (hend : c.state = .ended) (hconf : c.confirms = [])
    (hfar : d.farWritesOut f c = false) (habort : (d.facet f).abortWaits c = false) : d.commandComplete f serial = d.completionDue f serial := by
  have hgo : ¬ (c.state ≠ .ended ∨ c.confirms ≠ [] ∨ d.farWritesOut f c = true ∨ (d.facet f).abortWaits c = true) := by
    simp [hend, hconf, hfar, habort]
  have hstate : ¬ c.state = .waiting := by rw [hend]; exact CmdState.noConfusion
  simp only [Dev.commandComplete, hc, if_neg hstate, if_neg hgo]

theorem commandComplete_starts (hc : (d.facet f).cmd? serial = some c) (hwait : c.state = .waiting) :
    d.commandComplete f serial = d.startCmd f serial (startOf c.typ.toNat) := by
  simp only [Dev.commandComplete, hc, if_pos hwait]

theorem irqDelay_sends {n : Nat} (hreg : ((d.facet f).ring n).registered = true) (hirq : ((d.facet f).ring n).irqEn = true)
    (hun : ((d.facet f).ring n).unsignalled ≠ 0) :
    d.irqDelay f n = (d.updFacet f fun x => x.updRing n fun r => { r with unsignalled := 0 }).msix f ((d.facet f).ring n).vector := by
  refine if_neg ?_
  rw [hreg, hirq, decide_eq_false hun]
  exact Bool.false_ne_true

theorem completionDue_dropped (hc : (d.facet f).cmd? serial = some c) (h : c.dropped = true) : d.completionDue f serial =
    d.updFacet f fun x => { x with cmds := eraseFirst (fun c => decide (c.serial = serial)) x.cmds } := by
  simp only [Dev.completionDue, hc, h, if_true]

theorem completionDue_held (hc : (d.facet f).cmd? serial = some c) (h : c.dropped = false) : d.completionDue f serial =
    (d.updFacet f fun x => { x.updCmd serial (fun c => { c with state := .held, dueOrder := x.nextDue }) with nextDue := x.nextDue + 1 }).flushRings f := by
  simp only [Dev.completionDue, hc, h, Bool.false_eq_true, if_false]

/-! ## The end of a command -/

/-- What the end of a command makes of it. -/
def Cmd.ended (c : Cmd) (st : Code) (result : Nat) (confirms : List Nat) : Cmd :=
  if decide (c.state = .waiting) || decide (c.state = .running) then
    { c with state := .ended, status := c.lastStatus st, result := BitVec.ofNat 64 result, confirms := confirms }
  else c

theorem Cmd.serial_ended (c : Cmd) (st : Code) (result : Nat) (confirms : List Nat) : (c.ended st result confirms).serial = c.serial := by
  unfold Cmd.ended
  split <;> rfl

theorem cmd?_updCmd {g : Cmd → Cmd} (hg : ∀ c, (g c).serial = c.serial) :
    ((d.updCmd f serial g).facet f).cmd? serial = ((d.facet f).cmd? serial).map g := by
  rw [Dev.updCmd, Dev.facet_updFacet]
  exact find?_updFirst _ _ (by intro x; simp [hg]) _

theorem cmd?_endCmd (st : Code) (result : Nat) : ((d.endCmd f serial st result).facet f).cmd? serial =
    (((d.barrierReads f serial).2.facet f).cmd? serial).map fun c => c.ended st result (d.barrierReads f serial).1 :=
  cmd?_updCmd fun c => c.serial_ended ..

theorem facets_askRegions (core : Nat) (regions : List Nat) : (d.askRegions core regions).facets = d.facets := by
  have h (l : List PeerRec) (d : Dev) : (Dev.forEach l (fun d e => d.send (.confirmRead e.addr)) d).facets = d.facets := by
    induction l generalizing d with
    | nil => rfl
    | cons e l ih => exact ih _
  exact h _ d

theorem facets_forEach_askRegions (regions : List Nat) (l : List Nat) (d : Dev) :
    (Dev.forEach l (fun d k => d.askRegions k regions) d).facets = d.facets := by
  induction l generalizing d with
  | nil => rfl
  | cons k l ih => exact (ih _).trans (facets_askRegions k regions)

/-- The command has a system barrier, of a type whose end confirms its facet's regions, and some are recorded (R226, R232). -/
def Confirms (d : Dev) (f : Nat) (c : Cmd) : Prop := c.barrier = 2 ∧ (c.typ = 1 ∨ c.typ = 6) ∧ d.facetRegions f ≠ []

theorem barrierReads_none (hc : (d.facet f).cmd? serial = some c) (h : ¬ Confirms d f c ∨ ¬ (c.state = .waiting ∨ c.state = .running)) :
    d.barrierReads f serial = (c.confirms, d) := by
  have hno : c.barrier ≠ 2 ∨ ¬ (c.typ = 1 ∨ c.typ = 6) ∨ ¬ (c.state = .waiting ∨ c.state = .running) ∨ d.facetRegions f = [] := by
    unfold Confirms at h
    tauto
  simp only [Dev.barrierReads, hc, if_pos hno]

section confirms
variable (hc : (d.facet f).cmd? serial = some c) (hconf : Confirms d f c) (hrun : c.state = .waiting ∨ c.state = .running)
include hc hconf hrun

omit hc in
theorem confirms_go : ¬ (c.barrier ≠ 2 ∨ ¬ (c.typ = 1 ∨ c.typ = 6) ∨ ¬ (c.state = .waiting ∨ c.state = .running) ∨ d.facetRegions f = []) := by
  obtain ⟨hbar, htyp, hregions⟩ := hconf
  tauto

theorem barrierReads_sends (hmay : d.mayTransmit f = true) : d.barrierReads f serial =
    (d.facetRegions f, Dev.forEach (d.cores.map Prod.fst) (fun e k => e.askRegions k (d.facetRegions f)) d) := by
  simp only [Dev.barrierReads, hc, if_neg (confirms_go hconf hrun), hmay, Bool.not_true, Bool.false_eq_true, if_false]

theorem barrierReads_lost (hmay : d.mayTransmit f = false) : d.barrierReads f serial = (c.confirms, d.markHostLost f serial) := by
  simp only [Dev.barrierReads, hc, if_neg (confirms_go hconf hrun), hmay, Bool.not_false, if_true]

end confirms

theorem cmd?_markHostLost (hc : (d.facet f).cmd? serial = some c) (hrun : c.state = .waiting ∨ c.state = .running) :
    ((d.markHostLost f serial).facet f).cmd? serial = some { c with hostLost := true } := by
  rw [Dev.markHostLost, Dev.facet_updFacet]
  simp only [hc]
  have hlive : (decide (c.state = .waiting) || decide (c.state = .running)) = true := by simpa using hrun
  cases hlost : c.hostLost with
  | true =>
    simp only [Bool.true_or, if_true, hc]
    rw [← hlost]
  | false =>
    simp only [hlive, Bool.not_true, Bool.or_self, Bool.false_eq_true, if_false]
    have hfind := find?_updFirst (fun c : Cmd => decide (c.serial = serial)) (fun c => { c with hostLost := true }) (fun _ h => h) (d.facet f).cmds
    refine hfind.trans ?_
    rw [show (d.facet f).cmds.find? (fun c => decide (c.serial = serial)) = some c from hc]
    rfl

/-- The command after its end: its regions are asked for where its barrier confirms them, and it is host-lost where no link carries the reads. -/
theorem cmd?_endCmd_cases (st : Code) (result : Nat) (hc : (d.facet f).cmd? serial = some c) (hrun : c.state = .waiting ∨ c.state = .running) :
    (¬ Confirms d f c ∧ ((d.endCmd f serial st result).facet f).cmd? serial = some (c.ended st result c.confirms)) ∨
    (Confirms d f c ∧ d.mayTransmit f = true ∧
      ((d.endCmd f serial st result).facet f).cmd? serial = some (c.ended st result (d.facetRegions f))) ∨
    (Confirms d f c ∧ d.mayTransmit f = false ∧
      ((d.endCmd f serial st result).facet f).cmd? serial = some (({ c with hostLost := true } : Cmd).ended st result c.confirms)) := by
  rw [cmd?_endCmd]
  by_cases hconf : Confirms d f c
  · refine .inr ?_
    cases hmay : d.mayTransmit f with
    | true =>
      refine .inl ⟨hconf, rfl, ?_⟩
      rw [barrierReads_sends hc hconf hrun hmay, Dev.facet, facets_forEach_askRegions]
      exact congrArg (Option.map _) hc
    | false =>
      refine .inr ⟨hconf, rfl, ?_⟩
      rw [barrierReads_lost hc hconf hrun hmay, cmd?_markHostLost hc hrun]
      rfl
  · refine .inl ⟨hconf, ?_⟩
    rw [barrierReads_none hc (.inl hconf), hc]
    rfl

theorem ended_live {st : Code} {result : Nat} {confirms : List Nat} (hrun : c.state = .waiting ∨ c.state = .running) :
    c.ended st result confirms = { c with state := .ended, status := c.lastStatus st, result := BitVec.ofNat 64 result, confirms := confirms } :=
  if_pos (by simpa using hrun)

theorem lastStatus_lost {st : Code} (h : c.hostLost = true) : c.lastStatus st = 0x108 := if_pos h

theorem lastStatus_kept {st : Code} (h : c.hostLost = false) (hf : c.confirmFailed = false) : c.lastStatus st = st := by
  simp only [Cmd.lastStatus, h, hf, Bool.false_and, Bool.false_eq_true, if_false]

theorem cmd?_endCmd_over (st : Code) (result : Nat) (hc : (d.facet f).cmd? serial = some c) (hw : c.state ≠ .waiting) (hr : c.state ≠ .running) :
    ((d.endCmd f serial st result).facet f).cmd? serial = some c := by
  have hover : ¬ (c.state = .waiting ∨ c.state = .running) := by
    rintro (h | h)
    · exact hw h
    · exact hr h
  rw [cmd?_endCmd, barrierReads_none hc (.inr hover), hc]
  exact congrArg some (if_neg (by simpa using hover))

/-- Settles O39. -/
theorem recordsEnd : Obligations.RecordsEnd := by
  unfold Obligations.RecordsEnd
  have run {s : State} {x y : Dev} (h : x = y) : (Host.Outcome.next (s.to x) : Out) = .next (s.to y) := congrArg (fun e => Host.Outcome.next (s.to e)) h
  refine ⟨fun s f w c => ⟨fun h => run (takeRecord_ended h rfl rfl), fun h => run (takeRecord_held h rfl rfl),
    fun left hserves hgrant => fun htyp hver hid hgen => run (unsupportedRecord_eq hserves hgrant htyp hver hid hgen),
    fun o serial ho => ⟨fun hend hconf hfar habort => run (commandComplete_due ho hend hconf hfar habort),
      fun hwait => run (commandComplete_starts ho hwait)⟩, fun n hreg hirq hun => run (irqDelay_sends hreg hirq hun)⟩,
    fun d f serial c hc => ⟨completionDue_dropped hc, completionDue_held hc, fun st result hrun => ?_, fun st result => cmd?_endCmd_over st result hc⟩⟩
  rcases cmd?_endCmd_cases st result hc hrun with ⟨hconf, h⟩ | ⟨hconf, hmay, h⟩ | ⟨hconf, hmay, h⟩
  · rw [h, ended_live hrun]
    exact ⟨rfl, rfl, fun hl hf _ => congrArg some (lastStatus_kept hl hf), fun hl => congrArg some (lastStatus_lost hl),
      fun hb ht hr => absurd ⟨hb, ht, hr⟩ hconf⟩
  · rw [h, ended_live hrun]
    exact ⟨rfl, rfl, fun hl hf _ => congrArg some (lastStatus_kept hl hf), fun hl => congrArg some (lastStatus_lost hl),
      fun _ _ _ => ⟨fun hno => absurd (hmay.symm.trans hno) Bool.false_ne_true.symm, fun _ => rfl⟩⟩
  · rw [h, ended_live (c := { c with hostLost := true }) hrun]
    have hlost : ({ c with hostLost := true } : Cmd).lastStatus st = 0x108 := lastStatus_lost rfl
    refine ⟨rfl, rfl, fun hl hf hgo => ?_, fun hl => congrArg some hlost, fun _ _ _ => ⟨fun _ => congrArg some hlost, fun hyes => absurd (hmay.symm.trans hyes) Bool.false_ne_true⟩⟩
    rcases hgo with hb | hyes
    · exact absurd hconf.1 hb
    · exact absurd (hmay.symm.trans hyes) Bool.false_ne_true

end Sys2Proof.Machine
end

section
/-! The bytes of a unit rearranged (R342): SWAP over the units of a descriptor. -/

namespace Sys2Proof.Machine

variable {swap : BitVec 3} {a bs : List Byte}

theorem unitOf_pos (swap : BitVec 3) : 0 < unitOf swap := by
  unfold unitOf
  split <;> decide

theorem swapBytes_nil (swap : BitVec 3) : swapBytes swap [] = [] := by
  simp only [swapBytes, List.length_nil, Nat.zero_div, List.range_zero, List.map_nil, List.flatten_nil]

/-- A first unit is rearranged by itself. -/
theorem swapBytes_append (ha : a.length = unitOf swap) : swapBytes swap (a ++ bs) = swapUnit swap a ++ swapBytes swap bs := by
  have hpos := unitOf_pos swap
  have hunits : (a ++ bs).length / unitOf swap = bs.length / unitOf swap + 1 := by
    rw [List.length_append, ha, Nat.add_div_left _ hpos]
  have hfirst : ((a ++ bs).drop (unitOf swap * 0)).take (unitOf swap) = a := by
    rw [Nat.mul_zero, List.drop_zero, ← ha, List.take_left]
  have hrest (i : Nat) : (a ++ bs).drop (unitOf swap * (i + 1)) = bs.drop (unitOf swap * i) := by
    rw [show unitOf swap * (i + 1) = a.length + unitOf swap * i by rw [ha]; ring, List.drop_length_add_append]
  simp only [swapBytes, hunits, List.range_succ_eq_map, List.map_cons, List.map_map, List.flatten_cons, hfirst, Function.comp_def, Nat.succ_eq_add_one,
    hrest]

theorem length_swapUnit (ha : a.length = unitOf swap) : (swapUnit swap a).length = unitOf swap := by
  unfold swapUnit
  split
  · rw [List.length_reverse, ha]
  · rw [List.length_reverse, ha]
  · rw [List.length_reverse, ha]
  · rename_i h
    have h4 : unitOf swap = 4 := by simp only [unitOf, h]
    rw [List.length_append, List.length_drop, List.length_take, ha, h4]
    rfl
  · exact ha

theorem swapUnit_reverse (h1 : 1 ≤ swap.toNat) (h3 : swap.toNat ≤ 3) : swapUnit swap a = a.reverse := by
  obtain h | h | h : swap.toNat = 1 ∨ swap.toNat = 2 ∨ swap.toNat = 3 := by omega
  · simp only [swapUnit, h]
  · simp only [swapUnit, h]
  · simp only [swapUnit, h]

theorem swapUnit_halves (h : swap.toNat = 4) : swapUnit swap a = a.drop 2 ++ a.take 2 := by simp only [swapUnit, h]

theorem swapUnit_same (h : swap.toNat = 0 ∨ 4 < swap.toNat) : swapUnit swap a = a := by
  unfold swapUnit
  split
  · omega
  · omega
  · omega
  · omega
  · rfl

theorem swapUnit_swapUnit (ha : a.length = unitOf swap) : swapUnit swap (swapUnit swap a) = a := by
  by_cases h4 : swap.toNat = 4
  · have hu : unitOf swap = 4 := by simp only [unitOf, h4]
    have hlen : (a.drop 2).length = 2 := by rw [List.length_drop, ha, hu]
    rw [swapUnit_halves h4, swapUnit_halves h4, List.drop_left' hlen, List.take_left' hlen, List.take_append_drop]
  · by_cases hrev : 1 ≤ swap.toNat ∧ swap.toNat ≤ 3
    · rw [swapUnit_reverse hrev.1 hrev.2, swapUnit_reverse hrev.1 hrev.2, List.reverse_reverse]
    · have hsame : swap.toNat = 0 ∨ 4 < swap.toNat := by omega
      rw [swapUnit_same hsame, swapUnit_same hsame]

theorem swapUnit_zero : swapUnit 0 a = a := rfl

/-- Bytes that fill whole units are rearranged unit by unit. -/
theorem induction_units {P : List Byte → Prop} (hnil : P []) (hunit : ∀ a bs, a.length = unitOf swap → bs.length % unitOf swap = 0 → P bs → P (a ++ bs))
    (h : bs.length % unitOf swap = 0) : P bs := by
  obtain ⟨m, hm⟩ := Nat.dvd_of_mod_eq_zero h
  induction m generalizing bs with
  | zero =>
    rw [Nat.mul_zero] at hm
    rw [List.length_eq_zero_iff.mp hm]
    exact hnil
  | succ m ih =>
    have hlen : (bs.take (unitOf swap)).length = unitOf swap := by
      rw [List.length_take, hm, Nat.mul_succ]
      omega
    have hrest : (bs.drop (unitOf swap)).length = unitOf swap * m := by
      rw [List.length_drop, hm, Nat.mul_succ, Nat.add_sub_cancel]
    have hmod : (bs.drop (unitOf swap)).length % unitOf swap = 0 := by rw [hrest, Nat.mul_mod_right]
    rw [← List.take_append_drop (unitOf swap) bs]
    exact hunit _ _ hlen hmod (ih hmod hrest)

theorem length_swapBytes (h : bs.length % unitOf swap = 0) : (swapBytes swap bs).length = bs.length := by
  refine induction_units (swap := swap) (P := fun bs => (swapBytes swap bs).length = bs.length) ?_ (fun a bs ha _ ih => ?_) h
  · rw [swapBytes_nil]
  · rw [swapBytes_append ha, List.length_append, List.length_append, length_swapUnit ha, ha, ih]

theorem swapBytes_swapBytes (h : bs.length % unitOf swap = 0) : swapBytes swap (swapBytes swap bs) = bs := by
  refine induction_units (swap := swap) (P := fun bs => swapBytes swap (swapBytes swap bs) = bs) ?_ (fun a bs ha _ ih => ?_) h
  · rw [swapBytes_nil, swapBytes_nil]
  · rw [swapBytes_append ha, swapBytes_append (length_swapUnit ha), swapUnit_swapUnit ha, ih]

theorem swapBytes_zero (bs : List Byte) : swapBytes 0 bs = bs := by
  have hmod : bs.length % unitOf 0 = 0 := Nat.mod_one _
  refine induction_units (swap := 0) (P := fun bs => swapBytes 0 bs = bs) ?_ (fun a bs ha _ ih => ?_) hmod
  · exact swapBytes_nil 0
  · rw [swapBytes_append ha, ih, swapUnit_zero]

/-- SWAP 1 to 3 reverses the bytes of each unit. -/
theorem getElem?_swapBytes (h1 : 1 ≤ swap.toNat) (h3 : swap.toNat ≤ 3) (h : bs.length % unitOf swap = 0) (i : Nat) (hi : i < bs.length) :
    (swapBytes swap bs)[i]? = bs[i / unitOf swap * unitOf swap + (unitOf swap - 1 - i % unitOf swap)]? := by
  have hpos := unitOf_pos swap
  refine induction_units (swap := swap) (P := fun bs => ∀ i < bs.length, (swapBytes swap bs)[i]? =
    bs[i / unitOf swap * unitOf swap + (unitOf swap - 1 - i % unitOf swap)]?) ?_ (fun a bs ha _ ih i hi => ?_) h i hi
  · exact fun i hi => absurd hi (Nat.not_lt_zero i)
  · rw [swapBytes_append ha, swapUnit_reverse h1 h3]
    by_cases hlt : i < unitOf swap
    · rw [Nat.div_eq_of_lt hlt, Nat.mod_eq_of_lt hlt, Nat.zero_mul, Nat.zero_add, List.getElem?_append_left (by rw [List.length_reverse, ha]; exact hlt),
        List.getElem?_append_left (by omega), List.getElem?_reverse (by omega), ha]
    · obtain ⟨j, rfl⟩ := Nat.exists_eq_add_of_le (Nat.le_of_not_lt hlt)
      have hj : j < bs.length := by
        rw [List.length_append, ha] at hi
        omega
      rw [Nat.add_div_left _ hpos, Nat.add_mod_left, Nat.succ_mul, Nat.add_right_comm, Nat.add_comm _ (unitOf swap)]
      have hrev : a.reverse.length = unitOf swap := by rw [List.length_reverse, ha]
      rw [List.getElem?_append_right (by omega), hrev, Nat.add_sub_cancel_left, List.getElem?_append_right (by omega), ha, Nat.add_sub_cancel_left]
      exact ih j hj

end Sys2Proof.Machine
end

section
/-! A DMA command from its record to its completion (R338 to R357). -/

namespace Sys2Proof.Machine

variable {d : Dev} {s : State} {ch : Nat}

theorem dmaCounter_eq (n off : Nat) : dmaCounter n off = 0x607000 + off + 0x40 * n := by
  unfold dmaCounter; omega

theorem startDma_joins {f : Nat} {c : Cmd} (halign : leAt c.args 0 8 % 64 = 0) (hmax : leAt c.args 12 4 ≠ 0) (hmax' : leAt c.args 12 4 ≤ 65536)
    (hch : leAt c.args 8 1 % 128 = ch) (hlt : ch < 64) (hold : (d.channel ch).holds f = true) :
    startDma d f c = .running (Dev.updChannel { d with nextAccept := d.nextAccept + 1 } ch fun k =>
      { k with queue := k.queue ++ [⟨f, c.serial, c.cls, d.nextAccept, 0, BitVec.ofNat 64 (leAt c.args 0 8), leAt c.args 12 4⟩] }) := by
  have hbits : bits (leAt c.args 8 1) 0 7 = ch := (bits_zero _ _).trans hch
  have hok : ¬ (leAt c.args 0 8 % 64 ≠ 0 ∨ leAt c.args 12 4 = 0 ∨ 65536 < leAt c.args 12 4 ∨ (64 ≤ ch ∧ ch ≠ 0x7F)) := by
    rintro (h | h | h | h)
    · exact h halign
    · exact hmax h
    · exact absurd hmax' (Nat.not_le.mpr h)
    · omega
  have hnum : ¬ ch = 0x7F := by omega
  simp only [startDma, hbits, if_neg hok, if_neg hnum, hold, if_true]

/-- A channel's run at its start: nothing fetched, processed or recorded. -/
def DmaQueued.run (q : DmaQueued) : DmaRun :=
  { fn := q.fn, serial := q.serial, nextVa := q.chain, maxDesc := q.maxDesc, fetched := 0, desc := [], doneBytes := 0, poison := false,
    processed := 0, bad := 0, poisoned := 0, chainEnd := false, fault := 0, hostRec := none, peerRecs := [],
    confirms := [], confirmFailed := false, held := false, freezing := false }

theorem dmaStart_only {q : DmaQueued} (hrun : (d.channel ch).run = none) (hq : (d.channel ch).queue = [q])
    (hfree : (d.facet q.fn).freezing = false) (hstate : (d.facet q.fn).state = .running) :
    d.dmaStart ch = d.setChannel ch
      { d.channel ch with queue := [], run := some q.run, state := .running, passedBy := 0, promoted := none } := by
  have hfilter : ([q].filter fun v => decide (v ≠ q)) = [] := by simp
  have hruns : ([q].filter fun q : DmaQueued => !(d.facet q.fn).freezing &&
      (decide ((d.facet q.fn).state = .running) || decide ((d.facet q.fn).state = .quiescing))) = [q] := by simp [hfree, hstate]
  simp only [Dev.dmaStart, hrun, Option.isSome_none, Bool.false_eq_true, if_false, hq, hruns, leastBy, hfilter, List.map_nil]
  rfl

/-! ## Descriptors -/

section running
variable {r : DmaRun} (hr : (d.channel ch).run = some r) (hstate : (d.channel ch).state = .running)
include hr hstate

theorem dmaFetch_next (hend : r.chainEnd = false) (hfault : r.fault = 0) (hfree : r.freezing = false) (hdesc : r.desc = [])
    (hmore : r.fetched < r.maxDesc) (halign : r.nextVa.toNat % 64 = 0) (hreach : d.reaches r.fn r.nextVa.toNat = true) :
    let v := d.vread (2048 + ch) r.fn false (some 5) r.nextVa.toNat 64
    v.1.ok = true → v.1.poison = false → leAt v.1.bytes 0 1 = 1 →
    let x := descOf r.nextVa v.1.bytes
    d.dmaFetch ch = v.2.updRun ch fun r =>
      { r with desc := r.desc ++ [x], fetched := r.fetched + 1, nextVa := x.next, chainEnd := decide (x.next = 0) } := by
  intro v hok hpoison hver x
  have hgo : ¬ ((d.channel ch).state ≠ .running ∨ r.chainEnd = true ∨ r.fault ≠ 0 ∨ r.freezing = true ∨ 5 ≤ r.desc.length ∨
      r.maxDesc ≤ r.fetched ∨ false = true) := by
    simp [hstate, hend, hfault, hfree, hdesc, hmore]
  have hgood : ¬ (true = false ∨ false = true ∨ v.1.ok = false ∨ v.1.poison = true ∨ leAt v.1.bytes 0 1 ≠ 1) := by
    simp [hok, hpoison, hver]
  have hlast : r.desc.getLast? = none := by rw [hdesc]; rfl
  simp only [Dev.dmaFetch, hr, hlast]
  refine (if_neg hgo).trans ?_
  simp only [halign, decide_true, hreach, Bool.not_true, Bool.and_false, if_true]
  exact if_neg hgood

variable {x : Desc} {rest : List Desc} (hx : r.desc = x :: rest)
include hx

theorem dmaLineComplete_held (hheld : d.dmaHeld r x = true) : d.dmaLineComplete ch = d.dmaHold ch r := by
  simp only [Dev.dmaLineComplete, hr, hx, hstate, ne_eq, not_true_eq_false, if_false, hheld, if_true]

variable (hfree : d.dmaHeld r x = false)
include hfree

theorem dmaLineComplete_bad (hbad : x.bad = true) : d.dmaLineComplete ch = d.dmaDone ch 0x3 true false := by
  simp only [Dev.dmaLineComplete, hr, hx, hstate, ne_eq, not_true_eq_false, if_false, hfree, Bool.false_eq_true, hbad, if_true]

theorem dmaLineComplete_overlaps (hbad : x.bad = false) (hover : x.overlaps = true) :
    d.dmaLineComplete ch = d.dmaDone ch 0x205 true false := by
  simp only [Dev.dmaLineComplete, hr, hx, hstate, ne_eq, not_true_eq_false, if_false, hfree, Bool.false_eq_true, hbad, hover, if_true]

omit hstate hfree in
/-- A channel with a head request has a descriptor in range, whose ranges do not overlap. -/
theorem desc_ok_of_head {n : Nat} (hhead : (d.channel ch).head = some n) : x.bad = false ∧ x.overlaps = false := by
  simp only [Channel.head, hr, hx] at hhead
  split at hhead
  · cases hhead
  · rename_i hok
    simp only [not_or, Bool.not_eq_true] at hok
    exact ⟨hok.2.1, hok.2.2.1⟩

theorem dmaLineComplete_granted {n : Nat} (hhead : (d.channel ch).head = some n) (hgrant : d.granted (ch / 16) = some ch) :
    d.dmaLineComplete ch = (d.grant ch n).dmaLine ch r x := by
  obtain ⟨hbad, hover⟩ := desc_ok_of_head hr hx hhead
  simp only [Dev.dmaLineComplete, hr, hx, hstate, ne_eq, not_true_eq_false, if_false, hfree, Bool.false_eq_true, hbad, hover, hhead, hgrant, if_true]

end running

section confirming
variable {r : DmaRun} (hlt : ch < 64) (hr : (s.dev.channel ch).run = some r) (hstate : (s.dev.channel ch).state = .confirming)
  (hconf : r.confirms = []) (hout : r.held = true ∨ s.dev.dmaFarOut ch = false)
include hlt hr hstate hconf hout

omit hr in
theorem confirmed_ok : ¬ (64 ≤ ch ∨ (s.dev.channel ch).state ≠ .confirming ∨ r.confirms ≠ [] ∨ (r.held = false ∧ s.dev.dmaFarOut ch = true)) := by
  rintro (h | h | h | ⟨h, h'⟩)
  · omega
  · exact h hstate
  · exact h hconf
  · rw [h, h'] at hout
    simp at hout

theorem descriptorConfirmed_eq : exec (.descriptorConfirmed ch) s = .next (s.to
    (if r.confirmFailed && decide (r.fault = 0) then s.dev.dmaStop ch 0x670
    else if r.held then (s.dev.updChannel ch fun k => { k with state := .running }).updRun ch fun r => { r with held := false }
    else s.dev.dmaNext ch)) := by
  have hgo := confirmed_ok hlt hstate hconf hout
  refine congrArg (fun e => Host.Outcome.next (s.to e)) ?_
  simp only [hr]
  exact if_neg hgo

end confirming

/-! ## Actions and the commit -/

theorem dmaAction_halted {halted : Dev → Dev} (hlt : ch < 64) (hopen : d.barOpen (d.channel ch).owner = true)
    (hstate : (d.channel ch).state = .halted) : d.dmaAction (d.channel ch).owner ch halted = halted d := by
  refine (if_neg ?_).trans (if_neg (not_not_intro hstate))
  rw [hopen]
  simp [hlt]

theorem dmaAction_running {halted : Dev → Dev} (hlt : ch < 64) (hopen : d.barOpen (d.channel ch).owner = true)
    (hstate : (d.channel ch).state ≠ .halted) :
    d.dmaAction (d.channel ch).owner ch halted = d.updChannel ch fun k => { k with cfgErr := k.cfgErr ||| 2 } := by
  refine (if_neg ?_).trans (if_pos hstate)
  rw [hopen]
  simp [hlt]

theorem dmaCommit_eq (hlt : ch < 64) (hopen : d.barOpen (d.channel ch).owner = true) :
    d.dmaCommit (d.channel ch).owner ch = d.journaled (d.channel ch).owner (0x10000C + 0x100 * ch) 1
      (decide (((d.channel ch).rate, (d.channel ch).burst) ≠ (d.channel ch).commit.getD ((d.channel ch).actRate, (d.channel ch).actBurst)))
      fun e => e.updChannel ch fun k => { k with commit := some (k.rate, k.burst) } := by
  have hgo : ¬ (64 ≤ ch ∨ (d.channel ch).owner ≠ (d.channel ch).owner ∨ d.barOpen (d.channel ch).owner = false) := by
    rw [hopen]
    simp [hlt]
  simp only [Dev.dmaCommit, if_neg hgo]

/-- Settles O40. -/
theorem dmaWork : Obligations.DmaWork := by
  unfold Obligations.DmaWork
  have run {s : State} {x y : Dev} (h : x = y) : (Host.Outcome.next (s.to x) : Out) = .next (s.to y) := congrArg (fun e => Host.Outcome.next (s.to e)) h
  refine ⟨fun s ch hlt => ?_, fun swap bs hswap hbs => ⟨length_swapBytes hbs, swapBytes_swapBytes hbs, ?_, fun i hi h1 h3 => getElem?_swapBytes h1 h3 hbs i hi⟩⟩
  · have hnot : ¬ 64 ≤ ch := Nat.not_le.mpr hlt
    refine ⟨fun f w c h halign hmax hmax' hch hold => ?_, fun q hrun hq hfree hstate => ?_, fun r hr => ⟨?_, ?_, ?_, ?_, ?_⟩, fun ns => run (if_neg hnot),
      fun hopen => ⟨fun hh => ⟨?_, ?_, ?_⟩, fun hh => ?_, fun hfull hne => ?_, fun heq => ?_⟩⟩
    · exact run (takeRecord_running h rfl (startDma_joins halign hmax hmax' hch hlt hold))
    · refine ⟨_, run ((if_neg hnot).trans (dmaStart_only hrun hq hfree hstate)), ?_, ?_, ⟨q.run, ?_, rfl, rfl, rfl, rfl, rfl, rfl⟩,
        fun n hn => Tab.get_set_other _ _ hn _⟩
      · exact congrArg Channel.queue (Tab.get_set_same ..)
      · exact congrArg Channel.state (Tab.get_set_same ..)
      · exact congrArg Channel.run (Tab.get_set_same ..)
    · intro hstate hend hfault hfree hdesc hmore halign hreach v hok hpoison hver
      exact run ((if_neg hnot).trans (dmaFetch_next hr hstate hend hfault hfree hdesc hmore halign hreach hok hpoison hver))
    · exact fun x rest hx hstate hheld => run ((if_neg hnot).trans (dmaLineComplete_held hr hstate hx hheld))
    · intro x rest hx hstate hfree
      exact ⟨fun hbad => run ((if_neg hnot).trans (dmaLineComplete_bad hr hstate hx hfree hbad)),
        fun hbad hover => run ((if_neg hnot).trans (dmaLineComplete_overlaps hr hstate hx hfree hbad hover)),
        fun n hhead hgrant => run ((if_neg hnot).trans (dmaLineComplete_granted hr hstate hx hfree hhead hgrant))⟩
    · intro hstate hconf hout
      have heq := descriptorConfirmed_eq hlt hr hstate hconf hout
      refine ⟨fun hf hz => heq.trans (run (if_pos ?_)), fun hf hh => heq.trans (run ((if_neg ?_).trans (if_pos hh))),
        fun hf hh => heq.trans (run ((if_neg ?_).trans (if_neg (Bool.eq_false_iff.mp hh))))⟩
      · rw [hf, hz]
        rfl
      · rw [hf]
        exact Bool.false_ne_true
      · rw [hf]
        exact Bool.false_ne_true
    · intro hhead hpassed hprom
      refine run ((if_neg ?_).trans ?_)
      · rintro (h | h | h | h)
        · exact hnot h
        · exact hhead h
        · omega
        · exact h hprom
      · rw [dmaCounter_eq]
    · exact run (dmaAction_halted hlt hopen hh)
    · exact run (dmaAction_halted hlt hopen hh)
    · exact run (dmaAction_halted hlt hopen hh)
    · intro make hmake
      simp only [List.mem_cons, List.not_mem_nil, or_false] at hmake
      rcases hmake with rfl | rfl | rfl
      · exact run (dmaAction_running hlt hopen hh)
      · exact run (dmaAction_running hlt hopen hh)
      · exact run (dmaAction_running hlt hopen hh)
    · refine run ((dmaCommit_eq hlt hopen).trans ?_)
      rw [decide_eq_true hne, Dev.journaled, hfull]
      rfl
    · refine run ((dmaCommit_eq hlt hopen).trans ?_)
      rw [decide_eq_false (not_not_intro heq)]
      rfl
  · rintro rfl
    exact swapBytes_zero bs

end Sys2Proof.Machine
end

section
/-! A served command by its own rule, where the rule's answer on the journaled block decides (R307, R458). -/

namespace Sys2Proof.Machine

variable {d e : Dev} {fn code : Nat} {body : Dev → List Byte → MbxResult} {subject : Dev → List Byte → Nat} {q : List Byte}

/-- A command's own rule lets it run, at once or on. -/
def MbxResult.Accepts : MbxResult → Prop
  | .ok _ _ | .wait _ => True
  | .refuse _ _ | .outcome _ _ => False

/-- A served command whose rule, on any journal, is G, and lets it run: it ends as G says on the journaled block. -/
theorem Dev.mbxRun_rule (h : Served d fn code) (hr : readOnlyCommand code = false) (G : Dev → MbxResult)
    (hb : ∀ y, body (d.withJournal y) (d.mbxRequest fn) = G (d.withJournal y)) (h1 : (G d).Accepts)
    (h2 : G (d.mbxJournaled fn code (subject d (d.mbxRequest fn))) = .ok e q) :
    d.mbxRun fn code subject body = e.mbxRespond fn 0 q := by
  have hb1 : body d (d.mbxRequest fn) = G d := hb d.security
  have hb2 : body (d.mbxJournaled fn code (subject d (d.mbxRequest fn))) (d.mbxRequest fn) = .ok e q := by
    rw [← h2, h.journals]
    exact hb _
  rw [Dev.mbxRun_served h]
  cases hG : G d with
  | ok e0 q0 => simp only [hb1, hG, hr, hb2, Bool.false_eq_true, if_false]
  | wait e0 => simp only [hb1, hG, hr, hb2, Bool.false_eq_true, if_false]
  | refuse st q0 =>
    rw [hG] at h1
    exact h1.elim
  | outcome e0 st =>
    rw [hG] at h1
    exact h1.elim

theorem Dev.mbxRun_rule_wait (h : Served d fn code) (hr : readOnlyCommand code = false) (G : Dev → MbxResult)
    (hb : ∀ y, body (d.withJournal y) (d.mbxRequest fn) = G (d.withJournal y)) (h1 : (G d).Accepts)
    (h2 : G (d.mbxJournaled fn code (subject d (d.mbxRequest fn))) = .wait e) :
    d.mbxRun fn code subject body = e.mbxAccept fn := by
  have hb1 : body d (d.mbxRequest fn) = G d := hb d.security
  have hb2 : body (d.mbxJournaled fn code (subject d (d.mbxRequest fn))) (d.mbxRequest fn) = .wait e := by
    rw [← h2, h.journals]
    exact hb _
  rw [Dev.mbxRun_served h]
  cases hG : G d with
  | ok e0 q0 => simp only [hb1, hG, hr, hb2, Bool.false_eq_true, if_false]
  | wait e0 => simp only [hb1, hG, hr, hb2, Bool.false_eq_true, if_false]
  | refuse st q0 =>
    rw [hG] at h1
    exact h1.elim
  | outcome e0 st =>
    rw [hG] at h1
    exact h1.elim

/-- A served command that ends at once or runs on, by a test of the journaled block. -/
theorem Dev.mbxRun_ite (h : Served d fn code) (hr : readOnlyCommand code = false) (P : Dev → Bool) (f g : Dev → Dev) (q : List Byte)
    (hb : ∀ y, body (d.withJournal y) (d.mbxRequest fn) =
      if P (d.withJournal y) then .ok (f (d.withJournal y)) q else .wait (g (d.withJournal y))) :
    d.mbxRun fn code subject body =
      let e := d.mbxJournaled fn code (subject d (d.mbxRequest fn))
      if P e then (f e).mbxRespond fn 0 q else (g e).mbxAccept fn := by
  have haccepts : (if P d then MbxResult.ok (f d) q else .wait (g d)).Accepts := by split <;> trivial
  by_cases hP : P (d.mbxJournaled fn code (subject d (d.mbxRequest fn))) = true
  · exact (Dev.mbxRun_rule h hr (fun e => if P e then .ok (f e) q else .wait (g e)) hb haccepts (if_pos hP)).trans (if_pos hP).symm
  · exact (Dev.mbxRun_rule_wait h hr (fun e => if P e then .ok (f e) q else .wait (g e)) hb haccepts (if_neg hP)).trans (if_neg hP).symm

end Sys2Proof.Machine
end

section
/-! The corpus and lehr commands of the mailbox (R238 to R246). -/

namespace Sys2Proof.Machine

variable {s : State} {fn c n m : Nat} {x : Corpus}

/-! ## Corpora -/

/-- What CORPUS_REGISTER answers once its table is read. -/
def Dev.registersCorpus (d : Dev) (p : List Byte) (m : Nat) : MbxResult :=
  match d.readBlocks (bit (leAt p 1 1) 0) (leAt p 8 8) (leAt p 4 4) 0 1 with
  | (.error st, _) => .refuse st []
  | (.ok blocks, d) => .ok (d.updLehr fun l => { l with corpora := l.corpora ++
      [⟨m, bit (leAt p 1 1) 0, BitVec.ofNat 64 (leAt p 16 8), 1, 1, blocks, leAt p 4 4, none⟩] }) (corpusResponse m 1 0)

theorem registersCorpus_ok {d y : Dev} {p : List Byte} {blocks : List CorpusBlock}
    (h : d.readBlocks (bit (leAt p 1 1) 0) (leAt p 8 8) (leAt p 4 4) 0 1 = (.ok blocks, y)) :
    d.registersCorpus p m = .ok (y.updLehr fun l => { l with corpora := l.corpora ++
      [⟨m, bit (leAt p 1 1) 0, BitVec.ofNat 64 (leAt p 16 8), 1, 1, blocks, leAt p 4 4, none⟩] }) (corpusResponse m 1 0) := by
  simp only [Dev.registersCorpus, h]

theorem table_ok {n table : Nat} (hn : n ≠ 0) (hmax : n ≤ 65536) (halign : table % 32 = 0) : ¬ (n = 0 ∨ 65536 < n ∨ table % 32 ≠ 0) := by
  rintro (h | h | h)
  · exact hn h
  · exact absurd hmax (Nat.not_le.mpr h)
  · exact h halign

theorem corpusRegister_eq (h : Served s.dev fn 0x0300) :
    let d := s.dev
    let p := d.mbxRequest fn
    leAt p 4 4 ≠ 0 → leAt p 4 4 ≤ 65536 → leAt p 8 8 % 32 = 0 → ((List.range 16).find? fun c => (d.lehr.corpus? c).isNone) = some m →
    d.stackFailed = false → ∀ blocks blocks' x y, d.readBlocks ((leAt p 1 1).testBit 0) (leAt p 8 8) (leAt p 4 4) 0 1 = (.ok blocks', x) →
    (d.mbxJournaled fn 0x0300 fn).readBlocks ((leAt p 1 1).testBit 0) (leAt p 8 8) (leAt p 4 4) 0 1 = (.ok blocks, y) →
    exec (.corpusRegister fn) s = .next (s.to ((y.updLehr fun l => { l with corpora := l.corpora ++
      [⟨m, (leAt p 1 1).testBit 0, BitVec.ofNat 64 (leAt p 16 8), 1, 1, blocks, leAt p 4 4, none⟩] }).mbxRespond fn 0 (corpusResponse m 1 0))) := by
  intro d p hn hmax halign hfree hstack blocks blocks' x y hx hy
  refine congrArg (fun e => Host.Outcome.next (s.to e)) (Dev.mbxRun_rule h rfl (fun e => e.registersCorpus p m) (fun z => ?_) ?_ (registersCorpus_ok hy))
  · refine (if_neg (table_ok hn hmax halign)).trans ?_
    generalize hfound : (List.range 16).find? _ = found
    obtain rfl : found = some m := hfound.symm.trans hfree
    refine (if_neg (Bool.eq_false_iff.mp hstack)).trans ?_
    unfold Dev.registersCorpus
    generalize Dev.readBlocks _ _ _ _ _ _ = r
    obtain ⟨st | blocks, e⟩ := r
    · rfl
    · rfl
  · change ((d.registersCorpus p m).Accepts)
    rw [registersCorpus_ok hx]
    trivial

/-- What CORPUS_APPEND answers once its table is read. -/
def Dev.appendsCorpus (d : Dev) (p : List Byte) (c : Nat) (x : Corpus) : MbxResult :=
  match d.readBlocks x.i8 (leAt p 8 8) (leAt p 4 4) x.nextBlock (x.epoch + 1) with
  | (.error st, _) => .refuse st []
  | (.ok blocks, d) => .ok (d.updLehr fun l => (l.updCorpus c fun x =>
      { x with epoch := x.epoch + 1, blocks := x.blocks ++ blocks, nextBlock := x.nextBlock + leAt p 4 4 }).settleEpoch c)
        (corpusResponse c (x.epoch + 1) x.nextBlock)

theorem appendsCorpus_ok {d y : Dev} {p : List Byte} {blocks : List CorpusBlock}
    (h : d.readBlocks x.i8 (leAt p 8 8) (leAt p 4 4) x.nextBlock (x.epoch + 1) = (.ok blocks, y)) :
    d.appendsCorpus p c x = .ok (y.updLehr fun l => (l.updCorpus c fun x =>
      { x with epoch := x.epoch + 1, blocks := x.blocks ++ blocks, nextBlock := x.nextBlock + leAt p 4 4 }).settleEpoch c)
        (corpusResponse c (x.epoch + 1) x.nextBlock) := by
  simp only [Dev.appendsCorpus, h]

theorem corpusAppend_eq (h : Served s.dev fn 0x0301) :
    let d := s.dev
    let p := d.mbxRequest fn
    let c := leAt p 1 1 % 16
    let n := leAt p 4 4
    d.lehr.corpus? c = some x → n ≠ 0 → n ≤ 65536 → leAt p 8 8 % 32 = 0 → d.stackFailed = false → x.nextBlock + n < 2 ^ 40 / blockCodes x.i8 →
    ∀ blocks blocks' u y, d.readBlocks x.i8 (leAt p 8 8) n x.nextBlock (x.epoch + 1) = (.ok blocks', u) →
    (d.mbxJournaled fn 0x0301 fn).readBlocks x.i8 (leAt p 8 8) n x.nextBlock (x.epoch + 1) = (.ok blocks, y) →
    exec (.corpusAppend fn) s = .next (s.to ((y.updLehr fun l => (l.updCorpus c fun x =>
      { x with epoch := x.epoch + 1, blocks := x.blocks ++ blocks, nextBlock := x.nextBlock + n }).settleEpoch c).mbxRespond fn 0
        (corpusResponse c (x.epoch + 1) x.nextBlock))) := by
  intro d p c n hx hn hmax halign hstack hroom blocks blocks' u y hu hy
  refine congrArg (fun e => Host.Outcome.next (s.to e)) (Dev.mbxRun_rule h rfl (fun e => e.appendsCorpus p c x) (fun z => ?_) ?_ (appendsCorpus_ok hy))
  · refine (if_neg (table_ok hn hmax halign)).trans ?_
    simp only [bits_zero]
    generalize hfound : Lehr.corpus? _ _ = found
    obtain rfl : found = some x := hfound.symm.trans hx
    refine (if_neg (Bool.eq_false_iff.mp hstack)).trans ((if_neg (Nat.not_le.mpr hroom)).trans ?_)
    unfold Dev.appendsCorpus
    generalize Dev.readBlocks _ _ _ _ _ _ = r
    obtain ⟨st | blocks, e⟩ := r
    · rfl
    · rfl
  · change ((d.appendsCorpus p c x).Accepts)
    rw [appendsCorpus_ok hu]
    trivial

theorem corpusRetire_eq (h : Served s.dev fn 0x0302) :
    let d := s.dev
    let p := d.mbxRequest fn
    let c := leAt p 1 1 % 16
    let n := leAt p 4 4
    let inRun := fun (b : CorpusBlock) => decide (leAt p 8 4 ≤ b.number) && decide (b.number < leAt p 8 4 + n)
    d.lehr.corpus? c = some x → n ≠ 0 → (x.blocks.filter inRun).length = n → (∀ b ∈ x.blocks, inRun b = true → b.retired = none) →
    let retire := fun (b : CorpusBlock) => { b with retired := some (x.epoch + 1) }
    let next := fun (y : Corpus) => { y with epoch := x.epoch + 1, retiring := some (fn, x.epoch + 1), blocks := updAll inRun retire y.blocks }
    exec (.corpusRetire fn) s = .next (s.to (Dev.forEach (List.range 16) (fun d c => d.retireCheck c)
      (((d.mbxJournaled fn 0x0302 fn).updLehr fun l => (l.updCorpus c next).settleEpoch c).mbxAccept fn))) := by
  intro d p c n inRun hx hn hlen hlive retire next
  have hwhole : ¬ ((x.blocks.filter inRun).length ≠ n ∨ (x.blocks.filter inRun).any (fun b => b.retired.isSome) = true) := by
    rintro (hl | ha)
    · exact hl hlen
    · obtain ⟨b, hb, hr⟩ := List.any_eq_true.mp ha
      rw [hlive b (List.mem_of_mem_filter hb) (List.of_mem_filter hb)] at hr
      exact Bool.false_ne_true hr
  refine congrArg (fun e => Host.Outcome.next (s.to (Dev.forEach (List.range 16) (fun d c => d.retireCheck c) e)))
    (Dev.mbxRun_waits h rfl (fun e => e.updLehr fun l => (l.updCorpus c next).settleEpoch c) fun z => ?_)
  simp only [bits_zero]
  generalize hfound : Lehr.corpus? _ _ = found
  obtain rfl : found = some x := hfound.symm.trans hx
  exact (if_neg hn).trans (if_neg hwhole)

theorem corpusDeregister_eq (h : Served s.dev fn 0x0303) :
    let d := s.dev
    let c := leAt (d.mbxRequest fn) 1 1 % 16
    d.lehr.corpus? c = some x → d.lehr.isActive c = false →
    exec (.corpusDeregister fn) s = .next (s.to (((d.mbxJournaled fn 0x0303 fn).updLehr fun l =>
      { l with corpora := l.corpora.filter fun x => decide (x.num ≠ c), staged := l.staged.filter fun g => decide (g.corpus ≠ c) }).mbxRespond
        fn 0 [])) := by
  intro d c hx hactive
  refine congrArg (fun e => Host.Outcome.next (s.to e)) (Dev.mbxRun_done h rfl (fun e => e.updLehr fun l =>
      { l with corpora := l.corpora.filter fun x => decide (x.num ≠ c), staged := l.staged.filter fun g => decide (g.corpus ≠ c) })
    (fun _ => []) fun z => ?_)
  simp only [bits_zero]
  generalize hfound : Lehr.corpus? _ _ = found
  obtain rfl : found = some x := hfound.symm.trans hx
  exact (if_neg Bool.false_ne_true).trans (if_neg (Bool.eq_false_iff.mp hactive))

/-! ## The lehr -/

/-- LEHR_START's claim: the lehr's dies, with no query state of an earlier start. -/
def Dev.lehrClaims (d : Dev) (fn : Nat) (dies : BitVec 4) : Dev :=
  Dev.forEach (basesCores dies) (fun d c => d.slotLosesCore c) (Dev.forEach ((List.range 12).filter fun n => dies.getLsbD (dieBase n)) Dev.wakeDie
    (d.updLehr fun l => { l with starting := some fn, dies := dies, current := none, groups := [], copies := 0, reported := [] }))

theorem lehrStart_eq (h : Served s.dev fn 0x0304) :
    let d := s.dev
    let dies : BitVec 4 := BitVec.ofNat 4 (leAt (d.mbxRequest fn) 1 1)
    dies ≠ 0 → d.lehr.running = false → d.lehr.starting = none →
    (∀ f ∈ d.facetsThere, (d.facet f).quota.partition = true → ∀ c ∈ basesCores dies, d.coreOfFacet f c = false) → 128 ≤ d.hbmFree 0 →
    (∀ b ∈ [0, 1, 2, 3], d.storeUsed b + lehrStore dies b ≤ 2097152) →
    let e := (d.mbxJournaled fn 0x0304 fn).lehrClaims fn dies
    exec (.lehrStart fn) s = .next (s.to
      (if e.lehrFree then e.lehrTakes.mbxRespond fn 0 [] else (e.standSwitch (basesCores dies)).mbxAccept fn)) := by
  intro d dies hne hrun hstart hparts hroom hstore e
  have hheld : ¬ d.lehr.held = true := by simp [Lehr.held, hrun, hstart]
  have hpart : ¬ (d.facetsThere.any fun f => (d.facet f).quota.partition && (basesCores dies).any fun c => d.coreOfFacet f c) = true := by
    simpa using hparts
  have hfull : ¬ ([0, 1, 2, 3].any fun b => decide (2097152 < d.storeUsed b + lehrStore dies b)) = true := by
    simpa only [List.any_eq_true, decide_eq_true_eq, not_exists, not_and, Nat.not_lt] using hstore
  refine congrArg (fun e => Host.Outcome.next (s.to e)) (Dev.mbxRun_ite h rfl (fun e => (e.lehrClaims fn dies).lehrFree)
    (fun e => (e.lehrClaims fn dies).lehrTakes) (fun e => (e.lehrClaims fn dies).standSwitch (basesCores dies)) [] fun z => ?_)
  exact (if_neg hne).trans ((if_neg hheld).trans ((if_neg hpart).trans ((if_neg (Nat.not_lt.mpr hroom)).trans (if_neg hfull))))

theorem lehrStop_idle (h : Served s.dev fn 0x0305) (hrun : s.dev.lehr.running = false) :
    exec (.lehrStop fn) s = .next (s.to ((s.dev.mbxJournaled fn 0x0305 fn).mbxRespond fn 0 [])) := by
  refine congrArg (fun e => Host.Outcome.next (s.to e)) (Dev.mbxRun_done h rfl (fun e => e) (fun _ => []) fun z => ?_)
  exact if_pos (show (!s.dev.lehr.running) = true by rw [hrun]; rfl)

theorem lehrStop_empty (h : Served s.dev fn 0x0305) (hrun : s.dev.lehr.running = true) (hempty : ∀ r ∈ s.dev.lehr.riders, r.present = false) :
    exec (.lehrStop fn) s = .next (s.to ((s.dev.mbxJournaled fn 0x0305 fn).lehrEnds.mbxRespond fn 0 [])) := by
  have hnone : s.dev.lehr.riders.any Rider.present = false := by simpa using hempty
  have hwaits : s.dev.lehr.riders.filter Rider.isWaiting = [] := by
    refine List.filter_eq_nil_iff.mpr fun r hr hw => ?_
    have := hempty r hr
    rw [Rider.present, hw, Bool.or_true] at this
    exact Bool.false_ne_true this.symm
  have haboard : s.dev.lehr.riders.any Rider.isAboard = false := by
    refine List.any_eq_false.mpr fun r hr ha => ?_
    have := hempty r hr
    rw [Rider.present, ha, Bool.true_or] at this
    exact Bool.false_ne_true this.symm
  refine congrArg (fun e => Host.Outcome.next (s.to e)) (Dev.mbxRun_done h rfl (fun e => e.lehrEnds) (fun _ => []) fun z => ?_)
  refine (if_neg (not_not_true hrun)).trans ((if_neg ?_).trans ?_)
  · change ¬ (!bit _ 0 && s.dev.lehr.riders.any Rider.present) = true
    rw [hnone, Bool.and_false]
    exact Bool.false_ne_true
  · change (let e := Dev.forEach (s.dev.lehr.riders.filter Rider.isWaiting) (fun d r => d.endRider r 0x305 0) (s.dev.withJournal z)
      if e.lehr.riders.any Rider.isAboard then MbxResult.wait _ else .ok e.lehrEnds []) = _
    rw [hwaits]
    exact if_neg (Bool.eq_false_iff.mp haboard)

theorem lehrStatus_idle (h : Served s.dev fn 0x0306) (hcur : s.dev.lehr.current = none) :
    exec (.lehrStatus fn) s = .next (s.to (s.dev.mbxRespond fn 0
      (leBytes 8 1 ++ leBytes 8 s.dev.lehr.stateWord ++ leBytes 4 0 ++ leBytes 4 0 ++ leBytes 4 0 ++ leBytes 4 0))) := by
  refine congrArg (fun e => Host.Outcome.next (s.to e)) (Dev.mbxRun_read h rfl (e := s.dev) ?_)
  simp only [hcur, Option.getD_none, Option.isSome_none, Bool.false_eq_true, if_false]

/-- Settles O41. -/
theorem lehrCommands : Obligations.LehrCommands := by
  unfold Obligations.LehrCommands
  intro s fn
  refine ⟨fun m h => corpusRegister_eq h, fun x hx => ⟨fun h => corpusAppend_eq h hx, fun h => corpusRetire_eq h hx,
    fun h => corpusDeregister_eq h hx⟩, fun h => ?_, fun h => ⟨lehrStop_idle h, lehrStop_empty h⟩, lehrStatus_idle⟩
  intro dies hne hrun hstart hparts hroom hstore e e1 e2
  have heq := lehrStart_eq h hne hrun hstart hparts hroom hstore
  exact ⟨fun hfree => heq.trans (congrArg (fun e => Host.Outcome.next (s.to e)) (if_pos hfree)),
    fun hfree => heq.trans (congrArg (fun e => Host.Outcome.next (s.to e)) (if_neg (Bool.eq_false_iff.mp hfree)))⟩

end Sys2Proof.Machine
end

section
/-! The session and model commands of the mailbox (R268 to R276, R281). -/

namespace Sys2Proof.Machine

variable {s : State} {fn : Nat} {m : Model} {r : ModelRef} {x : Session}

/-! ## Sessions -/

theorem sessionOpen_eq (hm : s.dev.modelOf fn (leAt (s.dev.mbxRequest fn) 4 4) = some (m, r)) (h : Served s.dev fn 0x0100)
    (hquota : s.dev.openSessions fn < (s.dev.facet fn).quota.sessions) (hroom : s.dev.serving.sessions.length < 65536)
    (htable : s.dev.residentSessions < 4096 ∨ s.dev.spillVictim ≠ none) :
    let o := (s.dev.mbxJournaled fn 0x0100 fn).openSession fn m.num
      (max (leAt (s.dev.mbxRequest fn) 1 1 % 4) (s.dev.facet fn).quota.maxClass)
    exec (.sessionOpen fn) s = .next (s.to (o.2.mbxRespond fn 0 (leBytes 4 1 ++ leBytes 4 o.1))) := by
  let cls := max (leAt (s.dev.mbxRequest fn) 1 1 % 4) (s.dev.facet fn).quota.maxClass
  refine congrArg (fun e => Host.Outcome.next (s.to e)) (Dev.mbxRun_done h rfl (fun e => (e.openSession fn m.num cls).2)
    (fun e => leBytes 4 1 ++ leBytes 4 (e.openSession fn m.num cls).1) fun y => ?_)
  refine (if_neg ?_).trans ?_
  · rintro (hq | hr)
    · exact absurd hquota (Nat.not_lt.mpr hq)
    · exact absurd hroom (Nat.not_lt.mpr hr)
  · generalize hfound : Dev.modelOf _ _ _ = found
    obtain rfl : found = some (m, r) := hfound.symm.trans hm
    refine (if_neg ?_).trans ?_
    · rintro ⟨hfull, hno⟩
      exact htable.elim (Nat.not_lt.mpr hfull) fun hv => hv hno
    · simp only [bits_zero]
      rfl

theorem sessionClose_eq (hx : s.dev.sessionOf fn (leAt (s.dev.mbxRequest fn) 4 4) = some x) (h : Served s.dev fn 0x0101)
    (hclose : x.quiet = true ∨ (leAt (s.dev.mbxRequest fn) 1 1).testBit 0 = true) :
    let o := (s.dev.mbxJournaled fn 0x0101 fn).closeSession x.num (some fn)
    exec (.sessionClose fn) s = .next (s.to (if o.1 then o.2.mbxRespond fn 0 [] else o.2.mbxAccept fn)) := by
  refine congrArg (fun e => Host.Outcome.next (s.to e)) (Dev.mbxRun_ite h rfl (fun e => (e.closeSession x.num (some fn)).1)
    (fun e => (e.closeSession x.num (some fn)).2) (fun e => (e.closeSession x.num (some fn)).2) [] fun y => ?_)
  generalize hfound : Dev.sessionOf _ _ _ = found
  obtain rfl : found = some x := hfound.symm.trans hx
  refine (if_neg ?_).trans rfl
  intro hno
  simp only [Bool.and_eq_true, Bool.not_eq_true'] at hno
  rcases hclose with hq | hb
  · exact Bool.false_ne_true (hno.1.symm.trans hq)
  · exact Bool.false_ne_true (hno.2.symm.trans hb)

theorem sessionStatus_eq (hx : s.dev.sessionOf fn (leAt (s.dev.mbxRequest fn) 4 4) = some x) (h : Served s.dev fn 0x0102) :
    exec (.sessionStatus fn) s = .next (s.to (s.dev.mbxRespond fn 0 (leBytes 1 1 ++ leBytes 1 x.state ++ leBytes 1 x.pending ++
      leBytes 1 x.shortlists.length ++ leBytes 4 0 ++ leBytes 8 x.activity))) := by
  refine congrArg (fun e => Host.Outcome.next (s.to e)) (Dev.mbxRun_read h rfl ?_)
  simp only [hx]

/-! ## Models -/

theorem modelDeregister_eq (hm : s.dev.modelOf fn (leAt (s.dev.mbxRequest fn) 4 4) = some (m, r)) (h : Served s.dev fn 0x0201)
    (hno : ∀ x ∈ s.dev.serving.sessions, x.facet = fn → x.model ≠ m.num) :
    exec (.modelDeregister fn) s = .next (s.to (((s.dev.mbxJournaled fn 0x0201 fn).dropRef m.num fn r.handle).mbxRespond fn 0 [])) := by
  refine congrArg (fun e => Host.Outcome.next (s.to e)) (Dev.mbxRun_done h rfl (fun e => e.dropRef m.num fn r.handle) (fun _ => []) fun y => ?_)
  generalize hfound : Dev.modelOf _ _ _ = found
  obtain rfl : found = some (m, r) := hfound.symm.trans hm
  refine if_neg fun hany => ?_
  obtain ⟨x, hx, hb⟩ := List.any_eq_true.mp hany
  simp only [Bool.and_eq_true, decide_eq_true_eq] at hb
  exact hno x hx hb.1 hb.2

/-- A facet's references are marked pinned, in its order of pins (R281). -/
def Model.pin (m : Model) (fn n : Nat) : Model :=
  { m with refs := updAll (fun r => decide (r.facet = fn)) (fun r => { r with pinned := true, pinOrder := n }) m.refs }

/-- The block after MODEL_PIN's own marks (R281). -/
def Dev.pinned (d : Dev) (fn : Nat) (m : Model) (r : ModelRef) : Dev :=
  if r.pinned then d else
    (d.updServing fun v => { v with nextOrder := v.nextOrder + 1 }).updModel m.num fun m => m.pin fn d.serving.nextOrder

theorem isHot_pinned {d : Dev} (n : Nat) : (d.pinned fn m r).isHot n = d.isHot n := by
  unfold Dev.pinned
  split <;> rfl

/-- MODEL_PIN completes where the model is hot, and waits for its slot where not. -/
theorem modelPin_eq (hm : s.dev.modelOf fn (leAt (s.dev.mbxRequest fn) 4 4) = some (m, r)) (h : Served s.dev fn 0x0202) (hlost : m.lost = false)
    (hfits : r.pinned = true ∨ s.dev.pinFits fn m = true) :
    let e := (s.dev.mbxJournaled fn 0x0202 fn).pinned fn m r
    (s.dev.isHot m.num = true → exec (.modelPin fn) s = .next (s.to (e.mbxRespond fn 0 []))) ∧
    (s.dev.isHot m.num = false → exec (.modelPin fn) s = .next (s.to ((e.askSlot m.num).mbxAccept fn))) := by
  have heq : exec (.modelPin fn) s = .next (s.to (let e := s.dev.mbxJournaled fn 0x0202 fn
      if e.isHot m.num then (e.pinned fn m r).mbxRespond fn 0 [] else ((e.pinned fn m r).askSlot m.num).mbxAccept fn)) := by
    refine congrArg (fun e => Host.Outcome.next (s.to e)) (Dev.mbxRun_ite h rfl (fun e => e.isHot m.num) (fun e => e.pinned fn m r)
      (fun e => (e.pinned fn m r).askSlot m.num) [] fun y => ?_)
    generalize hfound : Dev.modelOf _ _ _ = found
    obtain rfl : found = some (m, r) := hfound.symm.trans hm
    refine (if_neg (Bool.eq_false_iff.mp hlost)).trans ((if_neg fun hno => ?_).trans ?_)
    · simp only [Bool.and_eq_true, Bool.not_eq_true'] at hno
      rcases hfits with hp | hf
      · exact Bool.false_ne_true (hno.1.symm.trans hp)
      · exact Bool.false_ne_true (hno.2.symm.trans hf)
    · rw [← isHot_pinned (fn := fn) (m := m) (r := r)]
      rfl
  have hsame : (s.dev.mbxJournaled fn 0x0202 fn).isHot m.num = s.dev.isHot m.num := by
    rw [h.journals]
    rfl
  rw [← hsame]
  exact ⟨fun hhot => heq.trans (congrArg (fun e => Host.Outcome.next (s.to e)) (if_pos hhot)),
    fun hcold => heq.trans (congrArg (fun e => Host.Outcome.next (s.to e)) (if_neg (Bool.eq_false_iff.mp hcold)))⟩

theorem modelUnpin_eq (hm : s.dev.modelOf fn (leAt (s.dev.mbxRequest fn) 4 4) = some (m, r)) (h : Served s.dev fn 0x0203) :
    exec (.modelUnpin fn) s = .next (s.to (((s.dev.mbxJournaled fn 0x0203 fn).updModel m.num fun m =>
      { m with refs := updAll (fun r => decide (r.facet = fn)) (fun r => { r with pinned := false }) m.refs }).mbxRespond fn 0 [])) := by
  refine congrArg (fun e => Host.Outcome.next (s.to e)) (Dev.mbxRun_done h rfl (fun e => e.updModel m.num fun m =>
    { m with refs := updAll (fun r => decide (r.facet = fn)) (fun r => { r with pinned := false }) m.refs }) (fun _ => []) fun y => ?_)
  generalize hfound : Dev.modelOf _ _ _ = found
  obtain rfl : found = some (m, r) := hfound.symm.trans hm
  rfl

theorem boolNat_eq_ite (b : Bool) : boolNat b = if b then 1 else 0 := by
  cases b <;> rfl

theorem modelStatus_eq (hm : s.dev.modelOf fn (leAt (s.dev.mbxRequest fn) 4 4) = some (m, r)) (h : Served s.dev fn 0x0204) :
    exec (.modelStatus fn) s = .next (s.to (s.dev.mbxRespond fn 0 (leBytes 1 1 ++
      leBytes 1 (if m.lost then 3 else if s.dev.isHot m.num then 2 else if (s.dev.warmOf m.digest).isSome then 1 else 0) ++
      leBytes 2 (match s.dev.slotOf m.num with
        | some x => if x.num < 16 then x.num else 255
        | none => 255) ++ leBytes 4 m.refs.length))) := by
  refine congrArg (fun e => Host.Outcome.next (s.to e)) (Dev.mbxRun_read h rfl ?_)
  simp only [hm, boolNat_eq_ite] <;> rfl

/-! ## MODEL_REGISTER -/

/-- What MODEL_REGISTER answers once its fields are in range (R276). -/
def Dev.registersModel (d : Dev) (fn : Nat) (p : List Byte) : MbxResult :=
  let weights := leAt p 48 8
  let digest := BitVec.ofNat 256 (leAt p 16 32)
  let cores := (weights + slotBytes - 1) / slotBytes
  match d.readProgram fn (leAt p 8 8) with
  | (none, _) => .refuse 0x3 []
  | (some program, d) =>
    let fresh := decide (d.sharedEntry fn digest program = none)
    if d.matrixCoresLeft < cores then .refuse 0x405 []
    else if fresh && decide (256 ≤ d.serving.models.length) then .refuse 0x401 []
    else if d.hbmFree fn < d.registerCharge fn p then .refuse 0x650 []
    else
      match d.findImage digest weights ((List.range (bits (leAt p 1 1) 0 2)).map (sourceAt fn p)) 1 with
      | (none, _) => .refuse 0x402 []
      | (some (image, _), d) =>
        if fresh && !d.partitionHolds fn cores then .refuse 0x408 []
        else match d.registerModel fn p program image with
          | none => .refuse 0x654 []
          | some ((handle, shared, num), d) =>
            .ok (d.loadsNow fn num) (leBytes 1 1 ++ leBytes 3 (boolNat shared) ++ leBytes 4 handle.toNat ++ leBytes 8 cores)

/-- The program and the image that a registration reads, its checks, and what it leaves. -/
def Dev.RegisterReady (d : Dev) (fn : Nat) (p program image : List Byte) (o : (BitVec 32 × Bool × Nat) × Dev) : Prop :=
  let cores := (leAt p 48 8 + slotBytes - 1) / slotBytes
  let digest := BitVec.ofNat 256 (leAt p 16 32)
  ∃ y i z, d.readProgram fn (leAt p 8 8) = (some program, y) ∧ cores ≤ y.matrixCoresLeft ∧
    (y.serving.models.length < 256 ∨ y.sharedEntry fn digest program ≠ none) ∧ y.registerCharge fn p ≤ y.hbmFree fn ∧
    Dev.findImage digest (leAt p 48 8) ((List.range (leAt p 1 1 % 4)).map (sourceAt fn p)) 1 y = (some (image, i), z) ∧
    (y.sharedEntry fn digest program ≠ none ∨ z.partitionHolds fn cores = true) ∧ z.registerModel fn p program image = some o

theorem registersModel_of_ready {d : Dev} {p program image : List Byte} {o : (BitVec 32 × Bool × Nat) × Dev} (h : d.RegisterReady fn p program image o) :
    d.registersModel fn p = .ok (o.2.loadsNow fn o.1.2.2) (leBytes 1 1 ++ leBytes 3 (if o.1.2.1 then 1 else 0) ++ leBytes 4 o.1.1.toNat ++
      leBytes 8 ((leAt p 48 8 + slotBytes - 1) / slotBytes)) := by
  obtain ⟨y, i, z, hprogram, hcores, hentries, hcharge, himage, hpart, hdone⟩ := h
  obtain ⟨⟨handle, shared, num⟩, e⟩ := o
  have hroom : ¬ (decide (y.sharedEntry fn (BitVec.ofNat 256 (leAt p 16 32)) program = none) && decide (256 ≤ y.serving.models.length)) = true := by
    intro hno
    simp only [Bool.and_eq_true, decide_eq_true_eq] at hno
    exact hentries.elim (Nat.not_lt.mpr hno.2) fun hs => hs hno.1
  have hfree : ¬ (decide (y.sharedEntry fn (BitVec.ofNat 256 (leAt p 16 32)) program = none) &&
      !z.partitionHolds fn ((leAt p 48 8 + slotBytes - 1) / slotBytes)) = true := by
    intro hno
    simp only [Bool.and_eq_true, decide_eq_true_eq, Bool.not_eq_true'] at hno
    exact hpart.elim (fun hs => hs hno.1) fun hp => Bool.false_ne_true (hno.2.symm.trans hp)
  simp only [Dev.registersModel, bits_zero, Nat.reducePow, hprogram, if_neg (Nat.not_lt.mpr hcores), if_neg hroom, if_neg (Nat.not_lt.mpr hcharge), himage,
    if_neg hfree, hdone, boolNat_eq_ite]

theorem modelRegister_eq (h : Served s.dev fn 0x0200) (hok : registerFieldsOk (s.dev.mbxRequest fn) = true) (hstack : s.dev.stackFailed = false)
    {program image program' image' : List Byte} {o o' : (BitVec 32 × Bool × Nat) × Dev}
    (h' : s.dev.RegisterReady fn (s.dev.mbxRequest fn) program' image' o')
    (ho : (s.dev.mbxJournaled fn 0x0200 fn).RegisterReady fn (s.dev.mbxRequest fn) program image o) :
    exec (.modelRegister fn) s = .next (s.to ((o.2.loadsNow fn o.1.2.2).mbxRespond fn 0
      (leBytes 1 1 ++ leBytes 3 (if o.1.2.1 then 1 else 0) ++ leBytes 4 o.1.1.toNat ++
        leBytes 8 ((leAt (s.dev.mbxRequest fn) 48 8 + slotBytes - 1) / slotBytes)))) := by
  refine congrArg (fun e => Host.Outcome.next (s.to e)) (Dev.mbxRun_rule h rfl (fun e => e.registersModel fn (s.dev.mbxRequest fn)) (fun z => ?_) ?_
    (registersModel_of_ready ho))
  · exact (if_neg (not_not_true hok)).trans ((if_neg (Bool.eq_false_iff.mp hstack)).trans rfl)
  · rw [registersModel_of_ready h']
    trivial

/-- Settles O43: each command by its own rule on the journaled block. -/
theorem servingCommands : Obligations.ServingCommands := by
  unfold Obligations.ServingCommands
  intro s fn d p log accept
  refine ⟨fun m r hm => ⟨fun h hquota hroom htable => sessionOpen_eq hm h hquota hroom htable, fun h hno => modelDeregister_eq hm h hno,
      fun h hlost hp => ?_, fun h hlost hp hfits => ?_, fun h => modelUnpin_eq hm h, fun h => modelStatus_eq hm h⟩,
    fun x hx => ⟨fun h hclose => sessionClose_eq hx h hclose, fun h => sessionStatus_eq hx h⟩, fun h hok hstack => ?_⟩
  · have heq := modelPin_eq hm h hlost (.inl hp)
    rw [Dev.pinned, if_pos hp] at heq
    exact heq
  · have heq := modelPin_eq hm h hlost (.inr hfits)
    have hsame : (s.dev.mbxJournaled fn 0x0202 fn).serving = s.dev.serving := by
      rw [h.journals]
      rfl
    rw [Dev.pinned, if_neg (Bool.eq_false_iff.mp hp), hsame] at heq
    exact heq
  · rintro cores digest ready ⟨program', image', o', h'⟩ program image o ho
    exact modelRegister_eq h hok hstack h' ho

end Sys2Proof.Machine
end

section
/-! Serving at work: restores, slots and their loads, GENERATE, and the steps of a batch (R273, R277 to R287). -/

namespace Sys2Proof.Machine

variable {d e : Dev} {m : Model} {x : Session} {num : Nat} {y : Slot}

/-! ## Sessions that come back -/

theorem sessionRestore_resident {n : Nat} {rest : List Nat} (hq : d.serving.restoreQ = n :: rest) (hroom : d.residentSessions < 4096) :
    d.sessionRestore =
      ((d.updServing fun v => { v with restoreQ := rest }).updSession n fun x => { x with spilled := false }).count 0x605020 1 := by
  simp only [Dev.sessionRestore, hq, if_pos hroom]

theorem sessionRestore_spills {n : Nat} {rest : List Nat} {v : Session} (hq : d.serving.restoreQ = n :: rest) (hfull : 4096 ≤ d.residentSessions)
    (hv : d.spillVictim = some v) :
    d.sessionRestore =
      (((d.spill v.num).updServing fun v => { v with restoreQ := rest }).updSession n fun x => { x with spilled := false }).count 0x605020 1 := by
  simp only [Dev.sessionRestore, hq, if_neg (Nat.not_lt.mpr hfull), hv]

/-! ## Slots -/

theorem slotAcquire_takes {model num : Nat} {a : SlotAsk} {cores : List Nat} (hm : d.model? model = some m)
    (ha : (d.serving.slotQ.find? fun a => decide (a.model = model)) = some a) (hserves : d.gafferServes = true)
    (hplace : d.mayPlace (d.loadOf m a) false [] = true) (hnum : (Dev.evictUntil m 17 d).slotNumFor m = some num)
    (hcores : (Dev.evictUntil m 17 d).slotCores m.owner m.cores = some cores) :
    let e := Dev.forEach cores Dev.takeSlotCore (Dev.evictUntil m 17 d)
    d.slotAcquire model = (Dev.updServing (Dev.dropAsk { e with nextAccept := e.nextAccept + 1 } model) fun v =>
      { v with slots := v.slots ++ [⟨num, model, cores, false, e.nextAccept, 0, false, []⟩] }).passOver false (d.loadOf m a).accepted := by
  have hgo : (!d.gafferServes || !d.mayPlace (d.loadOf m a) false []) ≠ true := by
    rw [hserves, hplace]
    exact Bool.false_ne_true
  simp only [Dev.slotAcquire, hm, ha, if_neg hgo, hnum, hcores]

/-- A slot whose weights stand whole and whose cores are all awake (R279). -/
theorem slotLoaded_not_yet (hloaded : y.loaded = false) (hawake : ∀ c ∈ y.cores, (d.core c).gated = false) :
    ((y.loaded && y.reload.isEmpty) || y.cores.any fun c => (d.core c).gated) ≠ true := by
  intro hno
  simp only [hloaded, Bool.false_and, Bool.false_or] at hno
  obtain ⟨c, hc, hg⟩ := List.any_eq_true.mp hno
  exact Bool.false_ne_true ((hawake c hc).symm.trans hg)

/-- The gaffer pins the warm copy of a hot slot's model (R134). -/
def Dev.pinHot (d : Dev) (m : Model) : Dev :=
  match d.warmOf m.digest with
  | some w => d.pinWarm w 1
  | none => d

theorem slotLoaded_loads {image : List Byte} {i : Nat} (hs : d.slot? num = some y) (hm : d.model? y.model = some m) (hloaded : y.loaded = false)
    (hawake : ∀ c ∈ y.cores, (d.core c).gated = false) (hw : d.weights m = (some (image, i), e)) (hnum : num < 16) :
    d.slotLoaded num =
      let e := ((e.writeWeights y.cores y.cores image).updSlot num fun x => { x with loaded := true, reload := [] }).count 0x605028 1
      let e := e.pinHot m
      let kept := { e.cache with retain := NSet.addAll e.cache.retain y.cores }
      Dev.finishPins { e with cache := kept } m.num 0 := by
  have hpin : (!false && decide (num < 16)) = true := by simp only [hnum, decide_true, Bool.not_false, Bool.and_self]
  unfold Dev.slotLoaded
  rw [hs]
  simp only [hm]
  rw [if_neg (slotLoaded_not_yet hloaded hawake), hw]
  simp only [hloaded, Bool.false_eq_true, if_false, if_pos hpin, if_pos hnum]
  rfl

theorem slotLoaded_fails (hs : d.slot? num = some y) (hm : d.model? y.model = some m) (hloaded : y.loaded = false)
    (hawake : ∀ c ∈ y.cores, (d.core c).gated = false) (hw : d.weights m = (none, e)) :
    d.slotLoaded num = ((e.endSequences m.num 3 0x406).releaseSlot num).finishPins m.num 0x406 := by
  unfold Dev.slotLoaded
  rw [hs]
  simp only [hm]
  rw [if_neg (slotLoaded_not_yet hloaded hawake), hw]

/-! ## GENERATE -/

theorem startGenerate_runs {f : Nat} {c : Cmd} {bs : List Byte} (hbs : c.copied = some bs) (hver : leAt bs 0 1 = 1)
    (hx : d.sessionOf f (leAt bs 4 4) = some x) (hm : d.model? x.model = some m) (hopen : x.closing = none)
    (hok : sequenceOk bs (((m.ref? f).map ModelRef.maxContext).getD 0) = true) (hpending : x.pending < 4) (hlost : m.lost = false)
    (hquota : pagesOf ((sequenceOf f c d.nextAccept bs).pages * 64 * m.kvFor f) ≤ d.hbmQuota f) :
    startGenerate d f c = .running ((((Dev.updSession { d with nextAccept := d.nextAccept + 1 } x.num fun y =>
      { y with seqs := y.seqs ++ [sequenceOf f c d.nextAccept bs] }).sessionActive x.num).queueRestore x).askSlot m.num) := by
  have hclosing : x.closing.isSome ≠ true := by
    rw [hopen]
    exact Bool.false_ne_true
  simp only [startGenerate, hbs, hver, ne_eq, not_true_eq_false, if_false, hx, hm, if_neg hclosing, if_neg (not_not_true hok),
    if_neg (Nat.not_le.mpr hpending), if_neg (Bool.eq_false_iff.mp hlost), if_neg (Nat.not_lt.mpr hquota)]

/-! ## Steps -/

/-- What STEP_BOUNDARY does once the running step has ended: sequences leave and join, and the next step is launched where there is work (R285). -/
def Dev.nextStep (d : Dev) (num : Nat) (y : Slot) (m : Model) : Dev :=
  let e := d.leaveStep m.num
  let e := Dev.forEach (e.joiners m.num) (fun d v => d.joinOne m v.1 v.2) e
  e.updSlot num fun z => { z with stepping := (y.reload.isEmpty && y.cores.all fun c => !(e.core c).gated) && !(e.batch m.num).isEmpty }

theorem steps_ok (hloaded : y.loaded = true) (hdamaged : m.damaged = false) : (!y.loaded || m.damaged) ≠ true := by
  rw [hloaded, hdamaged]
  exact Bool.false_ne_true

theorem stepBoundary_idle (hs : d.slot? num = some y) (hm : d.model? y.model = some m) (hloaded : y.loaded = true) (hdamaged : m.damaged = false)
    (hidle : y.stepping = false) : d.stepBoundary num = d.nextStep num y m := by
  unfold Dev.stepBoundary
  rw [hs]
  simp only [hm]
  rw [if_neg (steps_ok hloaded hdamaged), hidle]
  rfl

theorem stepBoundary_ends (hs : d.slot? num = some y) (hm : d.model? y.model = some m) (hloaded : y.loaded = true) (hdamaged : m.damaged = false)
    (hruns : y.stepping = true) (hdie : (NSet.addAll [] (y.cores.map coreDie)).length < 2) :
    d.stepBoundary num =
      let ran := (d.joinedInOrder m.num).map fun e => e.1.num
      let e := Dev.forEach ran Dev.sessionActive ((d.runStep m).count 0x605008 1)
      (e.updSlot num fun z => { z with lastStep := e.serving.activity }).nextStep num y m := by
  unfold Dev.stepBoundary
  rw [hs]
  simp only [hm]
  rw [if_neg (steps_ok hloaded hdamaged), if_neg (not_not_true hruns), if_neg (Nat.not_le.mpr hdie)]
  rfl

/-- Settles O44. -/
theorem servingWork : Obligations.ServingWork := by
  unfold Obligations.ServingWork
  intro s d
  have run {x y : Dev} (h : x = y) : (Host.Outcome.next (s.to x) : Out) = .next (s.to y) := congrArg (fun e => Host.Outcome.next (s.to e)) h
  refine ⟨fun n rest hq hroom => run (sessionRestore_resident hq hroom), fun n rest v hq hfull hv => run (sessionRestore_spills hq hfull hv),
    fun model m a hm ha hserves hplace num cores hnum hcores => run (slotAcquire_takes hm ha hserves hplace hnum hcores),
    fun num x m hs hm hloaded hawake => ⟨fun image i e hw hnum => run (slotLoaded_loads hs hm hloaded hawake hw hnum),
      fun e hw => run (slotLoaded_fails hs hm hloaded hawake hw)⟩,
    fun f w c h bs x m hbs hver hx hm hopen hok hpending hlost hquota => run (takeRecord_running h rfl
      (startGenerate_runs (c := { c with state := .running }) hbs hver hx hm hopen hok hpending hlost hquota)),
    fun num x m hs hm hloaded hdamaged hidle => run (stepBoundary_idle hs hm hloaded hdamaged hidle),
    fun num x m hs hm hloaded hdamaged hruns hdie => run (stepBoundary_ends hs hm hloaded hdamaged hruns hdie)⟩

end Sys2Proof.Machine
end

section
/-! The mailbox's control register and its responses (R304 to R307). -/

namespace Sys2Proof.Machine

variable {s : State} {d : Dev} {fn : Nat} {v : BitVec 32}

/-- The mailbox with the fields of MBX_CTRL that every write sets. -/
def Mailbox.withCtrl (m : Mailbox) (v : BitVec 32) : Mailbox := { m with irqEn := v.getLsbD 1, vector := v.extractLsb' 2 5 }

/-- The block with another mailbox of a function. -/
def Dev.putMailbox (d : Dev) (fn : Nat) (n : Mailbox) : Dev := d.updFacet fn fun x => { x with mailbox := n }

@[simp] theorem mailbox_putMailbox (n : Mailbox) : ((d.putMailbox fn n).facet fn).mailbox = n := by
  rw [Dev.putMailbox, Dev.facet_updFacet]

theorem writeMbxCtrl_idle (h : v.getLsbD 0 = false) :
    d.writeMbxCtrl fn v = d.putMailbox fn ((d.facet fn).mailbox.withCtrl v) := by
  simp only [Dev.writeMbxCtrl, h, Bool.not_false, if_true, Bool.false_eq_true, if_false]
  rfl

theorem writeMbxCtrl_busy (h : v.getLsbD 0 = true) (hbusy : (d.facet fn).mailbox.busy = true) :
    d.writeMbxCtrl fn v = (d.putMailbox fn { (d.facet fn).mailbox.withCtrl v with dropped := true }).mbxSettle fn := by
  unfold Dev.writeMbxCtrl Dev.updFacet
  beta_reduce
  simp only [h, Bool.not_true, Bool.false_eq_true, if_false, if_true]
  rw [if_pos hbusy]
  rfl

theorem writeMbxCtrl_go (h : v.getLsbD 0 = true) (hbusy : (d.facet fn).mailbox.busy = false) :
    d.writeMbxCtrl fn v = (d.putMailbox fn { (d.facet fn).mailbox.withCtrl v with go := true, busy := true }).mbxSettle fn := by
  unfold Dev.writeMbxCtrl Dev.updFacet
  beta_reduce
  simp only [h, Bool.not_true, Bool.false_eq_true, if_false, if_true]
  rw [if_neg (Bool.eq_false_iff.mp hbusy)]
  rfl

/-- The checks of R307 read of a mailbox its buffer alone. -/
theorem mbxCheck_putMailbox {n : Mailbox} (h : n.buf = (d.facet fn).mailbox.buf) : (d.putMailbox fn n).mbxCheck fn = d.mbxCheck fn := by
  unfold Dev.mbxCheck
  simp only [Dev.putMailbox, Dev.facet_updFacet, Mailbox.command, Mailbox.version, Mailbox.length, Mailbox.payload, h]
  rfl

theorem mbxSettle_accepted (h : (d.facet fn).mailbox.accepted = true) : d.mbxSettle fn = d := by
  simp only [Dev.mbxSettle, h, Bool.or_true, Bool.true_or, if_true]

theorem mbxSettle_taken (hgo : (d.facet fn).mailbox.go = true) (hwaits : (d.facet fn).mailbox.accepted = false) (hstep : d.boot.step = 9)
    (hon : d.power.pkg = 0) (hfatal : d.errors.fatal = false) :
    (d.mbxCheck fn = none → d.mbxSettle fn = d) ∧ ∀ st, d.mbxCheck fn = some st → d.mbxSettle fn = d.mbxRefuse fn st [] := by
  refine ⟨fun hcheck => ?_, fun st hcheck => ?_⟩ <;>
  simp only [Dev.mbxSettle, hgo, hwaits, hstep, hon, hfatal, hcheck, Bool.not_true, Bool.or_self, ne_eq, not_true_eq_false, decide_false,
    Bool.false_eq_true, if_false]

theorem step_of_barOpen (h : d.barOpen fn = true) : d.boot.step = 9 := by
  simp only [Dev.barOpen, Bool.and_eq_true, decide_eq_true_eq] at h
  exact h.1.1.1.2

theorem exec_mbxGo (h : s.dev.barOpen fn = true) : exec (.mbxGo fn v) s = .next (s.to (s.dev.writeMbxCtrl fn v)) :=
  congrArg (fun e => Host.Outcome.next (s.to e)) (if_pos h)

/-! ## Responses -/

/-- An interrupt changes no mailbox. -/
theorem mailbox_msix (f vector : Nat) : ((d.msix f vector).facet fn).mailbox = (d.facet fn).mailbox := by
  unfold Dev.msix
  split
  · rfl
  · split
    · by_cases h : fn = f
      · subst h
        rw [Dev.facet_updFacet]
      · rw [Dev.facet_updFacet_ne _ h]
    · rfl

/-- The response's image in the buffer (R305). -/
def Mailbox.response (m : Mailbox) (st : Code) (payload : List Byte) : Mem :=
  Mem.write [] 0 ([1, 0] ++ Mem.read m.buf 2 2 ++ leBytes 2 payload.length ++ leBytes 2 st.toNat ++ Mem.read m.buf 8 8 ++ payload)

theorem mailbox_mbxRespond {st : Code} {p : List Byte} (h : (d.facet fn).mailbox.discard = false) :
    ((d.mbxRespond fn st p).facet fn).mailbox = { (d.facet fn).mailbox with
      buf := (d.facet fn).mailbox.response st p, status := st, done := true, go := false, busy := false, accepted := false } := by
  change ((d.mbxAnswer fn st p).facet fn).mailbox = _
  unfold Dev.mbxAnswer
  rw [if_neg (Bool.eq_false_iff.mp h)]
  split
  · rw [mailbox_msix, Dev.facet_updFacet]
    rfl
  · rw [Dev.facet_updFacet]
    rfl

/-- A part of a written list reads back from its place. -/
theorem Mem.read_write_middle (m : Mem) (as bs cs : List Byte) : Mem.read (Mem.write m 0 (as ++ bs ++ cs)) as.length bs.length = bs := by
  refine List.ext_getElem (by simp [Mem.read]) fun i hi _ => ?_
  have hi' : i < bs.length := by simpa [Mem.read] using hi
  have hin : as.length + i < 0 + (as ++ bs ++ cs).length := by
    simp only [List.length_append]
    omega
  simp only [Mem.read, List.getElem_map, List.getElem_range, Mem.get_write, Nat.zero_le, hin, and_self, if_true, Nat.sub_zero]
  rw [List.getD_eq_getElem?_getD, List.append_assoc, List.getElem?_append_right (Nat.le_add_right _ _), Nat.add_sub_cancel_left,
    List.getElem?_append_left hi', List.getElem?_eq_getElem hi', Option.getD_some]

theorem length_memRead (m : Mem) (a n : Nat) : (Mem.read m a n).length = n := by
  simp [Mem.read]

theorem response_status (m : Mailbox) (st : Code) (p : List Byte) : Mem.read (m.response st p) 6 2 = leBytes 2 st.toNat := by
  have h := Mem.read_write_middle [] ([1, 0] ++ Mem.read m.buf 2 2 ++ leBytes 2 p.length) (leBytes 2 st.toNat) (Mem.read m.buf 8 8 ++ p)
  simp only [List.length_append, length_memRead, length_leBytes, List.length_cons, List.length_nil] at h
  simp only [Mailbox.response, List.append_assoc] at h ⊢
  exact h

theorem response_tag (m : Mailbox) (st : Code) (p : List Byte) : Mem.read (m.response st p) 8 8 = Mem.read m.buf 8 8 := by
  have h := Mem.read_write_middle [] ([1, 0] ++ Mem.read m.buf 2 2 ++ leBytes 2 p.length ++ leBytes 2 st.toNat) (Mem.read m.buf 8 8) p
  simp only [List.length_append, length_memRead, length_leBytes, List.length_cons, List.length_nil] at h
  exact h

theorem response_payload (m : Mailbox) (st : Code) (p : List Byte) : Mem.read (m.response st p) 16 p.length = p := by
  have h := Mem.read_write_middle [] ([1, 0] ++ Mem.read m.buf 2 2 ++ leBytes 2 p.length ++ leBytes 2 st.toNat ++ Mem.read m.buf 8 8) p []
  simp only [List.length_append, length_memRead, length_leBytes, List.length_cons, List.length_nil, List.append_nil] at h
  exact h

/-- Settles O45. -/
theorem mailboxSubmission : Obligations.MailboxSubmission := by
  unfold Obligations.MailboxSubmission
  intro s fn v d out m set put
  refine ⟨fun hopen => ⟨fun h => ?_, fun h hbusy haccepted => ?_, fun h hbusy haccepted hon hfatal => ?_⟩, fun st p hd => ?_⟩
  · exact (exec_mbxGo hopen).trans (congrArg out (writeMbxCtrl_idle h))
  · refine (exec_mbxGo hopen).trans (congrArg out ((writeMbxCtrl_busy h hbusy).trans (mbxSettle_accepted ?_)))
    rw [mailbox_putMailbox]
    exact haccepted
  · have heq : exec (.mbxGo fn v) s = out ((put { set with go := true, busy := true }).mbxSettle fn) :=
      (exec_mbxGo hopen).trans (congrArg out (writeMbxCtrl_go h hbusy))
    have hcheck : (put { set with go := true, busy := true }).mbxCheck fn = d.mbxCheck fn := mbxCheck_putMailbox rfl
    have hgo : ((put { set with go := true, busy := true }).facet fn).mailbox.go = true := congrArg Mailbox.go (mailbox_putMailbox _)
    have hwaits : ((put { set with go := true, busy := true }).facet fn).mailbox.accepted = false :=
      (congrArg Mailbox.accepted (mailbox_putMailbox _)).trans haccepted
    obtain ⟨hnone, hsome⟩ := mbxSettle_taken hgo hwaits (step_of_barOpen hopen) hon hfatal
    exact ⟨fun h => heq.trans (congrArg out (hnone (hcheck.trans h))), fun st h => heq.trans (congrArg out (hsome st (hcheck.trans h)))⟩
  · intro r
    have hr : r = { m with buf := m.response st p, status := st, done := true, go := false, busy := false, accepted := false } :=
      mailbox_mbxRespond hd
    rw [hr]
    exact ⟨rfl, rfl, rfl, rfl, rfl, response_status m st p, response_tag m st p, response_payload m st p⟩

end Sys2Proof.Machine
end

section
/-! What posted writes, interrupts and glints leave of a facet and of the host link (R316 to R321, R382). -/

namespace Sys2Proof.Machine

variable {d e x : Dev} {f : Nat}

/-- A facet after posted writes: its rings, its dirty log, its pending interrupts and its mark of a lost glint may differ. -/
def Facet.Posted (x y : Facet) : Prop := y = { x with rings := y.rings, log := y.log, pba := y.pba, glintLost := y.glintLost }

theorem Facet.Posted.refl (x : Facet) : x.Posted x := rfl

theorem Facet.Posted.trans {x y z : Facet} (h : x.Posted y) (h' : y.Posted z) : x.Posted z := by
  unfold Facet.Posted at *
  rw [h', h]

/-- The host link after posted writes: host memory may differ. -/
def HostLink.Posted (x y : HostLink) : Prop := y = { x with mem := y.mem, memPoison := y.memPoison }

theorem HostLink.Posted.refl (x : HostLink) : x.Posted x := rfl

theorem HostLink.Posted.trans {x y z : HostLink} (h : x.Posted y) (h' : y.Posted z) : x.Posted z := by
  unfold HostLink.Posted at *
  rw [h', h]

/-- Posted writes, interrupts, glints and counts, and nothing else. -/
structure Dev.Glints (d e : Dev) : Prop where
  posts : d.Posts e
  facet (f : Nat) : (d.facet f).Posted (e.facet f)
  host : d.host.Posted e.host

theorem Dev.Glints.refl (d : Dev) : d.Glints d := ⟨.refl d, fun _ => .refl _, .refl _⟩

theorem Dev.Glints.trans (h : d.Glints e) (h' : e.Glints x) : d.Glints x :=
  ⟨h.posts.trans h'.posts, fun f => (h.facet f).trans (h'.facet f), h.host.trans h'.host⟩

/-- A change of facets alone, where each changed facet is as after posted writes. -/
theorem Dev.glints_updFacet (d : Dev) (f : Nat) {g : Facet → Facet} (h : (d.facet f).Posted (g (d.facet f))) : d.Glints (d.updFacet f g) := by
  refine ⟨Dev.posts_updFacet d f g, fun n => ?_, .refl _⟩
  by_cases hn : n = f
  · subst hn
    rw [Dev.facet_updFacet]
    exact h
  · rw [Dev.facet_updFacet_ne _ hn]
    exact .refl _

theorem Dev.glints_updHost (d : Dev) {g : HostLink → HostLink} (h : d.host.Posted (g d.host)) : d.Glints (d.updHost g) :=
  ⟨rfl, fun _ => .refl _, h⟩

theorem Dev.glints_count (d : Dev) (off n : Nat) : d.Glints (d.count off n) := ⟨rfl, fun _ => .refl _, .refl _⟩

theorem Dev.glints_countF (d : Dev) (f off n : Nat) : d.Glints (d.countF f off n) := ⟨rfl, fun _ => .refl _, .refl _⟩

theorem Dev.glints_send (d : Dev) (m : Sent) : d.Glints (d.send m) := ⟨rfl, fun _ => .refl _, .refl _⟩

theorem Dev.glints_forEach {α : Type} (l : List α) (g : Dev → α → Dev) (h : ∀ e a, Dev.Glints e (g e a)) (d : Dev) :
    d.Glints (Dev.forEach l g d) := by
  induction l generalizing d with
  | nil => exact .refl d
  | cons a l ih => exact (h d a).trans (ih (g d a))

theorem Dev.glints_logDirty (d : Dev) (f bus n : Nat) : d.Glints (d.logDirty f bus n) := by
  unfold Dev.logDirty
  refine Dev.glints_forEach _ _ (fun e p => ?_) d
  dsimp only
  split
  · exact .refl e
  · exact (Dev.glints_updFacet e f (by exact rfl)).trans (Dev.glints_updHost _ rfl)

theorem Dev.glints_hostWrite (d : Dev) (f bus : Nat) (bs : List Byte) (poison : Bool) : d.Glints (d.hostWrite f bus bs poison) := by
  unfold Dev.hostWrite
  split
  · exact .refl d
  · exact (Dev.glints_updHost d (by exact rfl)).trans (Dev.glints_logDirty ..)

theorem Dev.glints_msix (d : Dev) (f vector : Nat) : d.Glints (d.msix f vector) := by
  unfold Dev.msix
  split
  · exact .refl d
  · split
    · exact Dev.glints_updFacet d f rfl
    · exact Dev.glints_send ..

theorem Dev.glints_ringWrite (d : Dev) (f n : Nat) (record : BitVec 32 → Bool → List Byte) (mark : Nat) :
    d.Glints (d.ringWrite f n record mark) := by
  unfold Dev.ringWrite
  dsimp only
  split
  · exact ((Dev.glints_hostWrite d _ _ _ _).trans (Dev.glints_updFacet _ f (by exact rfl))).trans (Dev.glints_msix ..)
  · exact (Dev.glints_hostWrite d _ _ _ _).trans (Dev.glints_updFacet _ f (by exact rfl))

theorem Dev.glints_glintTo (d : Dev) (f typ : Nat) (payload : List Byte) : d.Glints (d.glintTo f typ payload) := by
  unfold Dev.glintTo
  dsimp only
  split
  · exact (Dev.glints_countF ..).trans (Dev.glints_updFacet _ f (by exact rfl))
  · exact (Dev.glints_ringWrite ..).trans (Dev.glints_updFacet _ f (by exact rfl))

theorem Dev.glints_glint (d : Dev) (f typ subject detail detail2 : Nat) : d.Glints (d.glint f typ subject detail detail2) :=
  Dev.glints_glintTo ..

end Sys2Proof.Machine
end

section
/-! HELLO, the rings and the reduction groups (R174 to R184, R308 to R310, R327, R328). -/

namespace Sys2Proof.Machine

variable {s : State} {d : Dev} {fn : Nat}

/-! ## HELLO -/

/-- What HELLO leaves, as interface version v (R308). -/
def Dev.helloDone (d : Dev) (fn v : Nat) (discard : Bool) : Dev := d.fresh.2.fwVersion.2.helloEffects fn v discard d.fresh.1

/-- The payload of its response. -/
def Dev.helloAnswer (d : Dev) (fn v : Nat) (range : Nat × Nat) (discard : Bool) : List Byte :=
  helloResponse v range.1 range.2 d.fresh.2.fwVersion.1 fn ((d.helloDone fn v discard).facet fn).held d.fresh.1 (d.helloDone fn v discard).helloCaps

/-- A HELLO that attaches or re-attaches: its checks, with the version that it selects. -/
theorem hello_eq {v : Nat} (h : Served s.dev fn 0x0001) (attach : Bool) (hattach : (leAt (s.dev.mbxRequest fn) 1 1).testBit 0 = attach)
    (hcred : attach = true → (s.dev.facet fn).credential = some (BitVec.ofNat 64 (leAt (s.dev.mbxRequest fn) 8 8)))
    (hheld : attach = false → (s.dev.facet fn).holdsState = true → (leAt (s.dev.mbxRequest fn) 1 1).testBit 1 = true)
    (hsel : s.dev.helloSelect (if attach && (s.dev.facet fn).holdsState then some (s.dev.facet fn).ifSel.toNat else none)
      (leAt (s.dev.mbxRequest fn) 2 2) (leAt (s.dev.mbxRequest fn) 4 2) = some v) :
    let e := s.dev.mbxJournaled fn 0x0001 fn
    exec (.hello fn) s = .next (s.to ((e.helloDone fn v (!attach && (s.dev.facet fn).holdsState)).mbxRespond fn 0
      (e.helloAnswer fn v s.dev.ifRange (!attach && (s.dev.facet fn).holdsState)))) := by
  have hdiscard : ((leAt (s.dev.mbxRequest fn) 1 1).testBit 1 && !attach && (s.dev.facet fn).holdsState) =
      (!attach && (s.dev.facet fn).holdsState) := by
    cases attach with
    | true => simp only [Bool.not_true, Bool.and_false, Bool.false_and]
    | false =>
      cases hx : (s.dev.facet fn).holdsState with
      | true => rw [hheld rfl hx, Bool.true_and]
      | false => simp only [Bool.and_false]
  let discard := !attach && (s.dev.facet fn).holdsState
  refine congrArg (fun e => Host.Outcome.next (s.to e)) (Dev.mbxRun_done h rfl (fun e => e.helloDone fn v discard)
    (fun e => e.helloAnswer fn v s.dev.ifRange discard) fun y => ?_)
  refine (if_neg fun hno => ?_).trans ((if_neg fun hno => ?_).trans ?_)
  · simp only [bit, hattach, Bool.and_eq_true, decide_eq_true_eq] at hno
    exact hno.2 (hcred hno.1)
  · change (!(leAt (s.dev.mbxRequest fn) 1 1).testBit 0 && (s.dev.facet fn).holdsState &&
      !((leAt (s.dev.mbxRequest fn) 1 1).testBit 1 && !(leAt (s.dev.mbxRequest fn) 1 1).testBit 0 && (s.dev.facet fn).holdsState)) = true at hno
    rw [hattach, hdiscard, Bool.and_not_self] at hno
    exact Bool.false_ne_true hno
  · simp only [bit, hattach]
    generalize hfound : Dev.helloSelect _ _ _ _ = found
    obtain rfl : found = some v := hfound.symm.trans hsel
    change MbxResult.ok ((s.dev.withJournal y).helloDone fn v _) (Dev.helloAnswer _ fn v _ _) = _
    rw [show ((leAt (s.dev.mbxRequest fn) 1 1).testBit 1 && !attach && ((s.dev.withJournal y).facet fn).holdsState) = discard from hdiscard]
    rfl

/-- A HELLO that its credential or its held state refuses. -/
theorem hello_refused {st : Code} {q : List Byte} (h : Served s.dev fn 0x0001) (attach : Bool)
    (hattach : (leAt (s.dev.mbxRequest fn) 1 1).testBit 0 = attach)
    (hcause : (attach = true ∧ (s.dev.facet fn).credential ≠ some (BitVec.ofNat 64 (leAt (s.dev.mbxRequest fn) 8 8)) ∧ st = 0x107 ∧ q = []) ∨
      (attach = false ∧ (s.dev.facet fn).holdsState = true ∧ (leAt (s.dev.mbxRequest fn) 1 1).testBit 1 = false ∧ st = 0x106 ∧ q = []) ∨
      (attach = false ∧ (s.dev.facet fn).holdsState = false ∧ s.dev.helloSelect none (leAt (s.dev.mbxRequest fn) 2 2)
        (leAt (s.dev.mbxRequest fn) 4 2) = none ∧ st = 0x2 ∧ q = helloResponse 0 s.dev.ifRange.1 s.dev.ifRange.2 0 0 0 0 0)) :
    exec (.hello fn) s = .next (s.to (s.dev.mbxRefuse fn st q)) := by
  refine congrArg (fun e => Host.Outcome.next (s.to e)) (Dev.mbxRun_refuse h ?_)
  simp only [bit, hattach]
  rcases hcause with ⟨rfl, hcred, rfl, rfl⟩ | ⟨rfl, hheld, hkeep, rfl, rfl⟩ | ⟨rfl, hheld, hsel, rfl, rfl⟩
  · simp only [hcred, ne_eq, not_false_eq_true, decide_true, Bool.and_self, if_true]
  · simp only [hheld, hkeep, Bool.false_and, Bool.not_false, Bool.and_self, if_true, Bool.false_eq_true, if_false]
  · simp only [hheld, hsel, Bool.false_and, Bool.and_false, Bool.not_false, Bool.false_eq_true, if_false]

theorem helloSelect_none {lo hi : Nat} : d.helloSelect none lo hi =
    if max lo d.ifRange.1 ≤ min hi d.ifRange.2 then some (min hi d.ifRange.2) else none := rfl

theorem helloSelect_some {v lo hi : Nat} (h1 : lo ≤ v) (h2 : v ≤ hi) (h3 : d.ifRange.1 ≤ v) (h4 : v ≤ d.ifRange.2) :
    d.helloSelect (some v) lo hi = some v :=
  if_pos ⟨h1, h2, h3, h4⟩

/-! ## What every HELLO leaves of its facet -/

theorem consent_voidConsent : ((d.voidConsent fn).facet fn).consent = none := by
  unfold Dev.voidConsent
  dsimp only
  have hvoid : ((d.updFacet fn fun x => { x with consent := none }).facet fn).consent = none := by rw [Dev.facet_updFacet]
  split
  · unfold Dev.endHalt
    split
    · exact hvoid
    · have hg := (Dev.glints_glint (((d.updFacet fn fun x => { x with consent := none }).updSecurity fun x =>
        { x with debug := 1, haltFacet := 0 }).resumeHalted fun b => decide (b.facet = d.security.haltFacet)) d.security.haltFacet 0x801
          d.security.haltFacet 0 0).facet fn
      exact (congrArg Facet.consent hg).trans hvoid
  · exact hvoid

/-- Ring n of a facet is free after its cancellation, and so is every ring that was. -/
theorem ring_cancelRing {x : Facet} {m n : Nat} (h : m = n ∨ (x.ring m).registered = false) : ((x.cancelRing n).ring m).registered = false := by
  unfold Facet.cancelRing Facet.ring
  by_cases hmn : m = n
  · rw [hmn, Tab.get_erase_same]
    rfl
  · rw [Tab.get_erase_other _ _ hmn]
    exact h.resolve_left hmn

theorem ring_cancelRings (x : Facet) {n : Nat} (hn : n ≤ 16) : (x.cancelRings.ring n).registered = false := by
  have hall : ∀ (l : List Nat) (x : Facet), (n ∈ l ∨ (x.ring n).registered = false) → ((l.foldl Facet.cancelRing x).ring n).registered = false := by
    intro l
    induction l with
    | nil => exact fun x h => h.resolve_left List.not_mem_nil
    | cons a l ih =>
      intro x h
      refine ih _ ?_
      rcases h with h | h
      · rcases List.mem_cons.mp h with rfl | h
        · exact .inr (ring_cancelRing (.inl rfl))
        · exact .inl h
      · exact .inr (ring_cancelRing (.inr h))
  exact hall _ x (.inl (List.mem_range.mpr (by omega)))

/-- Cancelling rings changes rings and commands alone. -/
theorem cancelRings_consent (x : Facet) : x.cancelRings.consent = x.consent := by
  have hall : ∀ (l : List Nat) (x : Facet), (l.foldl Facet.cancelRing x).consent = x.consent := by
    intro l
    induction l with
    | nil => exact fun _ => rfl
    | cons a l ih => exact fun x => ih _
  exact hall _ x

theorem decideApertures_parts (x : Facet) : x.decideApertures.rings = x.rings ∧ x.decideApertures.consent = x.consent := by
  unfold Facet.decideApertures
  split
  · exact ⟨rfl, rfl⟩
  · exact ⟨rfl, rfl⟩

/-- A facet whose rings, windows and apertures HELLO has reset (R309). -/
def Facet.reattached (x : Facet) (discard : Bool) : Facet := ((if discard then x.discardAll else x).cancelRings.zeroWindows).decideApertures

theorem zeroWindows_parts (x : Facet) : x.zeroWindows.rings = x.rings ∧ x.zeroWindows.consent = x.consent := ⟨rfl, rfl⟩

theorem ring_of_rings {x y : Facet} (h : x.rings = y.rings) (n : Nat) : x.ring n = y.ring n := by
  unfold Facet.ring
  rw [h]

theorem reattached_ring (x : Facet) (discard : Bool) {n : Nat} (hn : n ≤ 16) : ((x.reattached discard).ring n).registered = false := by
  have hrings : (x.reattached discard).rings = (if discard then x.discardAll else x).cancelRings.rings :=
    (decideApertures_parts _).1.trans (zeroWindows_parts _).1
  rw [ring_of_rings hrings]
  exact ring_cancelRings (if discard then x.discardAll else x) hn

theorem reattached_consent (x : Facet) (discard : Bool) : (x.reattached discard).consent = x.consent := by
  unfold Facet.reattached
  rw [(decideApertures_parts _).2, (zeroWindows_parts _).2]
  refine (cancelRings_consent (if discard then x.discardAll else x)).trans ?_
  cases discard <;> rfl

/-- A facet after HELLO (R308, R309). -/
def Facet.helloed (x : Facet) (v : Nat) (discard : Bool) (cred : BitVec 64) : Facet :=
  { x.reattached discard with hello := true, attached := true, ringsVoid := true, ifSel := BitVec.ofNat 16 v, credential := some cred }

theorem facet_helloEffects (v : Nat) (discard : Bool) (cred : BitVec 64) :
    (d.helloEffects fn v discard cred).facet fn = ((d.voidConsent fn).facet fn).helloed v discard cred := by
  unfold Dev.helloEffects
  rw [Dev.facet_updFacet]
  rfl

/-! ## Rings -/

theorem ringSet_eq (h : Served s.dev fn 0x0002) (hn : leAt (s.dev.mbxRequest fn) 1 1 % 32 ≤ 16) (hr : (ringOf (s.dev.mbxRequest fn)).inRange = true)
    (hfree : ((s.dev.facet fn).ring (leAt (s.dev.mbxRequest fn) 1 1 % 32)).registered = false) :
    exec (.ringSet fn) s = .next (s.to ((((s.dev.mbxJournaled fn 0x0002 fn).updFacet fn fun x =>
      { x with rings := Tab.set Ring.reset x.rings (leAt (s.dev.mbxRequest fn) 1 1 % 32) (ringOf (s.dev.mbxRequest fn)), ringsVoid := false }).flushRings
        fn).mbxRespond fn 0 [])) := by
  refine congrArg (fun e => Host.Outcome.next (s.to e)) (Dev.mbxRun_done h rfl (fun e => (e.updFacet fn fun x =>
    { x with rings := Tab.set Ring.reset x.rings (leAt (s.dev.mbxRequest fn) 1 1 % 32) (ringOf (s.dev.mbxRequest fn)), ringsVoid := false }).flushRings
      fn) (fun _ => []) fun y => ?_)
  simp only [bits_zero]
  refine (if_neg ?_).trans (if_neg (Bool.eq_false_iff.mp hfree))
  rintro (hno | hno)
  · exact absurd hn (Nat.not_le.mpr hno)
  · exact Bool.false_ne_true (hno.symm.trans hr)

theorem ringSet_range (h : Served s.dev fn 0x0002)
    (hbad : 16 < leAt (s.dev.mbxRequest fn) 1 1 % 32 ∨ (ringOf (s.dev.mbxRequest fn)).inRange = false) :
    exec (.ringSet fn) s = .next (s.to (s.dev.mbxRefuse fn 0x104 [])) := by
  refine congrArg (fun e => Host.Outcome.next (s.to e)) (Dev.mbxRun_refuse h ?_)
  simp only [bits_zero]
  exact if_pos hbad

theorem ringSet_taken (h : Served s.dev fn 0x0002) (hn : leAt (s.dev.mbxRequest fn) 1 1 % 32 ≤ 16) (hr : (ringOf (s.dev.mbxRequest fn)).inRange = true)
    (htaken : ((s.dev.facet fn).ring (leAt (s.dev.mbxRequest fn) 1 1 % 32)).registered = true) :
    exec (.ringSet fn) s = .next (s.to (s.dev.mbxRefuse fn 0x105 [])) := by
  refine congrArg (fun e => Host.Outcome.next (s.to e)) (Dev.mbxRun_refuse h ?_)
  simp only [bits_zero]
  refine (if_neg ?_).trans (if_pos htaken)
  rintro (hno | hno)
  · exact absurd hn (Nat.not_le.mpr hno)
  · exact Bool.false_ne_true (hno.symm.trans hr)

theorem ringClear_eq (h : Served s.dev fn 0x0003) (hn : leAt (s.dev.mbxRequest fn) 1 1 % 32 ≤ 16)
    (hwindows : ∀ w ∈ (s.dev.facet fn).windows, w.2.enable = true → w.2.ring = leAt (s.dev.mbxRequest fn) 1 1 % 32 →
      leAt (s.dev.mbxRequest fn) 1 1 % 32 = 16)
    (hset : ((s.dev.facet fn).ring (leAt (s.dev.mbxRequest fn) 1 1 % 32)).registered = true) :
    exec (.ringClear fn) s = .next (s.to (((s.dev.mbxJournaled fn 0x0003 fn).updFacet fn fun x =>
      x.cancelRing (leAt (s.dev.mbxRequest fn) 1 1 % 32)).mbxRespond fn 0 [])) := by
  refine congrArg (fun e => Host.Outcome.next (s.to e)) (Dev.mbxRun_done h rfl (fun e => e.updFacet fn fun x =>
    x.cancelRing (leAt (s.dev.mbxRequest fn) 1 1 % 32)) (fun _ => []) fun y => ?_)
  simp only [bits_zero]
  refine (if_neg (Nat.not_lt.mpr hn)).trans ((if_neg ?_).trans ?_)
  · rintro ⟨hlt, hany⟩
    obtain ⟨w, hw, hb⟩ := List.any_eq_true.mp hany
    simp only [Bool.and_eq_true, decide_eq_true_eq] at hb
    have := hwindows w hw hb.1 hb.2
    omega
  · exact congrArg (fun x => MbxResult.ok ((s.dev.withJournal y).setFacet fn x) []) (if_pos hset)

/-! ## Reduction groups -/

theorem redGroupClose_eq {g : RedGroup} (h : Served s.dev fn 0x0621) (hnum : leAt (s.dev.mbxRequest fn) 2 2 % 512 < 448)
    (hg : s.dev.group? (leAt (s.dev.mbxRequest fn) 2 2 % 512) = some g) (hown : g.facet = fn)
    (hidle : (leAt (s.dev.mbxRequest fn) 4 1).testBit 0 = true ∨ (g.filled = [] ∧ g.doneOwed = none)) :
    exec (.redGroupClose fn) s = .next (s.to (((s.dev.mbxJournaled fn 0x0621 fn).closeGroup (leAt (s.dev.mbxRequest fn) 2 2 % 512)).mbxRespond fn 0
      [])) := by
  refine congrArg (fun e => Host.Outcome.next (s.to e)) (Dev.mbxRun_done h rfl (fun e => e.closeGroup (leAt (s.dev.mbxRequest fn) 2 2 % 512))
    (fun _ => []) fun y => ?_)
  simp only [bits_zero]
  generalize hfound : Dev.group? _ _ = found
  obtain rfl : found = some g := hfound.symm.trans hg
  refine (if_neg ?_).trans (if_neg fun hno => ?_)
  · rintro (hno | hno)
    · exact hno hown
    · exact absurd hnum (Nat.not_lt.mpr hno)
  · simp only [bit, Bool.and_eq_true, Bool.not_eq_true', Bool.or_eq_true] at hno
    rcases hidle with hf | ⟨hf, hd⟩
    · exact Bool.false_ne_true (hno.1.symm.trans hf)
    · rw [hf, hd] at hno
      exact hno.2.elim (fun h => Bool.false_ne_true h.symm) fun h => Bool.false_ne_true h

theorem redGroupClose_refused {g : RedGroup} (h : Served s.dev fn 0x0621) (hnum : leAt (s.dev.mbxRequest fn) 2 2 % 512 < 448)
    (hg : s.dev.group? (leAt (s.dev.mbxRequest fn) 2 2 % 512) = some g) (hown : g.facet = fn)
    (hforce : (leAt (s.dev.mbxRequest fn) 4 1).testBit 0 = false) (hbusy : g.filled ≠ [] ∨ g.doneOwed ≠ none) :
    exec (.redGroupClose fn) s = .next (s.to (s.dev.mbxRefuse fn 0x634 [])) := by
  refine congrArg (fun e => Host.Outcome.next (s.to e)) (Dev.mbxRun_refuse h ?_)
  simp only [bits_zero, Nat.reducePow]
  rw [hg]
  refine (if_neg ?_).trans (if_pos ?_)
  · rintro (hno | hno)
    · exact hno hown
    · exact absurd hnum (Nat.not_lt.mpr hno)
  · simp only [bit, hforce, Bool.not_false, Bool.true_and, Bool.or_eq_true, Bool.not_eq_true', List.isEmpty_eq_false_iff, Option.isSome_iff_ne_none]
    exact hbusy

/-- The group that RED_GROUP_OPEN opens under a number (R174). -/
def openedGroup (fn num : Nat) (p : List Byte) (root : Nat) : RedGroup :=
  let n := leAt p 2 2 % 2048
  { num := num, facet := fn, op := BitVec.ofNat 2 (leAt p 1 1 % 4), n := n, payload := leAt p 4 4, window := leAt p 8 8, dest := leAt p 16 8,
    done := leAt p 24 8, root := root, reserved := (n + 1) / 2 * leAt p 4 4, rounds := 0, nodes := [], filled := [], overrun := false,
    poisoned := false, doneOwed := none, phaseRounds := 0, intervals := [], lags := [], dies := [] }

theorem redGroupOpen_eq {num root : Nat} (h : Served s.dev fn 0x0620) :
    let d := s.dev
    let p := d.mbxRequest fn
    let op := leAt p 1 1 % 4
    let n := leAt p 2 2 % 2048
    let size := leAt p 4 4
    2 ≤ n → n ≤ 1024 → size % 128 = 0 → 0 < size → size ≤ 1048576 → (op = 3 → size ≤ 32768) →
    leAt p 8 8 % 65536 = 0 → leAt p 16 8 % 128 = 0 → leAt p 24 8 % 8 = 0 →
    d.overlapsMapping fn (leAt p 8 8) (alignUp (n * size) 65536) = false → d.isDevice fn (leAt p 16 8) size = true →
    d.isDevice fn (leAt p 24 8) 8 = true → (List.range 448).find? (fun i => (d.group? i).isNone) = some num →
    d.redRoot fn (leAt p 16 8) ((n + 1) / 2 * size) = some root →
    exec (.redGroupOpen fn) s = .next (s.to (({ d.mbxJournaled fn 0x0620 fn with groups := d.groups ++ [openedGroup fn num p root] } : Dev).mbxRespond
      fn 0 ([1, 0] ++ leBytes 2 num ++ leBytes 4 ((n + 1) / 2 * size) ++ leBytes 8 root))) := by
  intro d p op n size h2 h1024 hline hpos hmax hop hwindow hdest hdone hfree hdev hword hnum hroot
  have hgroups : (d.mbxJournaled fn 0x0620 fn).groups = d.groups := by
    rw [h.journals]
    rfl
  rw [← hgroups]
  refine congrArg (fun e => Host.Outcome.next (s.to e)) (Dev.mbxRun_done h rfl (fun e => { e with groups := e.groups ++ [openedGroup fn num p root] })
    (fun _ => [1, 0] ++ leBytes 2 num ++ leBytes 4 ((n + 1) / 2 * size) ++ leBytes 8 root) fun y => ?_)
  simp only [bits_zero]
  refine (if_neg ?_).trans ?_
  · rintro (hno | hno | hno | hno | hno | ⟨hno, hno'⟩ | hno | hno | hno)
    · exact absurd h2 (Nat.not_le.mpr hno)
    · exact absurd h1024 (Nat.not_le.mpr hno)
    · exact hno hline
    · exact absurd hno (Nat.pos_iff_ne_zero.mp hpos)
    · exact absurd hmax (Nat.not_le.mpr hno)
    · exact absurd (hop hno) (Nat.not_le.mpr hno')
    · exact hno hwindow
    · exact hno hdest
    · exact hno hdone
  · generalize hfound : List.find? _ _ = found
    obtain rfl : found = some num := hfound.symm.trans hnum
    refine (if_neg fun hno => ?_).trans ?_
    · simp only [Bool.or_eq_true, Bool.not_eq_true'] at hno
      rcases hno with (hno | hno) | hno
      · exact Bool.false_ne_true (hfree.symm.trans hno)
      · exact Bool.false_ne_true (hno.symm.trans hdev)
      · exact Bool.false_ne_true (hno.symm.trans hword)
    · generalize hplace : Dev.redRoot _ _ _ _ = place
      obtain rfl : place = some root := hplace.symm.trans hroot
      rfl

/-- Settles O46: HELLO by the version that it selects, the rings and the groups by their own checks. -/
theorem attachingAndRings : Obligations.AttachingAndRings := by
  unfold Obligations.AttachingAndRings
  intro s fn d p x log out
  refine ⟨fun h => ?_, fun v discard cred => ?_, ?_, ?_, ?_⟩
  · intro attach lo hi range answer
    refine ⟨fun hattach hheld hrange => ?_, fun hattach hcred => ⟨fun hheld h1 h2 h3 h4 => ?_, fun hheld hrange => ?_⟩, fun hattach hcred => ?_,
      fun hattach hheld hkeep => ?_, fun hattach hheld hrange => ?_⟩
    · exact hello_eq h false hattach (fun hf => absurd hf Bool.false_ne_true) (fun _ => hheld) (helloSelect_none.trans (if_pos hrange))
    · have heq := hello_eq (v := x.ifSel.toNat) h true hattach (fun _ => hcred) (fun hf => absurd hf Bool.false_ne_true.symm) (by
        rw [hheld]
        exact helloSelect_some h1 h2 h3 h4)
      exact heq
    · have heq := hello_eq (v := min hi range.2) h true hattach (fun _ => hcred) (fun hf => absurd hf Bool.false_ne_true.symm) (by
        rw [hheld]
        exact helloSelect_none.trans (if_pos hrange))
      exact heq
    · exact hello_refused h true hattach (.inl ⟨rfl, hcred, rfl, rfl⟩)
    · exact hello_refused h false hattach (.inr (.inl ⟨rfl, hheld, hkeep, rfl, rfl⟩))
    · exact hello_refused h false hattach (.inr (.inr ⟨rfl, hheld, helloSelect_none.trans (if_neg (Nat.not_le.mpr hrange)), rfl, rfl⟩))
  · intro z
    have hz : z = ((d.voidConsent fn).facet fn).helloed v discard cred := facet_helloEffects v discard cred
    rw [hz]
    exact ⟨rfl, rfl, rfl, rfl, rfl, fun n hn => reattached_ring _ discard hn, (reattached_consent _ discard).trans consent_voidConsent⟩
  · intro n r
    exact ⟨fun h hn hr hfree => ringSet_eq h hn hr hfree, fun h hbad => ringSet_range h hbad, fun h hn hr htaken => ringSet_taken h hn hr htaken,
      fun h hn hwindows hset => ringClear_eq h hn hwindows hset⟩
  · intro op n size h h2 h1024 hline hpos hmax hop hwindow hdest hdone hfree hdev hword num root hnum hroot
    exact ⟨openedGroup fn num p root, rfl, rfl, rfl, rfl, rfl, rfl, rfl, rfl, rfl, rfl, rfl, rfl, rfl,
      redGroupOpen_eq h h2 h1024 hline hpos hmax hop hwindow hdest hdone hfree hdev hword hnum hroot⟩
  · intro g num h hnum hg hown
    exact ⟨fun hidle => redGroupClose_eq h hnum hg hown hidle, fun hforce hbusy => redGroupClose_refused h hnum hg hown hforce hbusy⟩

end Sys2Proof.Machine
end

section
/-! The host link: link-down, link-up, retrains, BAR4 resizes, function-level resets and time-outs (R226, R298 to R302, R325 to R328, R345, R377). -/

namespace Sys2Proof.Machine

variable {s : State} {d : Dev} {n fn : Nat}

/-! ## Facets changed one after the other -/

/-- What every change of a facet keeps, a run of changes keeps. -/
theorem facet_forEach_keeps {P : Facet → Prop} {g : Nat → Facet → Facet} (l : List Nat) (hg : ∀ f x, P x → P (g f x)) (d : Dev)
    (h : P (d.facet n)) : P ((Dev.forEach l (fun d f => d.updFacet f (g f)) d).facet n) := by
  induction l generalizing d with
  | nil => exact h
  | cons f l ih =>
    refine ih (d.updFacet f (g f)) ?_
    by_cases hn : n = f
    · subst hn
      rw [Dev.facet_updFacet]
      exact hg n _ h
    · rwa [Dev.facet_updFacet_ne _ hn]

/-- What a facet's own change gives, a run of changes that holds the facet gives. -/
theorem facet_forEach_sets {P : Facet → Prop} {g : Nat → Facet → Facet} (hg : ∀ x, P (g n x)) {l : List Nat} (hn : n ∈ l) (d : Dev) :
    P ((Dev.forEach l (fun d f => d.updFacet f (g f)) d).facet n) := by
  induction l generalizing d with
  | nil => exact absurd hn List.not_mem_nil
  | cons f l ih =>
    by_cases hl : n ∈ l
    · exact ih hl (d.updFacet f (g f))
    · obtain rfl : n = f := (List.mem_cons.mp hn).resolve_right hl
      have hlast : ∀ (l : List Nat), n ∉ l → ∀ d : Dev, P (d.facet n) → P ((Dev.forEach l (fun d f => d.updFacet f (g f)) d).facet n) := by
        intro l
        induction l with
        | nil => exact fun _ _ h => h
        | cons f l ih =>
          intro hl d h
          have hne : n ≠ f := fun hf => hl (hf ▸ List.mem_cons_self)
          refine ih (fun hm => hl (List.mem_cons_of_mem _ hm)) (d.updFacet f (g f)) ?_
          rwa [Dev.facet_updFacet_ne _ hne]
      refine hlast l hl (d.updFacet n (g n)) ?_
      rw [Dev.facet_updFacet]
      exact hg _

/-! ## Link-down -/

/-- A facet without its link (R326). -/
structure Facet.Unlinked (x : Facet) : Prop where
  buses : x.buses = []
  windows : x.windows = []
  ringsVoid : x.ringsVoid = true
  plainPending : x.plainPending = true
  apertures : ∀ a ∈ x.apertures, a.keyed = false
  cmds : ∀ c ∈ x.cmds, c.confirms = []
  rings : ∀ n, n ≤ 16 → (x.ring n).registered = false

/-- Cancelled rings change no command's confirmation reads. -/
theorem cancelRings_confirms (x : Facet) (h : ∀ c ∈ x.cmds, c.confirms = []) : ∀ c ∈ x.cancelRings.cmds, c.confirms = [] := by
  have hall : ∀ (l : List Nat) (x : Facet), (∀ c ∈ x.cmds, c.confirms = []) → ∀ c ∈ (l.foldl Facet.cancelRing x).cmds, c.confirms = [] := by
    intro l
    induction l with
    | nil => exact fun _ h => h
    | cons a l ih =>
      refine fun x h => ih (x.cancelRing a) fun c hc => ?_
      obtain ⟨c', hc', rfl⟩ := List.mem_map.mp hc
      exact (apply_ite Cmd.confirms _ _ _).trans ((ite_self c'.confirms).trans (h c' hc'))
  exact hall _ x h

/-- A command whose confirmation reads are lost with the link (R326). -/
def Cmd.linkLost (c : Cmd) : Cmd :=
  if c.confirms.isEmpty then c else { c with confirms := [], hostLost := true, status := if c.state = .ended then 0x108 else c.status }

theorem linkLost_confirms (c : Cmd) : c.linkLost.confirms = [] := by
  unfold Cmd.linkLost
  split
  case isTrue h => exact List.isEmpty_iff.mp h
  case isFalse h => rfl

/-- A facet at link-down before its mappings go. -/
def Facet.losesReads (x : Facet) : Facet :=
  { x with cmds := x.cmds.map Cmd.linkLost, lostCount := x.lostCount + countIf (fun c => !c.confirms.isEmpty && !c.hostLost) x.cmds }

/-- A facet whose mappings and keyed apertures are gone. -/
def Facet.detached (x : Facet) : Facet :=
  { x with buses := [], apertures := x.apertures.filter fun a => !a.keyed, ringsVoid := true,
           bar4AtDown := if x.plainPending then x.bar4AtDown else x.bar4, plainPending := true }

theorem linkDown_eq (x : Facet) : x.linkDown = x.losesReads.cancelRings.zeroWindows.detached := rfl

theorem unlinked_detached {x : Facet} (hwindows : x.windows = []) (hcmds : ∀ c ∈ x.cmds, c.confirms = [])
    (hrings : ∀ n, n ≤ 16 → (x.ring n).registered = false) : x.detached.Unlinked := by
  refine ⟨rfl, hwindows, rfl, rfl, fun a ha => ?_, hcmds, hrings⟩
  have hkey := (List.mem_filter.mp ha).2
  rwa [Bool.not_eq_true'] at hkey

theorem zeroWindows_cmds (x : Facet) : x.zeroWindows.cmds = x.cmds := rfl

theorem unlinked_linkDown (x : Facet) : x.linkDown.Unlinked := by
  rw [linkDown_eq]
  refine unlinked_detached rfl ?_ fun n hn => ?_
  · rw [zeroWindows_cmds]
    refine cancelRings_confirms x.losesReads fun c hc => ?_
    obtain ⟨c', -, rfl⟩ := List.mem_map.mp hc
    exact linkLost_confirms c'
  · rw [ring_of_rings (zeroWindows_parts _).1 n]
    exact ring_cancelRings _ hn

theorem linkDown_facets (h : d.host.linkUp = true) : ∀ f ∈ d.facetsThere, (d.linkLost.facet f).Unlinked := by
  intro f hf
  unfold Dev.linkLost
  rw [if_neg (not_not_true h)]
  exact facet_forEach_sets (g := fun _ => Facet.linkDown) unlinked_linkDown hf _

/-! ## Link-up -/

theorem linkUp_ok {rate width : Nat} (hdown : d.host.linkUp = false) (hperst : d.host.perst = false) (hstep : 3 ≤ d.boot.step) (hrate : rate ≤ 6)
    (hwidth : width ∈ [4, 8, 16]) : ¬ (d.host.linkUp || d.host.perst || decide (d.boot.step < 3) || !linkShapeOk rate width) = true := by
  simp only [hdown, hperst, Nat.not_lt.mpr hstep, linkShapeOk, hrate, List.contains_iff_mem.mpr hwidth, decide_false, decide_true, Bool.or_self, Bool.and_self,
    Bool.not_true, Bool.false_eq_true, not_false_eq_true]

theorem host_forEach_updFacet (l : List Nat) (g : Nat → Facet → Facet) (d : Dev) :
    (Dev.forEach l (fun d f => d.updFacet f (g f)) d).host = d.host := by
  induction l generalizing d with
  | nil => rfl
  | cons f l ih => exact ih (d.updFacet f (g f))

theorem configReset_host : d.configReset.host = { d.host with numVFs := 0, memEnable := [], msixEnable := [] } :=
  host_forEach_updFacet (List.range 64) (fun f x => { x with msix := [], pba := [], bar4 := bar4Reset f }) _

theorem Dev.facet_updHost (g : HostLink → HostLink) : (d.updHost g).facet n = d.facet n := rfl

theorem configReset_facet (hn : n < 64) : (d.configReset.facet n).msix = [] ∧ (d.configReset.facet n).bar4 = bar4Reset n :=
  facet_forEach_sets (P := fun x => x.msix = [] ∧ x.bar4 = bar4Reset n) (g := fun f x => { x with msix := [], pba := [], bar4 := bar4Reset f })
    (fun _ => ⟨rfl, rfl⟩) (List.mem_range.mpr hn) _

/-- The link has trained at a rate and a width (R298). -/
def Dev.trained (d : Dev) (rate width : Nat) : Dev :=
  d.configReset.updHost fun h => { h with linkUp := true, rate := BitVec.ofNat 3 rate, width := BitVec.ofNat 5 width }

theorem trained_parts (rate width : Nat) : (d.trained rate width).host = { d.host with
      linkUp := true, rate := BitVec.ofNat 3 rate, width := BitVec.ofNat 5 width, numVFs := 0, memEnable := [], msixEnable := [] } ∧
    ∀ f, f < 64 → ((d.trained rate width).facet f).msix = [] ∧ ((d.trained rate width).facet f).bar4 = bar4Reset f := by
  unfold Dev.trained
  refine ⟨?_, fun f hf => ?_⟩
  · rw [Dev.updHost, configReset_host]
  · rw [Dev.facet_updHost]
    exact configReset_facet hf

/-! ## BAR4 -/

theorem exec_bar4Resize {size : Nat} (hup : s.dev.host.linkUp = true) (hstep : s.dev.boot.step = 9) (hfn : fn < 64) (hsize : bar4SizeOk fn size = true)
    (hrecovery : s.dev.boot.recovery = true → fn = 0) :
    exec (.bar4Resize fn size) s = .next (s.to (s.dev.updFacet fn fun x => x.resizeBar4 size)) := by
  refine congrArg (fun e => Host.Outcome.next (s.to e)) (if_neg fun hno => ?_)
  simp only [hup, hstep, hsize, Bool.not_true, ne_eq, not_true_eq_false, decide_false, Bool.false_or, Bool.or_false, Bool.or_eq_true,
    decide_eq_true_eq, Bool.and_eq_true] at hno
  rcases hno with hno | ⟨hrec, hne⟩
  · omega
  · exact hne (hrecovery hrec)

theorem resizeBar4_bar4 (x : Facet) (size : Nat) : (x.resizeBar4 size).bar4 = size := by
  unfold Facet.resizeBar4
  split
  case isTrue h => exact h.symm
  case isFalse h => rfl

theorem mem_resizeBar4 {x : Facet} {size : Nat} (h : size ≠ x.bar4) (a : Aperture) :
    a ∈ (x.resizeBar4 size).apertures ↔ a ∈ x.apertures ∧ x.plainPending = true ∧ a.keyed = false := by
  rw [Facet.resizeBar4, if_neg h]
  cases hp : x.plainPending with
  | true => simp only [if_true, List.mem_filter, Bool.not_eq_true', true_and]
  | false => simp only [Bool.false_eq_true, if_false, List.not_mem_nil, false_and, and_false]

/-! ## Function-level reset -/

theorem exec_flr (hbus : s.dev.onBus fn = true) (hstep : s.dev.boot.step = 9) (hrecovery : s.dev.boot.recovery = true → fn = 0) :
    exec (.flr fn) s = .next (s.to (s.dev.flrOf fn)) := by
  refine congrArg (fun e => Host.Outcome.next (s.to e)) (if_pos ?_)
  simp only [hbus, hstep, decide_true, Bool.true_and, Bool.or_eq_true, Bool.not_eq_true', decide_eq_true_eq]
  cases h : s.dev.boot.recovery with
  | true => exact .inr (hrecovery h)
  | false => exact .inl rfl

/-- The parts of a facet that the reset actions clear (R375). -/
def Facet.cleared (x : Facet) : Prop := x.hello = false ∧ x.cmds = [] ∧ x.buses = [] ∧ x.windows = []

/-- What the reset actions make of a facet y that was x before its rings were cancelled, and whose n commands had not ended. -/
def Facet.wiped (y x : Facet) (n : Nat) : Facet :=
  { y with
    cmds := [], genBase := x.genBase + 1, credential := none, hello := false, attached := false, ringsVoid := true, buses := [],
    apertures := [], plainPending := false, bar4AtDown := x.bar4, glintLost := false, linkDownHeld := false, lostCount := 0, rewritten := 0,
    freezing := false, storePages := 0, aborted := BitVec.ofNat 16 (min n 0xFFFF) }

theorem wiped_cleared {x y : Facet} {n : Nat} (h : y.windows = []) : (y.wiped x n).cleared := ⟨rfl, rfl, rfl, h⟩

theorem resetActions_eq (st : Code) : ∃ e : Dev, d.resetActions fn st =
    (e.updFacet fn fun x => x.cancelRings.zeroWindows.wiped x (d.facet fn).unfinished).clearFacetCounters fn :=
  ⟨_, rfl⟩

theorem resetActions_cleared (st : Code) : ((d.resetActions fn st).facet fn).cleared := by
  obtain ⟨e, he⟩ := resetActions_eq (d := d) (fn := fn) st
  have hfacet : (d.resetActions fn st).facet fn = (e.facet fn).cancelRings.zeroWindows.wiped (e.facet fn) (d.facet fn).unfinished := by
    rw [he]
    exact Dev.facet_updFacet e fn fun x => x.cancelRings.zeroWindows.wiped x (d.facet fn).unfinished
  rw [hfacet]
  exact wiped_cleared rfl

/-- What a function's reset leaves of its facet (R377). -/
theorem functionReset_facet (h : (d.facet fn).cleared) : ((d.functionReset fn).facet fn).cleared ∧ ((d.functionReset fn).facet fn).apertures = [] ∧
    ((d.functionReset fn).facet fn).mailbox.go = false ∧ ((d.functionReset fn).facet fn).mailbox.busy = false ∧
    ((d.functionReset fn).facet fn).bar4 = bar4Reset fn := by
  unfold Dev.functionReset
  dsimp only
  rw [Dev.facet_updFacet]
  refine ⟨?_, rfl, rfl, rfl, rfl⟩
  exact facet_forEach_keeps (P := Facet.cleared) (g := fun _ x => { x with msix := [], pba := [] }) _ (fun _ _ hx => hx) _ h

/-- The facet runs on, or is quiesced as it was (R377). -/
def Dev.putState (d : Dev) (fn : Nat) (x : Facet) : Dev :=
  d.updFacet fn fun v => { v with state := if x.state.isStopped then .quiesced else .running, quiescer := none }

/-- FLR of a function is over: what it sends is no longer discarded, and function 0 is told (R377). -/
def Dev.endsFlr (d : Dev) (fn n : Nat) : Dev := (d.updHost fun h => { h with flr := NSet.del h.flr fn }).glint 0 0x501 fn 1 n

theorem endsFlr_facet (m : Nat) : (d.facet fn).Posted ((d.endsFlr n m).facet fn) :=
  (Dev.glints_glint (d.updHost fun h => { h with flr := NSet.del h.flr n }) 0 0x501 n 1 m).facet fn

/-- The facet after FLR of its function (R377, R378). -/
theorem flrOf_facet (h : d.facetExists fn = true) : let x := (d.flrOf fn).facet fn
    x.state = (if (d.facet fn).state.isStopped then .quiesced else .running) ∧ x.cleared ∧ x.apertures = [] ∧ x.mailbox.go = false ∧
      x.mailbox.busy = false ∧ x.bar4 = bar4Reset fn := by
  intro x
  obtain ⟨e, hx⟩ : ∃ e : Dev, d.flrOf fn = ((e.functionReset fn).putState fn (d.facet fn)).endsFlr fn (d.facet fn).unfinished ∧ (e.facet fn).cleared := by
    unfold Dev.flrOf
    rw [if_neg (not_not_true h)]
    exact ⟨_, rfl, resetActions_cleared 0x515⟩
  obtain ⟨hd, he⟩ := hx
  obtain ⟨⟨hhello, hcmds, hbuses, hwindows⟩, haper, hgo, hbusy, hbar4⟩ := functionReset_facet he
  have hy : ((e.functionReset fn).putState fn (d.facet fn)).facet fn = { (e.functionReset fn).facet fn with
      state := if (d.facet fn).state.isStopped then .quiesced else .running, quiescer := none } := Dev.facet_updFacet _ fn _
  have hposted := endsFlr_facet (d := (e.functionReset fn).putState fn (d.facet fn)) (n := fn) (fn := fn) (d.facet fn).unfinished
  rw [hy, ← hd] at hposted
  have hxy : x = { ({ (e.functionReset fn).facet fn with
      state := if (d.facet fn).state.isStopped then .quiesced else .running, quiescer := none } : Facet) with
        rings := x.rings, log := x.log, pba := x.pba, glintLost := x.glintLost } := hposted
  rw [hxy]
  exact ⟨rfl, ⟨hhello, hcmds, hbuses, hwindows⟩, haper, hgo, hbusy, hbar4⟩

/-! ## Writes and reads that end -/

theorem farWriteDone_eq {line : Nat} {w : FarWrite} (hfar : lineIsFar line = true)
    (hw : (d.farPort (lineFarPort line)).writes.find? (fun w => decide (w.line = line)) = some w) :
    d.farWriteDone line = (d.updFarPort (lineFarPort line) fun q =>
      { q with writes := eraseFirst (fun w => decide (w.line = line)) q.writes }).post { mkMsg .cmpAck w.agent line with tag := w.tag } := by
  rw [Dev.farWriteDone, if_neg (not_not_true hfar)]
  simp only [hw]

theorem Dev.updChannel_updChannel_of_ne {g : Channel → Channel} (h : g (d.channel n) ≠ Channel.reset) (g' : Channel → Channel) :
    (d.updChannel n g).updChannel n g' = d.updChannel n fun k => g' (g k) := by
  have hchannel : (d.setChannel n (g (d.channel n))).channel n = g (d.channel n) := Tab.get_set_same ..
  simp only [Dev.updChannel, hchannel]
  exact congrArg (fun t => { d with channels := t }) (Tab.set_set_of_ne h _ _ _)

/-- A running channel whose confirmation reads stand as l, one of them failed. -/
def Channel.confirming (k : Channel) (r : DmaRun) (l : List Nat) : Channel := { k with run := some { r with confirms := l, confirmFailed := true } }

theorem confirming_ne (k : Channel) (r : DmaRun) (l : List Nat) : k.confirming r l ≠ Channel.reset := fun h =>
  Option.some_ne_none _ (congrArg Channel.run h)

/-- The first of a channel's confirmation reads fails. -/
theorem confirmDone_first {a : Nat} {l : List Nat} {r : DmaRun} (hr : (d.channel n).run = some r) (hl : r.confirms = a :: l) :
    d.confirmDone (.channel n) a false = d.updChannel n fun k => k.confirming r l := by
  simp only [Dev.confirmDone, Dev.updChannel, hr, Option.map_some, hl, List.contains_cons, BEq.rfl, Bool.true_or, if_true, List.erase_cons_head,
    Bool.not_false, Bool.or_true, Channel.confirming]

/-- Every confirmation read of a channel fails, one after the other (R346). -/
theorem confirmDone_all {l : List Nat} (d : Dev) (r : DmaRun) (hr : (d.channel n).run = some r) (hl : r.confirms = l) (hne : l ≠ []) :
    Dev.forEach l (fun d g => d.confirmDone (.channel n) g false) d = d.updChannel n fun k => k.confirming r [] := by
  induction l generalizing d r with
  | nil => exact absurd rfl hne
  | cons a l ih =>
    change Dev.forEach l _ (d.confirmDone (.channel n) a false) = _
    rw [confirmDone_first hr hl]
    cases l with
    | nil => rfl
    | cons b l =>
      have hrun : ((d.updChannel n fun k => k.confirming r (b :: l)).channel n).run = some { r with confirms := b :: l, confirmFailed := true } :=
        congrArg Channel.run (Dev.channel_updChannel ..)
      rw [ih _ _ hrun rfl (List.cons_ne_nil _ _), Dev.updChannel_updChannel_of_ne (confirming_ne _ _ _)]
      rfl

/-- Settles O47: each event by the part of the host link, or of a facet, that it leaves. -/
theorem linkEvents : Obligations.LinkEvents := by
  unfold Obligations.LinkEvents
  intro s d out
  have run {x y : Dev} (h : x = y) : (Host.Outcome.next (s.to x) : Out) = .next (s.to y) := congrArg (fun e => Host.Outcome.next (s.to e)) h
  refine ⟨fun hup => ⟨d.linkLost, rfl, fun f hf => ?_⟩, fun hdown => ?_, fun rate width hdown hperst hstep hrate hwidth => ?_, fun hup => run (if_pos hup),
    fun rate width hup hrate hwidth hless => ?_, fun fn size hup hstep hfn hsize hrecovery => ?_, fun fn hbus hstep hrecovery => ⟨fun hno => ?_, fun h => ?_⟩,
    fun line w hfar hw => run (farWriteDone_eq hfar hw), fun b c hc => ?_, fun fn serial c hc => ?_, fun ch r hr hstate hne => ?_⟩
  · obtain ⟨hbuses, hwindows, hvoid, hplain, haper, hcmds, hrings⟩ := linkDown_facets hup f hf
    exact ⟨hbuses, hwindows, hvoid, hplain, haper, hcmds, hrings⟩
  · exact run (if_pos (by rw [hdown]; rfl))
  · obtain ⟨hhost, hfacet⟩ := trained_parts (d := d) rate width
    refine ⟨d.trained rate width, run (if_neg (linkUp_ok hdown hperst hstep hrate hwidth)), ?_⟩
    rw [hhost]
    exact ⟨rfl, rfl, rfl, rfl, rfl, rfl, hfacet⟩
  · have hup : s.dev.host.linkUp = true := hup
    refine run (if_neg fun hno => ?_)
    simp only [hup, linkShapeOk, hrate, List.contains_iff_mem.mpr hwidth, decide_true, Bool.and_self, Bool.not_true, Bool.or_self, Bool.false_or,
      Bool.and_eq_true, decide_eq_true_eq] at hno
    exact hless.elim (fun h => h hno.1) fun h => h hno.2
  · have hrun := exec_bar4Resize hup hstep hfn hsize hrecovery
    have hfacet : (d.updFacet fn fun x => x.resizeBar4 size).facet fn = (d.facet fn).resizeBar4 size := Dev.facet_updFacet ..
    refine ⟨fun hne => ⟨_, hrun, ?_, fun a => ?_, fun g hg => Dev.facet_updFacet_ne _ hg _⟩, ⟨_, hrun, ?_⟩⟩
    · rw [hfacet]
      exact resizeBar4_bar4 _ _
    · rw [hfacet]
      exact mem_resizeBar4 hne a
    · rw [hfacet]
      exact resizeBar4_bar4 _ _
  · exact (exec_flr hbus hstep hrecovery).trans (run (if_pos (by rw [hno]; rfl)))
  · refine ⟨d.flrOf fn, exec_flr hbus hstep hrecovery, ?_⟩
    obtain ⟨hstate, ⟨hhello, hcmds, hbuses, hwindows⟩, haper, hgo, hbusy, hbar4⟩ := flrOf_facet h
    exact ⟨hstate, hhello, hcmds, hbuses, haper, hwindows, hgo, hbusy, hbar4⟩
  · have hc : s.dev.ctx? b = some c := hc
    refine run ?_
    simp only [hc]
    rfl
  · have hc : (s.dev.facet fn).cmd? serial = some c := hc
    refine run ?_
    simp only [hc]
    rfl
  · have hr : (s.dev.channel ch).run = some r := hr
    have hstate : (s.dev.channel ch).state = .confirming := hstate
    refine run ?_
    simp only [hr, hstate, if_true]
    exact confirmDone_all d r hr rfl hne

end Sys2Proof.Machine
end

section
/-! The facet commands: creation, destruction, resizing, resuming, reset, dirty logging and query (R363 to R383). -/

namespace Sys2Proof.Machine

variable {s : State} {d e x : Dev} {fn f g : Nat} {st : Code} {q : Quota}

/-! ## What the moves of channels leave of a facet -/

/-- Every facet keeps its state and its quota. -/
def Dev.KeepsRoles (d e : Dev) : Prop := ∀ n, (e.facet n).state = (d.facet n).state ∧ (e.facet n).quota = (d.facet n).quota

theorem Dev.KeepsRoles.refl (d : Dev) : d.KeepsRoles d := fun _ => ⟨rfl, rfl⟩

theorem Dev.KeepsRoles.trans (h : d.KeepsRoles e) (h' : e.KeepsRoles x) : d.KeepsRoles x := fun n =>
  ⟨(h' n).1.trans (h n).1, (h' n).2.trans (h n).2⟩

theorem Dev.KeepsRoles.of_facets (h : e.facets = d.facets) : d.KeepsRoles e := fun n => by
  unfold Dev.facet
  rw [h]
  exact ⟨rfl, rfl⟩

theorem Dev.KeepsRoles.forEach {α : Type} {l : List α} {g : Dev → α → Dev} (h : ∀ d a, Dev.KeepsRoles d (g d a)) (d : Dev) :
    d.KeepsRoles (Dev.forEach l g d) := by
  induction l generalizing d with
  | nil => exact .refl d
  | cons a l ih => exact (h d a).trans (ih (g d a))

theorem keepsRoles_updFacet {g : Facet → Facet} (h : (g (d.facet f)).state = (d.facet f).state ∧ (g (d.facet f)).quota = (d.facet f).quota) :
    d.KeepsRoles (d.updFacet f g) := fun n => by
  by_cases hn : n = f
  · subst hn
    rw [Dev.facet_updFacet]
    exact h
  · rw [Dev.facet_updFacet_ne _ hn]
    exact ⟨rfl, rfl⟩

theorem keepsRoles_markHostLost (serial : Nat) : d.KeepsRoles (d.markHostLost f serial) := by
  refine keepsRoles_updFacet ?_
  cases (d.facet f).cmd? serial with
  | none => exact ⟨rfl, rfl⟩
  | some c =>
    dsimp only
    split
    · exact ⟨rfl, rfl⟩
    · exact ⟨rfl, rfl⟩

theorem keepsRoles_barrierReads (serial : Nat) : d.KeepsRoles (d.barrierReads f serial).2 := by
  unfold Dev.barrierReads
  split
  · exact .refl d
  · dsimp only
    split
    · exact .refl d
    · split
      · exact keepsRoles_markHostLost serial
      · exact .of_facets (facets_forEach_askRegions _ _ _)

theorem keepsRoles_endCmd (serial : Nat) (result : Nat) : d.KeepsRoles (d.endCmd f serial st result) :=
  (keepsRoles_barrierReads serial).trans (keepsRoles_updFacet ⟨rfl, rfl⟩)

theorem keepsRoles_updChannel (n : Nat) (g : Channel → Channel) : d.KeepsRoles (d.updChannel n g) := .of_facets rfl

theorem keepsRoles_moveQueue (ch : Nat) : d.KeepsRoles (d.moveQueue ch) := by
  unfold Dev.moveQueue
  refine (keepsRoles_updChannel ch _).trans (.forEach (fun d v => ?_) _)
  cases d.leastQueued v.fn with
  | none => exact keepsRoles_endCmd v.serial 0
  | some n => exact keepsRoles_updChannel n _

theorem keepsRoles_assignChannels : d.KeepsRoles d.assignChannels := by
  unfold Dev.assignChannels
  refine (Dev.KeepsRoles.forEach (fun d ch => keepsRoles_updChannel ch _) d).trans (.forEach (fun d ch => ?_) _)
  dsimp only
  split
  · exact keepsRoles_moveQueue ch
  · exact (keepsRoles_moveQueue ch).trans (keepsRoles_updChannel ch _)

theorem createFacet_facet (hq : q.partition = false) : ((d.createFacet g q).facet g).state = .running ∧ ((d.createFacet g q).facet g).quota = q := by
  have hcreated : (((d.updFacet g fun x => x.created q).clearFacetCounters g).facet g) = (d.facet g).created q :=
    Dev.facet_updFacet d g fun x => x.created q
  have hkeeps := keepsRoles_assignChannels (d := (d.updFacet g fun x => x.created q).clearFacetCounters g) g
  have heq : d.createFacet g q = ((d.updFacet g fun x => x.created q).clearFacetCounters g).assignChannels := by
    simp only [Dev.createFacet, hq, Bool.false_eq_true, if_false]
  rw [hcreated] at hkeeps
  rw [heq]
  exact hkeeps

theorem state_updLehr {F : Facet → Facet} {G : Lehr → Lehr} {t : FacetState} (h : ∀ x, (F x).state = t) :
    (((d.updFacet g F).updLehr G).facet g).state = t :=
  (congrArg Facet.state (Dev.facet_updFacet d g F)).trans (h _)

theorem destroyFacet_gone : (d.destroyFacet g).facetExists g = false := by
  unfold Dev.destroyFacet Dev.facetExists
  rw [(keepsRoles_assignChannels g).1]
  exact decide_eq_false fun h => h (state_updLehr fun _ => rfl)

/-! ## The facet that a command names -/

theorem facetTarget_ok {p : List Byte} {allowed : FacetState → Bool} (h0 : leAt p 1 1 % 64 ≠ 0) (h : d.facetExists (leAt p 1 1 % 64) = true)
    (hallowed : allowed (d.facet (leAt p 1 1 % 64)).state = true) : d.facetTarget p allowed = .ok (leAt p 1 1 % 64) := by
  simp only [Dev.facetTarget, bits_zero, Nat.reducePow, h0, h, hallowed, Bool.not_true, Bool.false_eq_true, if_false]

theorem facetTarget_zero {p : List Byte} {allowed : FacetState → Bool} (h0 : leAt p 1 1 % 64 = 0) : d.facetTarget p allowed = .error 0x3 := by
  simp only [Dev.facetTarget, bits_zero, Nat.reducePow, h0, if_true]

theorem facetTarget_absent {p : List Byte} {allowed : FacetState → Bool} (h0 : leAt p 1 1 % 64 ≠ 0) (h : d.facetExists (leAt p 1 1 % 64) = false) :
    d.facetTarget p allowed = .error 0x503 := by
  simp only [Dev.facetTarget, bits_zero, Nat.reducePow, h0, h, Bool.not_false, if_true, if_false]

theorem facetTarget_state {p : List Byte} {allowed : FacetState → Bool} (h0 : leAt p 1 1 % 64 ≠ 0) (h : d.facetExists (leAt p 1 1 % 64) = true)
    (hno : allowed (d.facet (leAt p 1 1 % 64)).state = false) : d.facetTarget p allowed = .error 0x502 := by
  simp only [Dev.facetTarget, bits_zero, Nat.reducePow, h0, h, hno, Bool.not_true, Bool.not_false, Bool.false_eq_true, if_true, if_false]

theorem isStopped_iff (t : FacetState) : t.isStopped = true ↔ t = .quiesced ∨ t = .frozen := by
  cases t <;> simp [FacetState.isStopped]

/-! ## FACET_CREATE -/

theorem createRefusal_none (h0 : d.security.lifecycle ≠ 0) (h3 : d.security.lifecycle ≠ 3) (hdebug : d.security.debug ≠ 3) : d.createRefusal = none :=
  (if_neg fun h => h.elim h0 h3).trans (if_neg hdebug)

section create

variable (h : Served s.dev fn 0x0500)
include h

theorem facetCreate_ok (hnone : s.dev.createRefusal = none) (hq : (quotaOf (s.dev.mbxRequest fn)).inRange = true)
    (hfree : leAt (s.dev.mbxRequest fn) 1 1 % 64 = 0 ∨ s.dev.facetExists (leAt (s.dev.mbxRequest fn) 1 1 % 64) = false)
    (hg : s.dev.newFacet (leAt (s.dev.mbxRequest fn) 1 1 % 64) = some g) (hok : s.dev.quotaCheck g (quotaOf (s.dev.mbxRequest fn)) 0 = none) :
    exec (.facetCreate fn) s = .next (s.to (((s.dev.mbxJournaled fn 0x0500 (leAt (s.dev.mbxRequest fn) 1 1 % 64)).createFacet g
      (quotaOf (s.dev.mbxRequest fn))).mbxRespond fn 0 ([1, BitVec.ofNat 8 g] ++ leBytes 6 0))) := by
  refine (congrArg (fun e => Host.Outcome.next (s.to e)) (Dev.mbxRun_done h rfl (fun e => e.createFacet g (quotaOf (s.dev.mbxRequest fn)))
    (fun _ => [1, BitVec.ofNat 8 g] ++ leBytes 6 0) fun y => ?_)).trans ?_
  · have hnone' : (s.dev.withJournal y).createRefusal = none := hnone
    have hfree' : ¬ (leAt (s.dev.mbxRequest fn) 1 1 % 64 ≠ 0 ∧ (s.dev.withJournal y).facetExists (leAt (s.dev.mbxRequest fn) 1 1 % 64) = true) :=
      fun ⟨hne, hthere⟩ => hfree.elim hne fun hno => Bool.false_ne_true (hno.symm.trans hthere)
    have hg' : (s.dev.withJournal y).newFacet (leAt (s.dev.mbxRequest fn) 1 1 % 64) = some g := hg
    have hok' : (s.dev.withJournal y).quotaCheck g (quotaOf (s.dev.mbxRequest fn)) 0 = none := hok
    simp only [hnone', hq, bits_zero, Nat.reducePow, if_neg hfree', hg', hok', Bool.not_true, Bool.false_eq_true, if_false]
  · simp only [ofFacetField, bits_zero, Nat.reducePow]

theorem facetCreate_lifecycle (hlife : s.dev.security.lifecycle = 0 ∨ s.dev.security.lifecycle = 3) :
    exec (.facetCreate fn) s = .next (s.to (s.dev.mbxRefuse fn 0x803 [])) := by
  refine congrArg (fun e => Host.Outcome.next (s.to e)) (Dev.mbxRun_refuse h ?_)
  have hsome : s.dev.createRefusal = some 0x803 := if_pos hlife
  simp only [hsome]

theorem facetCreate_range (hnone : s.dev.createRefusal = none) (hq : (quotaOf (s.dev.mbxRequest fn)).inRange = false) :
    exec (.facetCreate fn) s = .next (s.to (s.dev.mbxRefuse fn 0x3 [])) := by
  refine congrArg (fun e => Host.Outcome.next (s.to e)) (Dev.mbxRun_refuse h ?_)
  simp only [hnone, hq, Bool.not_false, if_true]

theorem facetCreate_exists (hnone : s.dev.createRefusal = none) (hq : (quotaOf (s.dev.mbxRequest fn)).inRange = true)
    (hthere : leAt (s.dev.mbxRequest fn) 1 1 % 64 ≠ 0 ∧ s.dev.facetExists (leAt (s.dev.mbxRequest fn) 1 1 % 64) = true) :
    exec (.facetCreate fn) s = .next (s.to (s.dev.mbxRefuse fn 0x502 [])) := by
  refine congrArg (fun e => Host.Outcome.next (s.to e)) (Dev.mbxRun_refuse h ?_)
  simp only [hnone, hq, bits_zero, Nat.reducePow, if_pos hthere, Bool.not_true, Bool.false_eq_true, if_false]

/-- A creation that finds no free number, or whose quota fails a check of R370. -/
theorem facetCreate_refused (hnone : s.dev.createRefusal = none) (hq : (quotaOf (s.dev.mbxRequest fn)).inRange = true)
    (hfree : leAt (s.dev.mbxRequest fn) 1 1 % 64 = 0 ∨ s.dev.facetExists (leAt (s.dev.mbxRequest fn) 1 1 % 64) = false) :
    (s.dev.newFacet (leAt (s.dev.mbxRequest fn) 1 1 % 64) = none → exec (.facetCreate fn) s = .next (s.to (s.dev.mbxRefuse fn 0x510 []))) ∧
    (∀ g st, s.dev.newFacet (leAt (s.dev.mbxRequest fn) 1 1 % 64) = some g → s.dev.quotaCheck g (quotaOf (s.dev.mbxRequest fn)) 0 = some st →
      exec (.facetCreate fn) s = .next (s.to (s.dev.mbxRefuse fn st []))) := by
  have hfree' : ¬ (leAt (s.dev.mbxRequest fn) 1 1 % 64 ≠ 0 ∧ s.dev.facetExists (leAt (s.dev.mbxRequest fn) 1 1 % 64) = true) :=
    fun ⟨hne, hthere⟩ => hfree.elim hne fun hno => Bool.false_ne_true (hno.symm.trans hthere)
  refine ⟨fun hg => ?_, fun g st hg hst => ?_⟩
  · refine congrArg (fun e => Host.Outcome.next (s.to e)) (Dev.mbxRun_refuse h ?_)
    simp only [hnone, hq, bits_zero, Nat.reducePow, if_neg hfree', hg, Bool.not_true, Bool.false_eq_true, if_false]
  · refine congrArg (fun e => Host.Outcome.next (s.to e)) (Dev.mbxRun_refuse h ?_)
    simp only [hnone, hq, bits_zero, Nat.reducePow, if_neg hfree', hg, hst, Bool.not_true, Bool.false_eq_true, if_false]

end create

/-! ## Commands on a facet that exists -/

/-- The request of a function names a facet other than 0 that exists. -/
def Dev.Names (d : Dev) (fn f : Nat) : Prop := leAt (d.mbxRequest fn) 1 1 % 64 = f ∧ f ≠ 0 ∧ d.facetExists f = true

theorem Dev.Names.target (h : d.Names fn f) {allowed : FacetState → Bool} (hallowed : allowed (d.facet f).state = true) (y : Security) :
    (d.withJournal y).facetTarget (d.mbxRequest fn) allowed = .ok f := by
  obtain ⟨rfl, h0, hex⟩ := h
  exact facetTarget_ok (d := d.withJournal y) h0 hex hallowed

theorem Dev.Names.subject (h : d.Names fn f) : ofFacetField d (d.mbxRequest fn) = f := by
  obtain ⟨rfl, -, -⟩ := h
  simp only [ofFacetField, bits_zero, Nat.reducePow]

/-- A command on a facet in a state that its rule allows. -/
theorem Dev.mbxRun_named {code : Nat} {body : Dev → List Byte → MbxResult} {allowed : FacetState → Bool} (hs : Served d fn code)
    (hr : readOnlyCommand code = false) (h : d.Names fn f) (hallowed : allowed (d.facet f).state = true) (F : Dev → Dev) (q : List Byte)
    (hb : ∀ y, (d.withJournal y).facetTarget (d.mbxRequest fn) allowed = .ok f → body (d.withJournal y) (d.mbxRequest fn) = .ok (F (d.withJournal y)) q) :
    d.mbxRun fn code ofFacetField body = (F (d.mbxJournaled fn code f)).mbxRespond fn 0 q := by
  have heq := Dev.mbxRun_done (subject := ofFacetField) hs hr F (fun _ => q) fun y => hb y (h.target hallowed y)
  rwa [h.subject] at heq

theorem facetDestroy_eq (hs : Served s.dev fn 0x0501) (h : s.dev.Names fn f) (hstop : (s.dev.facet f).state.isStopped = true) :
    exec (.facetDestroy fn) s = .next (s.to (((s.dev.mbxJournaled fn 0x0501 f).destroyFacet f).mbxRespond fn 0 [])) :=
  congrArg (fun e => Host.Outcome.next (s.to e)) (Dev.mbxRun_named hs rfl h hstop (fun e => e.destroyFacet f) [] fun y ht => by simp only [ht])

theorem facetResume_eq (hs : Served s.dev fn 0x0504) (h : s.dev.Names fn f) (hstop : (s.dev.facet f).state.isStopped = true) :
    exec (.facetResume fn) s = .next (s.to (((((s.dev.mbxJournaled fn 0x0504 f).updFacet f fun x => { x with state := .running }).resumeRiders
      f).resumeDma f).mbxRespond fn 0 [])) :=
  congrArg (fun e => Host.Outcome.next (s.to e)) (Dev.mbxRun_named hs rfl h hstop
    (fun e => ((e.updFacet f fun x => { x with state := .running }).resumeRiders f).resumeDma f) [] fun y ht => by simp only [ht])

theorem facetReset_eq (hs : Served s.dev fn 0x0505) (h : s.dev.Names fn f) (hstop : (s.dev.facet f).state.isStopped = true) :
    exec (.facetReset fn) s = .next (s.to ((((s.dev.mbxJournaled fn 0x0505 f).resetActions f 0x516).updFacet f fun x =>
      { x with state := .quiesced }).mbxRespond fn 0 [])) :=
  congrArg (fun e => Host.Outcome.next (s.to e)) (Dev.mbxRun_named hs rfl h hstop
    (fun e => (e.resetActions f 0x516).updFacet f fun x => { x with state := .quiesced }) [] fun y ht => by simp only [ht])

/-- The quota of a FACET_RESIZE: a partition stays one (R372). -/
def Dev.resizeQuota (d : Dev) (fn f : Nat) : Quota := { quotaOf (d.mbxRequest fn) with partition := (d.facet f).quota.partition }

theorem facetResize_eq (hs : Served s.dev fn 0x0502) (h : s.dev.Names fn f) (hr : (s.dev.resizeQuota fn f).inRange = true)
    (hok : s.dev.quotaCheck f (s.dev.resizeQuota fn f) (s.dev.facet f).quota.hbmPages = none)
    (hneed : (s.dev.resizeQuota fn f).partition = true → s.dev.partitionNeed f ≤ countIf (fun c => decide (c < 768)) (s.dev.resizeQuota fn f).cores) :
    exec (.facetResize fn) s = .next (s.to (((s.dev.mbxJournaled fn 0x0502 f).resizeFacet f (s.dev.resizeQuota fn f)
      ((leAt (s.dev.mbxRequest fn) 1 1).testBit 7)).mbxRespond fn 0 [])) := by
  refine congrArg (fun e => Host.Outcome.next (s.to e)) (Dev.mbxRun_named (allowed := fun _ => true) hs rfl h rfl
    (fun e => e.resizeFacet f (s.dev.resizeQuota fn f) ((leAt (s.dev.mbxRequest fn) 1 1).testBit 7)) [] fun y ht => ?_)
  have hcheck : (s.dev.withJournal y).quotaCheck f (s.dev.resizeQuota fn f) ((s.dev.withJournal y).facet f).quota.hbmPages = none := hok
  have hroom : ¬ ((s.dev.resizeQuota fn f).partition && decide (countIf (fun c => decide (c < 768)) (s.dev.resizeQuota fn f).cores <
      (s.dev.withJournal y).partitionNeed f)) = true := by
    intro hno
    simp only [Bool.and_eq_true, decide_eq_true_eq] at hno
    exact absurd (hneed hno.1) (Nat.not_le.mpr hno.2)
  rw [ht]
  refine (if_neg (not_not_true hr)).trans ?_
  generalize hc : Dev.quotaCheck _ _ _ _ = c
  obtain rfl : c = none := hc.symm.trans hcheck
  exact if_neg hroom

/-! ## FACET_DIRTY_LOG -/

/-- The log that a start of dirty logging sets (R382). -/
def startedLog (p : List Byte) : DirtyLog := DirtyLog.mk true false (leAt p 8 8) (leAt p 16 8) (leAt p 24 8) (leAt p 32 8) []

theorem dirtyLog_start (hs : Served s.dev fn 0x0508) (h : s.dev.Names fn f) :
    let p := s.dev.mbxRequest fn
    let started := fun (x : Facet) => { x with log := startedLog p }
    leAt p 2 1 % 4 = 0 → (s.dev.facet f).log.on = false → leAt p 8 8 % 8 = 0 → leAt p 16 8 % 8 = 0 → leAt p 24 8 % 4096 = 0 →
    leAt p 32 8 % 4096 = 0 → leAt p 32 8 ≤ 2 ^ 40 → (s.dev.updFacet f started).hbmUsed 0 ≤ (s.dev.updFacet f started).hbmQuota 0 →
    exec (.facetDirtyLog fn) s = .next (s.to (((s.dev.mbxJournaled fn 0x0508 f).updFacet f started).mbxRespond fn 0 [])) := by
  intro p started hop hoff ha hb hbase hsize hmax hroom
  have h3 : ¬ leAt (s.dev.mbxRequest fn) 2 1 % 4 = 3 := fun h3 => absurd (hop.symm.trans h3) (by decide)
  refine congrArg (fun e => Host.Outcome.next (s.to e)) (Dev.mbxRun_named (allowed := fun _ => true) hs rfl h rfl
    (fun e => e.updFacet f started) [] fun y ht => ?_)
  rw [ht]
  simp only [bits_zero, Nat.reducePow]
  refine (if_neg h3).trans ((if_pos hop).trans ((if_neg (Bool.eq_false_iff.mp hoff)).trans ((if_neg ?_).trans (if_neg (Nat.not_lt.mpr hroom)))))
  rintro (hno | hno | hno | hno | hno)
  · exact hno ha
  · exact hno hb
  · exact hno hbase
  · exact hno hsize
  · exact absurd hmax (Nat.not_le.mpr hno)

/-- The report of a running log (R383). -/
def DirtyLog.report (l : DirtyLog) : List Byte := leBytes 8 1 ++ leBytes 8 l.shadow.length

theorem dirtyLog_switch (hs : Served s.dev fn 0x0508) (h : s.dev.Names fn f) (hop : leAt (s.dev.mbxRequest fn) 2 1 % 4 = 1)
    (hon : (s.dev.facet f).log.on = true) :
    exec (.facetDirtyLog fn) s = .next (s.to (((s.dev.mbxJournaled fn 0x0508 f).updFacet f fun x =>
      { x with log := { x.log with sideB := !x.log.sideB, shadow := [] } }).mbxRespond fn 0 (s.dev.facet f).log.report)) := by
  refine congrArg (fun e => Host.Outcome.next (s.to e)) (Dev.mbxRun_named (allowed := fun _ => true) hs rfl h rfl
    (fun e => e.updFacet f fun x => { x with log := { x.log with sideB := !x.log.sideB, shadow := [] } }) (s.dev.facet f).log.report fun y ht => ?_)
  rw [ht]
  simp only [bits_zero, Nat.reducePow]
  exact (if_neg (by omega)).trans ((if_neg (by omega)).trans ((if_neg (not_not_true hon)).trans (if_pos hop)))

theorem dirtyLog_stop (hs : Served s.dev fn 0x0508) (h : s.dev.Names fn f) (hop : leAt (s.dev.mbxRequest fn) 2 1 % 4 = 2)
    (hon : (s.dev.facet f).log.on = true) :
    exec (.facetDirtyLog fn) s = .next (s.to (((s.dev.mbxJournaled fn 0x0508 f).updFacet f fun x => { x with log := DirtyLog.off }).mbxRespond fn 0
      (s.dev.facet f).log.report)) := by
  refine congrArg (fun e => Host.Outcome.next (s.to e)) (Dev.mbxRun_named (allowed := fun _ => true) hs rfl h rfl
    (fun e => e.updFacet f fun x => { x with log := DirtyLog.off }) (s.dev.facet f).log.report fun y ht => ?_)
  rw [ht]
  simp only [bits_zero, Nat.reducePow]
  exact (if_neg (by omega)).trans ((if_neg (by omega)).trans ((if_neg (not_not_true hon)).trans (if_neg (by omega))))

theorem dirtyLog_refused (hs : Served s.dev fn 0x0508) (h : s.dev.Names fn f)
    (hcause : (leAt (s.dev.mbxRequest fn) 2 1 % 4 = 0 ∧ (s.dev.facet f).log.on = true) ∨
      (leAt (s.dev.mbxRequest fn) 2 1 % 4 ≠ 0 ∧ leAt (s.dev.mbxRequest fn) 2 1 % 4 ≠ 3 ∧ (s.dev.facet f).log.on = false)) :
    exec (.facetDirtyLog fn) s = .next (s.to (s.dev.mbxRefuse fn 0x518 [])) := by
  refine congrArg (fun e => Host.Outcome.next (s.to e)) (Dev.mbxRun_refuse hs ?_)
  have ht : s.dev.facetTarget (s.dev.mbxRequest fn) (fun _ => true) = .ok f := h.target rfl s.dev.security
  rw [ht]
  simp only [bits_zero, Nat.reducePow]
  rcases hcause with ⟨hop, hon⟩ | ⟨h0, h3, hoff⟩
  · exact (if_neg (by omega)).trans ((if_pos hop).trans (if_pos hon))
  · refine (if_neg h3).trans ((if_neg h0).trans (if_pos ?_))
    rw [hoff]
    rfl

/-! ## FACET_QUERY, refusals, and quotas that are met again -/

theorem facetQuery_eq (hs : Served s.dev fn 0x0509) (hown : fn = 0 ∨ leAt (s.dev.mbxRequest fn) 1 1 % 64 = fn)
    (hex : s.dev.facetExists (leAt (s.dev.mbxRequest fn) 1 1 % 64) = true) :
    exec (.facetQuery fn) s = .next (s.to (s.dev.mbxRespond fn 0 (s.dev.quotaBytes (leAt (s.dev.mbxRequest fn) 1 1 % 64)))) := by
  refine congrArg (fun e => Host.Outcome.next (s.to e)) (Dev.mbxRun_read hs rfl ?_)
  simp only [bits_zero, Nat.reducePow]
  exact (if_neg fun ⟨h0, hne⟩ => hown.elim h0 hne).trans (if_neg (not_not_true hex))

theorem facetQuery_refused (hs : Served s.dev fn 0x0509) (h0 : fn ≠ 0) (hne : leAt (s.dev.mbxRequest fn) 1 1 % 64 ≠ fn) :
    exec (.facetQuery fn) s = .next (s.to (s.dev.mbxRefuse fn 0x5 [])) := by
  refine congrArg (fun e => Host.Outcome.next (s.to e)) (Dev.mbxRun_refuse hs ?_)
  simp only [bits_zero, Nat.reducePow]
  exact if_pos ⟨h0, hne⟩

/-- A command that names no facet that its rule allows: the refusal of R363. -/
theorem facetCommand_refused {c : Nat × Instr} (hc : c ∈ [(0x0501, Instr.facetDestroy fn), (0x0502, .facetResize fn), (0x0503, .facetQuiesce fn),
      (0x0504, .facetResume fn), (0x0505, .facetReset fn), (0x0506, .facetSave fn), (0x0508, .facetDirtyLog fn)]) (hs : Served s.dev fn c.1)
    (ht : ∀ allowed, s.dev.facetTarget (s.dev.mbxRequest fn) allowed = .error st) : exec c.2 s = .next (s.to (s.dev.mbxRefuse fn st [])) := by
  simp only [List.mem_cons, List.not_mem_nil, or_false] at hc
  rcases hc with rfl | rfl | rfl | rfl | rfl | rfl | rfl <;>
    exact congrArg (fun e => Host.Outcome.next (s.to e)) (Dev.mbxRun_refuse hs (by simp only [ht]))

theorem facetCommand_notStopped {c : Nat × Instr} (hc : c ∈ [(0x0501, Instr.facetDestroy fn), (0x0504, .facetResume fn), (0x0505, .facetReset fn)])
    (hs : Served s.dev fn c.1) (h : s.dev.Names fn f) (hrun : (s.dev.facet f).state.isStopped = false) :
    exec c.2 s = .next (s.to (s.dev.mbxRefuse fn 0x502 [])) := by
  obtain ⟨rfl, h0, hex⟩ := h
  have ht := facetTarget_state h0 hex hrun
  simp only [List.mem_cons, List.not_mem_nil, or_false] at hc
  rcases hc with rfl | rfl | rfl <;>
    exact congrArg (fun e => Host.Outcome.next (s.to e)) (Dev.mbxRun_refuse hs (by simp only [ht]))

theorem overCleared_eq (h0 : g ≠ 0) (hover : (d.facet g).overBits ≠ 0) :
    let now := (d.facet g).overBits &&& d.overNow g
    let e := d.updFacet g fun x => { x with overBits := now }
    d.overCleared g = if now = 0 then e.glint 0 0x501 g 2 0 else e :=
  if_neg fun h => h.elim h0 hover

/-- Settles O48: each command by its own rule, on the facet that it names. -/
theorem facetCommands : Obligations.FacetCommands := by
  unfold Obligations.FacetCommands
  intro s fn d p f log out q there stopped
  have names (h : there) : d.Names fn f := ⟨rfl, h.1, h.2⟩
  have stop (h : stopped) : (d.facet f).state.isStopped = true := (isStopped_iff _).mpr h
  refine ⟨fun hs => ⟨fun h0 h3 hdebug => ?_, fun hlife => facetCreate_lifecycle hs hlife⟩, fun g => ⟨fun hq => createFacet_facet hq, destroyFacet_gone⟩,
    fun hs h hstop => facetDestroy_eq hs (names h) (stop hstop), fun hs h hr hok hneed => facetResize_eq hs (names h) hr hok hneed,
    fun hs h hstop => facetResume_eq hs (names h) (stop hstop), fun hs h hstop => facetReset_eq hs (names h) (stop hstop), fun hs h => ?_, fun hs => ?_,
    fun c hc hs => ⟨fun h0 => ?_, fun h0 hex => ?_⟩, fun c hc hs h hrun => ?_, fun g h0 hover => ?_⟩
  · have hnone := createRefusal_none h0 h3 hdebug
    refine ⟨fun hq hfree => ?_, fun hq => facetCreate_range hs hnone hq, fun hq h => facetCreate_exists hs hnone hq h⟩
    obtain ⟨hno, hbad⟩ := facetCreate_refused hs hnone hq hfree
    exact ⟨fun g hg hok => facetCreate_ok hs hnone hq hfree hg hok, hbad, hno⟩
  · exact ⟨fun hop hoff ha hb hbase hsize hmax hroom => dirtyLog_start hs (names h) hop hoff ha hb hbase hsize hmax hroom,
      fun hop hon => dirtyLog_switch hs (names h) hop hon, fun hop hon => dirtyLog_stop hs (names h) hop hon,
      fun hcause => dirtyLog_refused hs (names h) hcause⟩
  · exact ⟨fun hown hex => facetQuery_eq hs hown hex, fun h0 hne => facetQuery_refused hs h0 hne⟩
  · exact facetCommand_refused hc hs fun _ => facetTarget_zero h0
  · exact facetCommand_refused hc hs fun _ => facetTarget_absent h0 hex
  · refine facetCommand_notStopped hc hs (names h) (Bool.eq_false_iff.mpr fun ht => hrun ((isStopped_iff _).mp ht))
  · exact congrArg out (overCleared_eq h0 hover)

end Sys2Proof.Machine
end

section
/-! Quiescing, saving and restoring a facet (R373, R374, R379, R380). -/

namespace Sys2Proof.Machine

variable {s : State} {d : Dev} {fn f g : Nat} {st : Code}

/-! ## FACET_QUIESCE -/

/-- The facet is being quiesced by a request of function fn (R373). -/
def Dev.quiescing (d : Dev) (f fn : Nat) (freeze : Bool) (limit store : Nat) : Dev :=
  d.updFacet f fun x => { x with state := .quiescing, freezing := freeze, limitMs := limit, endedCount := 0, quiescer := some fn,
                                 storePages := if freeze then store else x.storePages }

theorem Dev.Names.of_running (h0 : leAt (d.mbxRequest fn) 1 1 % 64 ≠ 0) {t : FacetState} (ht : t ≠ .absent)
    (h : (d.facet (leAt (d.mbxRequest fn) 1 1 % 64)).state = t) : d.Names fn (leAt (d.mbxRequest fn) 1 1 % 64) :=
  ⟨rfl, h0, decide_eq_true (h ▸ ht)⟩

theorem drains {freeze b : Bool} (h : freeze = false) : ¬ (freeze && b) = true := by
  rw [h]
  exact Bool.false_ne_true

section quiesce

theorem quiesce_target (h : s.dev.Names fn f) (hrun : (s.dev.facet f).state = .running) (y : Security) : (s.dev.withJournal y).facetTarget (s.dev.mbxRequest fn) (fun t => decide (t = .running)) = .ok f :=
  h.target (decide_eq_true hrun) y

variable (hs : Served s.dev fn 0x0503) (h : s.dev.Names fn f) (hrun : (s.dev.facet f).state = .running)
include hs h hrun

theorem quiesce_limit (hlimit : 60000 < leAt (s.dev.mbxRequest fn) 4 2) : exec (.facetQuiesce fn) s = .next (s.to (s.dev.mbxRefuse fn 0x3 [])) := by
  have ht : s.dev.facetTarget (s.dev.mbxRequest fn) (fun t => decide (t = .running)) = .ok f := quiesce_target h hrun s.dev.security
  refine congrArg (fun e => Host.Outcome.next (s.to e)) (Dev.mbxRun_refuse hs ?_)
  rw [ht]
  exact if_pos hlimit

theorem quiesce_store (hlimit : leAt (s.dev.mbxRequest fn) 4 2 ≤ 60000) (hfreeze : (leAt (s.dev.mbxRequest fn) 2 1).testBit 0 = true)
    (hfull : s.dev.hbmFree 0 < pagesOf (s.dev.storeBytes f)) : exec (.facetQuiesce fn) s = .next (s.to (s.dev.mbxRefuse fn 0x650 [])) := by
  have ht : s.dev.facetTarget (s.dev.mbxRequest fn) (fun t => decide (t = .running)) = .ok f := quiesce_target h hrun s.dev.security
  refine congrArg (fun e => Host.Outcome.next (s.to e)) (Dev.mbxRun_refuse hs ?_)
  rw [ht]
  refine (if_neg (Nat.not_lt.mpr hlimit)).trans (if_pos ?_)
  simp only [bit, hfreeze, Bool.true_and, decide_eq_true_eq]
  exact hfull

theorem quiesce_freeze (hlimit : leAt (s.dev.mbxRequest fn) 4 2 ≤ 60000) (hfreeze : (leAt (s.dev.mbxRequest fn) 2 1).testBit 0 = true)
    (hroom : pagesOf (s.dev.storeBytes f) ≤ s.dev.hbmFree 0) :
    exec (.facetQuiesce fn) s = .next (s.to (((((s.dev.mbxJournaled fn 0x0503 f).quiescing f fn ((leAt (s.dev.mbxRequest fn) 2 1).testBit 0)
      (leAt (s.dev.mbxRequest fn) 4 2)
      (pagesOf (s.dev.storeBytes f))).abortHalted f).freezeWork f).mbxAccept fn)) := by
  refine (congrArg (fun e => Host.Outcome.next (s.to e)) (Dev.mbxRun_waits hs rfl (fun e => ((e.quiescing f fn ((leAt (s.dev.mbxRequest fn) 2 1).testBit 0)
      (leAt (s.dev.mbxRequest fn) 4 2)
    (pagesOf (s.dev.storeBytes f))).abortHalted f).freezeWork f) fun y => ?_)).trans ?_
  · have hno : ¬ ((leAt (s.dev.mbxRequest fn) 2 1).testBit 0 && decide ((s.dev.withJournal y).hbmFree 0 < pagesOf ((s.dev.withJournal y).storeBytes f))) = true := by
      rw [hfreeze, Bool.true_and, decide_eq_true_eq]
      exact Nat.not_lt.mpr hroom
    rw [quiesce_target h hrun y]
    exact (if_neg (Nat.not_lt.mpr hlimit)).trans ((if_neg hno).trans (if_pos hfreeze))
  · rw [h.subject]

theorem quiesce_drain (hlimit : leAt (s.dev.mbxRequest fn) 4 2 ≤ 60000) (hfreeze : (leAt (s.dev.mbxRequest fn) 2 1).testBit 0 = false)
    (hlong : leAt (s.dev.mbxRequest fn) 4 2 ≠ 0) :
    exec (.facetQuiesce fn) s = .next (s.to ((((s.dev.mbxJournaled fn 0x0503 f).quiescing f fn ((leAt (s.dev.mbxRequest fn) 2 1).testBit 0)
      (leAt (s.dev.mbxRequest fn) 4 2)
      (pagesOf (s.dev.storeBytes f))).abortHalted f).mbxAccept fn)) := by
  refine (congrArg (fun e => Host.Outcome.next (s.to e)) (Dev.mbxRun_waits hs rfl (fun e => (e.quiescing f fn ((leAt (s.dev.mbxRequest fn) 2 1).testBit 0)
      (leAt (s.dev.mbxRequest fn) 4 2)
    (pagesOf (s.dev.storeBytes f))).abortHalted f) fun y => ?_)).trans ?_
  · rw [quiesce_target h hrun y]
    exact (if_neg (Nat.not_lt.mpr hlimit)).trans ((if_neg (drains hfreeze)).trans ((if_neg (Bool.eq_false_iff.mp hfreeze)).trans (if_neg hlong)))
  · rw [h.subject]

/-- The facet's work, ended at once (R373). -/
def Dev.forcedEnd (d : Dev) (f fn : Nat) (freeze : Bool) (limit store : Nat) : Dev := (d.quiescing f fn freeze limit store).endWork f 0x516 true

theorem quiesce_force (hfreeze : (leAt (s.dev.mbxRequest fn) 2 1).testBit 0 = false) (hnow : leAt (s.dev.mbxRequest fn) 4 2 = 0) :
    let e := (s.dev.mbxJournaled fn 0x0503 f).forcedEnd f fn ((leAt (s.dev.mbxRequest fn) 2 1).testBit 0)
      (leAt (s.dev.mbxRequest fn) 4 2) (pagesOf (s.dev.storeBytes f))
    exec (.facetQuiesce fn) s = .next (s.to (if e.workStopped f then
      (e.updFacet f fun x => { x with state := .quiesced, quiescer := none }).mbxRespond fn 0 (quiesceResponse (s.dev.facet f).unfinished)
      else (e.updFacet f fun x => { x with endedCount := (s.dev.facet f).unfinished }).mbxAccept fn)) := by
  refine (congrArg (fun e => Host.Outcome.next (s.to e)) (Dev.mbxRun_ite hs rfl (fun e => (e.forcedEnd f fn ((leAt (s.dev.mbxRequest fn) 2 1).testBit 0)
      (leAt (s.dev.mbxRequest fn) 4 2) (pagesOf (s.dev.storeBytes f))).workStopped f)
    (fun e => (e.forcedEnd f fn ((leAt (s.dev.mbxRequest fn) 2 1).testBit 0)
      (leAt (s.dev.mbxRequest fn) 4 2) (pagesOf (s.dev.storeBytes f))).updFacet f fun x => { x with state := .quiesced, quiescer := none })
    (fun e => (e.forcedEnd f fn ((leAt (s.dev.mbxRequest fn) 2 1).testBit 0)
      (leAt (s.dev.mbxRequest fn) 4 2) (pagesOf (s.dev.storeBytes f))).updFacet f fun x => { x with endedCount := (s.dev.facet f).unfinished })
    (quiesceResponse (s.dev.facet f).unfinished) fun y => ?_)).trans ?_
  · rw [quiesce_target h hrun y]
    refine (if_neg (by omega)).trans ((if_neg (drains hfreeze)).trans ((if_neg (Bool.eq_false_iff.mp hfreeze)).trans (if_pos hnow)))
  · rw [h.subject]

end quiesce

/-! ## The end of a quiesce -/

theorem quiesceDone_eq (hstate : (s.dev.facet g).state = .quiescing) (hstop : s.dev.workStopped g = true) :
    exec (.quiesceDone g) s = .next (s.to ((if (s.dev.facet g).freezing then s.dev.finishRounds g else s.dev).quiesceEnds g)) :=
  congrArg (fun e => Host.Outcome.next (s.to e)) (if_pos ⟨hstate, hstop⟩)

theorem quiesceLimit_eq (hstate : (s.dev.facet g).state = .quiescing) (hfreeze : (s.dev.facet g).freezing = false) :
    let e := (s.dev.endWork g 0x516 true).updFacet g fun v => { v with endedCount := (s.dev.facet g).unfinished }
    exec (.quiesceLimit g) s = .next (s.to (if e.workStopped g then e.quiesceEnds g else e)) :=
  congrArg (fun e => Host.Outcome.next (s.to e)) (if_neg fun h => h.elim (fun h => h hstate) fun h => Bool.false_ne_true (hfreeze.symm.trans h))

/-- A facet whose mailbox alone may have changed. -/
def Facet.Answered (x y : Facet) : Prop := y.state = x.state ∧ y.freezing = x.freezing ∧ y.quiescer = x.quiescer

theorem answered_updMailbox {n : Nat} (h : Mailbox → Mailbox) :
    (d.facet g).Answered ((d.updFacet n fun x => { x with mailbox := h x.mailbox }).facet g) := by
  by_cases hn : g = n
  · subst hn
    rw [Dev.facet_updFacet]
    exact ⟨rfl, rfl, rfl⟩
  · rw [Dev.facet_updFacet_ne _ hn]
    exact ⟨rfl, rfl, rfl⟩

theorem answered_msix {x : Facet} (n v : Nat) (h : x.Answered (d.facet g)) : x.Answered ((d.msix n v).facet g) := by
  have hposted := (Dev.glints_msix d n v).facet g
  unfold Facet.Posted at hposted
  rw [hposted]
  exact h

theorem answered_mbxFinish (n : Nat) (p : List Byte) : (d.facet g).Answered ((d.mbxFinish n st p).facet g) := by
  unfold Dev.mbxFinish
  split
  · unfold Dev.mbxAnswer
    dsimp only
    split
    · exact answered_updMailbox fun m => { m with accepted := false, discard := false }
    · split
      · exact answered_msix n _ (answered_updMailbox fun m => { m with buf := _, status := st, done := true, go := false, busy := false, accepted := false })
      · exact answered_updMailbox fun m => { m with buf := _, status := st, done := true, go := false, busy := false, accepted := false }
  · exact ⟨rfl, rfl, rfl⟩

/-- A facet whose quiesce is over (R373). -/
def Facet.stopped (x : Facet) : Facet := { x with state := if x.freezing then .frozen else .quiesced, freezing := false, quiescer := none }

theorem quiesceEnds_facet : ((d.facet g).stopped).Answered ((d.quiesceEnds g).facet g) := by
  have hfacet : (d.updFacet g Facet.stopped).facet g = (d.facet g).stopped := Dev.facet_updFacet ..
  rw [← hfacet]
  unfold Dev.quiesceEnds
  dsimp only
  cases (d.facet g).quiescer with
  | none => exact ⟨rfl, rfl, rfl⟩
  | some fn => exact answered_mbxFinish fn _

/-! ## FACET_SAVE -/

theorem imageBytes_withJournal (y : Security) : (d.withJournal y).imageBytes f = d.imageBytes f := rfl

/-- The image that FACET_SAVE writes at an address, of n bytes, and whether it could (R379). -/
def Dev.writesImage (d : Dev) (f n va : Nat) (ifSel : Code) : Bool × Dev :=
  let w := d.fresh256
  let body := (List.range (n - 64)).map (Config.sealedByte w.1)
  let head := imageHead f ifSel (w.2.readId 0 0x10) n
  let c := w.2.pageContents f
  c.2.vwrite agentGaffer 0 false none va (head ++ digestBytes (Config.shake256 body) ++ leBytes 4 (c.2.hbmUsed f) ++ leBytes 12 0 ++ body) false

/-- The block that holds the image behind its seal (log 16). -/
def Dev.keepsImage (d : Dev) (f n va : Nat) (ifSel : Code) : Dev :=
  let w := d.fresh256
  let body := (List.range (n - 64)).map (Config.sealedByte w.1)
  let head := imageHead f ifSel (w.2.readId 0 0x10) n
  let c := w.2.pageContents f
  let e := (d.writesImage f n va ifSel).2
  { e with images := e.images ++ [c.2.imageOf f (Config.shake256 body) (c.2.sealKey head) c.1] }

section save

variable (hs : Served s.dev fn 0x0506) (h : s.dev.Names fn f) (hfrozen : (s.dev.facet f).state = .frozen)
include hs h hfrozen

theorem facetSave_lifecycle (hlife : s.dev.security.lifecycle ≠ 2) : exec (.facetSave fn) s = .next (s.to (s.dev.mbxRefuse fn 0x803 [])) := by
  have ht : s.dev.facetTarget (s.dev.mbxRequest fn) (fun t => decide (t = .frozen)) = .ok f := h.target (decide_eq_true hfrozen) s.dev.security
  refine congrArg (fun e => Host.Outcome.next (s.to e)) (Dev.mbxRun_refuse hs ?_)
  rw [ht]
  exact if_pos hlife

theorem facetSave_size (hlife : s.dev.security.lifecycle = 2) (hsize : (leAt (s.dev.mbxRequest fn) 2 1).testBit 0 = true) :
    exec (.facetSave fn) s = .next (s.to ((s.dev.mbxJournaled fn 0x0506 f).mbxRespond fn 0 (leBytes 8 1 ++ leBytes 8 (s.dev.imageBytes f)))) :=
  congrArg (fun e => Host.Outcome.next (s.to e)) (Dev.mbxRun_named hs rfl h (decide_eq_true hfrozen) (fun e => e)
    (leBytes 8 1 ++ leBytes 8 (s.dev.imageBytes f)) fun y ht => by
      rw [ht]
      exact (if_neg (not_not_intro hlife)).trans (if_pos hsize))

theorem facetSave_eq (hlife : s.dev.security.lifecycle = 2) (hsize : (leAt (s.dev.mbxRequest fn) 2 1).testBit 0 = false)
    (hok' : (s.dev.writesImage f (s.dev.imageBytes f) (leAt (s.dev.mbxRequest fn) 8 8) (s.dev.facet f).ifSel).1 = true)
    (hok : ((s.dev.mbxJournaled fn 0x0506 f).writesImage f (s.dev.imageBytes f) (leAt (s.dev.mbxRequest fn) 8 8) (s.dev.facet f).ifSel).1 = true) :
    exec (.facetSave fn) s = .next (s.to (((s.dev.mbxJournaled fn 0x0506 f).keepsImage f (s.dev.imageBytes f) (leAt (s.dev.mbxRequest fn) 8 8)
      (s.dev.facet f).ifSel).mbxRespond fn 0 (leBytes 8 1 ++ leBytes 8 (s.dev.imageBytes f)))) := by
  let answer (e : Dev) : MbxResult :=
    if !(e.writesImage f (s.dev.imageBytes f) (leAt (s.dev.mbxRequest fn) 8 8) (s.dev.facet f).ifSel).1 then .refuse 0x3 []
    else .ok (e.keepsImage f (s.dev.imageBytes f) (leAt (s.dev.mbxRequest fn) 8 8) (s.dev.facet f).ifSel) (leBytes 8 1 ++ leBytes 8 (s.dev.imageBytes f))
  refine congrArg (fun e => Host.Outcome.next (s.to e)) (Dev.mbxRun_rule hs rfl answer (fun y => ?_) ?_ ?_)
  · rw [h.target (decide_eq_true hfrozen) y]
    exact (if_neg (not_not_intro hlife)).trans ((if_neg (Bool.eq_false_iff.mp hsize)).trans rfl)
  · change (ite _ _ _ : MbxResult).Accepts
    rw [if_neg (not_not_true hok')]
    trivial
  · rw [h.subject]
    exact if_neg (not_not_true hok)

end save

/-! ## FACET_RESTORE -/

theorem facetRestore_unread {e : Dev} {open' : Bool} (hs : Served s.dev fn 0x0507) (hfree : s.dev.facetExists (leAt (s.dev.mbxRequest fn) 1 1 % 64) = false)
    (hnone : s.dev.createRefusal = none) (hr : s.dev.readImage (leAt (s.dev.mbxRequest fn) 8 8) = (none, e)) :
    exec (.facetRestore fn open') s = .next (s.to (s.dev.mbxRefuse fn 0x517 [])) := by
  refine congrArg (fun e => Host.Outcome.next (s.to e)) (Dev.mbxRun_refuse hs ?_)
  simp only [bits_zero, Nat.reducePow, hfree, hnone, hr, Bool.false_eq_true, if_false]

/-- The image of a request opens, of a version and a size that fit, and its quota passes the checks of R370 (R380). -/
structure Dev.RestoreReady (d : Dev) (p : List Byte) (e : Dev) (head body : List Byte) (i : Image) : Prop where
  read : d.readImage (leAt p 8 8) = (some (head, body), e)
  opens : e.unseal head body = some i
  low : e.ifRange.1 ≤ leAt head 2 2
  high : leAt head 2 2 ≤ e.ifRange.2
  pages : leAt head 48 4 ≤ (quotaOf (p.drop 16)).hbmPages
  version : leAt (p.drop 16) 0 1 = 1
  range : (quotaOf (p.drop 16)).inRange = true
  room : (e.newFacet 0).isSome = true
  quota : e.quotaCheck (leAt p 1 1 % 64) (quotaOf (p.drop 16)) 0 = none

/-- A restore's answer is its own last step's. -/
def restoreAnswer : Except Code Dev → MbxResult
  | .error st => .refuse st []
  | .ok d => .ok d []

/-- The rule of FACET_RESTORE: its checks passed, it answers as its last step does. -/
theorem facetRestore_rule (fn : Nat) (pathsOpen : Bool) (s : State) : ∃ rule : Dev → List Byte → MbxResult,
    exec (.facetRestore fn pathsOpen) s = .next (s.to (s.dev.mbxRun fn 0x0507 ofFacetField rule)) ∧
    ∀ (x e : Dev) (p head body : List Byte) (i : Image), x.facetExists (leAt p 1 1 % 64) = false → x.createRefusal = none →
      x.RestoreReady p e head body i → rule x p = restoreAnswer (e.restoreFacet (leAt p 1 1 % 64) (quotaOf (p.drop 16)) i pathsOpen) := by
  refine ⟨_, rfl, fun x e p head body i hfree hnone ⟨hread, hopens, hlow, hhigh, hpages, hversion, hrange, hroom, hquota⟩ => ?_⟩
  have hfits : ¬ (leAt head 2 2 < e.ifRange.1 ∨ e.ifRange.2 < leAt head 2 2 ∨ (quotaOf (p.drop 16)).hbmPages < leAt head 48 4) := by
    rintro (hno | hno | hno)
    · exact absurd hlow (Nat.not_le.mpr hno)
    · exact absurd hhigh (Nat.not_le.mpr hno)
    · exact absurd hpages (Nat.not_le.mpr hno)
  have hsome : ¬ (e.newFacet 0).isNone = true := by
    rw [Option.isNone_iff_eq_none]
    exact Option.isSome_iff_ne_none.mp hroom
  simp only [bits_zero, Nat.reducePow, hfree, hnone, hread, hopens, if_neg hfits, hversion, hrange, if_neg hsome, hquota, ne_eq, not_true_eq_false,
    Bool.not_true, Bool.false_eq_true, if_false]
  cases e.restoreFacet (leAt p 1 1 % 64) (quotaOf (p.drop 16)) i pathsOpen with
  | error st => rfl
  | ok u => rfl

section restore

variable {e e' : Dev} {head body : List Byte} {i : Image} {pathsOpen : Bool} (hs : Served s.dev fn 0x0507)
  (hfree : s.dev.facetExists (leAt (s.dev.mbxRequest fn) 1 1 % 64) = false) (hnone : s.dev.createRefusal = none)
  (h' : s.dev.RestoreReady (s.dev.mbxRequest fn) e' head body i)
include hs hfree hnone h'

theorem facetRestore_refused (hbad : e'.restoreFacet (leAt (s.dev.mbxRequest fn) 1 1 % 64) (quotaOf ((s.dev.mbxRequest fn).drop 16)) i pathsOpen =
    .error st) : exec (.facetRestore fn pathsOpen) s = .next (s.to (s.dev.mbxRefuse fn st [])) := by
  obtain ⟨rule, hexec, hrule⟩ := facetRestore_rule fn pathsOpen s
  have hr := hrule _ _ _ _ _ _ hfree hnone h'
  rw [hbad] at hr
  rw [hexec, Dev.mbxRun_refuse hs hr]

theorem facetRestore_eq {t u : Dev}
    (h : (s.dev.mbxJournaled fn 0x0507 (leAt (s.dev.mbxRequest fn) 1 1 % 64)).RestoreReady (s.dev.mbxRequest fn) e head body i)
    (ht : e'.restoreFacet (leAt (s.dev.mbxRequest fn) 1 1 % 64) (quotaOf ((s.dev.mbxRequest fn).drop 16)) i pathsOpen = .ok t)
    (hu : e.restoreFacet (leAt (s.dev.mbxRequest fn) 1 1 % 64) (quotaOf ((s.dev.mbxRequest fn).drop 16)) i pathsOpen = .ok u) :
    exec (.facetRestore fn pathsOpen) s = .next (s.to (u.mbxRespond fn 0 [])) := by
  obtain ⟨rule, hexec, hrule⟩ := facetRestore_rule fn pathsOpen s
  have hr' := hrule _ _ _ _ _ _ hfree hnone h'
  have hfree' : (s.dev.mbxJournaled fn 0x0507 (leAt (s.dev.mbxRequest fn) 1 1 % 64)).facetExists (leAt (s.dev.mbxRequest fn) 1 1 % 64) = false := by
    rw [hs.journals]
    exact hfree
  have hnone' : (s.dev.mbxJournaled fn 0x0507 (leAt (s.dev.mbxRequest fn) 1 1 % 64)).createRefusal = none := by
    rw [hs.journals]
    exact hnone
  have hr := hrule _ _ _ _ _ _ hfree' hnone' h
  have hsubject : ofFacetField s.dev (s.dev.mbxRequest fn) = leAt (s.dev.mbxRequest fn) 1 1 % 64 := bits_zero _ _
  rw [ht] at hr'
  rw [hu, ← hsubject] at hr
  rw [hexec, Dev.mbxRun_ok hs rfl hr' hr]

end restore

/-- Settles O49. -/
theorem quiesceSaveRestore : Obligations.QuiesceSaveRestore := by
  unfold Obligations.QuiesceSaveRestore
  intro s fn d p f log out accept
  have run {x y : Dev} (h : x = y) : (Host.Outcome.next (s.to x) : Out) = .next (s.to y) := congrArg (fun e => Host.Outcome.next (s.to e)) h
  refine ⟨fun hs h0 hrun => ?_, fun g hstate => ⟨fun hstop hdrain => ?_, fun hstop hfreeze => ?_, fun hdrain => ?_, quiesceEnds_facet⟩,
    fun hs h0 hfrozen => ?_, fun pathsOpen hs => ?_⟩
  · have h : d.Names fn f := .of_running h0 (fun h => FacetState.noConfusion h) hrun
    intro freeze limit store quiescing
    refine ⟨fun hlimit => quiesce_limit hs h hrun hlimit, fun hlimit hfreeze hfull => quiesce_store hs h hrun hlimit hfreeze hfull,
      fun hlimit hfreeze hroom => quiesce_freeze hs h hrun hlimit hfreeze hroom, fun hlimit hfreeze hlong => quiesce_drain hs h hrun hlimit hfreeze hlong,
      fun hfreeze hnow => ?_⟩
    have heq := quiesce_force hs h hrun hfreeze hnow
    exact ⟨fun hstop => heq.trans (run (if_pos hstop)), fun hleft => heq.trans (run (if_neg (Bool.eq_false_iff.mp hleft)))⟩
  · refine (quiesceDone_eq hstate hstop).trans (run ?_)
    rw [if_neg (Bool.eq_false_iff.mp hdrain)]
  · refine (quiesceDone_eq hstate hstop).trans (run ?_)
    rw [if_pos hfreeze]
  · have heq := quiesceLimit_eq hstate hdrain
    exact ⟨fun hstop => heq.trans (run (if_pos hstop)), fun hleft => heq.trans (run (if_neg (Bool.eq_false_iff.mp hleft)))⟩
  · have h : d.Names fn f := .of_running h0 (fun h => FacetState.noConfusion h) hfrozen
    exact ⟨fun hlife => facetSave_lifecycle hs h hfrozen hlife, fun hlife hsize => facetSave_size hs h hfrozen hlife hsize,
      fun hlife hsize hok' hok => facetSave_eq hs h hfrozen hlife hsize hok' hok⟩
  · intro g ready hfree hnone
    refine ⟨fun e hr => facetRestore_unread hs hfree hnone hr, fun e e' head body i hready' hready hlow hhigh hrange hpages hversion hin hroom hroom'
      hquota hquota' => ?_⟩
    have h' : d.RestoreReady p e' head body i :=
      ⟨hready'.1, hready'.2, hrange ▸ hlow, hrange ▸ hhigh, hpages, hversion, hin, hroom', hquota'⟩
    have h : (log 0x0507).RestoreReady p e head body i := ⟨hready.1, hready.2, hlow, hhigh, hpages, hversion, hin, hroom, hquota⟩
    exact ⟨fun t ht u hu => facetRestore_eq hs hfree hnone h' h ht hu, fun st hbad => facetRestore_refused hs hfree hnone h' hbad⟩

end Sys2Proof.Machine
end

section
/-! What the ceilings and the other records of dies leave of the block (R393, R394, R467). -/

namespace Sys2Proof.Machine

variable {d e x : Dev} {n : Nat}

/-- Only records of dies differ. -/
def Dev.DiesOnly (d e : Dev) : Prop := e = { d with power := { d.power with dies := e.power.dies } }

theorem Dev.DiesOnly.refl (d : Dev) : d.DiesOnly d := rfl

theorem Dev.DiesOnly.trans (h : d.DiesOnly e) (h' : e.DiesOnly x) : d.DiesOnly x := by
  unfold Dev.DiesOnly at *
  rw [h', h]

theorem Dev.DiesOnly.security (h : d.DiesOnly e) : e.security = d.security := by
  rw [h]

/-- Of the power block only records of dies differ. -/
theorem Dev.DiesOnly.power (h : d.DiesOnly e) : e.power = { d.power with dies := e.power.dies } :=
  congrArg Dev.power h

theorem diesOnly_updDie (d : Dev) (n : Nat) (g : Die → Die) : d.DiesOnly (d.updDie n g) := rfl

theorem diesOnly_forEach {F : Dev → Nat → Dev} (hF : ∀ d m, Dev.DiesOnly d (F d m)) (l : List Nat) (d : Dev) : d.DiesOnly (Dev.forEach l F d) := by
  induction l generalizing d with
  | nil => exact .refl d
  | cons m l ih => exact (hF d m).trans (ih (F d m))

/-- A run over dies reaches die n once, in a block that meets the invariant and in which die n is as it was. -/
theorem die_forEach {I : Dev → Prop} {F : Dev → Nat → Dev} (hI : ∀ d m, I d → I (F d m)) (hother : ∀ d m, I d → m ≠ n → (F d m).die n = d.die n)
    {l : List Nat} (hl : l.Nodup) (hn : n ∈ l) (hd : I d) :
    ∃ e, I e ∧ e.die n = d.die n ∧ (Dev.forEach l F d).die n = (F e n).die n := by
  induction l generalizing d with
  | nil => exact absurd hn List.not_mem_nil
  | cons m l ih =>
    obtain ⟨hml, hl⟩ := List.nodup_cons.mp hl
    rcases List.mem_cons.mp hn with rfl | hn
    · have hrest : ∀ (l : List Nat) (d : Dev), n ∉ l → I d → (Dev.forEach l F d).die n = d.die n := by
        intro l
        induction l with
        | nil => exact fun _ _ _ => rfl
        | cons m l ih =>
          intro d hnl hd
          have hne : m ≠ n := fun h => hnl (List.mem_cons.mpr (.inl h.symm))
          exact (ih (F d m) (fun h => hnl (List.mem_cons.mpr (.inr h))) (hI d m hd)).trans (hother d m hd hne)
      exact ⟨d, hd, rfl, hrest l (F d n) hml (hI d n hd)⟩
    · have hmn : m ≠ n := fun h => hml (h ▸ hn)
      obtain ⟨e, he, hsame, hdone⟩ := ih hl hn (hI d m hd)
      exact ⟨e, he, hsame.trans (hother d m hd hmn), hdone⟩

/-- A run that changes each die by its own record. -/
theorem die_forEach_updDie {l : List Nat} (g : Die → Die) (hl : l.Nodup) (hn : n ∈ l) :
    (Dev.forEach l (fun d n => d.updDie n g) d).die n = g (d.die n) := by
  obtain ⟨e, -, hsame, hdone⟩ := die_forEach (d := d) (I := fun _ => True) (F := fun d n => d.updDie n g) (fun _ _ _ => trivial)
    (fun d m _ hne => Dev.die_updDie_ne d (Ne.symm hne) g) hl hn trivial
  rw [hdone, Dev.die_updDie, hsame]

/-! ## Ceilings -/

/-- A block whose trace ring does not run. -/
def Dev.Untraced (d : Dev) : Prop := d.security.trace = none

theorem trace_untraced (h : d.Untraced) (kind subject value : Nat) : d.trace kind subject value = d := by
  unfold Dev.Untraced at h
  simp only [Dev.trace, h]

/-- A die with another ceiling and the value it may rise to. -/
def Die.withCeiling (k : Die) (c : Rat) (wanted : Option Rat) (fix : Rat) : Die :=
  { k with ceiling := c, wanted := wanted, missed := k.missed && decide (c < fix) }

theorem writeCeiling_eq (h : d.Untraced) (c : Rat) (wanted : Option Rat) :
    d.writeCeiling n c wanted = d.updDie n fun k => k.withCeiling c wanted d.power.fixRate := by
  unfold Dev.writeCeiling
  dsimp only
  split
  · rfl
  · exact trace_untraced (d := d.updDie n _) h _ _ _

/-- A fall of the ceiling takes effect at once, at every thermal step (R393, R404). -/
theorem setCeiling_fall {c : Rat} (h : c ≤ (d.die n).ceiling) : d.setCeiling n c = d.writeCeiling n c none := by
  have hmin : (if (d.die n).thermal = 2 then min c (d.die n).ceiling else c) = c := by
    split
    · exact min_eq_left h
    · rfl
  simp only [Dev.setCeiling, hmin, if_pos h]

/-- A rise ends between the ceiling as it was and the value asked for (R394, R400, R404). -/
theorem setCeiling_rise {c : Rat} (h : (d.die n).ceiling ≤ c) : ∃ r w, d.setCeiling n c = d.writeCeiling n r w ∧ (d.die n).ceiling ≤ r ∧ r ≤ c := by
  have hc : (d.die n).ceiling ≤ (if (d.die n).thermal = 2 then min c (d.die n).ceiling else c) ∧
      (if (d.die n).thermal = 2 then min c (d.die n).ceiling else c) ≤ c := by
    split
    · exact ⟨le_min h le_rfl, min_le_left _ _⟩
    · exact ⟨h, le_rfl⟩
  unfold Dev.setCeiling
  dsimp only
  generalize (if (d.die n).thermal = 2 then min c (d.die n).ceiling else c) = c' at hc
  obtain ⟨hlow, hhigh⟩ := hc
  split
  · exact ⟨c', none, rfl, hlow, hhigh⟩
  · split
    · exact ⟨_, none, rfl, le_max_left _ _, max_le h ((min_le_left _ _).trans hhigh)⟩
    · split
      · exact ⟨c', none, rfl, hlow, hhigh⟩
      · exact ⟨_, some c', rfl, le_max_left _ _, max_le h ((min_le_left _ _).trans hhigh)⟩

/-- A move of a ceiling changes the record of its die alone. -/
theorem setCeiling_eq (h : d.Untraced) (c : Rat) : ∃ r w, d.setCeiling n c = d.updDie n fun k => k.withCeiling r w d.power.fixRate := by
  rcases le_total c (d.die n).ceiling with hc | hc
  · exact ⟨c, none, by rw [setCeiling_fall hc, writeCeiling_eq h]⟩
  · obtain ⟨r, w, heq, -, -⟩ := setCeiling_rise hc
    exact ⟨r, w, by rw [heq, writeCeiling_eq h]⟩

/-- Every ceiling of a list of dies is lowered to a part of itself. -/
def Dev.lowerCeilings (d : Dev) (l : List Nat) (q : Rat) : Dev := Dev.forEach l (fun d n => d.setCeiling n ((d.die n).ceiling * q)) d

theorem diesOnly_setCeiling (h : d.Untraced) (c : Rat) : d.DiesOnly (d.setCeiling n c) := by
  obtain ⟨r, w, heq⟩ := setCeiling_eq (n := n) h c
  rw [heq]
  exact diesOnly_updDie ..

theorem diesOnly_lowerCeilings (l : List Nat) (q : Rat) (h : d.Untraced) : d.DiesOnly (d.lowerCeilings l q) := by
  unfold Dev.lowerCeilings
  induction l generalizing d with
  | nil => exact .refl d
  | cons m l ih =>
    have hstep := diesOnly_setCeiling (n := m) h ((d.die m).ceiling * q)
    exact hstep.trans (ih (d := d.setCeiling m ((d.die m).ceiling * q)) ((congrArg Security.trace hstep.security).trans h))

theorem ceiling_lowerCeilings {l : List Nat} {q : Rat} (hq : q ≤ 1) (h : d.Untraced) (hl : l.Nodup) (hn : n ∈ l) (h0 : 0 ≤ (d.die n).ceiling) :
    ((d.lowerCeilings l q).die n).ceiling = (d.die n).ceiling * q := by
  obtain ⟨e, he, hsame, hdone⟩ := die_forEach (d := d) (I := Dev.Untraced) (F := fun d n => d.setCeiling n ((d.die n).ceiling * q))
    (fun d m hd => (congrArg Security.trace (diesOnly_setCeiling hd _).security).trans hd) (fun d m hd hne => by
      obtain ⟨r, w, heq⟩ := setCeiling_eq (n := m) hd ((d.die m).ceiling * q)
      exact (congrArg (fun e => Dev.die e n) heq).trans (Dev.die_updDie_ne d (Ne.symm hne) _)) hl hn h
  have hfall : (e.die n).ceiling * q ≤ (e.die n).ceiling := by
    rw [hsame]
    exact mul_le_of_le_one_right h0 hq
  unfold Dev.lowerCeilings
  rw [hdone, setCeiling_fall hfall, writeCeiling_eq he, Dev.die_updDie, hsame]
  rfl

end Sys2Proof.Machine
end

section
/-! The power commands, the estimate, the pacer, the calibration and the budget (R390 to R398, R414). -/

namespace Sys2Proof.Machine

variable {s : State} {d : Dev} {fn n : Nat}

/-! ## Commands -/

theorem powerSetCap_eq (h : Served s.dev fn 0x0400) (hlow : 800 ≤ leAt (s.dev.mbxRequest fn) 2 2 % 4096)
    (hhigh : leAt (s.dev.mbxRequest fn) 2 2 % 4096 ≤ 2800) :
    exec (.powerSetCap fn) s = .next (s.to (((s.dev.mbxJournaled fn 0x0400 fn).updPower fun x =>
      { x with nextCap := leAt (s.dev.mbxRequest fn) 2 2 % 4096 }).mbxRespond fn 0 [])) := by
  refine congrArg (fun e => Host.Outcome.next (s.to e)) (Dev.mbxRun_done h rfl (fun e => e.updPower fun x =>
    { x with nextCap := leAt (s.dev.mbxRequest fn) 2 2 % 4096 }) (fun _ => []) fun y => ?_)
  simp only [bits_zero, Nat.reducePow]
  exact if_neg fun hno => hno.elim (Nat.not_lt.mpr hlow) (Nat.not_lt.mpr hhigh)

theorem powerSetCap_refused (h : Served s.dev fn 0x0400)
    (hbad : leAt (s.dev.mbxRequest fn) 2 2 % 4096 < 800 ∨ 2800 < leAt (s.dev.mbxRequest fn) 2 2 % 4096) :
    exec (.powerSetCap fn) s = .next (s.to (s.dev.mbxRefuse fn 0x3 [])) := by
  refine congrArg (fun e => Host.Outcome.next (s.to e)) (Dev.mbxRun_refuse h ?_)
  simp only [bits_zero, Nat.reducePow]
  exact if_pos hbad

theorem powerSetMode_eq (h : Served s.dev fn 0x0401) (hrate : (leAt (s.dev.mbxRequest fn) 1 1).testBit 0 = true →
      10 ≤ leAt (s.dev.mbxRequest fn) 2 1 ∧ leAt (s.dev.mbxRequest fn) 2 1 ≤ 135) :
    exec (.powerSetMode fn) s = .next (s.to (((s.dev.mbxJournaled fn 0x0401 fn).setPowerMode ((leAt (s.dev.mbxRequest fn) 1 1).testBit 0)
      (leAt (s.dev.mbxRequest fn) 2 1)).mbxRespond fn 0 [])) := by
  refine congrArg (fun e => Host.Outcome.next (s.to e)) (Dev.mbxRun_done h rfl (fun e => e.setPowerMode ((leAt (s.dev.mbxRequest fn) 1 1).testBit 0)
    (leAt (s.dev.mbxRequest fn) 2 1)) (fun _ => []) fun y => ?_)
  refine (if_neg ?_).trans (if_neg ?_)
  · rintro ⟨hfixed, hno⟩
    have := hrate hfixed
    omega
  · rintro ⟨hfixed, hno⟩
    have := hrate hfixed
    omega

theorem powerSetMode_reserved (h : Served s.dev fn 0x0401) (hfixed : (leAt (s.dev.mbxRequest fn) 1 1).testBit 0 = true)
    (hlow : 136 ≤ leAt (s.dev.mbxRequest fn) 2 1) (hhigh : leAt (s.dev.mbxRequest fn) 2 1 ≤ 150) :
    exec (.powerSetMode fn) s = .next (s.to (s.dev.mbxRefuse fn 0x701 [])) :=
  congrArg (fun e => Host.Outcome.next (s.to e)) (Dev.mbxRun_refuse h ((if_neg fun ⟨_, hno⟩ => by omega).trans (if_pos ⟨hfixed, hlow⟩)))

theorem powerSetMode_range (h : Served s.dev fn 0x0401) (hfixed : (leAt (s.dev.mbxRequest fn) 1 1).testBit 0 = true)
    (hbad : leAt (s.dev.mbxRequest fn) 2 1 < 10 ∨ 150 < leAt (s.dev.mbxRequest fn) 2 1) :
    exec (.powerSetMode fn) s = .next (s.to (s.dev.mbxRefuse fn 0x3 [])) :=
  congrArg (fun e => Host.Outcome.next (s.to e)) (Dev.mbxRun_refuse h (if_pos ⟨hfixed, hbad⟩))

theorem powerStatus_eq (h : Served s.dev fn 0x0402) : exec (.powerStatus fn) s = .next (s.to (s.dev.mbxRespond fn 0
    (leBytes 8 1 ++ leBytes 8 s.dev.power.statusWord ++ ((List.range 12).map fun n => leBytes 8 (s.dev.dieWord n)).flatten))) :=
  congrArg (fun e => Host.Outcome.next (s.to e)) (Dev.mbxRun_read h rfl rfl)

theorem powerLagReport_eq {g : RedGroup} (h : Served s.dev fn 0x0403) (hnum : leAt (s.dev.mbxRequest fn) 2 2 % 512 < 448)
    (hg : s.dev.group? (leAt (s.dev.mbxRequest fn) 2 2 % 512) = some g) :
    exec (.powerLagReport fn) s = .next (s.to (s.dev.mbxRespond fn 0 g.lagReport)) := by
  refine congrArg (fun e => Host.Outcome.next (s.to e)) (Dev.mbxRun_read h rfl ?_)
  simp only [bits_zero, Nat.reducePow, hg, if_neg (Nat.not_le.mpr hnum)]

/-! ## Estimate and pacer -/

theorem powerEstimate_die {die : Nat} {a : Activity} (hup : s.dev.diesUp = true) (hdie : die < 12) :
    exec (.powerEstimate die a) s = .next (s.to (((s.dev.updPower Power.takeLive).updDie die fun k =>
      { k with periods := (s.dev.estimatePower die a :: k.periods).take 250 }).pacerMove die (s.dev.estimatePower die a))) :=
  congrArg (fun e => Host.Outcome.next (s.to e)) ((if_neg fun h => h.elim (by omega) (not_not_true hup)).trans (if_pos hdie))

theorem powerEstimate_base {die : Nat} {a : Activity} (hup : s.dev.diesUp = true) (hlow : 12 ≤ die) (hhigh : die < 16) :
    exec (.powerEstimate die a) s = .next (s.to ((s.dev.updPower Power.takeLive).updBase (die - 12) fun k =>
      { k with periods := (s.dev.estimatePower die a :: k.periods).take 250 })) :=
  congrArg (fun e => Host.Outcome.next (s.to e)) ((if_neg fun h => h.elim (by omega) (not_not_true hup)).trans (if_neg (by omega)))

/-- The value that the pacer moves a ceiling to, before the maximum in force (R393). -/
def Dev.pacerNext (d : Dev) (n : Nat) (e : Rat) : Rat :=
  let k := d.die n
  if k.alloc < e then max (k.ceiling * (98 / 100)) (10 * rateUnit)
  else if e < k.alloc * (95 / 100) ∧ k.thermal ≠ 2 then min (k.ceiling * (101 / 100)) (d.cMax n)
  else k.ceiling

/-- The pacer sets the ceiling of its die, a fall being counted. -/
theorem pacerMove_eq (e : Rat) : ∃ x : Dev, (x = d ∨ x = d.count 0x608018 1) ∧ d.pacerMove n e = x.setCeiling n (min (d.pacerNext n e) (d.cMax n)) := by
  refine ⟨if (d.die n).alloc < e ∧ d.pacerNext n e < (d.die n).ceiling then d.count 0x608018 1 else d, ?_, rfl⟩
  split
  · exact .inr rfl
  · exact .inl rfl

theorem pacerMove_fall {e : Rat} (h : d.Untraced) (hc : min (d.pacerNext n e) (d.cMax n) ≤ (d.die n).ceiling) :
    ((d.pacerMove n e).die n).ceiling = min (d.pacerNext n e) (d.cMax n) := by
  obtain ⟨x, hx, heq⟩ := pacerMove_eq (d := d) (n := n) e
  have hdie : x.die n = d.die n := by rcases hx with rfl | rfl <;> rfl
  have hx : x.Untraced := by rcases hx with rfl | rfl <;> exact h
  rw [heq, setCeiling_fall (hdie ▸ hc), writeCeiling_eq hx, Dev.die_updDie]
  rfl

theorem pacerMove_rise {e : Rat} (h : d.Untraced) (hc : (d.die n).ceiling ≤ min (d.pacerNext n e) (d.cMax n)) :
    (d.die n).ceiling ≤ ((d.pacerMove n e).die n).ceiling ∧ ((d.pacerMove n e).die n).ceiling ≤ min (d.pacerNext n e) (d.cMax n) := by
  obtain ⟨x, hx, heq⟩ := pacerMove_eq (d := d) (n := n) e
  have hdie : x.die n = d.die n := by rcases hx with rfl | rfl <;> rfl
  have hx : x.Untraced := by rcases hx with rfl | rfl <;> exact h
  obtain ⟨r, w, hset, hlow, hhigh⟩ := setCeiling_rise (d := x) (n := n) (c := min (d.pacerNext n e) (d.cMax n)) (hdie ▸ hc)
  rw [heq, hset, writeCeiling_eq hx, Dev.die_updDie, ← hdie]
  exact ⟨hlow, hhigh⟩

theorem rateUnit_pos : 0 < rateUnit := by
  unfold rateUnit
  norm_num

/-- Above its allocation the ceiling falls, not below the least rate. -/
theorem pacerMove_above {e : Rat} (h : d.Untraced) (habove : (d.die n).alloc < e) (hmin : 10 * rateUnit ≤ (d.die n).ceiling) :
    ((d.pacerMove n e).die n).ceiling = min (max ((d.die n).ceiling * (98 / 100)) (10 * rateUnit)) (d.cMax n) := by
  have hnext : d.pacerNext n e = max ((d.die n).ceiling * (98 / 100)) (10 * rateUnit) := if_pos habove
  have hpos : 0 ≤ (d.die n).ceiling := (mul_nonneg (by norm_num) rateUnit_pos.le).trans hmin
  rw [← hnext]
  refine pacerMove_fall h ((min_le_left _ _).trans ?_)
  rw [hnext]
  exact max_le (mul_le_of_le_one_right hpos (by norm_num)) hmin

/-- Near its allocation, or at thermal step 2, the ceiling stays within the maximum in force. -/
theorem pacerMove_near {e : Rat} (h : d.Untraced) (hbelow : e ≤ (d.die n).alloc) (hnear : (d.die n).alloc * (95 / 100) ≤ e ∨ (d.die n).thermal = 2) :
    ((d.pacerMove n e).die n).ceiling = min (d.die n).ceiling (d.cMax n) := by
  have hnext : d.pacerNext n e = (d.die n).ceiling :=
    (if_neg (not_lt.mpr hbelow)).trans (if_neg fun ⟨hlt, hne⟩ => hnear.elim (fun hle => absurd hlt (not_lt.mpr hle)) hne)
  rw [pacerMove_fall h (by rw [hnext]; exact min_le_left _ _), hnext]

/-- At or below its allocation the ceiling rises by at most 1 %. -/
theorem pacerMove_below {e : Rat} (h : d.Untraced) (hbelow : e ≤ (d.die n).alloc) (h0 : 0 ≤ (d.die n).ceiling) (hmax : (d.die n).ceiling ≤ d.cMax n) :
    (d.die n).ceiling ≤ ((d.pacerMove n e).die n).ceiling ∧
      ((d.pacerMove n e).die n).ceiling ≤ min ((d.die n).ceiling * (101 / 100)) (d.cMax n) := by
  have hup : (d.die n).ceiling ≤ (d.die n).ceiling * (101 / 100) := le_mul_of_one_le_right h0 (by norm_num)
  have hnext : (d.die n).ceiling ≤ d.pacerNext n e ∧ d.pacerNext n e ≤ (d.die n).ceiling * (101 / 100) := by
    unfold Dev.pacerNext
    dsimp only
    rw [if_neg (not_lt.mpr hbelow)]
    split
    · exact ⟨le_min hup hmax, min_le_left _ _⟩
    · exact ⟨le_rfl, hup⟩
  obtain ⟨hlow, hhigh⟩ := pacerMove_rise h (le_min hnext.1 hmax)
  exact ⟨hlow, hhigh.trans (min_le_min_right _ hnext.2)⟩

/-! ## Calibration -/

/-- The gain after a step, within its limits (R391). -/
def gainAfter (gain step : Rat) : Rat := max (80 / 100) (min (125 / 100) (gain * step))

theorem gainAfter_bounds (gain step : Rat) : 80 / 100 ≤ gainAfter gain step ∧ gainAfter gain step ≤ 125 / 100 :=
  ⟨le_max_left _ _, max_le (by norm_num) (min_le_left _ _)⟩

/-- The measured input power of a window, in W. -/
def measuredPower (v i : Nat) : Rat := ((v * i : Nat) : Rat) / 100

/-- The power block after a window's measurement (R391, R392). -/
def Power.calibrated (p : Power) (v i : Nat) (gain : Rat) : Power :=
  { p with gain := gain, calLimit := decide (gain = 80 / 100) || decide (gain = 125 / 100), inputW := v * i / 100, inputDv := BitVec.ofNat 12 v,
           inputDa := BitVec.ofNat 12 i, overWindows := if decide ((p.cap : Rat) < measuredPower v i) then min 2 (p.overWindows + 1) else 0 }

/-- The block with the window's measurement, the gain's step taken (R391). -/
def Dev.measured (d : Dev) (v i : Nat) (step : Rat) : Dev := d.updPower fun p => p.calibrated v i (gainAfter p.gain step)

/-- A gain that has just reached a limit is reported (R391). -/
def Dev.gainReported (d : Dev) (v i : Nat) (step : Rat) : Dev :=
  let gain := gainAfter d.power.gain step
  if (decide (gain = 80 / 100) || decide (gain = 125 / 100)) && !d.power.calLimit then
    (d.measured v i step).glint 0 0x705 0 (gain * 256).floor.toNat 0
  else d.measured v i step

theorem glints_gainReported (v i : Nat) (step : Rat) : (d.measured v i step).Glints (d.gainReported v i step) := by
  unfold Dev.gainReported
  dsimp only
  split
  · exact Dev.glints_glint ..
  · exact .refl _

/-- The window's power exceeds the cap for the third time (R392). -/
def Power.exceeds (p : Power) (v i : Nat) : Bool := decide ((p.cap : Rat) < measuredPower v i) && decide (2 ≤ p.overWindows)

/-- The ceilings after the measurement (R392). -/
def Dev.recalibrated (d : Dev) (v i : Nat) (step : Rat) : Dev :=
  if d.power.exceeds v i then (d.gainReported v i step).lowerCeilings (List.range 12) (90 / 100) else d.gainReported v i step

/-- The poison origins are no longer coalesced (R429). -/
def Dev.withoutOrigins (d : Dev) : Dev := { d with origins := [] }

theorem withoutOrigins_parts (d : Dev) : d.withoutOrigins.power = d.power ∧ ∀ n, d.withoutOrigins.die n = d.die n := ⟨rfl, fun _ => rfl⟩

theorem calibrate_eq (v i : Nat) : d.calibrate v i =
    ((d.gainStep (measuredPower v i)).2.recalibrated v i (d.gainStep (measuredPower v i)).1).withoutOrigins := rfl

/-- The step of the gain takes nothing of the block but a free value. -/
theorem gainStep_parts (m : Rat) : (d.gainStep m).2.power = d.power ∧ (d.gainStep m).2.security = d.security := by
  unfold Dev.gainStep
  dsimp only
  split
  · exact ⟨rfl, rfl⟩
  · exact ⟨rfl, rfl⟩

theorem gainStep_modelled {m : Rat} (h : d.estimateSum / ((Config.efficiency d.estimateSum.floor.toNat : Rat) / 1000) ≠ 0) :
    (d.gainStep m).1 = max (95 / 100) (min (105 / 100) (m / (d.estimateSum / ((Config.efficiency d.estimateSum.floor.toNat : Rat) / 1000)))) := by
  simp only [Dev.gainStep, if_neg h]

theorem gainReported_parts (v i : Nat) (step : Rat) (h : d.Untraced) : (d.gainReported v i step).power =
    d.power.calibrated v i (gainAfter d.power.gain step) ∧ (d.gainReported v i step).Untraced := by
  have hposts := (glints_gainReported (d := d) v i step).posts
  exact ⟨congrArg Dev.power hposts, (congrArg (fun e : Dev => e.security.trace) hposts).trans h⟩

/-- The power block after a calibration but for the records of dies. -/
theorem recalibrated_power (v i : Nat) (step : Rat) (h : d.Untraced) : ∃ dies, (d.recalibrated v i step).power =
    { d.power.calibrated v i (gainAfter d.power.gain step) with dies := dies } := by
  obtain ⟨hpower, htrace⟩ := gainReported_parts (d := d) v i step h
  unfold Dev.recalibrated
  split
  · have hlower := (diesOnly_lowerCeilings (List.range 12) (90 / 100) htrace).power
    rw [hpower] at hlower
    exact ⟨_, hlower⟩
  · exact ⟨_, hpower⟩

theorem die_gainReported (v i : Nat) (step : Rat) (h : d.Untraced) (n : Nat) : (d.gainReported v i step).die n = d.die n := by
  unfold Dev.die
  rw [(gainReported_parts v i step h).1]
  rfl

theorem ceiling_recalibrated_lowers {v i : Nat} (step : Rat) (h : d.Untraced) (hover : (d.power.cap : Rat) < measuredPower v i)
    (hwindows : 2 ≤ d.power.overWindows) (hn : n < 12) (h0 : 0 ≤ (d.die n).ceiling) :
    ((d.recalibrated v i step).die n).ceiling = (d.die n).ceiling * (90 / 100) := by
  have hexceeds : d.power.exceeds v i = true := by
    simp only [Power.exceeds, hover, hwindows, decide_true, Bool.and_self]
  have hdie := die_gainReported v i step h n
  have hlower := ceiling_lowerCeilings (d := d.gainReported v i step) (q := 90 / 100) (by norm_num) (gainReported_parts v i step h).2
    List.nodup_range (List.mem_range.mpr hn) (by rw [hdie]; exact h0)
  rw [hdie] at hlower
  unfold Dev.recalibrated
  rw [if_pos hexceeds]
  exact hlower

theorem recalibrated_within {v i : Nat} (step : Rat) (h : d.Untraced) (hwithin : measuredPower v i ≤ (d.power.cap : Rat)) :
    (d.recalibrated v i step).power.overWindows = 0 ∧ ∀ n, (d.recalibrated v i step).die n = d.die n := by
  have hexceeds : ¬ d.power.exceeds v i = true := by
    simp only [Power.exceeds, decide_eq_false (not_lt.mpr hwithin), Bool.false_and, Bool.false_eq_true, not_false_eq_true]
  have heq : d.recalibrated v i step = d.gainReported v i step := if_neg hexceeds
  rw [heq]
  refine ⟨?_, fun n => die_gainReported v i step h n⟩
  have hzero : (d.power.calibrated v i (gainAfter d.power.gain step)).overWindows = 0 := by
    simp only [Power.calibrated, decide_eq_false (not_lt.mpr hwithin), Bool.false_eq_true, if_false]
  exact (congrArg Power.overWindows (gainReported_parts v i step h).1).trans hzero

/-! ## The budget -/

/-- A die's allocation as the budget is divided (R396). -/
def Die.allocated (k : Die) (rest total : Rat) : Die :=
  { k with alloc := match k.state with
      | .dark => 0
      | .dim => k.estimate * (105 / 100)
      | .on => rest * k.mult / total
      | .transition => k.alloc }

/-- What the base dies and the losses leave of a cap to the compute dies. -/
def Dev.computeBudget (d : Dev) (cap : Nat) : Rat :=
  max 0 ((cap : Rat) - ((List.range 4).map fun b => (d.base b).estimate).sum - (Config.conversionLoss cap : Rat))

/-- What the dies in DIM leave of it to the dies that are ON. -/
def Dev.onBudget (d : Dev) (cap : Nat) : Rat :=
  max 0 (d.computeBudget cap - (((List.range 12).filter fun n => decide ((d.die n).state = .dim)).map fun n => (d.die n).estimate * (105 / 100)).sum)

/-- The multipliers of the dies that are ON. -/
def Dev.onMultipliers (d : Dev) : Rat := (((List.range 12).filter fun n => decide ((d.die n).state = .on)).map fun n => (d.die n).mult).sum

theorem divideBudget_eq : d.divideBudget =
    Dev.forEach (List.range 12) (fun e n => e.updDie n fun k => k.allocated (d.onBudget d.power.cap) d.onMultipliers) d := rfl

theorem divideBudget_die (hn : n < 12) : d.divideBudget.die n = (d.die n).allocated (d.onBudget d.power.cap) d.onMultipliers := by
  rw [divideBudget_eq]
  exact die_forEach_updDie (fun k => k.allocated (d.onBudget d.power.cap) d.onMultipliers) List.nodup_range (List.mem_range.mpr hn)

theorem divideBudget_fixed : d.divideBudget.power.fixed = d.power.fixed := by
  have honly := diesOnly_forEach (F := fun e n => e.updDie n fun k => k.allocated (d.onBudget d.power.cap) d.onMultipliers)
    (fun e m => diesOnly_updDie e m _) (List.range 12) d
  rw [← divideBudget_eq] at honly
  rw [honly]

theorem budgetDistribute_eq (hup : s.dev.diesUp = true) :
    let q := (s.dev.updPower fun p => { p with cap := p.nextCap }).divideBudget
    exec .budgetDistribute s = .next (s.to (Dev.fixedMiss (Dev.forEach (List.range 12) (fun d n => d.updDie n fun k =>
      { k with lagAge := min 10 (k.lagAge + 1) }) (if s.dev.power.fixed then q else q.moveMultipliers.poolBudget)))) := by
  intro q
  have hfixed : q.power.fixed = s.dev.power.fixed := divideBudget_fixed
  refine congrArg (fun e => Host.Outcome.next (s.to e)) ((if_neg (not_not_true hup)).trans ?_)
  rw [← hfixed]

/-- Settles O50. -/
theorem powerBudget : Obligations.PowerBudget := by
  unfold Obligations.PowerBudget
  intro s d out
  refine ⟨fun fn => ⟨?_, ?_, fun h => powerStatus_eq h, fun g h hnum hg => powerLagReport_eq h hnum hg⟩,
    fun hup => ⟨fun die a => ⟨fun hdie => powerEstimate_die hup hdie, fun hlow hhigh => powerEstimate_base hup hlow hhigh⟩, fun v i htrace => ?_,
      fun n hn => ?_, budgetDistribute_eq hup⟩,
    fun n e htrace => ⟨fun habove hmin => pacerMove_above htrace habove hmin, fun hbelow hnear => pacerMove_near htrace hbelow hnear,
      fun hbelow h0 hmax => pacerMove_below htrace hbelow h0 hmax⟩⟩
  · intro cap
    exact ⟨fun h hlow hhigh => powerSetCap_eq h hlow hhigh, fun h hbad => powerSetCap_refused h hbad⟩
  · intro fixed rate
    exact ⟨fun h hrate => powerSetMode_eq h hrate, fun h hfixed hlow hhigh => powerSetMode_reserved h hfixed hlow hhigh,
      fun h hfixed hbad => powerSetMode_range h hfixed hbad⟩
  · obtain ⟨hpower, hsecurity⟩ := gainStep_parts (d := d) (measuredPower v i)
    have hu : (d.gainStep (measuredPower v i)).2.Untraced := (congrArg Security.trace hsecurity).trans htrace
    have hdie (n : Nat) : (d.gainStep (measuredPower v i)).2.die n = d.die n := by
      unfold Dev.die
      rw [hpower]
    obtain ⟨dies, hp⟩ := recalibrated_power v i (d.gainStep (measuredPower v i)).1 hu
    rw [hpower] at hp
    refine ⟨d.calibrate v i, congrArg out (if_neg (not_not_true hup)), rfl, ?_⟩
    obtain ⟨hpow, hdies⟩ := withoutOrigins_parts ((d.gainStep (measuredPower v i)).2.recalibrated v i (d.gainStep (measuredPower v i)).1)
    rw [calibrate_eq, hpow]
    refine ⟨congrArg Power.inputW hp, ?_⟩
    have hgain := congrArg Power.gain hp
    rw [hgain]
    refine ⟨(gainAfter_bounds _ _).1, (gainAfter_bounds _ _).2, ?_⟩
    intro measured modelled hmodelled
    refine ⟨congrArg (gainAfter d.power.gain) (gainStep_modelled hmodelled), fun hover hwindows n hn h0 => ?_, fun hwithin => ?_⟩
    · rw [hdies, ← hdie n]
      rw [← hdie n] at h0
      exact ceiling_recalibrated_lowers _ hu (hpower ▸ hover) (hpower ▸ hwindows) hn h0
    · obtain ⟨hzero, hsame⟩ := recalibrated_within (d.gainStep (measuredPower v i)).1 hu (v := v) (i := i) (hpower ▸ hwithin)
      exact ⟨hzero, fun n _ => by rw [hdies, hsame, hdie]⟩
  · have hdie := divideBudget_die (d := d.updPower fun p => { p with cap := p.nextCap }) hn
    exact congrArg Die.alloc hdie

end Sys2Proof.Machine
end

section
/-! Rails and limits: AVSBus requests, droop, over-current and temperatures (R394, R399 to R404). -/

namespace Sys2Proof.Machine

variable {s : State} {d : Dev} {n mv : Nat}

theorem rail_updDie (n m : Nat) (g : Die → Die) : (d.updDie n g).rail m = d.rail m := rfl

theorem die_updRail (n m : Nat) (g : Rail → Rail) : (d.updRail n g).die m = d.die m := rfl

/-! ## Requests of a rail -/

theorem requestRail_sends (hfault : (d.rail n).fault = false) (hidle : (d.rail n).outstanding = none) (hmv : (d.rail n).acked ≠ mv)
    (hdroop : 12 ≤ n ∨ (d.die n).droop = []) :
    ((d.requestRail n mv).rail n).outstanding = some mv ∧ ((d.requestRail n mv).rail n).waiting = none := by
  have hgo : (decide (n < 12) && !(d.die n).droop.isEmpty) = false := by
    rcases hdroop with h | h
    · simp only [Nat.not_lt.mpr h, decide_false, Bool.false_and]
    · simp only [h, List.isEmpty_nil, Bool.not_true, Bool.and_false]
  have heq : d.requestRail n mv =
      (d.updRail n fun r => { r with outstanding := some mv, waiting := none, resent := false }).updDie n fun k => { k with deferred := false } := by
    simp only [Dev.requestRail, hfault, hidle, Option.isSome_none, hmv, hgo, Bool.false_eq_true, if_false]
  rw [heq, rail_updDie, Dev.rail_updRail]
  exact ⟨rfl, rfl⟩

theorem requestRail_deferred (hfault : (d.rail n).fault = false) (hidle : (d.rail n).outstanding = none) (hmv : (d.rail n).acked ≠ mv)
    (hn : n < 12) (hdroop : (d.die n).droop ≠ []) :
    ((d.requestRail n mv).rail n).outstanding = none ∧ ((d.requestRail n mv).rail n).waiting = some mv ∧ ((d.requestRail n mv).die n).deferred = true := by
  have hwaits : (decide (n < 12) && !(d.die n).droop.isEmpty) = true := by
    simp only [hn, decide_true, Bool.true_and, Bool.not_eq_true', List.isEmpty_eq_false_iff]
    exact hdroop
  obtain ⟨x, hx, heq⟩ : ∃ x : Dev, x.power = d.power ∧
      d.requestRail n mv = (x.updRail n fun r => { r with waiting := some mv }).updDie n fun k => { k with deferred := true } := by
    refine ⟨if (d.die n).deferred then d else d.count 0x608008 1, ?_, ?_⟩
    · split <;> rfl
    · simp only [Dev.requestRail, hfault, hidle, Option.isSome_none, hmv, hwaits, Bool.false_eq_true, if_false, if_true]
  have hrail : x.rail n = d.rail n := by
    unfold Dev.rail
    rw [hx]
  rw [heq, Dev.die_updDie, rail_updDie, Dev.rail_updRail, hrail]
  exact ⟨hidle, rfl, rfl⟩

theorem requestRail_waits {m : Nat} (hfault : (d.rail n).fault = false) (hout : (d.rail n).outstanding = some m) :
    ((d.requestRail n mv).rail n).outstanding = some m ∧ ((d.requestRail n mv).rail n).waiting = if m = mv then none else some mv := by
  have heq : d.requestRail n mv = d.updRail n fun r => { r with waiting := if r.outstanding = some mv then none else some mv } := by
    simp only [Dev.requestRail, hfault, hout, Option.isSome_some, Bool.false_eq_true, if_false, if_true]
  rw [heq, Dev.rail_updRail, hout]
  simp only [Option.some.injEq, and_self]

/-- A request never changes what is acknowledged. -/
theorem acked_requestRail : ((d.requestRail n mv).rail n).acked = (d.rail n).acked := by
  unfold Dev.requestRail
  dsimp only
  split
  · rfl
  · split
    · rw [Dev.rail_updRail]
    · split
      · rw [rail_updDie, Dev.rail_updRail]
      · split
        · rw [rail_updDie, Dev.rail_updRail]
          split <;> rfl
        · rw [rail_updDie, Dev.rail_updRail]

/-! ## Acknowledgements and time-outs -/

/-- The outstanding request of a rail is acknowledged, and gating that waited for it lifts (R399, R402). -/
def Dev.railTaken (d : Dev) (n mv : Nat) : Dev :=
  let d := (d.count 0x608010 1).updRail n fun r => { r with acked := mv, outstanding := none, waiting := none, resent := false }
  if n < 12 then d.updDie n fun k => { k with droop := k.droop.filter fun r => !NSet.has k.cleared r, cleared := [] } else d

theorem acked_railTaken : ((d.railTaken n mv).rail n).acked = mv := by
  unfold Dev.railTaken
  dsimp only
  split
  · rw [rail_updDie, Dev.rail_updRail]
  · rw [Dev.rail_updRail]

theorem railAcked_eq (hout : (d.rail n).outstanding = some mv) :
    ((d.rail n).waiting = none → d.railAcked n = d.railTaken n mv) ∧
    (∀ t, (d.rail n).waiting = some t → d.railAcked n = (d.railTaken n mv).requestRail n t) := by
  refine ⟨fun h => ?_, fun t h => ?_⟩
  · simp only [Dev.railAcked, hout, h, Dev.railTaken]
  · simp only [Dev.railAcked, hout, h, Dev.railTaken]

theorem railAcked_acked (hout : (d.rail n).outstanding = some mv) : ((d.railAcked n).rail n).acked = mv := by
  obtain ⟨hnone, hsome⟩ := railAcked_eq hout
  cases h : (d.rail n).waiting with
  | none => rw [hnone h, acked_railTaken]
  | some t => rw [hsome t h, acked_requestRail, acked_railTaken]

theorem exec_avsAck (hn : n < 16) (hlast : s.dev.lastOfTransition n = false) :
    ((12 ≤ n ∨ ((s.dev.railAcked n).die n).wanted = none) → exec (.avsAck n) s = .next (s.to (s.dev.railAcked n))) ∧
    (∀ c, n < 12 → ((s.dev.railAcked n).die n).wanted = some c → exec (.avsAck n) s = .next (s.to ((s.dev.railAcked n).setCeiling n c))) := by
  have hgo : ¬ (16 ≤ n ∨ s.dev.lastOfTransition n = true) :=
    fun h => h.elim (Nat.not_le.mpr hn) fun h => Bool.false_ne_true (hlast.symm.trans h)
  refine ⟨fun h => congrArg (fun e => Host.Outcome.next (s.to e)) ((if_neg hgo).trans ?_),
    fun c hlow hw => congrArg (fun e => Host.Outcome.next (s.to e)) ((if_neg hgo).trans ((if_neg (Nat.not_le.mpr hlow)).trans ?_))⟩
  · by_cases hhigh : 12 ≤ n
    · exact if_pos hhigh
    · refine (if_neg hhigh).trans ?_
      simp only [h.resolve_left hhigh]
  · simp only [hw]

/-! ## A rail that fails -/

/-- The gating of a die whose rail has failed lifts where it waited, and a die that was in DIM or entering DARK is ON (R400). -/
def Dev.dieSettles (d : Dev) (n : Nat) : Dev :=
  let d := d.updDie n fun k => { k with deferred := false, droop := k.droop.filter fun r => !NSet.has k.cleared r, cleared := [] }
  let k := d.die n
  if k.state = .dim ∨ (k.state = .transition ∧ k.entering) then (d.dieState n .on).updDie n fun k => { k with entering := false, wakeLatch := false }
  else d

/-- A rail that has failed (R400). -/
def Dev.railDown (d : Dev) (n : Nat) : Dev := d.updRail n fun r => { r with fault := true, outstanding := none, waiting := none, resent := false }

/-- The die of a failed rail falls to what the acknowledged voltage guarantees (R400). -/
def Dev.railFellBack (d : Dev) (n : Nat) : Dev :=
  let d := d.railDown n
  if n < 12 then (d.writeCeiling n (min (d.die n).ceiling (guaranteed (d.rail n).acked (d.die n).temp)) none).dieSettles n else d

theorem railFails_eq : d.railFails n = (d.railFellBack n).glint 0 0x704 n ((d.railFellBack n).rail n).acked 0 := rfl

/-- A change of STATE, where nothing is traced, changes the record of its die alone. -/
theorem dieState_eq (h : d.Untraced) (st : DieState) : d.dieState n st = d ∨ d.dieState n st = d.updDie n fun k => { k with state := st } := by
  unfold Dev.dieState
  dsimp only
  split
  · exact .inl rfl
  · exact .inr (trace_untraced (d := d.updDie n _) h _ _ _)

theorem dieSettles_parts (h : d.Untraced) : (d.dieSettles n).rail n = d.rail n ∧ ((d.dieSettles n).die n).ceiling = (d.die n).ceiling := by
  let x := d.updDie n fun k => { k with deferred := false, droop := k.droop.filter fun r => !NSet.has k.cleared r, cleared := [] }
  have hx : x.rail n = d.rail n ∧ (x.die n).ceiling = (d.die n).ceiling := ⟨rfl, by simp only [x, Dev.die_updDie]⟩
  have hon : ∀ y : Dev, y = x ∨ (y = x.updDie n fun k => { k with state := .on }) →
      ((y.updDie n fun k => { k with entering := false, wakeLatch := false }).rail n = d.rail n ∧
        ((y.updDie n fun k => { k with entering := false, wakeLatch := false }).die n).ceiling = (d.die n).ceiling) := by
    rintro y (rfl | rfl)
    · rw [Dev.die_updDie, rail_updDie]
      exact hx
    · rw [Dev.die_updDie, Dev.die_updDie, rail_updDie, rail_updDie]
      exact hx
  change (ite _ _ x : Dev).rail n = _ ∧ _
  unfold Dev.dieSettles
  dsimp only
  split
  · exact hon _ (dieState_eq (d := x) h .on)
  · exact hx

theorem railDown_rail : (d.railDown n).rail n = { d.rail n with fault := true, outstanding := none, waiting := none, resent := false } :=
  Dev.rail_updRail d n _

/-- A failed rail, and the ceiling of its die. -/
theorem railFellBack_parts (h : d.Untraced) :
    (d.railFellBack n).rail n = { d.rail n with fault := true, outstanding := none, waiting := none, resent := false } ∧
    (n < 12 → ((d.railFellBack n).die n).ceiling = min (d.die n).ceiling (guaranteed (d.rail n).acked (d.die n).temp)) := by
  have hacked : ((d.railDown n).rail n).acked = (d.rail n).acked := by rw [railDown_rail]
  have hdie : (d.railDown n).die n = d.die n := rfl
  by_cases hn : n < 12
  · have heq : d.railFellBack n =
        ((d.railDown n).writeCeiling n (min (d.die n).ceiling (guaranteed (d.rail n).acked (d.die n).temp)) none).dieSettles n := by
      rw [← hacked]
      exact if_pos hn
    have hwrite := writeCeiling_eq (d := d.railDown n) (n := n) h (min (d.die n).ceiling (guaranteed (d.rail n).acked (d.die n).temp)) none
    rw [hwrite] at heq
    obtain ⟨hrail, hceiling⟩ := dieSettles_parts (d := (d.railDown n).updDie n _) (n := n) h
    rw [heq, hrail, hceiling, rail_updDie, railDown_rail, Dev.die_updDie, hdie]
    exact ⟨rfl, fun _ => rfl⟩
  · have heq : d.railFellBack n = d.railDown n := if_neg hn
    rw [heq, railDown_rail]
    exact ⟨rfl, fun h => absurd h hn⟩

/-- Posted writes and glints change no record of the power block. -/
theorem power_glint (f typ subject detail detail2 : Nat) : (d.glint f typ subject detail detail2).power = d.power := by
  rw [(Dev.glints_glint d f typ subject detail detail2).posts]

theorem railFails_parts (h : d.Untraced) :
    (d.railFails n).rail n = { d.rail n with fault := true, outstanding := none, waiting := none, resent := false } ∧
    (n < 12 → ((d.railFails n).die n).ceiling = min (d.die n).ceiling (guaranteed (d.rail n).acked (d.die n).temp)) := by
  have hpower : (d.railFails n).power = (d.railFellBack n).power := by
    rw [railFails_eq]
    exact power_glint ..
  have hrail : (d.railFails n).rail n = (d.railFellBack n).rail n := by
    unfold Dev.rail
    rw [hpower]
  have hdie : (d.railFails n).die n = (d.railFellBack n).die n := by
    unfold Dev.die
    rw [hpower]
  rw [hrail, hdie]
  exact railFellBack_parts h

/-! ## Droop -/

theorem exec_droopClear {row : Nat} (hrow : row < 96) (hdroop : NSet.has (s.dev.die (row / 8)).droop row = true) :
    let n := row / 8
    let e := s.dev.updDie n fun k => { k with droop := NSet.del k.droop row }
    ((s.dev.rail n).outstanding.isSome = true →
      exec (.droopClear row) s = .next (s.to (s.dev.updDie n fun k => { k with cleared := NSet.add k.cleared row }))) ∧
    ((s.dev.rail n).outstanding = none → ((e.die n).droop ≠ [] ∨ (s.dev.rail n).waiting = none) → exec (.droopClear row) s = .next (s.to e)) ∧
    (∀ mv, (s.dev.rail n).outstanding = none → (e.die n).droop = [] → (s.dev.rail n).waiting = some mv →
      exec (.droopClear row) s = .next (s.to (e.requestRail n mv))) := by
  intro n e
  have hgo : ¬ (96 ≤ row ∨ (!NSet.has (s.dev.die (row / 8)).droop row) = true) :=
    fun h => h.elim (Nat.not_le.mpr hrow) (not_not_true hdroop)
  have hidle (h : (s.dev.rail n).outstanding = none) : ¬ (s.dev.rail (row / 8)).outstanding.isSome = true := by
    rw [h]
    exact Bool.false_ne_true
  refine ⟨fun h => congrArg (fun e => Host.Outcome.next (s.to e)) ((if_neg hgo).trans (if_pos h)), fun h hleft => ?_, fun mv h hclear hw => ?_⟩
  · refine congrArg (fun e => Host.Outcome.next (s.to e)) ((if_neg hgo).trans ((if_neg (hidle h)).trans ?_))
    by_cases hd : (e.die n).droop = []
    · refine (if_neg (by simp only [hd, e, n, List.isEmpty_nil, Bool.not_true, Bool.false_eq_true, not_false_eq_true])).trans ?_
      have hw : ((s.dev.updDie (row / 8) fun k => { k with droop := NSet.del k.droop row }).rail (row / 8)).waiting = none :=
        hleft.resolve_left (not_not_intro hd)
      simp only [hw]
      rfl
    · refine if_pos ?_
      rw [Bool.not_eq_true', List.isEmpty_eq_false_iff]
      exact hd
  · refine congrArg (fun e => Host.Outcome.next (s.to e)) ((if_neg hgo).trans ((if_neg (hidle h)).trans ((if_neg ?_).trans ?_)))
    · rw [Bool.not_eq_true', List.isEmpty_eq_false_iff]
      exact not_not_intro hclear
    · have hw : ((s.dev.updDie (row / 8) fun k => { k with droop := NSet.del k.droop row }).rail (row / 8)).waiting = some mv := hw
      simp only [hw]
      rfl

/-! ## Over-current -/

/-- The block once OVERCURRENT is asserted, before the ceilings fall (R403). -/
def Dev.overcurrentSet (d : Dev) : Dev := (d.updPower fun p => { p with overcurrent := true }).updHost fun h => { h with ocAlert := true }

/-- The assertion is counted and reported with the input power (R403). -/
def Dev.overcurrentReport (d : Dev) : Dev := (d.count 0x608038 1).glint 0 0x703 0 d.power.inputW 0

theorem overcurrentReport_parts : d.overcurrentReport.power = d.power ∧ d.overcurrentReport.host.ocAlert = d.host.ocAlert := by
  have hg : (d.count 0x608038 1).Glints d.overcurrentReport := Dev.glints_glint ..
  refine ⟨?_, ?_⟩
  · rw [hg.posts]
    rfl
  · rw [hg.host]
    rfl

theorem overcurrentAssert_eq (h : s.dev.power.overcurrent = false) (hstep : s.dev.boot.step ≠ 0) :
    exec .overcurrentAssert s = .next (s.to (s.dev.overcurrentSet.lowerCeilings (List.range 12) (75 / 100)).overcurrentReport) := by
  have hgo : ¬ (s.dev.power.overcurrent || decide (s.dev.boot.step = 0)) = true := by
    simp only [h, hstep, Bool.false_or, decide_false, Bool.false_eq_true, not_false_eq_true]
  refine congrArg (fun e => Host.Outcome.next (s.to e)) ((if_neg hgo).trans ?_)
  unfold Dev.overcurrentReport Dev.lowerCeilings Dev.overcurrentSet
  rfl

/-- What the assertion leaves of the alarms and of the ceilings. -/
theorem overcurrent_parts (h : d.Untraced) : ∀ e, e = (d.overcurrentSet.lowerCeilings (List.range 12) (75 / 100)).overcurrentReport →
    e.power.overcurrent = true ∧ e.host.ocAlert = true ∧
      ∀ n, n < 12 → 0 ≤ (d.die n).ceiling → (e.die n).ceiling = (d.die n).ceiling * (75 / 100) := by
  intro e he
  have hx := diesOnly_lowerCeilings (d := d.overcurrentSet) (List.range 12) (75 / 100) h
  have hlower (n : Nat) (hn : n < 12) (h0 : 0 ≤ (d.die n).ceiling) := ceiling_lowerCeilings (d := d.overcurrentSet) (q := 75 / 100) (n := n) (by norm_num)
    h List.nodup_range (List.mem_range.mpr hn) h0
  generalize d.overcurrentSet.lowerCeilings (List.range 12) (75 / 100) = x at hx hlower he
  subst he
  obtain ⟨hpower, hhost⟩ := overcurrentReport_parts (d := x)
  refine ⟨?_, ?_, fun n hn h0 => ?_⟩
  · rw [hpower, hx.power]
    rfl
  · rw [hhost, hx]
    rfl
  · refine Eq.trans ?_ (hlower n hn h0)
    unfold Dev.die
    rw [hpower]

/-! ## Temperature -/

theorem glints_thermalMoved (n old new temp : Nat) : d.Glints (d.thermalMoved n old new temp) :=
  (Dev.glints_count d _ _).trans (Dev.glints_forEach _ _ (fun e k => Dev.glints_glint e 0 0x701 n k temp) _)

theorem power_of_glints {e : Dev} (h : d.Glints e) : e.power = d.power := by
  rw [h.posts]

theorem untraced_of_glints {e : Dev} (h : d.Glints e) (hd : d.Untraced) : e.Untraced := by
  unfold Dev.Untraced
  rw [h.posts]
  exact hd

/-- The step in force on a compute die, of its own step and its base die's (R404). -/
def stepInForce (own base : Nat) : Nat := max own (if 2 ≤ base then base else 0)

/-- The step in force is written to the record of its die alone. -/
theorem applyThermal_eq (h : d.Untraced) :
    (d.applyThermal n = d.updDie n fun k => { k with thermal := stepInForce (d.die n).ownThermal (d.base (dieBase n)).thermal }) ∨
    (d.applyThermal n = d ∧ (d.die n).thermal = stepInForce (d.die n).ownThermal (d.base (dieBase n)).thermal) := by
  by_cases hsame : stepInForce (d.die n).ownThermal (d.base (dieBase n)).thermal = (d.die n).thermal
  · exact .inr ⟨if_pos hsame, hsame.symm⟩
  · exact .inl ((if_neg hsame).trans (trace_untraced (d := d.updDie n _) h _ _ _))

theorem die_applyThermal (h : d.Untraced) :
    (d.applyThermal n).die n = { d.die n with thermal := stepInForce (d.die n).ownThermal (d.base (dieBase n)).thermal } := by
  rcases applyThermal_eq (n := n) h with heq | ⟨heq, hsame⟩
  · rw [heq, Dev.die_updDie]
  · rw [heq, ← hsame]

theorem diesOnly_applyThermal (h : d.Untraced) : d.DiesOnly (d.applyThermal n) := by
  rcases applyThermal_eq (n := n) h with heq | ⟨heq, -⟩
  · rw [heq]
    exact diesOnly_updDie ..
  · rw [heq]
    exact .refl d

theorem base_forEach_applyThermal (b : Nat) (l : List Nat) (h : d.Untraced) : (Dev.forEach l Dev.applyThermal d).base b = d.base b := by
  induction l generalizing d with
  | nil => rfl
  | cons m l ih =>
    have honly := diesOnly_applyThermal (n := m) h
    have hbase : (d.applyThermal m).base b = d.base b := by
      unfold Dev.base
      rw [honly.power]
    exact (ih ((congrArg Security.trace honly.security).trans h)).trans hbase

/-- A compute die after a reading (R404). -/
theorem dieTempRead_die {sensors : List Nat} (h : d.Untraced) (htemp : sensors.foldl max 0 < 120) (hn : n < 12) :
    let temp := sensors.foldl max 0
    let e := d.dieTempRead n sensors
    (e.die n).temp = temp ∧ (e.die n).ownThermal = thermalAfter (d.die n).ownThermal temp ∧
      (e.die n).thermal = stepInForce (thermalAfter (d.die n).ownThermal temp) (d.base (dieBase n)).thermal := by
  intro temp e
  let new := thermalAfter (d.die n).ownThermal temp
  let x := d.updDie n fun k => { k with temp := temp, ownThermal := new }
  let y := x.thermalMoved n (d.die n).ownThermal new temp
  have he : e = y.applyThermal n := (if_neg (Nat.not_le.mpr htemp)).trans (if_pos hn)
  have hg : x.Glints y := glints_thermalMoved ..
  have hdie : y.die n = { d.die n with temp := temp, ownThermal := new } := by
    unfold Dev.die
    rw [power_of_glints hg]
    exact Dev.die_updDie d n _
  have hbase : y.base (dieBase n) = d.base (dieBase n) := by
    unfold Dev.base
    rw [power_of_glints hg]
    rfl
  rw [he, die_applyThermal (untraced_of_glints hg h), hdie, hbase]
  exact ⟨rfl, rfl, rfl⟩

/-- A base die after a reading. -/
theorem dieTempRead_base {sensors : List Nat} (h : d.Untraced) (htemp : sensors.foldl max 0 < 120) (hn : 12 ≤ n) :
    let temp := sensors.foldl max 0
    let e := d.dieTempRead n sensors
    (e.base (n - 12)).temp = temp ∧ (e.base (n - 12)).thermal = thermalAfter (d.base (n - 12)).thermal temp := by
  intro temp e
  let new := thermalAfter (d.base (n - 12)).thermal temp
  let x := d.updBase (n - 12) fun k => { k with temp := temp, thermal := new }
  let y := x.thermalMoved n (d.base (n - 12)).thermal new temp
  have he : e = Dev.forEach [3 * (n - 12), 3 * (n - 12) + 1, 3 * (n - 12) + 2] Dev.applyThermal y :=
    (if_neg (Nat.not_le.mpr htemp)).trans (if_neg (Nat.not_lt.mpr hn))
  have hg : x.Glints y := glints_thermalMoved ..
  have hbase : y.base (n - 12) = { d.base (n - 12) with temp := temp, thermal := new } := by
    unfold Dev.base
    rw [power_of_glints hg]
    exact Dev.base_updBase d (n - 12) _
  rw [he, base_forEach_applyThermal _ _ (untraced_of_glints hg h), hbase]
  exact ⟨rfl, rfl⟩

theorem exec_dieTempRead {sensors : List Nat} (hok : (n < 12 ∧ sensors.length = 8 ∧ s.dev.dieRuns n = true) ∨
    (12 ≤ n ∧ n < 16 ∧ sensors.length = 6 ∧ 2 ≤ s.dev.boot.step)) :
    exec (.dieTempRead n sensors) s = .next (s.to (s.dev.dieTempRead n sensors)) :=
  congrArg (fun e => Host.Outcome.next (s.to e)) (if_pos hok)

theorem thermalThrottle_ceiling (h : d.Untraced) (h0 : 0 ≤ (d.die n).ceiling) :
    ((d.setCeiling n ((d.die n).ceiling * (95 / 100))).die n).ceiling = (d.die n).ceiling * (95 / 100) := by
  rw [setCeiling_fall (mul_le_of_le_one_right h0 (by norm_num)), writeCeiling_eq h, Dev.die_updDie]
  rfl

/-- The steps' bounds (R404). -/
theorem thermalAfter_steps (old temp : Nat) : (110 ≤ temp → thermalAfter old temp = 3) ∧
    (100 ≤ temp → temp < 110 → old < 3 → thermalAfter old temp = 2) ∧ (95 ≤ temp → temp < 98 → old < 2 → thermalAfter old temp = 1) ∧
    (temp < 93 → thermalAfter old temp = 0) := by
  unfold thermalAfter
  simp only [Bool.or_eq_true, Bool.and_eq_true, decide_eq_true_eq]
  refine ⟨fun h => ?_, fun hlow hhigh hold => ?_, fun hlow hhigh hold => ?_, fun h => ?_⟩
  · rw [if_pos (.inl h)]
  · rw [if_neg (by omega), if_pos (.inl hlow)]
  · rw [if_neg (by omega), if_neg (by omega), if_pos (.inl hlow)]
  · rw [if_neg (by omega), if_neg (by omega), if_neg (by omega)]

/-- Settles O51. -/
theorem railsAndLimits : Obligations.RailsAndLimits := by
  unfold Obligations.RailsAndLimits
  intro s d out
  have run {x y : Dev} (h : x = y) : (Host.Outcome.next (s.to x) : Out) = .next (s.to y) := congrArg (fun e => Host.Outcome.next (s.to e)) h
  refine ⟨fun b hb hup => run (if_neg fun h => h.elim (Nat.not_le.mpr hb) (not_not_true hup)), fun n mv hfault => ?_, fun n mv hn hlast hout => ?_,
    fun n mv hn hout => ⟨fun hfirst => ?_, fun hagain htrace => ?_⟩, fun row hrow hruns => ?_, fun row hrow hdroop => exec_droopClear hrow hdroop,
    fun hoff hstep htrace => ⟨_, overcurrentAssert_eq hoff hstep, overcurrent_parts htrace _ rfl⟩, rfl, fun n sensors hok => ?_,
    fun n hn hthermal hhot htrace h0 => ⟨_, ?_, thermalThrottle_ceiling htrace h0⟩, thermalAfter_steps⟩
  · exact ⟨fun hidle hmv hdroop => requestRail_sends hfault hidle hmv hdroop, fun hidle hmv hlow hdroop => requestRail_deferred hfault hidle hmv hlow hdroop,
      fun m hout => requestRail_waits hfault hout⟩
  · exact ⟨railAcked_acked hout, exec_avsAck hn hlast⟩
  · have hsome : ¬ (16 ≤ n ∨ (s.dev.rail n).outstanding.isNone = true) := fun h => h.elim (Nat.not_le.mpr hn) fun h => by
      rw [show (s.dev.rail n).outstanding = some mv from hout] at h
      exact Bool.false_ne_true h
    exact run ((if_neg hsome).trans (if_neg (Bool.eq_false_iff.mp hfirst)))
  · have hsome : ¬ (16 ≤ n ∨ (s.dev.rail n).outstanding.isNone = true) := fun h => h.elim (Nat.not_le.mpr hn) fun h => by
      rw [show (s.dev.rail n).outstanding = some mv from hout] at h
      exact Bool.false_ne_true h
    obtain ⟨hrail, hceiling⟩ := railFails_parts (d := d) (n := n) htrace
    refine ⟨d.railFails n, run ((if_neg hsome).trans (if_pos hagain)), ?_⟩
    rw [hrail]
    exact ⟨rfl, rfl, rfl, hceiling⟩
  · exact run (if_neg fun h => h.elim (Nat.not_le.mpr hrow) (not_not_true hruns))
  · refine ⟨fun hhot => (exec_dieTempRead hok).trans (run (if_pos hhot)), fun hcool htrace => ⟨_, exec_dieTempRead hok, fun hn => ?_, fun hn => ?_⟩⟩
    · exact dieTempRead_die htrace hcool hn
    · exact dieTempRead_base htrace hcool hn
  · refine run (if_neg ?_)
    rintro (h | h | ⟨h1, h2⟩)
    · omega
    · exact h hthermal
    · exact hhot.elim (Nat.not_le.mpr h1) (Nat.not_le.mpr h2)

end Sys2Proof.Machine
end

section
/-! Power states: DIM, gated cores, DARK and package DARK (R405 to R413, R449). -/

namespace Sys2Proof.Machine

variable {s : State} {d : Dev} {n c : Nat}

/-! ## DIM -/

/-- A die may be in DIM (R405, R469). -/
def Dev.mayDim (d : Dev) (n : Nat) : Bool := d.power.actDimEn && !d.power.fixed && !(d.rail n).fault && !d.debugFull

theorem mayDim_iff : d.mayDim n = true ↔
    d.power.actDimEn = true ∧ d.power.fixed = false ∧ (d.rail n).fault = false ∧ d.security.debug ≠ 3 := by
  simp only [Dev.mayDim, Dev.debugFull, Bool.and_eq_true, Bool.not_eq_true', decide_eq_false_iff_not, and_assoc, ne_eq]

/-- What DIM_UPDATE does to a compute die of a device whose dies are up. -/
def Dev.dimUpdated (d : Dev) (n : Nat) (occ : Rat) : Dev :=
  if (d.die n).state = .dim then if d.mayDim n then d.dimSet n occ else d.dieState n .on
  else if (d.die n).state = .on ∧ d.mayDim n = true ∧ occ < 25 / 100 then (d.dieState n .dim).dimSet n occ
  else d

theorem exec_dimUpdate {issued beats : Nat} (hn : n < 12) (hup : s.dev.diesUp = true) :
    exec (.dimUpdate n issued beats) s = .next (s.to (s.dev.dimUpdated n (occupancy issued beats))) :=
  congrArg (fun e => Host.Outcome.next (s.to e)) (if_neg fun h => h.elim (Nat.not_le.mpr hn) (not_not_true hup))

theorem dimUpdated_dim {occ : Rat} (h : (d.die n).state = .dim) :
    (d.mayDim n = true → d.dimUpdated n occ = d.dimSet n occ) ∧ (¬ d.mayDim n = true → d.dimUpdated n occ = d.dieState n .on) :=
  ⟨fun hmay => (if_pos h).trans (if_pos hmay), fun hmay => (if_pos h).trans (if_neg hmay)⟩

theorem dimUpdated_on {occ : Rat} (h : (d.die n).state = .on) :
    (d.mayDim n = true → occ < 25 / 100 → d.dimUpdated n occ = (d.dieState n .dim).dimSet n occ) ∧ (25 / 100 ≤ occ → d.dimUpdated n occ = d) := by
  have hdim : (d.die n).state ≠ .dim := by
    rw [h]
    exact DieState.noConfusion
  exact ⟨fun hmay hocc => (if_neg hdim).trans (if_pos ⟨h, hmay, hocc⟩), fun hocc => (if_neg hdim).trans (if_neg fun hno => absurd hno.2.2 (not_lt.mpr hocc))⟩

theorem exec_dimExit {issued beats : Nat} (hn : n < 12) (hdim : (s.dev.die n).state = .dim)
    (hcause : 90 / 100 < occupancy issued beats ∨ (s.dev.blocks.any fun b => decide (coreDie b.core = n) &&
      (((s.dev.launch? b.launch).map fun l => decide (l.cls = 0)).getD false)) = true) :
    exec (.dimExit n issued beats) s = .next (s.to (s.dev.dieState n .on)) :=
  congrArg (fun e => Host.Outcome.next (s.to e)) (if_pos ⟨hn, hdim, hcause⟩)

/-- A block of class 0 stands on the die. -/
theorem firstOnDie {b : Block} {l : Launch} (hb : b ∈ d.blocks) (hn : coreDie b.core = n) (hl : d.launch? b.launch = some l) (hcls : l.cls = 0) :
    (d.blocks.any fun b => decide (coreDie b.core = n) && (((d.launch? b.launch).map fun l => decide (l.cls = 0)).getD false)) = true := by
  refine List.any_eq_true.mpr ⟨b, hb, ?_⟩
  simp only [hn, hl, hcls, decide_true, Option.map_some, Option.getD_some, Bool.and_self]

theorem dieState_parts (h : d.Untraced) (st : DieState) :
    ((d.dieState n st).die n).state = st ∧ ∀ m, m ≠ n → (d.dieState n st).die m = d.die m := by
  by_cases hsame : (d.die n).state = st
  · have heq : d.dieState n st = d := if_pos hsame
    rw [heq]
    exact ⟨hsame, fun _ _ => rfl⟩
  · have heq : d.dieState n st = d.updDie n fun k => { k with state := st } := (if_neg hsame).trans (trace_untraced (d := d.updDie n _) h _ _ _)
    rw [heq, Dev.die_updDie]
    exact ⟨rfl, fun m hm => Dev.die_updDie_ne d hm _⟩

/-! ## Gated cores -/

/-- A core that loses power, with or without its retention banks (R406). -/
def Core.gatedAs (k : Core) (keeps : Bool) : Core :=
  { k with gated := true, la := if keeps then k.la.filter fun e => decide (e.1 < 1048576) else [],
           laPoison := k.laPoison.filter fun row => keeps && decide (row < 8192) }

theorem core_gateCore : (d.gateCore c).core c = ((d.flushL1 c).core c).gatedAs (NSet.has d.cache.retain c) :=
  Dev.core_updCore (d.flushL1 c) c fun k => k.gatedAs (NSet.has d.cache.retain c)

theorem dieRuns_of_state (h : (d.die n).state = .dark) : d.dieRuns n = false := by
  simp only [Dev.dieRuns, h, reduceCtorEq, decide_false, Bool.or_self, Bool.and_false]

theorem exec_coreWake (hvalid : coreValid c = true) (hgated : (s.dev.core c).gated = true) :
    (s.dev.dieRuns (coreDie c) = true → exec (.coreWake c) s = .next (s.to (s.dev.updCore c fun k => { k with gated := false }))) ∧
    (s.dev.dieRuns (coreDie c) = false → exec (.coreWake c) s = .next (s.to (s.dev.wakeDie (coreDie c)))) := by
  have hgo : ¬ (!coreValid c || !(s.dev.core c).gated) = true := by
    rw [hvalid, hgated]
    exact Bool.false_ne_true
  exact ⟨fun h => congrArg (fun e => Host.Outcome.next (s.to e)) ((if_neg hgo).trans (if_pos h)),
    fun h => congrArg (fun e => Host.Outcome.next (s.to e)) ((if_neg hgo).trans (if_neg (Bool.eq_false_iff.mp h)))⟩

theorem wakeDie_entering (hstate : (d.die n).state = .transition) (hentering : (d.die n).entering = true) :
    d.wakeDie n = (d.count 0x608030 1).updDie n fun k => { k with wakeLatch := true } := by
  have hdark : (d.die n).state ≠ .dark := by
    rw [hstate]
    exact DieState.noConfusion
  exact (if_neg hdark).trans (if_pos ⟨hstate, hentering⟩)

/-- Settles O52: each row by its own test of the die's state. -/
theorem powerStates : Obligations.PowerStates := by
  unfold Obligations.PowerStates
  intro s d out
  have run {x y : Dev} (h : x = y) : (Host.Outcome.next (s.to x) : Out) = .next (s.to y) := congrArg (fun e => Host.Outcome.next (s.to e)) h
  refine ⟨fun n issued beats hn hup => ?_, fun n issued beats hn hdim => ⟨fun hocc => exec_dimExit hn hdim (.inl hocc),
      fun b l hb hon hl hcls => exec_dimExit hn hdim (.inr (firstOnDie hb hon hl hcls))⟩,
    fun n st htrace => dieState_parts htrace st, fun c hmay => ⟨_, run (if_pos hmay), ?_⟩, fun c hvalid hgated => ?_,
    fun n hn hruns hcores hlehr hfault hdebug hresets => run (if_neg ?_), fun n hn hstate hentering hout => run (if_neg ?_),
    fun n hn hdark => run ((if_pos hn).trans (if_pos hdark)), fun n hn hdark => run ((if_pos hn).trans (if_neg hdark)),
    fun n hn hstate hentering hout => run (if_neg ?_), fun hmay => run (if_neg (not_not_true hmay)), fun hmay => run (if_pos ?_),
    fun hpkg => run (if_neg (not_not_intro hpkg)), fun ports servitors hpkg hrails hports hservitors => run (if_neg ?_)⟩
  · intro occ may
    have hrun := exec_dimUpdate (issued := issued) (beats := beats) hn hup
    exact ⟨fun hdim hmay => hrun.trans (run ((dimUpdated_dim hdim).1 (mayDim_iff.mpr hmay))),
      fun hdim hmay => hrun.trans (run ((dimUpdated_dim hdim).2 fun h => hmay (mayDim_iff.mp h))),
      fun hon hmay hocc => hrun.trans (run ((dimUpdated_on hon).1 (mayDim_iff.mpr hmay) hocc)),
      fun hon hocc => hrun.trans (run ((dimUpdated_on hon).2 hocc))⟩
  · rw [core_gateCore]
    refine ⟨rfl, fun hno => ?_, fun hkeeps x => ?_⟩
    · exact if_neg (Bool.eq_false_iff.mp hno)
    · have hla : (((d.count 0x608028 1).flushL1 c).core c |>.gatedAs (NSet.has d.cache.retain c)).la =
          (((d.count 0x608028 1).flushL1 c).core c).la.filter fun e => decide (e.1 < 1048576) := if_pos hkeeps
      refine (Iff.of_eq (congrArg (x ∈ ·) hla)).trans ?_
      rw [List.mem_filter, decide_eq_true_eq]
  · obtain ⟨hwakes, hsleeps⟩ := exec_coreWake hvalid hgated
    exact ⟨hwakes, fun hruns hstate hentering => (hsleeps hruns).trans (run (wakeDie_entering hstate hentering)),
      fun hdark => (hsleeps (dieRuns_of_state hdark)).trans (run (if_pos hdark))⟩
  · rintro (h | h | h | h | h | h | h)
    · exact absurd hn (Nat.not_lt.mpr h)
    · exact not_not_true hruns h
    · exact not_not_true (List.all_eq_true.mpr hcores) h
    · exact Bool.false_ne_true (hlehr.symm.trans h)
    · exact Bool.false_ne_true (hfault.symm.trans h)
    · exact Bool.false_ne_true (hdebug.symm.trans h)
    · exact Bool.false_ne_true (hresets.symm.trans h)
  · rintro (h | h | h | h)
    · exact absurd hn (Nat.not_lt.mpr h)
    · exact h hstate
    · exact Bool.false_ne_true (h.symm.trans hentering)
    · exact h hout
  · rintro (h | h | h | h)
    · exact absurd hn (Nat.not_lt.mpr h)
    · exact h hstate
    · exact Bool.false_ne_true (hentering.symm.trans h)
    · exact h hout
  · rw [show s.dev.mayPackageDark = false from hmay]
    rfl
  · rintro (h | h | h | h)
    · exact h hpkg
    · refine not_not_true (List.all_eq_true.mpr fun n hn => ?_) h
      rw [Bool.or_eq_true, decide_eq_true_eq]
      exact hrails n hn
    · exact h hports
    · exact h hservitors

end Sys2Proof.Machine
end

section
/-! Errors and the module's sideband: weight damage and its repair, scores, endpoints, the coolant's warning (R432 to R438, R513 to R517). -/

namespace Sys2Proof.Machine

variable {s : State} {d : Dev} {n core model : Nat}

/-! ## Resident weights -/

/-- A failed weight row of a loaded core damages its model. -/
theorem exec_weightDamage_row {m : Model} {k : Slot} (hm : s.dev.model? model = some m) (hcore : core < 768) (hslot : s.dev.slotOf model = some k)
    (hloaded : k.loaded = true) (hhas : NSet.has k.cores core = true) :
    exec (.weightDamage model core) s = .next (s.to
      (((s.dev.damage model fun m => { m with damagedCores := NSet.add m.damagedCores core }).count 0x609010 1).scoreUp core 16)) := by
  have hhit : ¬ (!k.loaded || !NSet.has k.cores core) = true := by simp only [hloaded, hhas]; decide
  refine congrArg (fun e => Host.Outcome.next (s.to e)) ?_
  simp only [hm, if_pos hcore, hslot, if_neg hhit]

/-- A lost line of a warm copy damages every hot model of its digest. -/
theorem exec_weightDamage_line {m : Model} {w : WarmCopy} {l : Nat} (hm : s.dev.model? model = some m) (hcore : 768 ≤ core)
    (hwarm : s.dev.warmOf m.digest = some w) (hline : w.lines[(core - 768) % (max 1 w.lines.length)]? = some l) :
    exec (.weightDamage model core) s = .next (s.to (Dev.forEach (s.dev.serving.models.filter fun x => decide (x.digest = w.digest) && s.dev.isHot x.num)
      (fun d x => d.damage x.num id) (s.dev.poisonLine l))) := by
  refine congrArg (fun e => Host.Outcome.next (s.to e)) ?_
  simp only [hm, if_neg (Nat.not_lt.mpr hcore), hwarm, hline]

theorem exec_weightReloadDone_reloaded {m : Model} {image : List Byte} {source : Nat} {e : Dev} (hm : s.dev.model? model = some m)
    (hdamaged : m.damaged = true) (hw : s.dev.weights m = (some (image, source), e)) :
    exec (.weightReloadDone model) s = .next (s.to (e.reloaded m image source)) := by
  refine congrArg (fun e => Host.Outcome.next (s.to e)) ?_
  simp only [hm, if_neg (not_not_true hdamaged), hw]

theorem exec_weightReloadDone_lost {m : Model} {e : Dev} (hm : s.dev.model? model = some m) (hdamaged : m.damaged = true)
    (hw : s.dev.weights m = (none, e)) : exec (.weightReloadDone model) s = .next (s.to (e.modelLost m)) := by
  refine congrArg (fun e => Host.Outcome.next (s.to e)) ?_
  simp only [hm, if_neg (not_not_true hdamaged), hw]

theorem exec_weightReloadDone_whole {m : Model} (hm : s.dev.model? model = some m) (hwhole : m.damaged = false) :
    exec (.weightReloadDone model) s = .next s := by
  refine congrArg (fun e => Host.Outcome.next (s.to e)) ?_
  have hskip : (!m.damaged) = true := by rw [hwhole]; rfl
  simp only [hm, if_pos hskip]

/-! ## The module's endpoint -/

theorem endpointUp_of_step (hstep : 4 ≤ d.boot.step) : d.endpointUp = true := decide_eq_true hstep

/-- An endpoint that is up, outside recovery, answers (R513). -/
theorem endpoint_answers (hstep : 4 ≤ d.boot.step) (hrecovery : d.boot.recovery = false) : ¬ (!d.endpointUp || d.boot.recovery) = true := by
  rw [endpointUp_of_step hstep, hrecovery]
  decide

theorem exec_pldmSensorRead {v : Nat} (hstep : 4 ≤ s.dev.boot.step) (hrecovery : s.dev.boot.recovery = false) (hv : s.dev.sensor n = some v) :
    exec (.pldmSensorRead n) s = .next (s.to (s.dev.send (.pldm v))) := by
  refine congrArg (fun e => Host.Outcome.next (s.to e)) ((if_neg (endpoint_answers hstep hrecovery)).trans ?_)
  simp only [hv]

/-! ## The coolant's warning -/

/-- The warning rises at 45 degrees or a rise of 15, falls below 43 and a rise of 13, and else stays (R517). -/
theorem coolantWarns_rule (old : Bool) (inlet outlet : Nat) :
    (45 ≤ inlet → coolantWarns old inlet outlet = true) ∧ (inlet + 15 ≤ outlet → coolantWarns old inlet outlet = true) ∧
    (inlet < 43 → outlet < inlet + 13 → coolantWarns old inlet outlet = false) ∧
    (43 ≤ inlet → inlet < 45 → outlet < inlet + 15 → coolantWarns old inlet outlet = old) := by
  unfold coolantWarns
  refine ⟨fun h => if_pos (.inl h), fun h => if_pos (.inr h), fun hin hout => ?_, fun hlow hhigh hout => ?_⟩
  · rw [if_neg (by omega), if_pos ⟨hin, hout⟩]
  · rw [if_neg (by omega), if_neg (by omega)]

/-- The gaffer is told when the warning rises. -/
theorem coolantRises_iff {warn old : Bool} : (warn && !old) = true ↔ warn = true ∧ old = false := by
  rw [Bool.and_eq_true, Bool.not_eq_true']

/-- Settles O53. -/
theorem errorsAndModule : Obligations.ErrorsAndModule := by
  unfold Obligations.ErrorsAndModule
  intro s d out
  have run {x y : Dev} (h : x = y) : (Host.Outcome.next (s.to x) : Out) = .next (s.to y) := congrArg (fun e => Host.Outcome.next (s.to e)) h
  refine ⟨fun hfew => ?_, fun hmany => ?_, fun model m hm => ⟨fun core k hcore hslot hloaded hhas => ?_, fun core w l hcore hwarm hline =>
      exec_weightDamage_line hm hcore hwarm hline, fun hdamaged => ⟨fun image source e hw => exec_weightReloadDone_reloaded hm hdamaged hw,
      fun e hw => exec_weightReloadDone_lost hm hdamaged hw⟩, fun hwhole => exec_weightReloadDone_whole hm hwhole⟩, fun core hcore => ?_,
    fun cause hup => run (if_neg hup), fun hstep => ?_, fun inlet outlet hup => ?_, coolantWarns_rule⟩
  · exact run (congrArg (fun x : Dev => x.updErrors fun e => { e with corrected := 0, actCeThresh := e.ceThresh }) (if_neg (Nat.not_lt.mpr hfew)))
  · exact run (congrArg (fun x : Dev => x.updErrors fun e => { e with corrected := 0, actCeThresh := e.ceThresh }) (if_pos hmany))
  · exact ⟨_, exec_weightDamage_row hm hcore hslot hloaded hhas, rfl⟩
  · exact ⟨_, run (if_neg (not_not_true hcore)), Tab.get_set_same _ _ _ _, fun c hc => Tab.get_set_other 0 s.dev.errors.scores hc _⟩
  · have hup := endpointUp_of_step hstep
    refine ⟨fun eid => run (if_neg (not_not_true hup)), fun eid => run (if_neg (not_not_true hup)), fun addr => run (if_pos hup), fun hrecovery =>
      ⟨fun n v hv => exec_pldmSensorRead hstep hrecovery hv, run (if_neg (endpoint_answers hstep hrecovery))⟩⟩
  · exact run ((if_neg hup).trans (ite_congr (propext coolantRises_iff) (fun _ => rfl) fun _ => rfl))

end Sys2Proof.Machine
end

section
/-! Security: attestation and signing, firmware banks, link keys and lifecycle transitions (R445 to R463, R470). -/

namespace Sys2Proof.Machine

variable {s : State} {d e : Dev} {fn code n : Nat} {b q : List Byte} {subject : Dev → List Byte → Nat} {body : Dev → List Byte → MbxResult}

/-- A served command that its own rule fails after it has acted completes with the status, without an entry. -/
theorem Dev.mbxRun_fails {st : Code} (h : Served d fn code) (hst : st ≠ 0) (hb : body d (d.mbxRequest fn) = .outcome e st) :
    d.mbxRun fn code subject body = e.mbxRefuse fn st [] := by
  rw [Dev.mbxRun_served h]
  simp only [hb, hst, decide_false, Bool.false_eq_true, if_false]

/-- A served read-only command that runs on keeps its request accepted. -/
theorem Dev.mbxRun_readWaits (h : Served d fn code) (hr : readOnlyCommand code = true) (hb : body d (d.mbxRequest fn) = .wait e) :
    d.mbxRun fn code subject body = e.mbxAccept fn := by
  rw [Dev.mbxRun_served h]
  simp only [hb, hr, if_true]

/-! ## Attestation and signing -/

theorem attestReport_eq (hs : Served s.dev fn 0x0800) (hline : leAt (s.dev.mbxRequest fn) 48 8 % 64 = 0)
    (hwritable : s.dev.writable fn (leAt (s.dev.mbxRequest fn) 48 8) 50368 = true) : exec (.attestReport fn) s =
      .next (s.to ((s.dev.askReport fn false (BitVec.ofNat 256 (leAt (s.dev.mbxRequest fn) 16 32)) (leAt (s.dev.mbxRequest fn) 48 8)).mbxAccept fn)) :=
  congrArg (fun e => Host.Outcome.next (s.to e)) (Dev.mbxRun_readWaits hs rfl (if_neg fun h => h.elim (fun hne => hne hline) (not_not_true hwritable)))

/-- The identity chain written at the address that IDENTITY_CHAIN gives. -/
def Dev.writeChain (d : Dev) (fn : Nat) : Bool × Dev := d.vwrite agentGaffer fn false none (leAt (d.mbxRequest fn) 8 8) identityChain false

theorem identityChain_written (hs : Served s.dev fn 0x0801) (h : (s.dev.writeChain fn).1 = true) : exec (.identityChain fn) s =
    .next (s.to ((s.dev.writeChain fn).2.mbxRespond fn 0 (leBytes 8 1 ++ leBytes 8 Config.identityChainBytes))) :=
  congrArg (fun e => Host.Outcome.next (s.to e)) (Dev.mbxRun_read hs rfl (if_neg (not_not_true h)))

theorem identityChain_unwritten (hs : Served s.dev fn 0x0801) (h : (s.dev.writeChain fn).1 = false) :
    exec (.identityChain fn) s = .next (s.to (s.dev.mbxRefuse fn 0x3 [])) := by
  have hno : (!(s.dev.writeChain fn).1) = true := by rw [h]; rfl
  exact congrArg (fun e => Host.Outcome.next (s.to e)) (Dev.mbxRun_refuse hs (if_pos hno))

/-- The running image's version is read, or drawn in recovery mode: the block draws a value at most. -/
theorem fwVersion_draws (d : Dev) : d.fwVersion.2 = { d with freeCount := d.fwVersion.2.freeCount } := by
  unfold Dev.fwVersion
  split <;> rfl

theorem reportBody_draws (d : Dev) (f : Nat) (nonce : BitVec 256) :
    (d.reportBody f nonce).2 = { d with freeCount := (d.reportBody f nonce).2.freeCount } := fwVersion_draws d

section report

variable {f dest : Nat} {nonce : BitVec 256} {rest : List Signing}

theorem signingComplete_mailbox (h : d.security.signings = .report f false nonce dest :: rest) :
    let r := d.reportBody f nonce
    d.signingComplete = (r.2.popSigning.gwrite f dest (r.1 ++ signatureOf r.1)).finishCode f 0x0800 (leBytes 8 1 ++ leBytes 8 50368) := by
  unfold Dev.signingComplete
  simp only [h, Bool.false_eq_true, if_false]

theorem signingComplete_doe (h : d.security.signings = .report f true nonce dest :: rest) (hup : d.host.linkUp = true) :
    let r := d.reportBody f nonce
    d.signingComplete = r.2.popSigning.send (.doe f (r.1 ++ signatureOf r.1)) := by
  have hlink : (d.reportBody f nonce).2.popSigning.host.linkUp = true := by
    rw [reportBody_draws]
    exact hup
  unfold Dev.signingComplete
  simp only [h, hlink, if_true]

end report

theorem checkpoints_startSigning (x : Security) : x.startSigning.checkpoints = x.checkpoints := by
  unfold Security.startSigning
  split <;> rfl

theorem checkpoints_dueCheckpoint (x : Security) (fn : Option Nat) (nonce : BitVec 256) (dest : Nat) :
    (x.dueCheckpoint fn nonce dest).checkpoints = x.checkpoints := by
  unfold Security.dueCheckpoint
  split
  · rfl
  · split
    · split <;> rfl
    · rfl

/-- A journal entry keeps the signed checkpoints. -/
theorem checkpoints_audit {kind actor : Nat} {self : Bool} {c st : Code} {subj detail : BitVec 64} :
    (d.audit kind actor self c st subj detail).security.checkpoints = d.security.checkpoints := by
  have hglint (e : Dev) (f typ a x y : Nat) : (e.glint f typ a x y).security = e.security := by
    rw [show e.glint f typ a x y = _ from Dev.posts_glintTo e f typ _]
  have hentry (x : Security) (c' : Prop) [Decidable c'] :
      (if c' then { (x.dueCheckpoint none 0 0).startSigning with sinceCheckpoint := 0 } else x).checkpoints = x.checkpoints := by
    split
    · exact (checkpoints_startSigning _).trans (checkpoints_dueCheckpoint x none 0 0)
    · rfl
  unfold Dev.audit
  dsimp only
  split <;> split <;> simp only [hglint, hentry]

theorem checkpoints_popSigning : d.popSigning.security.checkpoints = d.security.checkpoints := by
  exact checkpoints_startSigning _

/-- The checkpoint that the gaffer signs of its own accord. -/
theorem signingComplete_checkpoint {dest : Nat} {nonce : BitVec 256} {rest : List Signing} (h : d.security.signings = .checkpoint none nonce dest :: rest) :
    ∃ c : Checkpoint, d.signingComplete.security.checkpoints = (c :: d.security.checkpoints).take 64 ∧ c.first = d.security.lastCheckpointed + 1 ∧
      c.last = (d.security.covers.getD (d.security.seq, d.security.lost, d.security.lastDigest)).1 ∧ c.lifecycle = d.security.lifecycle := by
  have hsec : d.fwVersion.2.security = d.security := by rw [fwVersion_draws]
  have heq : d.signingComplete = d.checkpointSigned none nonce dest := by
    unfold Dev.signingComplete
    simp only [h]
  have hchecks : (d.fwVersion.2.popSigning.auditEvent 0 true 6 0
      (d.security.covers.getD (d.security.seq, d.security.lost, d.security.lastDigest)).1).security.checkpoints = d.security.checkpoints :=
    checkpoints_audit.trans (checkpoints_popSigning.trans (congrArg Security.checkpoints hsec))
  refine ⟨{ first := d.security.lastCheckpointed + 1, nonce := nonce, lifecycle := d.security.lifecycle, fwVersion := BitVec.ofNat 32 d.fwVersion.1,
            last := (d.security.covers.getD (d.security.seq, d.security.lost, d.security.lastDigest)).1,
            lost := (d.security.covers.getD (d.security.seq, d.security.lost, d.security.lastDigest)).2.1,
            digest := (d.security.covers.getD (d.security.seq, d.security.lost, d.security.lastDigest)).2.2 }, ?_, rfl, rfl, rfl⟩
  rw [heq, ← hchecks]
  unfold Dev.checkpointSigned
  simp only [hsec]
  rfl

/-! ## Firmware banks -/

theorem fwStage_rule (fn : Nat) (s : State) : ∃ rule : Dev → List Byte → MbxResult,
    exec (.fwStage fn) s = .next (s.to (s.dev.mbxRun fn 0x0802 (ofSender fn) rule)) ∧
    (∀ x p, 33554432 < leAt p 16 8 → rule x p = .outcome (x.setBank x.idleBank { x.bankOf x.idleBank with usable := false }) 0x801) ∧
    ∀ x p, leAt p 16 8 ≤ 33554432 →
      let r := x.gread fn (leAt p 8 8) (leAt p 16 8)
      r.1.ok = true →
      ((r.1.poison = true ∨ imageSigned r.1.bytes = false) → rule x p = .outcome (r.2.setBank r.2.idleBank (bankOfImage r.1.bytes false)) 0x801) ∧
      (r.1.poison = false ∧ imageSigned r.1.bytes = true ∧ r.2.security.svnFused ≤ BitVec.ofNat 8 (leAt r.1.bytes 8 1) →
        rule x p = .ok (r.2.setBank r.2.idleBank (bankOfImage r.1.bytes true)) []) := by
  refine ⟨_, rfl, fun x p hlong => if_pos hlong, fun x p hlen hok => ⟨fun hbad => ?_, fun ⟨hclean, hsigned, hsvn⟩ => ?_⟩⟩
  · have hreject : ((x.gread fn (leAt p 8 8) (leAt p 16 8)).1.poison || !imageSigned (x.gread fn (leAt p 8 8) (leAt p 16 8)).1.bytes) = true := by
      rw [Bool.or_eq_true, Bool.not_eq_true']
      exact hbad
    exact (if_neg (Nat.not_lt.mpr hlen)).trans ((if_neg (not_not_true hok)).trans (if_pos hreject))
  · have haccept : ¬ ((x.gread fn (leAt p 8 8) (leAt p 16 8)).1.poison || !imageSigned (x.gread fn (leAt p 8 8) (leAt p 16 8)).1.bytes) = true := by
      rw [hclean, hsigned]
      decide
    exact (if_neg (Nat.not_lt.mpr hlen)).trans ((if_neg (not_not_true hok)).trans ((if_neg haccept).trans (if_neg (BitVec.not_lt.mpr hsvn))))

/-- An image that takes the idle bank: read clean, signed, and not older than the fused SVN. -/
def Dev.Stageable (x : Dev) (fn : Nat) (p : List Byte) : Prop :=
  (x.gread fn (leAt p 8 8) (leAt p 16 8)).1.ok = true ∧ (x.gread fn (leAt p 8 8) (leAt p 16 8)).1.poison = false ∧
    imageSigned (x.gread fn (leAt p 8 8) (leAt p 16 8)).1.bytes = true ∧
    (x.gread fn (leAt p 8 8) (leAt p 16 8)).2.security.svnFused ≤ BitVec.ofNat 8 (leAt (x.gread fn (leAt p 8 8) (leAt p 16 8)).1.bytes 8 1)

section fwStage

variable (hs : Served s.dev fn 0x0802)
include hs

theorem fwStage_tooLong (hlong : 33554432 < leAt (s.dev.mbxRequest fn) 16 8) : exec (.fwStage fn) s =
    .next (s.to ((s.dev.setBank s.dev.idleBank { s.dev.bankOf s.dev.idleBank with usable := false }).mbxRefuse fn 0x801 [])) := by
  obtain ⟨rule, hexec, hrule, -⟩ := fwStage_rule fn s
  rw [hexec, Dev.mbxRun_fails hs (by decide) (hrule _ _ hlong)]

theorem fwStage_rejected (hlen : leAt (s.dev.mbxRequest fn) 16 8 ≤ 33554432) :
    let r := s.dev.gread fn (leAt (s.dev.mbxRequest fn) 8 8) (leAt (s.dev.mbxRequest fn) 16 8)
    r.1.ok = true → (r.1.poison = true ∨ imageSigned r.1.bytes = false) →
    exec (.fwStage fn) s = .next (s.to ((r.2.setBank r.2.idleBank (bankOfImage r.1.bytes false)).mbxRefuse fn 0x801 [])) := by
  intro r hok hbad
  obtain ⟨rule, hexec, -, hrule⟩ := fwStage_rule fn s
  rw [hexec, Dev.mbxRun_fails hs (by decide) ((hrule _ _ hlen hok).1 hbad)]

theorem fwStage_staged (hlen : leAt (s.dev.mbxRequest fn) 16 8 ≤ 33554432) (h : s.dev.Stageable fn (s.dev.mbxRequest fn))
    (h' : (s.dev.mbxJournaled fn 0x0802 fn).Stageable fn (s.dev.mbxRequest fn)) :
    let r := (s.dev.mbxJournaled fn 0x0802 fn).gread fn (leAt (s.dev.mbxRequest fn) 8 8) (leAt (s.dev.mbxRequest fn) 16 8)
    exec (.fwStage fn) s = .next (s.to ((r.2.setBank r.2.idleBank (bankOfImage r.1.bytes true)).mbxRespond fn 0 [])) := by
  intro r
  obtain ⟨rule, hexec, -, hrule⟩ := fwStage_rule fn s
  obtain ⟨hok, haccept⟩ := h
  obtain ⟨hok', haccept'⟩ := h'
  rw [hexec, Dev.mbxRun_ok (subject := ofSender fn) hs rfl ((hrule _ _ hlen hok).2 haccept) ((hrule _ _ hlen hok').2 haccept')]

end fwStage

theorem fwActivate_eq (hs : Served s.dev fn 0x0803) (h : (s.dev.bankOf (leAt (s.dev.mbxRequest fn) 1 1 % 2)).usable = true) :
    exec (.fwActivate fn) s = .next (s.to (((s.dev.mbxJournaled fn 0x0803 fn).updBoot fun b =>
      { b with activated := leAt (s.dev.mbxRequest fn) 1 1 % 2, retried := false }).mbxRespond fn 0 [])) := by
  refine congrArg (fun e => Host.Outcome.next (s.to e)) (Dev.mbxRun_done (subject := ofSender fn) hs rfl
    (fun x => x.updBoot fun b => { b with activated := leAt (s.dev.mbxRequest fn) 1 1 % 2, retried := false }) (fun _ => []) fun y => ?_)
  simp only [bits_zero, Nat.reducePow]
  exact if_pos h

theorem fwActivate_refused (hs : Served s.dev fn 0x0803) (h : (s.dev.bankOf (leAt (s.dev.mbxRequest fn) 1 1 % 2)).usable = false) :
    exec (.fwActivate fn) s = .next (s.to (s.dev.mbxRefuse fn 0x801 [])) := by
  refine congrArg (fun e => Host.Outcome.next (s.to e)) (Dev.mbxRun_refuse hs ?_)
  simp only [bits_zero, Nat.reducePow]
  exact if_neg (Bool.eq_false_iff.mp h)

/-- The SVN that FW_COMMIT_SVN fuses (R448). -/
def Dev.svnToFuse (d : Dev) : BitVec 8 := if d.security.svnFused ≤ d.runningBank.svn then d.runningBank.svn else d.security.svnFused

theorem fwCommitSvn_eq (hs : Served s.dev fn 0x0804) : exec (.fwCommitSvn fn) s =
    .next (s.to (((s.dev.mbxJournaled fn 0x0804 fn).updSecurity fun x => { x with svnFused := s.dev.svnToFuse }).mbxRespond fn 0
      ([1, s.dev.svnToFuse] ++ leBytes 6 0))) :=
  congrArg (fun e => Host.Outcome.next (s.to e)) (Dev.mbxRun_done (subject := ofSender fn) hs rfl
    (fun x => x.updSecurity fun y => { y with svnFused := s.dev.svnToFuse }) (fun _ => [1, s.dev.svnToFuse] ++ leBytes 6 0) fun _ => rfl)

/-! ## Link keys -/

/-- A key of a stream's direction and set, put in place; the link's own keys may make its IDE active (R453). -/
def Dev.putKey (d : Dev) (stream set slot : Nat) (key : BitVec 256) : Dev :=
  let e := d.updSecurity fun x => { x with ideKeys := Tab.put x.ideKeys slot key }
  if stream = 0 ∧ e.linkKeyed set = true then e.updSecurity fun x => { x with ideLink := true } else e

theorem bits_one (v : Nat) : bits v 1 1 = v / 2 % 2 := rfl

section ideKeySet

variable (hs : Served s.dev fn 0x0810) (hstream : leAt (s.dev.mbxRequest fn) 1 1 % 16 ≤ 8)
include hs hstream

theorem ideKeySet_eq {key : BitVec 256} (hkey : Config.unwrapKey (((s.dev.mbxRequest fn).drop 8).take 1608) = some key) :
    let p := s.dev.mbxRequest fn
    exec (.ideKeySet fn) s = .next (s.to (((s.dev.mbxJournaled fn 0x0810 fn).putKey (leAt p 1 1 % 16) (leAt p 2 1 % 2)
      (4 * (leAt p 1 1 % 16) + 2 * (leAt p 2 1 % 2) + leAt p 2 1 / 2 % 2) key).mbxRespond fn 0 [])) := by
  intro p
  refine congrArg (fun e => Host.Outcome.next (s.to e)) (Dev.mbxRun_done (subject := ofSender fn) hs rfl
    (fun x => x.putKey (leAt p 1 1 % 16) (leAt p 2 1 % 2) (4 * (leAt p 1 1 % 16) + 2 * (leAt p 2 1 % 2) + leAt p 2 1 / 2 % 2) key)
    (fun _ => []) fun y => ?_)
  simp only [bits_zero, bits_one, Nat.reducePow]
  refine (if_neg (Nat.not_lt.mpr hstream)).trans ?_
  simp only [hkey]
  rfl

theorem ideKeySet_refused (hkey : Config.unwrapKey (((s.dev.mbxRequest fn).drop 8).take 1608) = none) :
    exec (.ideKeySet fn) s = .next (s.to (s.dev.mbxRefuse fn 0x80B [])) := by
  refine congrArg (fun e => Host.Outcome.next (s.to e)) (Dev.mbxRun_refuse hs ?_)
  simp only [bits_zero, Nat.reducePow]
  refine (if_neg (Nat.not_lt.mpr hstream)).trans ?_
  simp only [hkey]

end ideKeySet

/-! ## Lifecycle -/

/-- A bundle that is read clean, and is rightly signed for its purpose (R463). -/
def Dev.Signed (x : Dev) (fn : Nat) (p : List Byte) (purpose : Nat) (owner : BitVec 256) (b : List Byte) : Prop :=
  (x.readBundle fn (leAt p 8 8) (leAt p 16 8)).1 = some (b, true) ∧ (x.readBundle fn (leAt p 8 8) (leAt p 16 8)).2.authorised purpose owner (b, true) = true

/-- The block once the bundle of a request is read. -/
def Dev.bundleRead (x : Dev) (fn : Nat) (p : List Byte) : Dev := (x.readBundle fn (leAt p 8 8) (leAt p 16 8)).2

theorem ownerInstall_rule (fn : Nat) (s : State) : ∃ rule : Dev → List Byte → MbxResult,
    exec (.ownerInstall fn) s = .next (s.to (s.dev.mbxRun fn 0x0805 (ofSender fn) rule)) ∧
    ∀ x p b, x.security.lifecycle = 1 → x.security.transitions < 32 → x.Signed fn p forInstall (Config.bundleOwner b) b →
      rule x p = .ok (((x.bundleRead fn p).lifecycleTo fn 2).updSecurity fun x =>
        { x with owner := some (Config.bundleOwner b), migration := some (Config.bundleMigrationKey b),
                 svnFused := if x.svnFused ≤ Config.bundleMinSvn b then Config.bundleMinSvn b else x.svnFused }) [] := by
  refine ⟨_, rfl, fun x p b hlife hroom ⟨hread, hsigned⟩ => (if_neg (not_not.mpr hlife)).trans ((if_neg (Nat.not_le.mpr hroom)).trans ?_)⟩
  unfold Dev.bundleRead
  generalize x.readBundle fn (leAt p 8 8) (leAt p 16 8) = r at hread hsigned
  obtain ⟨o, e⟩ := r
  obtain rfl : o = some (b, true) := hread
  exact if_neg (not_not_true hsigned)

theorem ownerRelease_rule (fn : Nat) (s : State) : ∃ rule : Dev → List Byte → MbxResult,
    exec (.ownerRelease fn) s = .next (s.to (s.dev.mbxRun fn 0x0806 (ofSender fn) rule)) ∧
    ∀ x p b, x.security.lifecycle = 2 → x.security.transitions < 32 → x.workPresent = false → x.Signed fn p forRelease (x.security.owner.getD 0) b →
      rule x p = .ok ((x.bundleRead fn p).lifecycleTo fn 1).erase [] := by
  refine ⟨_, rfl, fun x p b hlife hroom hidle ⟨hread, hsigned⟩ => (if_neg (not_not.mpr hlife)).trans ((if_neg (Nat.not_le.mpr hroom)).trans
    ((if_neg (Bool.eq_false_iff.mp hidle)).trans ?_))⟩
  unfold Dev.bundleRead
  generalize x.readBundle fn (leAt p 8 8) (leAt p 16 8) = r at hread hsigned
  obtain ⟨o, e⟩ := r
  obtain rfl : o = some (b, true) := hread
  exact if_neg (not_not_true hsigned)

theorem lifecycleReturn_rule (fn : Nat) (s : State) : ∃ rule : Dev → List Byte → MbxResult,
    exec (.lifecycleReturn fn) s = .next (s.to (s.dev.mbxRun fn 0x0808 (ofSender fn) rule)) ∧
    ∀ x p b, (x.security.lifecycle = 1 ∨ x.security.lifecycle = 2) → x.security.transitions < 32 → x.workPresent = false →
      x.Signed fn p (if x.security.lifecycle = 2 then forOwnedReturn else forReturn) (x.security.owner.getD 0) b →
      rule x p = .ok (((x.bundleRead fn p).lifecycleTo fn 3).erase.updSecurity fun x => (x.dueCheckpoint none 0 0).startSigning) [] := by
  refine ⟨_, rfl, fun x p b hlife hroom hidle ⟨hread, hsigned⟩ => (if_neg (not_not.mpr hlife)).trans ((if_neg (Nat.not_le.mpr hroom)).trans
    ((if_neg (Bool.eq_false_iff.mp hidle)).trans ?_))⟩
  unfold Dev.bundleRead
  generalize x.readBundle fn (leAt p 8 8) (leAt p 16 8) = r at hread hsigned
  obtain ⟨o, e⟩ := r
  obtain rfl : o = some (b, true) := hread
  exact if_neg (not_not_true hsigned)

theorem returnChallenge_eq (hs : Served s.dev fn 0x0807) :
    let w := (s.dev.mbxJournaled fn 0x0807 fn).fresh256
    exec (.returnChallenge fn) s = .next (s.to ((w.2.updSecurity fun x => { x with nonce := some w.1 }).mbxRespond fn 0 (leBytes 16 1 ++ digestBytes w.1))) :=
  congrArg (fun e => Host.Outcome.next (s.to e)) (Dev.mbxRun_done (subject := ofSender fn) hs rfl
    (fun x => x.fresh256.2.updSecurity fun y => { y with nonce := some x.fresh256.1 }) (fun x => leBytes 16 1 ++ digestBytes x.fresh256.1) fun _ => rfl)

/-- A returned device takes no further transition. -/
theorem lifecycle_returned {c : Nat × Instr} (hc : c ∈ [(0x0805, Instr.ownerInstall fn), (0x0806, .ownerRelease fn), (0x0808, .lifecycleReturn fn)])
    (hs : Served s.dev fn c.1) (hlife : s.dev.security.lifecycle = 3) : exec c.2 s = .next (s.to (s.dev.mbxRefuse fn 0x803 [])) := by
  have hnot (v : BitVec 2) (hv : v ≠ 3) : s.dev.security.lifecycle ≠ v := fun h => hv (h.symm.trans hlife)
  simp only [List.mem_cons, List.not_mem_nil, or_false] at hc
  rcases hc with rfl | rfl | rfl
  · exact congrArg (fun e => Host.Outcome.next (s.to e)) (Dev.mbxRun_refuse hs (if_pos (hnot 1 (by decide))))
  · exact congrArg (fun e => Host.Outcome.next (s.to e)) (Dev.mbxRun_refuse hs (if_pos (hnot 2 (by decide))))
  · exact congrArg (fun e => Host.Outcome.next (s.to e)) (Dev.mbxRun_refuse hs (if_pos fun h => h.elim (hnot 1 (by decide)) (hnot 2 (by decide))))

/-- The 32 fuse rows of the transitions are burnt. -/
theorem lifecycle_exhausted {c : Nat × Instr} (hc : c ∈ [(0x0805, Instr.ownerInstall fn), (0x0806, .ownerRelease fn), (0x0808, .lifecycleReturn fn)])
    (hs : Served s.dev fn c.1) (hlife : s.dev.security.lifecycle = (if c.1 = 0x0805 then 1 else 2)) (hfull : 32 ≤ s.dev.security.transitions) :
    exec c.2 s = .next (s.to (s.dev.mbxRefuse fn 0x808 [])) := by
  simp only [List.mem_cons, List.not_mem_nil, or_false] at hc
  rcases hc with rfl | rfl | rfl
  · exact congrArg (fun e => Host.Outcome.next (s.to e)) (Dev.mbxRun_refuse hs ((if_neg (not_not.mpr hlife)).trans (if_pos hfull)))
  · exact congrArg (fun e => Host.Outcome.next (s.to e)) (Dev.mbxRun_refuse hs ((if_neg (not_not.mpr hlife)).trans (if_pos hfull)))
  · exact congrArg (fun e => Host.Outcome.next (s.to e)) (Dev.mbxRun_refuse hs ((if_neg (not_not.mpr (.inr hlife))).trans (if_pos hfull)))

/-! ## The erase -/

theorem Tab.get_above {α : Type} (dflt : α) (t : Tab α) {a lo : Nat} (h : a < lo) : Tab.get dflt (Tab.above t lo) a = dflt := by
  unfold Tab.above
  induction t with
  | nil => rfl
  | cons e t ih =>
    by_cases hkept : lo ≤ e.1
    · have hne : e.1 ≠ a := by omega
      rw [List.filter_cons_of_pos (by exact decide_eq_true hkept)]
      exact (if_neg hne).trans ih
    · rw [List.filter_cons_of_neg (by simpa using hkept)]
      exact ih

/-- What every value of a mapped table and its default have, every entry read has. -/
theorem Tab.get_map {α : Type} {P : α → Prop} {dflt : α} (g : α → α) (hd : P dflt) (hg : ∀ v, P (g v)) (t : Tab α) (a : Nat) :
    P (Tab.get dflt (t.map fun e => (e.1, g e.2)) a) := by
  induction t with
  | nil => exact hd
  | cons e t ih =>
    by_cases hkey : e.1 = a
    · have heq : Tab.get dflt ((e :: t).map fun e => (e.1, g e.2)) a = g e.2 := if_pos hkey
      rw [heq]
      exact hg _
    · have heq : Tab.get dflt ((e :: t).map fun e => (e.1, g e.2)) a = Tab.get dflt (t.map fun e => (e.1, g e.2)) a := if_neg hkey
      rw [heq]
      exact ih

/-- The erase of R470 after the reset of facet 0. -/
def Dev.erased (d : Dev) : Dev :=
  let d := { d with
    mem := Tab.above d.mem farBase, memPoison := d.memPoison.filter fun l => decide (farBase / 128 ≤ l),
    slices := d.slices.map fun (e : Nat × Slice) => (e.1, { e.2 with ways := [], dir := [] }),
    cores := d.cores.map fun (e : Nat × Core) => (e.1, { e.2 with la := [], laPoison := [], l1 := [], wbuf := [] }),
    cache := { d.cache with retain := [] },
    facets := d.facets.map fun (e : Nat × Facet) => (e.1, { e.2 with credential := none, consent := none }) }
  d.updSecurity fun x => { x with owner := none, migration := none, ideKeys := [], ideLink := false, journal := x.journal.take 1024 }

theorem erase_eq (d : Dev) : d.erase = (d.resetActions 0 0x516).erased := rfl

/-- No data, no key and no owner is left (R470). -/
theorem erased_parts (d : Dev) : d.erased.security.owner = none ∧ d.erased.security.migration = none ∧ d.erased.security.ideKeys = [] ∧
    d.erased.cache.retain = [] ∧ (∀ a, a < farBase → Tab.get 0 d.erased.mem a = 0) ∧ (∀ n, (d.erased.slice n).ways = []) ∧ ∀ n, (d.erased.core n).la = [] :=
  ⟨rfl, rfl, rfl, rfl, fun _ ha => Tab.get_above 0 d.mem ha,
    fun n => Tab.get_map (P := fun v : Slice => v.ways = []) (dflt := Slice.reset) (fun v : Slice => { v with ways := [], dir := [] }) rfl (fun _ => rfl) d.slices n,
    fun n => Tab.get_map (P := fun v : Core => v.la = []) (dflt := Core.reset) (fun v : Core => { v with la := [], laPoison := [], l1 := [], wbuf := [] }) rfl
      (fun _ => rfl) d.cores n⟩

/-- Settles O54. -/
theorem securityCommands : Obligations.SecurityCommands := by
  unfold Obligations.SecurityCommands
  intro s fn
  have run {x y : Dev} (h : x = y) : (Host.Outcome.next (s.to x) : Out) = .next (s.to y) := congrArg (fun e => Host.Outcome.next (s.to e)) h
  refine ⟨fun hs hline hw => attestReport_eq hs hline hw, ⟨fun hs hw => identityChain_written hs hw, fun hs hw => identityChain_unwritten hs hw⟩,
    fun nonce hopen => ⟨run (if_pos hopen), run (if_pos hopen)⟩, fun hnone => run ?_, fun f doe nonce dest rest hrest => ?_, fun nonce dest rest hrest => ?_,
    ⟨fun hs hlong => ?_, fun hs hlen hall => ?_, fun hs hlen hok hbad => ?_⟩, ⟨fun hs h => fwActivate_eq hs h, fun hs h => fwActivate_refused hs h⟩,
    fun hs => fwCommitSvn_eq hs, ⟨fun key hs hstream hkey => ideKeySet_eq hs hstream hkey, fun hs hstream hkey => ideKeySet_refused hs hstream hkey⟩,
    fun b hs hlife hroom hall => ?_, fun b hs hlife hroom hidle hall => ?_, fun b hs hlife hroom hidle hall => ?_, fun hs => returnChallenge_eq hs,
    fun c hc hs => ⟨lifecycle_returned hc hs, lifecycle_exhausted hc hs⟩, fun e => erased_parts _⟩
  · have hnone' : s.dev.security.signings = [] := hnone
    unfold Dev.signingComplete
    simp only [hnone']
  · refine ⟨fun hdoe => run ?_, fun hdoe hup => run ?_⟩
    · subst hdoe
      exact signingComplete_mailbox hrest
    · subst hdoe
      exact signingComplete_doe hrest hup
  · obtain ⟨c, hchecks, hfirst, hlast, hlife⟩ := signingComplete_checkpoint hrest
    exact ⟨_, c, rfl, hchecks, hfirst, hlast, hlife⟩
  · exact fwStage_tooLong hs hlong
  · beta_reduce at hall ⊢
    obtain ⟨hok, hclean, hsigned, hsvn⟩ := hall s.dev (List.mem_cons_self ..)
    obtain ⟨hok', hclean', hsigned', hsvn'⟩ := hall (s.dev.mbxJournaled fn 0x0802 fn) (List.mem_cons_of_mem _ (List.mem_cons_self ..))
    exact fwStage_staged hs hlen ⟨hok, hclean, hsigned, hsvn⟩ ⟨hok', hclean', hsigned', hsvn'⟩
  · beta_reduce at hok hbad ⊢
    exact fwStage_rejected hs hlen hok hbad
  · obtain ⟨rule, hexec, hrule⟩ := ownerInstall_rule fn s
    have hlog : (s.dev.mbxJournaled fn 0x0805 fn).security.lifecycle = 1 ∧ (s.dev.mbxJournaled fn 0x0805 fn).security.transitions < 32 := by
      rw [hs.journals fn]
      exact ⟨hlife, hroom⟩
    exact hexec.trans (run (Dev.mbxRun_ok (subject := ofSender fn) hs rfl (hrule s.dev (s.dev.mbxRequest fn) b hlife hroom (hall s.dev (List.mem_cons_self ..)))
      (hrule _ (s.dev.mbxRequest fn) b hlog.1 hlog.2 (hall _ (List.mem_cons_of_mem _ (List.mem_cons_self ..))))))
  · obtain ⟨rule, hexec, hrule⟩ := ownerRelease_rule fn s
    obtain ⟨hlife', hroom', hidle', howner⟩ : (s.dev.mbxJournaled fn 0x0806 fn).security.lifecycle = 2 ∧ (s.dev.mbxJournaled fn 0x0806 fn).security.transitions < 32 ∧
        (s.dev.mbxJournaled fn 0x0806 fn).workPresent = false ∧ (s.dev.mbxJournaled fn 0x0806 fn).security.owner = s.dev.security.owner := by
      rw [hs.journals fn]
      exact ⟨hlife, hroom, hidle, rfl⟩
    have hlog : (s.dev.mbxJournaled fn 0x0806 fn).Signed fn (s.dev.mbxRequest fn) forRelease ((s.dev.mbxJournaled fn 0x0806 fn).security.owner.getD 0) b := by
      rw [howner]
      exact hall _ (List.mem_cons_of_mem _ (List.mem_cons_self ..))
    exact hexec.trans (run (Dev.mbxRun_ok (subject := ofSender fn) hs rfl (hrule s.dev (s.dev.mbxRequest fn) b hlife hroom hidle (hall s.dev (List.mem_cons_self ..)))
      (hrule _ (s.dev.mbxRequest fn) b hlife' hroom' hidle' hlog)))
  · obtain ⟨rule, hexec, hrule⟩ := lifecycleReturn_rule fn s
    obtain ⟨hlife', hroom', hidle', howner⟩ : (s.dev.mbxJournaled fn 0x0808 fn).security.lifecycle = s.dev.security.lifecycle ∧ (s.dev.mbxJournaled fn 0x0808 fn).security.transitions < 32 ∧
        (s.dev.mbxJournaled fn 0x0808 fn).workPresent = false ∧ (s.dev.mbxJournaled fn 0x0808 fn).security.owner = s.dev.security.owner := by
      rw [hs.journals fn]
      exact ⟨rfl, hroom, hidle, rfl⟩
    have hreturns : (s.dev.mbxJournaled fn 0x0808 fn).security.lifecycle = 1 ∨ (s.dev.mbxJournaled fn 0x0808 fn).security.lifecycle = 2 := by
      rw [hlife']
      exact hlife
    have hlog : (s.dev.mbxJournaled fn 0x0808 fn).Signed fn (s.dev.mbxRequest fn) (if (s.dev.mbxJournaled fn 0x0808 fn).security.lifecycle = 2 then forOwnedReturn else forReturn)
        ((s.dev.mbxJournaled fn 0x0808 fn).security.owner.getD 0) b := by
      rw [howner, hlife']
      exact hall _ (List.mem_cons_of_mem _ (List.mem_cons_self ..))
    exact hexec.trans (run (Dev.mbxRun_ok (subject := ofSender fn) hs rfl (hrule s.dev (s.dev.mbxRequest fn) b hlife hroom hidle (hall s.dev (List.mem_cons_self ..)))
      (hrule _ (s.dev.mbxRequest fn) b hreturns hroom' hidle' hlog)))

end Sys2Proof.Machine
end

section
/-! Debug levels and consent, DEBUG_BEAM, the capabilities of FULL, and the journal's commands (R460, R461, R464 to R469, R471). -/

namespace Sys2Proof.Machine

variable {s : State} {d e : Dev} {fn code n : Nat} {b q : List Byte} {subject : Dev → List Byte → Nat} {body : Dev → List Byte → MbxResult}

/-- A served command of the sender's own, by its rule on the block and on the journaled block. -/
theorem Dev.mbxRun_ofSender {e' : Dev} {q' : List Byte} (h : Served d fn code) (hr : readOnlyCommand code = false) (h1 : body d (d.mbxRequest fn) = .ok e q)
    (h2 : body (d.mbxJournaled fn code fn) (d.mbxRequest fn) = .ok e' q') : d.mbxRun fn code (ofSender fn) body = e'.mbxRespond fn 0 q' :=
  Dev.mbxRun_ok (subject := ofSender fn) h hr h1 h2

/-- The end of a command that its last step ends at once, or lets run on. -/
def MbxResult.endsOrWaits (c : Bool) (e : Dev) : MbxResult := if c then .ok e [] else .wait e

theorem MbxResult.accepts_of_endsOrWaits {r : MbxResult} {c : Bool} (h : r = .endsOrWaits c e) : r.Accepts := by
  subst h
  cases c <;> trivial

/-- A served command that ends at once where its last step has, and else runs on. -/
theorem Dev.mbxRun_endsOrWaits (h : Served d fn code) (hr : readOnlyCommand code = false) (h1 : (body d (d.mbxRequest fn)).Accepts) {c : Bool}
    (h2 : body (d.mbxJournaled fn code (subject d (d.mbxRequest fn))) (d.mbxRequest fn) = .endsOrWaits c e) :
    d.mbxRun fn code subject body = if c then e.mbxRespond fn 0 [] else e.mbxAccept fn := by
  rw [Dev.mbxRun_served h]
  cases hb : body d (d.mbxRequest fn) with
  | ok e0 q0 => cases c <;> simp only [hb, hr, h2, MbxResult.endsOrWaits, Bool.false_eq_true, if_false, if_true]
  | wait e0 => cases c <;> simp only [hb, hr, h2, MbxResult.endsOrWaits, Bool.false_eq_true, if_false, if_true]
  | refuse st q0 =>
    rw [hb] at h1
    exact h1.elim
  | outcome e0 st =>
    rw [hb] at h1
    exact h1.elim

/-! ## Levels and consent -/

/-- The level that a DEBUG_SET asks for. -/
def askedLevel (p : List Byte) : BitVec 2 := BitVec.ofNat 2 (leAt p 1 1)

theorem levelPermitted_low {l : BitVec 2} (h2 : l ≠ 2) (h3 : l ≠ 3) (lifecycle : BitVec 2) : levelPermitted lifecycle l = true := by
  unfold levelPermitted
  split
  · exact absurd (BitVec.eq_of_toNat_eq ‹_›) h2
  · exact absurd (BitVec.eq_of_toNat_eq ‹_›) h3
  · rfl

section debugSet

variable (hs : Served s.dev fn 0x0809)
include hs

theorem debugSet_forbidden (h : levelPermitted s.dev.security.lifecycle (askedLevel (s.dev.mbxRequest fn)) = false) :
    exec (.debugSet fn) s = .next (s.to (s.dev.mbxRefuse fn 0x806 [])) := by
  have hno : (!levelPermitted s.dev.security.lifecycle (askedLevel (s.dev.mbxRequest fn))) = true := by rw [h]; rfl
  exact congrArg (fun e => Host.Outcome.next (s.to e)) (Dev.mbxRun_refuse hs (if_pos hno))

theorem debugSet_low (h2 : askedLevel (s.dev.mbxRequest fn) ≠ 2) (h3 : askedLevel (s.dev.mbxRequest fn) ≠ 3) :
    exec (.debugSet fn) s = .next (s.to (((s.dev.mbxJournaled fn 0x0809 fn).setLevel (askedLevel (s.dev.mbxRequest fn)) 0).mbxRespond fn 0 [])) :=
  congrArg (fun e => Host.Outcome.next (s.to e)) (Dev.mbxRun_done (subject := ofSender fn) hs rfl
    (fun x => x.setLevel (askedLevel (s.dev.mbxRequest fn)) 0) (fun _ => []) fun _ =>
      (if_neg (not_not_true (levelPermitted_low h2 h3 s.dev.security.lifecycle))).trans ((if_neg h2).trans (if_neg h3)))

section halt

variable (hlife : levelPermitted s.dev.security.lifecycle (askedLevel (s.dev.mbxRequest fn)) = true) (h2 : askedLevel (s.dev.mbxRequest fn) = 2)
include hlife h2

theorem debugSet_halt (hconsent : (s.dev.facet (leAt (s.dev.mbxRequest fn) 2 1 % 64)).consent = some (BitVec.ofNat 64 (leAt (s.dev.mbxRequest fn) 8 8))) :
    exec (.debugSet fn) s = .next (s.to (((s.dev.mbxJournaled fn 0x0809 fn).setLevel 2 (leAt (s.dev.mbxRequest fn) 2 1 % 64)).mbxRespond fn 0 [])) := by
  refine congrArg (fun e => Host.Outcome.next (s.to e)) (Dev.mbxRun_done (subject := ofSender fn) hs rfl
    (fun x => x.setLevel 2 (leAt (s.dev.mbxRequest fn) 2 1 % 64)) (fun _ => []) fun y => ?_)
  simp only [bits_zero, Nat.reducePow]
  exact (if_neg (not_not_true hlife)).trans ((if_pos h2).trans (if_pos hconsent))

theorem debugSet_noConsent (hconsent : (s.dev.facet (leAt (s.dev.mbxRequest fn) 2 1 % 64)).consent ≠ some (BitVec.ofNat 64 (leAt (s.dev.mbxRequest fn) 8 8))) :
    exec (.debugSet fn) s = .next (s.to (s.dev.mbxRefuse fn 0x807 [])) := by
  refine congrArg (fun e => Host.Outcome.next (s.to e)) (Dev.mbxRun_refuse hs ?_)
  simp only [bits_zero, Nat.reducePow]
  exact (if_neg (not_not_true hlife)).trans ((if_pos h2).trans (if_neg hconsent))

end halt

end debugSet

/-- No facet but the manager, and no lehr, is in the way of FULL (R464). -/
def Dev.mayUnlock (x : Dev) : Prop := (∀ g ∈ x.facetsThere, g = 0) ∧ x.lehr.running = false ∧ x.lehr.starting = none

theorem Dev.mayUnlock.clear (h : d.mayUnlock) : ¬ (d.facetsThere.any (fun f => decide (f ≠ 0)) || d.lehr.held) = true := by
  obtain ⟨hfacets, hrun, hstart⟩ := h
  have hany : d.facetsThere.any (fun f => decide (f ≠ 0)) = false := by
    rw [List.any_eq_false]
    intro g hg
    rw [decide_eq_true_eq, not_not]
    exact hfacets g hg
  rw [hany, Lehr.held, hrun, hstart]
  decide

/-- The block once the bundle of a DEBUG_SET is read, and its signature for the unlock. -/
def Dev.unlockRead (x : Dev) (fn : Nat) (p : List Byte) : Dev := (x.readBundle fn (leAt p 16 8) (leAt p 24 8)).2
def Dev.Unlocks (x : Dev) (fn : Nat) (p b : List Byte) : Prop :=
  (x.readBundle fn (leAt p 16 8) (leAt p 24 8)).1 = some (b, true) ∧ (x.unlockRead fn p).authorised forUnlock 0 (b, true) = true

theorem debugSet_rule (fn : Nat) (s : State) : ∃ rule : Dev → List Byte → MbxResult,
    exec (.debugSet fn) s = .next (s.to (s.dev.mbxRun fn 0x0809 (ofSender fn) rule)) ∧
    ∀ x p b, levelPermitted x.security.lifecycle (askedLevel p) = true → askedLevel p = 3 → x.mayUnlock → x.Unlocks fn p b →
      rule x p = .endsOrWaits (x.unlockRead fn p).enterFull.allDiesOn (x.unlockRead fn p).enterFull := by
  refine ⟨_, rfl, fun x p b hlife h3 hfree ⟨hread, hsigned⟩ => (if_neg (not_not_true hlife)).trans ?_⟩
  have h2 : askedLevel p ≠ 2 := by
    rw [h3]
    decide
  refine (if_neg h2).trans ((if_pos h3).trans ((if_neg hfree.clear).trans ?_))
  unfold Dev.unlockRead at *
  generalize x.readBundle fn (leAt p 16 8) (leAt p 24 8) = r at hread hsigned
  obtain ⟨o, e⟩ := r
  obtain rfl : o = some (b, true) := hread
  exact if_neg (not_not_true hsigned)

theorem debugSet_full (hs : Served s.dev fn 0x0809) (hlife : levelPermitted s.dev.security.lifecycle (askedLevel (s.dev.mbxRequest fn)) = true)
    (h3 : askedLevel (s.dev.mbxRequest fn) = 3) (hfree : s.dev.mayUnlock) (h : s.dev.Unlocks fn (s.dev.mbxRequest fn) b)
    (h' : (s.dev.mbxJournaled fn 0x0809 fn).Unlocks fn (s.dev.mbxRequest fn) b) :
    let e := ((s.dev.mbxJournaled fn 0x0809 fn).unlockRead fn (s.dev.mbxRequest fn)).enterFull
    exec (.debugSet fn) s = .next (s.to (if e.allDiesOn then e.mbxRespond fn 0 [] else e.mbxAccept fn)) := by
  intro e
  obtain ⟨rule, hexec, hrule⟩ := debugSet_rule fn s
  obtain ⟨hlife', hfree'⟩ : levelPermitted (s.dev.mbxJournaled fn 0x0809 fn).security.lifecycle (askedLevel (s.dev.mbxRequest fn)) = true ∧
      (s.dev.mbxJournaled fn 0x0809 fn).mayUnlock := by
    rw [hs.journals]
    exact ⟨hlife, hfree⟩
  have haccepts : (rule s.dev (s.dev.mbxRequest fn)).Accepts := MbxResult.accepts_of_endsOrWaits (hrule _ _ _ hlife h3 hfree h)
  exact hexec.trans (congrArg (fun e => Host.Outcome.next (s.to e)) (Dev.mbxRun_endsOrWaits (subject := ofSender fn) (c := e.allDiesOn) (e := e)
    hs rfl haccepts (hrule _ _ _ hlife' h3 hfree' h')))

theorem debugConsent_void (hs : Served s.dev fn 0x080A) (h : (leAt (s.dev.mbxRequest fn) 1 1).testBit 0 = true) :
    exec (.debugConsent fn) s = .next (s.to (((s.dev.mbxJournaled fn 0x080A fn).voidConsent fn).mbxRespond fn 0 (leBytes 8 1 ++ leBytes 8 0))) :=
  congrArg (fun e => Host.Outcome.next (s.to e)) (Dev.mbxRun_done (subject := ofSender fn) hs rfl (fun x => x.voidConsent fn)
    (fun _ => leBytes 8 1 ++ leBytes 8 0) fun _ => if_pos h)

theorem debugConsent_given (hs : Served s.dev fn 0x080A) (h : (leAt (s.dev.mbxRequest fn) 1 1).testBit 0 = false) :
    let w := (s.dev.mbxJournaled fn 0x080A fn).fresh
    exec (.debugConsent fn) s = .next (s.to ((w.2.updFacet fn fun x => { x with consent := some w.1 }).mbxRespond fn 0
      (leBytes 8 1 ++ leBytes 8 w.1.toNat))) :=
  congrArg (fun e => Host.Outcome.next (s.to e)) (Dev.mbxRun_done (subject := ofSender fn) hs rfl
    (fun x => x.fresh.2.updFacet fn fun y => { y with consent := some x.fresh.1 })
    (fun x => leBytes 8 1 ++ leBytes 8 x.fresh.1.toNat) fun _ => if_neg (Bool.eq_false_iff.mp h))

/-! ## DEBUG_BEAM -/

theorem debugBeam_refused (hs : Served s.dev fn 0x080B) (h : s.dev.security.debug ≠ 2) :
    exec (.debugBeam fn) s = .next (s.to (s.dev.mbxRefuse fn 0x806 [])) :=
  congrArg (fun e => Host.Outcome.next (s.to e)) (Dev.mbxRun_refuse hs (if_pos h))

section debugBeam

variable {l : Launch} (hs : Served s.dev fn 0x080B) (hdebug : s.dev.security.debug = 2)
  (hl : s.dev.namedLaunch s.dev.security.haltFacet (leAt (s.dev.mbxRequest fn) 4 2) (leAt (s.dev.mbxRequest fn) 6 1) = some l)
include hs hdebug hl

theorem debugBeam_halt (hop : leAt (s.dev.mbxRequest fn) 1 1 % 4 = 0) : exec (.debugBeam fn) s =
    .next (s.to (((s.dev.mbxJournaled fn 0x080B fn).haltLaunch l).mbxRespond fn 0 (leBytes 8 1 ++ leBytes 8 (s.dev.launchBeams l.id Beam.haltable)))) := by
  refine congrArg (fun e => Host.Outcome.next (s.to e)) (Dev.mbxRun_done (subject := ofSender fn) hs rfl (fun x => x.haltLaunch l)
    (fun _ => leBytes 8 1 ++ leBytes 8 (s.dev.launchBeams l.id Beam.haltable)) fun y => (if_neg (not_not.mpr hdebug)).trans ?_)
  have hl' : (s.dev.withJournal y).namedLaunch (s.dev.withJournal y).security.haltFacet (leAt (s.dev.mbxRequest fn) 4 2)
    (leAt (s.dev.mbxRequest fn) 6 1) = some l := hl
  simp only [hl', bits_zero, Nat.reducePow, hop]
  rfl

theorem debugBeam_resume (hop : leAt (s.dev.mbxRequest fn) 1 1 % 4 = 2) : exec (.debugBeam fn) s =
    .next (s.to (((s.dev.mbxJournaled fn 0x080B fn).resumeHalted fun b => decide (b.launch = l.id)).mbxRespond fn 0
      (leBytes 8 1 ++ leBytes 8 (s.dev.launchBeams l.id Beam.halted)))) := by
  refine congrArg (fun e => Host.Outcome.next (s.to e)) (Dev.mbxRun_done (subject := ofSender fn) hs rfl
    (fun x => x.resumeHalted fun b => decide (b.launch = l.id))
    (fun _ => leBytes 8 1 ++ leBytes 8 (s.dev.launchBeams l.id Beam.halted)) fun y => (if_neg (not_not.mpr hdebug)).trans ?_)
  have hl' : (s.dev.withJournal y).namedLaunch (s.dev.withJournal y).security.haltFacet (leAt (s.dev.mbxRequest fn) 4 2)
    (leAt (s.dev.mbxRequest fn) 6 1) = some l := hl
  simp only [hl', bits_zero, Nat.reducePow, hop]
  rfl

variable {k : Block} {m : Beam} (hk : s.dev.block? l.id (leAt (s.dev.mbxRequest fn) 8 4) = some k)
  (hm : k.beams[leAt (s.dev.mbxRequest fn) 12 1 % 32]? = some m)
include hk hm

theorem debugBeam_step (hop : leAt (s.dev.mbxRequest fn) 1 1 % 4 = 1) : exec (.debugBeam fn) s =
    .next (s.to (((s.dev.mbxJournaled fn 0x080B fn).stepBeam l k (leAt (s.dev.mbxRequest fn) 12 1 % 32)).mbxRespond fn 0
      (leBytes 8 1 ++ leBytes 8 (if m.halted then 1 else 0)))) := by
  refine congrArg (fun e => Host.Outcome.next (s.to e)) (Dev.mbxRun_done (subject := ofSender fn) hs rfl
    (fun x => x.stepBeam l k (leAt (s.dev.mbxRequest fn) 12 1 % 32))
    (fun _ => leBytes 8 1 ++ leBytes 8 (if m.halted then 1 else 0)) fun y => (if_neg (not_not.mpr hdebug)).trans ?_)
  have hl' : (s.dev.withJournal y).namedLaunch (s.dev.withJournal y).security.haltFacet (leAt (s.dev.mbxRequest fn) 4 2)
    (leAt (s.dev.mbxRequest fn) 6 1) = some l := hl
  have hk' : (s.dev.withJournal y).block? l.id (leAt (s.dev.mbxRequest fn) 8 4) = some k := hk
  simp only [hl', bits_zero, Nat.reducePow, hop, hk', Option.bind_some, hm, Option.map_some, if_true, boolNat_eq_ite]

end debugBeam

/-- A beam that a DEBUG_BEAM names (R466). -/
def Dev.NamesBeam (x : Dev) (p : List Byte) (l : Launch) (k : Block) (m : Beam) : Prop :=
  x.security.debug = 2 ∧ x.namedLaunch x.security.haltFacet (leAt p 4 2) (leAt p 6 1) = some l ∧ x.block? l.id (leAt p 8 4) = some k ∧
    k.beams[leAt p 12 1 % 32]? = some m

theorem debugBeam_rule (fn : Nat) (s : State) : ∃ rule : Dev → List Byte → MbxResult,
    exec (.debugBeam fn) s = .next (s.to (s.dev.mbxRun fn 0x080B (ofSender fn) rule)) ∧
    ∀ x p l k m, x.NamesBeam p l k m → leAt p 1 1 % 4 = 3 →
      let w := x.vwrite agentGaffer fn false none (leAt p 16 8) (Config.beamImage m) false
      w.1 = true → rule x p = .ok w.2 (leBytes 8 1 ++ leBytes 8 1) := by
  refine ⟨_, rfl, fun x p l k m ⟨hdebug, hl, hk, hm⟩ hop hw => (if_neg (not_not.mpr hdebug)).trans ?_⟩
  simp only [hl, bits_zero, Nat.reducePow, hop, hk, Option.bind_some, hm, Option.map_some]
  exact (if_neg (by decide)).trans (if_neg (not_not_true hw))

theorem debugBeam_read {l : Launch} {k : Block} {m : Beam} (hs : Served s.dev fn 0x080B) (h : s.dev.NamesBeam (s.dev.mbxRequest fn) l k m)
    (hop : leAt (s.dev.mbxRequest fn) 1 1 % 4 = 3)
    (hw : (s.dev.vwrite agentGaffer fn false none (leAt (s.dev.mbxRequest fn) 16 8) (Config.beamImage m) false).1 = true)
    (hw' : ((s.dev.mbxJournaled fn 0x080B fn).vwrite agentGaffer fn false none (leAt (s.dev.mbxRequest fn) 16 8) (Config.beamImage m) false).1 = true) :
    exec (.debugBeam fn) s = .next (s.to (((s.dev.mbxJournaled fn 0x080B fn).vwrite agentGaffer fn false none (leAt (s.dev.mbxRequest fn) 16 8)
      (Config.beamImage m) false).2.mbxRespond fn 0 (leBytes 8 1 ++ leBytes 8 1))) := by
  obtain ⟨rule, hexec, hrule⟩ := debugBeam_rule fn s
  have h' : (s.dev.mbxJournaled fn 0x080B fn).NamesBeam (s.dev.mbxRequest fn) l k m := by
    rw [hs.journals]
    exact h
  rw [hexec, Dev.mbxRun_ofSender hs rfl (hrule _ _ _ _ _ h hop hw) (hrule _ _ _ _ _ h' hop hw')]

/-! ## The trace ring and FULL -/

theorem debugTrace_eq (hs : Served s.dev fn 0x080C) (hmin : 6 ≤ leAt (s.dev.mbxRequest fn) 16 1 % 32) (hmax : leAt (s.dev.mbxRequest fn) 16 1 % 32 ≤ 16)
    (hw : s.dev.writable fn (leAt (s.dev.mbxRequest fn) 8 8) (32 * 2 ^ (leAt (s.dev.mbxRequest fn) 16 1 % 32)) = true) :
    exec (.debugTrace fn) s = .next (s.to (((s.dev.mbxJournaled fn 0x080C fn).updSecurity fun x =>
      { x with trace := some (leAt (s.dev.mbxRequest fn) 8 8, leAt (s.dev.mbxRequest fn) 16 1 % 32), traceSeq := 0 }).mbxRespond fn 0 [])) := by
  refine congrArg (fun e => Host.Outcome.next (s.to e)) (Dev.mbxRun_done (subject := ofSender fn) hs rfl
    (fun x => x.updSecurity fun z => { z with trace := some (leAt (s.dev.mbxRequest fn) 8 8, leAt (s.dev.mbxRequest fn) 16 1 % 32), traceSeq := 0 })
    (fun _ => []) fun y => ?_)
  simp only [bits_zero, Nat.reducePow]
  refine if_neg ?_
  rintro (h | h | h)
  · exact Nat.not_lt.mpr hmin h
  · exact Nat.not_lt.mpr hmax h
  · exact not_not_true (show (s.dev.withJournal y).writable fn _ _ = true from hw) h

theorem debugTrace_refused (hs : Served s.dev fn 0x080C) (h : leAt (s.dev.mbxRequest fn) 16 1 % 32 < 6 ∨ 16 < leAt (s.dev.mbxRequest fn) 16 1 % 32) :
    exec (.debugTrace fn) s = .next (s.to (s.dev.mbxRefuse fn 0x3 [])) := by
  refine congrArg (fun e => Host.Outcome.next (s.to e)) (Dev.mbxRun_refuse hs ?_)
  simp only [bits_zero, Nat.reducePow]
  exact if_pos (h.elim .inl fun h => .inr (.inl h))

/-- The object of a DEBUG_DUMP, and where it is written (R468). -/
def Dev.dumps (x : Dev) (p : List Byte) : Option (List Byte) := x.dumpObject (leAt p 1 1 % 16) (leAt p 4 2 % 1024) (leAt p 16 8) (leAt p 24 8)
def Dev.written (x : Dev) (fn va : Nat) (bs : List Byte) : Bool × Dev := x.vwrite agentGaffer fn false none va bs false

theorem debugDump_rule (fn : Nat) (s : State) : ∃ rule : Dev → List Byte → MbxResult,
    exec (.debugDump fn) s = .next (s.to (s.dev.mbxRun fn 0x0811 (ofSender fn) rule)) ∧
    ∀ x p bs, x.security.debug = 3 → x.dumps p = some bs → (x.written fn (leAt p 8 8) bs).1 = true →
      rule x p = .ok (x.written fn (leAt p 8 8) bs).2 (leBytes 8 1 ++ leBytes 8 bs.length) := by
  refine ⟨_, rfl, fun x p bs hdebug hbs hw => (if_neg (not_not.mpr hdebug)).trans ?_⟩
  unfold Dev.dumps at hbs
  simp only [bits_zero, Nat.reducePow, hbs]
  exact if_neg (not_not_true hw)

theorem debugDump_eq {bs : List Byte} (hs : Served s.dev fn 0x0811) (hdebug : s.dev.security.debug = 3)
    (h : s.dev.dumps (s.dev.mbxRequest fn) = some bs ∧ (s.dev.written fn (leAt (s.dev.mbxRequest fn) 8 8) bs).1 = true)
    (h' : (s.dev.mbxJournaled fn 0x0811 fn).dumps (s.dev.mbxRequest fn) = some bs ∧
      ((s.dev.mbxJournaled fn 0x0811 fn).written fn (leAt (s.dev.mbxRequest fn) 8 8) bs).1 = true) :
    exec (.debugDump fn) s = .next (s.to (((s.dev.mbxJournaled fn 0x0811 fn).written fn (leAt (s.dev.mbxRequest fn) 8 8) bs).2.mbxRespond fn 0
      (leBytes 8 1 ++ leBytes 8 bs.length))) := by
  obtain ⟨rule, hexec, hrule⟩ := debugDump_rule fn s
  have hdebug' : (s.dev.mbxJournaled fn 0x0811 fn).security.debug = 3 := by
    rw [hs.journals]
    exact hdebug
  obtain ⟨hbs, hw⟩ := h
  obtain ⟨hbs', hw'⟩ := h'
  rw [hexec, Dev.mbxRun_ofSender hs rfl (hrule _ _ _ hdebug hbs hw) (hrule _ _ _ hdebug' hbs' hw')]

/-- The bytes that a scan of a die, or the tests of dies under a nonce, leave (R468). -/
def debugImage (object die : Nat) : List Byte := (List.range (Config.debugBytes object die)).map (Config.debugByte object die)

theorem debugScan_rule (fn : Nat) (s : State) (hfree : s.dev.boot.dieReset = none) : ∃ rule : Dev → List Byte → MbxResult,
    exec (.debugScan fn) s = .next (s.to (s.dev.mbxRun fn 0x0812 (ofSender fn) rule)) ∧
    (∀ x p, x.security.debug ≠ 3 → rule x p = .refuse 0x806 []) ∧
    ∀ x p, x.security.debug = 3 → leAt p 1 1 % 16 ≤ 11 → (x.written fn (leAt p 8 8) (debugImage 8 (leAt p 1 1 % 16))).1 = true →
      rule x p = .ok ((x.written fn (leAt p 8 8) (debugImage 8 (leAt p 1 1 % 16))).2.scanDie (leAt p 1 1 % 16))
        (leBytes 8 1 ++ leBytes 8 (debugImage 8 (leAt p 1 1 % 16)).length) := by
  have hnone : ¬ s.dev.boot.dieReset.isSome = true := by
    rw [hfree]
    exact Bool.false_ne_true
  refine ⟨_, congrArg (fun e => Host.Outcome.next (s.to e)) (if_neg hnone), fun x p hdebug => if_pos hdebug, fun x p hdebug hdie hw =>
    (if_neg (not_not.mpr hdebug)).trans ?_⟩
  simp only [bits_zero, Nat.reducePow]
  exact (if_neg (Nat.not_lt.mpr hdie)).trans (if_neg (not_not_true hw))

theorem debugScan_eq (hs : Served s.dev fn 0x0812) (hfree : s.dev.boot.dieReset = none) (hdebug : s.dev.security.debug = 3)
    (hdie : leAt (s.dev.mbxRequest fn) 1 1 % 16 ≤ 11) :
    let die := leAt (s.dev.mbxRequest fn) 1 1 % 16
    (s.dev.written fn (leAt (s.dev.mbxRequest fn) 8 8) (debugImage 8 die)).1 = true →
    ((s.dev.mbxJournaled fn 0x0812 fn).written fn (leAt (s.dev.mbxRequest fn) 8 8) (debugImage 8 die)).1 = true →
    exec (.debugScan fn) s = .next (s.to ((((s.dev.mbxJournaled fn 0x0812 fn).written fn (leAt (s.dev.mbxRequest fn) 8 8)
      (debugImage 8 die)).2.scanDie die).mbxRespond fn 0 (leBytes 8 1 ++ leBytes 8 (debugImage 8 die).length))) := by
  intro die hw hw'
  obtain ⟨rule, hexec, -, hrule⟩ := debugScan_rule fn s hfree
  have hdebug' : (s.dev.mbxJournaled fn 0x0812 fn).security.debug = 3 := by
    rw [hs.journals]
    exact hdebug
  rw [hexec, Dev.mbxRun_ofSender hs rfl (hrule _ _ hdebug hdie hw) (hrule _ _ hdebug' hdie hw')]

/-- The bundle of a test under a nonce is read and signed, and its result can be written (R468). -/
def Dev.Tests (x : Dev) (fn : Nat) (p b : List Byte) : Prop :=
  x.Signed fn p forTest 0 b ∧ ((x.bundleRead fn p).written fn (leAt p 24 8) (debugImage 9 (leAt p 1 1 % 16))).1 = true

/-- After such a test the nonce is used and a warm reset is due. -/
def Dev.tested (e : Dev) : Dev := (e.updSecurity fun x => { x with nonce := none }).updBoot fun b => { b with warmDue := some (b.warmDue.getD 3) }

theorem debugTest_rule (fn : Nat) (s : State) : ∃ rule : Dev → List Byte → MbxResult,
    exec (.debugTest fn) s = .next (s.to (s.dev.mbxRun fn 0x0813 (ofSender fn) rule)) ∧
    (∀ x p, x.security.debug ≠ 3 → rule x p = .refuse 0x806 []) ∧
    ∀ x p b, x.security.debug = 3 → x.security.lifecycle = 3 → x.Tests fn p b →
      rule x p = .ok ((x.bundleRead fn p).written fn (leAt p 24 8) (debugImage 9 (leAt p 1 1 % 16))).2.tested
        (leBytes 8 1 ++ leBytes 8 (debugImage 9 (leAt p 1 1 % 16)).length) := by
  refine ⟨_, rfl, fun x p hdebug => if_pos hdebug, fun x p b hdebug hlife ⟨⟨hread, hsigned⟩, hw⟩ =>
    (if_neg (not_not.mpr hdebug)).trans ((if_neg (not_not.mpr hlife)).trans ?_)⟩
  unfold Dev.bundleRead at *
  generalize x.readBundle fn (leAt p 8 8) (leAt p 16 8) = r at hread hsigned hw
  obtain ⟨o, e⟩ := r
  obtain rfl : o = some (b, true) := hread
  simp only [bits_zero, Nat.reducePow]
  exact (if_neg (not_not_true hsigned)).trans (if_neg (not_not_true hw))

theorem debugTest_eq (hs : Served s.dev fn 0x0813) (hdebug : s.dev.security.debug = 3) (hlife : s.dev.security.lifecycle = 3)
    (h : s.dev.Tests fn (s.dev.mbxRequest fn) b) (h' : (s.dev.mbxJournaled fn 0x0813 fn).Tests fn (s.dev.mbxRequest fn) b) :
    let result := debugImage 9 (leAt (s.dev.mbxRequest fn) 1 1 % 16)
    exec (.debugTest fn) s = .next (s.to ((((s.dev.mbxJournaled fn 0x0813 fn).bundleRead fn (s.dev.mbxRequest fn)).written fn
      (leAt (s.dev.mbxRequest fn) 24 8) result).2.tested.mbxRespond fn 0 (leBytes 8 1 ++ leBytes 8 result.length))) := by
  intro result
  obtain ⟨rule, hexec, -, hrule⟩ := debugTest_rule fn s
  obtain ⟨hdebug', hlife'⟩ : (s.dev.mbxJournaled fn 0x0813 fn).security.debug = 3 ∧ (s.dev.mbxJournaled fn 0x0813 fn).security.lifecycle = 3 := by
    rw [hs.journals]
    exact ⟨hdebug, hlife⟩
  rw [hexec, Dev.mbxRun_ofSender hs rfl (hrule _ _ _ hdebug hlife h) (hrule _ _ _ hdebug' hlife' h')]

theorem full_refused {c : Nat × Instr} (hc : c ∈ [(0x0811, Instr.debugDump fn), (0x0812, .debugScan fn), (0x0813, .debugTest fn)])
    (hs : Served s.dev fn c.1) (hdebug : s.dev.security.debug ≠ 3) (hfree : s.dev.boot.dieReset = none) :
    exec c.2 s = .next (s.to (s.dev.mbxRefuse fn 0x806 [])) := by
  simp only [List.mem_cons, List.not_mem_nil, or_false] at hc
  rcases hc with rfl | rfl | rfl
  · exact congrArg (fun e => Host.Outcome.next (s.to e)) (Dev.mbxRun_refuse hs (if_pos hdebug))
  · obtain ⟨rule, hexec, hrule, -⟩ := debugScan_rule fn s hfree
    rw [hexec, Dev.mbxRun_refuse hs (hrule _ _ hdebug)]
  · exact congrArg (fun e => Host.Outcome.next (s.to e)) (Dev.mbxRun_refuse hs (if_pos hdebug))

/-! ## The journal -/

theorem auditRead_entries {l : List AuditEntry} (hs : Served s.dev fn 0x080D) (h0 : (leAt (s.dev.mbxRequest fn) 1 1).testBit 0 = false)
    (hl : s.dev.security.entries (leAt (s.dev.mbxRequest fn) 8 8) (leAt (s.dev.mbxRequest fn) 16 8) = some l) :
    let w := s.dev.written fn (leAt (s.dev.mbxRequest fn) 24 8) (l.map AuditEntry.bytes).flatten
    w.1 = true → exec (.auditRead fn) s = .next (s.to (w.2.mbxRespond fn 0 (leBytes 8 1 ++ leBytes 8 (leAt (s.dev.mbxRequest fn) 16 8)))) := by
  intro w hw
  refine congrArg (fun e => Host.Outcome.next (s.to e)) (Dev.mbxRun_read hs rfl ?_)
  simp only [bit, h0, Bool.false_eq_true, if_false, hl, Option.map_some]
  exact if_neg (not_not_true hw)

theorem auditRead_overwritten (hs : Served s.dev fn 0x080D) (h0 : (leAt (s.dev.mbxRequest fn) 1 1).testBit 0 = false)
    (hl : s.dev.security.entries (leAt (s.dev.mbxRequest fn) 8 8) (leAt (s.dev.mbxRequest fn) 16 8) = none) :
    exec (.auditRead fn) s = .next (s.to (s.dev.mbxRefuse fn 0x80A [])) := by
  refine congrArg (fun e => Host.Outcome.next (s.to e)) (Dev.mbxRun_refuse hs ?_)
  simp only [bit, h0, Bool.false_eq_true, if_false, hl, Option.map_none]

theorem auditRead_checkpoints (hs : Served s.dev fn 0x080D) (h1 : (leAt (s.dev.mbxRequest fn) 1 1).testBit 0 = true)
    (hlen : leAt (s.dev.mbxRequest fn) 8 8 + leAt (s.dev.mbxRequest fn) 16 8 ≤ s.dev.security.checkpoints.length) :
    let w := s.dev.written fn (leAt (s.dev.mbxRequest fn) 24 8) ((((s.dev.security.checkpoints.reverse.drop (leAt (s.dev.mbxRequest fn) 8 8)).take
      (leAt (s.dev.mbxRequest fn) 16 8)).map Checkpoint.bytes).flatten)
    w.1 = true → exec (.auditRead fn) s = .next (s.to (w.2.mbxRespond fn 0 (leBytes 8 1 ++ leBytes 8 (leAt (s.dev.mbxRequest fn) 16 8)))) := by
  intro w hw
  refine congrArg (fun e => Host.Outcome.next (s.to e)) (Dev.mbxRun_read hs rfl ?_)
  simp only [bit, h1, List.length_reverse, if_pos hlen, if_true]
  exact if_neg (not_not_true hw)

theorem seq_dueCheckpoint (x : Security) (fn : Option Nat) (nonce : BitVec 256) (dest : Nat) : (x.dueCheckpoint fn nonce dest).seq = x.seq := by
  unfold Security.dueCheckpoint
  split
  · rfl
  · split
    · split <;> rfl
    · rfl

theorem seq_startSigning (x : Security) : x.startSigning.seq = x.seq := by
  unfold Security.startSigning
  split <;> rfl

/-- An entry takes the next number of the journal. -/
theorem seq_mbxJournaled (h : Served d fn code) (subj : Nat) : (d.mbxJournaled fn code subj).security.seq = d.security.seq + 1 := by
  obtain ⟨-, -, -, -, -, -, -, -, hroom⟩ := h
  have hlapped : ¬ auditMirror ≤ d.security.unacked := by simp only [auditNearLimit, auditMirror] at *; omega
  have hnear : ¬ d.security.unacked + 1 = auditNearLimit := by omega
  simp only [Dev.mbxJournaled, Dev.audit, hlapped, hnear, decide_false, Bool.false_eq_true, if_false]
  split
  · exact (seq_startSigning _).trans (seq_dueCheckpoint _ _ _ _)
  · rfl

theorem auditAck_eq (hs : Served s.dev fn 0x080E) (hn : leAt (s.dev.mbxRequest fn) 8 8 ≤ s.dev.security.seq) : exec (.auditAck fn) s =
    .next (s.to (((s.dev.mbxJournaled fn 0x080E fn).updSecurity fun x =>
      { x with acked := max x.acked (leAt (s.dev.mbxRequest fn) 8 8) }).mbxRespond fn 0 [])) := by
  have hn' : leAt (s.dev.mbxRequest fn) 8 8 ≤ (s.dev.mbxJournaled fn 0x080E fn).security.seq := by
    rw [seq_mbxJournaled hs]
    exact Nat.le_succ_of_le hn
  exact congrArg (fun e => Host.Outcome.next (s.to e))
    (Dev.mbxRun_ok (subject := ofSender fn) hs rfl (if_neg (Nat.not_lt.mpr hn)) (if_neg (Nat.not_lt.mpr hn')))

theorem auditCheckpoint_eq (hs : Served s.dev fn 0x080F) (hw : s.dev.writable fn (leAt (s.dev.mbxRequest fn) 48 8) 49984 = true) :
    exec (.auditCheckpoint fn) s = .next (s.to (((s.dev.mbxJournaled fn 0x080F fn).updSecurity fun x =>
      (x.dueCheckpoint (some fn) (BitVec.ofNat 256 (leAt (s.dev.mbxRequest fn) 16 32)) (leAt (s.dev.mbxRequest fn) 48 8)).startSigning).mbxAccept fn)) :=
  congrArg (fun e => Host.Outcome.next (s.to e)) (Dev.mbxRun_waits (subject := ofSender fn) hs rfl
    (fun x => x.updSecurity fun z =>
      (z.dueCheckpoint (some fn) (BitVec.ofNat 256 (leAt (s.dev.mbxRequest fn) 16 32)) (leAt (s.dev.mbxRequest fn) 48 8)).startSigning)
    fun y => if_neg (not_not_true (show (s.dev.withJournal y).writable fn _ _ = true from hw)))

/-- Settles O55. -/
theorem debugAndAudit : Obligations.DebugAndAudit := by
  unfold Obligations.DebugAndAudit
  intro s fn
  refine ⟨⟨fun hs h => debugSet_forbidden hs h, fun hs h2 h3 => debugSet_low hs h2 h3,
      fun hs hlife h2 => ⟨fun hconsent => debugSet_halt hs hlife h2 hconsent, fun hconsent => debugSet_noConsent hs hlife h2 hconsent⟩,
      fun b hs hlife h3 hfacets hrun hstart hall => ?_⟩,
    fun hs => ⟨fun h => debugConsent_void hs h, fun h => debugConsent_given hs h⟩, fun hs h => debugBeam_refused hs h,
    fun l hs hdebug hl => ⟨fun hop => debugBeam_halt hs hdebug hl hop, fun hop => debugBeam_resume hs hdebug hl hop, fun k m hk hm =>
      ⟨fun hop => debugBeam_step hs hdebug hl hk hm hop, fun hop hw hw' => debugBeam_read hs ⟨hdebug, hl, hk, hm⟩ hop hw hw'⟩⟩,
    ⟨fun hs hmin hmax hw => debugTrace_eq hs hmin hmax hw, fun hs h => debugTrace_refused hs h⟩, fun bs hs hdebug hall => ?_,
    fun hs hfree hdebug hdie hall => ?_, fun b hs hdebug hlife hall => ?_, fun c hc hs hdebug hfree => full_refused hc hs hdebug hfree,
    fun hs => ⟨fun l h0 hl hw => auditRead_entries hs h0 hl hw, fun h0 hl => auditRead_overwritten hs h0 hl,
      fun h1 hlen hw => auditRead_checkpoints hs h1 hlen hw⟩, fun hs hn => auditAck_eq hs hn, fun hs hw => auditCheckpoint_eq hs hw⟩
  · obtain ⟨hread, hsigned, -⟩ := hall s.dev (List.mem_cons_self ..)
    obtain ⟨hread', hsigned', -⟩ := hall (s.dev.mbxJournaled fn 0x0809 fn) (List.mem_cons_of_mem _ (List.mem_cons_self ..))
    exact debugSet_full hs hlife h3 ⟨hfacets, hrun, hstart⟩ ⟨hread, hsigned⟩ ⟨hread', hsigned'⟩
  · exact debugDump_eq hs hdebug (hall s.dev (List.mem_cons_self ..)) (hall _ (List.mem_cons_of_mem _ (List.mem_cons_self ..)))
  · exact debugScan_eq hs hfree hdebug hdie (hall s.dev (List.mem_cons_self ..)) (hall _ (List.mem_cons_of_mem _ (List.mem_cons_self ..)))
  · obtain ⟨hread, hsigned, hw⟩ := hall s.dev (List.mem_cons_self ..)
    obtain ⟨hread', hsigned', hw'⟩ := hall (s.dev.mbxJournaled fn 0x0813 fn) (List.mem_cons_of_mem _ (List.mem_cons_self ..))
    exact debugTest_eq hs hdebug hlife ⟨⟨hread, hsigned⟩, hw⟩ ⟨⟨hread', hsigned'⟩, hw'⟩

end Sys2Proof.Machine
end

section
/-! Resets and boot: what a reset keeps, the steps of a boot, device and die resets (R477 to R490, R504 to R506). -/

namespace Sys2Proof.Machine

variable {s : State} {d e : Dev} {fn n : Nat} {r : BootReport}

/-- What each step of a loop keeps, the loop keeps. -/
theorem forEach_field {α β : Type} (field : Dev → β) (l : List α) (F : Dev → α → Dev) (h : ∀ e a, field (F e a) = field e) (d : Dev) :
    field (Dev.forEach l F d) = field d := by
  induction l generalizing d with
  | nil => rfl
  | cons a l ih => exact (ih (F d a)).trans (h d a)

/-! ## What a reset keeps -/

/-- Fuses, retirements and module flash stand over a reset; everything volatile is gone (R483). -/
def Dev.KeptBy (d e : Dev) : Prop :=
  e.security.lifecycle = d.security.lifecycle ∧ e.security.svnFused = d.security.svnFused ∧ e.security.owner = d.security.owner ∧
    e.security.banks = d.security.banks ∧ e.security.debug = 0 ∧ e.errors.retired = d.errors.retired ∧ e.host.linkUp = false ∧
    e.boot.recovery = false ∧ e.facets = Dev.reset.facets ∧ e.blocks = [] ∧ ∀ a, a < farBase → Tab.get 0 e.mem a = 0

theorem keptBy_kept (d : Dev) : d.KeptBy d.kept :=
  ⟨rfl, rfl, rfl, rfl, rfl, rfl, rfl, rfl, rfl, rfl, fun _ ha => Tab.get_above 0 d.mem ha⟩

theorem keptBy_reset (slot cause : BitVec 3) : ∀ e ∈ [d.powerLost, d.coldBoot slot, d.warmBoot cause], d.KeptBy e := by
  intro e he
  simp only [List.mem_cons, List.not_mem_nil, or_false] at he
  rcases he with he | he | he <;> rw [he] <;> exact keptBy_kept d

/-! ## Triggers -/

theorem warmTrigger_eq (hup : d.boot.step ≠ 0) (cause : BitVec 3) : d.warmTrigger cause = d.warmBoot cause := if_neg hup

theorem exec_warmReset {cause : BitVec 3} (hdue : s.dev.boot.warmDue = some cause) (hup : s.dev.boot.step ≠ 0) :
    exec .warmReset s = .next (s.to (s.dev.warmBoot cause)) := by
  refine congrArg (fun e => Host.Outcome.next (s.to e)) ?_
  simp only [hdue]
  exact warmTrigger_eq hup cause

theorem exec_perstAssert_warm (hhigh : s.dev.host.perst = false) (hwarm : s.dev.power.perstWarm = true) (hup : s.dev.boot.step ≠ 0) :
    exec .perstAssert s = .next (s.to ((s.dev.updHost fun h => { h with perst := true }).warmBoot 5)) := by
  have htrigger : (s.dev.power.perstWarm && decide (s.dev.boot.step ≠ 0)) = true := by
    rw [hwarm, decide_eq_true hup]
    rfl
  exact congrArg (fun e => Host.Outcome.next (s.to e)) ((if_neg (Bool.eq_false_iff.mp hhigh)).trans ((if_pos htrigger).trans
    (warmTrigger_eq (d := s.dev.updHost fun h => { h with perst := true }) hup 5)))

theorem exec_perstAssert_port (hhigh : s.dev.host.perst = false) (hport : s.dev.power.perstWarm = false) :
    exec .perstAssert s = .next (s.to (s.dev.linkLost.updHost fun h => { h with perst := true })) := by
  have htrigger : ¬ (s.dev.power.perstWarm && decide (s.dev.boot.step ≠ 0)) = true := by
    rw [hport]
    exact Bool.false_ne_true
  exact congrArg (fun e => Host.Outcome.next (s.to e)) ((if_neg (Bool.eq_false_iff.mp hhigh)).trans (if_neg htrigger))

theorem exec_bootWatchdog (hlow : 3 ≤ s.dev.boot.step) (hhigh : s.dev.boot.step ≤ 8) :
    exec .bootWatchdog s = .next (s.to ((s.dev.updBoot fun b => { b with expired := true }).warmBoot 4)) := by
  have hup : s.dev.boot.step ≠ 0 := by omega
  exact congrArg (fun e => Host.Outcome.next (s.to e)) ((if_neg (by omega)).trans
    (warmTrigger_eq (d := s.dev.updBoot fun b => { b with expired := true }) hup 4))

/-! ## The steps of a boot -/

/-- A step of the boot is the one that the block is at. -/
theorem exec_bootStep (r : BootReport) (s : State) :
    (s.dev.boot.step = 1 → exec (.bootStepComplete r) s =
      .next (s.to ((Dev.forEach [12, 13, 14, 15] (fun d n => d.updRail n fun r => { r with acked := 750 }) s.dev).bootTo 2))) ∧
    (s.dev.boot.step = 2 → exec (.bootStepComplete r) s = .next (s.to s.dev.startStep3)) ∧
    (s.dev.boot.step = 3 → exec (.bootStepComplete r) s = .next (s.to s.dev.bootBank)) ∧
    (s.dev.boot.step = 4 → exec (.bootStepComplete r) s = .next (s.to (s.dev.bootServitors r.servitors))) ∧
    (s.dev.boot.step = 5 → exec (.bootStepComplete r) s = .next (s.to (s.dev.bootPorts r.portEnds))) ∧
    (s.dev.boot.step = 6 → exec (.bootStepComplete r) s = .next (s.to (s.dev.bootStacks r.stackRates))) ∧
    (s.dev.boot.step = 7 → exec (.bootStepComplete r) s = .next (s.to s.dev.bootDies)) ∧
    (s.dev.boot.step = 8 → exec (.bootStepComplete r) s = .next (s.to s.dev.bootReady)) := by
  refine ⟨fun h => ?_, fun h => ?_, fun h => ?_, fun h => ?_, fun h => ?_, fun h => ?_, fun h => ?_, fun h => ?_⟩ <;>
  · refine congrArg (fun e => Host.Outcome.next (s.to e)) ?_
    simp only [h]

/-- The bank of step 3 runs (R480). -/
def Dev.ranBank (d : Dev) (n : Nat) : Dev := d.updBoot fun b => { b with bank := n, fallback := decide (n ≠ b.activated), step := 4 }

theorem bootBank_first (h : d.bankBoots d.boot.triedFirst = true) : d.bootBank = d.ranBank d.boot.triedFirst := if_pos h

theorem bootBank_other (h : d.bankBoots d.boot.triedFirst = false) (h' : d.bankBoots (1 - d.boot.triedFirst) = true) :
    d.bootBank = d.ranBank (1 - d.boot.triedFirst) :=
  (if_neg (Bool.eq_false_iff.mp h)).trans (if_pos h')

theorem bootBank_none (h : d.bankBoots d.boot.triedFirst = false) (h' : d.bankBoots (1 - d.boot.triedFirst) = false) :
    d.bootBank = d.enterRecovery 0 0 :=
  (if_neg (Bool.eq_false_iff.mp h)).trans (if_neg (Bool.eq_false_iff.mp h'))

/-- A bit of the dies of a list is set exactly where the die is one of them. -/
theorem getLsbD_dieBits (p : Nat → Bool) {b : Nat} (hb : b < 4) : (dieBits p).getLsbD b = p b := by
  have hsum : ((List.range 4).map fun b => if p b then 2 ^ b else 0) =
      [if p 0 then 1 else 0, if p 1 then 2 else 0, if p 2 then 4 else 0, if p 3 then 8 else 0] := rfl
  have hbits : ∀ p0 p1 p2 p3 : Bool, ∀ b < 4, (BitVec.ofNat 4 ([if p0 then 1 else 0, if p1 then 2 else 0, if p2 then 4 else 0, if p3 then 8 else 0].sum)).getLsbD b =
      [p0, p1, p2, p3].getD b false := by decide
  have hlist : ∀ b < 4, [p 0, p 1, p 2, p 3].getD b false = p b := by
    intro b hb
    interval_cases b <;> rfl
  rw [dieBits, hsum, hbits _ _ _ _ b hb, hlist b hb]

theorem all_id_iff {l : List Bool} (h : l.length = 3) : l.all id = true ↔ l = [true, true, true] := by
  rw [List.all_eq_true, show [true, true, true] = List.replicate 3 true from rfl, List.eq_replicate_iff]
  exact ⟨fun hall => ⟨h, hall⟩, fun ⟨_, hall⟩ => hall⟩

theorem bootServitors_ready (h : r.servitors = [true, true, true]) : d.bootServitors r.servitors = d.bootTo 5 := by
  rw [h]
  rfl

/-- A servitor that does not answer stops the boot at step 4 (R481, R482). -/
theorem bootServitors_dead (hlen : r.servitors.length = 3) (h : r.servitors ≠ [true, true, true]) :
    d.bootServitors r.servitors = d.enterRecovery 4 (dieBits fun b => decide (b ≠ 0) && !(r.servitors.getD (b - 1) true)) :=
  (if_neg (not_not.mpr hlen)).trans (if_neg fun hall => h ((all_id_iff hlen).mp hall))

theorem dead_iff {l : List Bool} {b : Nat} (hb : b < 4) :
    (dieBits fun b => decide (b ≠ 0) && !(l.getD (b - 1) true)).getLsbD b = true ↔ b ≠ 0 ∧ l.getD (b - 1) true = false := by
  rw [getLsbD_dieBits _ hb, Bool.and_eq_true, decide_eq_true_eq, Bool.not_eq_true']

theorem mem_glint (d : Dev) (f typ a b c : Nat) : (d.glint f typ a b c).mem = d.mem := by
  rw [show d.glint f typ a b c = _ from Dev.posts_glintTo d f typ _]

theorem mem_trainStack (d : Dev) (n declared : Nat) (trains : List Nat) : (d.trainStack n declared trains).mem = d.mem := by
  unfold Dev.trainStack
  split
  · exact mem_glint _ _ _ _ _ _
  · split
    · rfl
    · exact mem_glint _ _ _ _ _ _

theorem Tab.get_above_of_le {α : Type} (dflt : α) (t : Tab α) {a lo : Nat} (h : lo ≤ a) : Tab.get dflt (Tab.above t lo) a = Tab.get dflt t a := by
  unfold Tab.above
  induction t with
  | nil => rfl
  | cons e t ih =>
    by_cases hkept : lo ≤ e.1
    · rw [List.filter_cons_of_pos (by exact decide_eq_true hkept)]
      by_cases hkey : e.1 = a
      · exact (if_pos hkey).trans (if_pos hkey).symm
      · exact (if_neg hkey).trans (ih.trans (if_neg hkey).symm)
    · have hne : e.1 ≠ a := by omega
      rw [List.filter_cons_of_neg (by simpa using hkept)]
      exact ih.trans (if_neg hne).symm

/-- Step 6 zeroes the stacks and leaves the far tier. -/
theorem bootStacks_parts (hlen : r.stackRates.length = 12) : (d.bootStacks r.stackRates).boot.step = 7 ∧
    ∀ a, Tab.get 0 (d.bootStacks r.stackRates).mem a = if a < farBase then 0 else Tab.get 0 d.mem a := by
  unfold Dev.bootStacks
  rw [if_neg (not_not.mpr hlen)]
  dsimp only
  rw [forEach_field Dev.mem _ _ fun e n => mem_trainStack e n _ _]
  refine ⟨rfl, fun a => ?_⟩
  by_cases ha : a < farBase
  · rw [if_pos ha]
    exact Tab.get_above 0 d.mem ha
  · rw [if_neg ha]
    exact Tab.get_above_of_le 0 d.mem (Nat.not_lt.mp ha)

theorem rail_forEach_set_other (v : Rail) {l : List Nat} (hn : n ∉ l) (d : Dev) :
    (Dev.forEach l (fun d n => d.updRail n fun _ => v) d).rail n = d.rail n := by
  induction l generalizing d with
  | nil => rfl
  | cons k l ih =>
    obtain ⟨hk, hl⟩ := not_or.mp (List.mem_cons.not.mp hn)
    exact (ih hl _).trans (Dev.rail_updRail_ne d hk _)

/-- A rail that a loop sets to a value. -/
theorem rail_forEach_set (v : Rail) {l : List Nat} (hn : n ∈ l) (d : Dev) : (Dev.forEach l (fun d n => d.updRail n fun _ => v) d).rail n = v := by
  induction l generalizing d with
  | nil => exact absurd hn List.not_mem_nil
  | cons m l ih =>
    by_cases hl : n ∈ l
    · exact ih hl _
    · obtain rfl : n = m := (List.mem_cons.mp hn).resolve_right hl
      exact (rail_forEach_set_other v hl _).trans (Dev.rail_updRail d n _)

/-- A boot at step 8, with fresh cores. -/
def Dev.freshDies (d : Dev) : Dev := { d.bootTo 8 with cores := [] }

theorem rail_freshDies (d : Dev) (n : Nat) : d.freshDies.rail n = d.rail n := rfl

/-- The compute dies at the end of step 7, before their slices' modes: rails at 0.65 V, fresh cores. -/
def Dev.diesPowered (d : Dev) : Dev :=
  (Dev.forEach (List.range 12) (fun d n => d.updRail n fun _ => { Rail.reset with acked := 650 }) d).freshDies

theorem bootDies_eq (d : Dev) : d.bootDies = Dev.forEach (List.range 96) Dev.serviceMode d.diesPowered := rfl

/-- A slice's mode touches neither the boot, nor the cores, nor the rails. -/
theorem serviceModes_field {β : Type} (field : Dev → β) (h : ∀ e n, field (Dev.serviceMode e n) = field e) (d : Dev) :
    field d.bootDies = field d.diesPowered := by
  rw [bootDies_eq]
  exact forEach_field field _ _ h _

/-- Step 7 leaves the compute dies ON with fresh cores (R478). -/
theorem bootDies_parts (d : Dev) : d.bootDies.boot.step = 8 ∧ d.bootDies.cores = [] ∧ ∀ n, n < 12 → (d.bootDies.rail n).acked = 650 := by
  have hboot : d.bootDies.boot = d.diesPowered.boot := serviceModes_field Dev.boot (fun _ _ => rfl) d
  have hcores : d.bootDies.cores = d.diesPowered.cores := serviceModes_field Dev.cores (fun _ _ => rfl) d
  refine ⟨?_, ?_, fun n hn => ?_⟩
  · exact congrArg Boot.step hboot
  · exact hcores
  · have hrail : d.bootDies.rail n = d.diesPowered.rail n := serviceModes_field (fun d => d.rail n) (fun _ _ => rfl) d
    rw [hrail, Dev.diesPowered, rail_freshDies]
    exact congrArg Rail.acked (rail_forEach_set ({ Rail.reset with acked := 650 } : Rail) (List.mem_range.mpr hn) d)

/-! ## The device is ready -/

theorem boot_audit {kind actor : Nat} {self : Bool} {c st : Code} {subj detail : BitVec 64} :
    (d.audit kind actor self c st subj detail).boot = d.boot := by
  have hglint (e : Dev) (f typ a x y : Nat) : (e.glint f typ a x y).boot = e.boot := by
    rw [show e.glint f typ a x y = _ from Dev.posts_glintTo e f typ _]
  unfold Dev.audit
  dsimp only
  split <;> split <;> simp only [hglint]

/-- A boot that reaches its end clears the watchdog's record and marks its bank. -/
def Dev.bootProven (d : Dev) : Dev :=
  (d.updBoot fun b => { b with expired := false, retried := false }).updSecurity fun x =>
    { x with banks := Tab.upd Bank.reset x.banks d.boot.bank fun b => { b with proven := true } }

theorem proven_bootProven (d : Dev) : (d.bootProven.bankOf d.boot.bank).proven = true :=
  congrArg Bank.proven (Tab.get_set_same Bank.reset d.security.banks d.boot.bank _)

theorem bootTo_recovery (d : Dev) (k : Nat) : (d.bootTo k).boot.recovery = d.boot.recovery := rfl
theorem bootTo_bank (d : Dev) (k : Nat) : (d.bootTo k).boot.bank = d.boot.bank := rfl

/-- Step 8 once the link is up (R479). -/
theorem bootReady_parts (hup : d.host.linkUp = true) : d.bootReady.boot.step = 9 ∧ (d.boot.recovery = false →
    d.bootReady.boot.expired = false ∧ (d.bootReady.bankOf d.boot.bank).proven = true) := by
  have hboot : (d.auditEvent 0 true 1 0 d.security.lastCheckpointed).boot = d.boot := boot_audit
  have hstep : ((d.auditEvent 0 true 1 0 d.security.lastCheckpointed).bootTo 9).boot.step = 9 := rfl
  have hrecovery : ((d.auditEvent 0 true 1 0 d.security.lastCheckpointed).bootTo 9).boot.recovery = d.boot.recovery :=
    (bootTo_recovery _ _).trans (congrArg Boot.recovery hboot)
  have hbank : ((d.auditEvent 0 true 1 0 d.security.lastCheckpointed).bootTo 9).boot.bank = d.boot.bank :=
    (bootTo_bank _ _).trans (congrArg Boot.bank hboot)
  have heq : d.bootReady = (let e := (d.auditEvent 0 true 1 0 d.security.lastCheckpointed).bootTo 9
      if e.boot.recovery then e else e.bootProven) := if_neg (not_not_true hup)
  rw [heq]
  generalize (d.auditEvent 0 true 1 0 d.security.lastCheckpointed).bootTo 9 = e at hstep hrecovery hbank
  dsimp only
  by_cases hr : e.boot.recovery = true
  · rw [if_pos hr]
    exact ⟨hstep, fun hno => absurd (hr.symm.trans (hrecovery.trans hno)) Bool.false_ne_true.symm⟩
  · rw [if_neg hr, ← hbank]
    exact ⟨hstep, fun _ => ⟨rfl, proven_bootProven e⟩⟩

/-! ## Device and die resets -/

theorem deviceReset_eq (hs : Served s.dev fn 0x0700) (h : (leAt (s.dev.mbxRequest fn) 1 1).testBit 0 = true ∨ ∀ f ∈ s.dev.facetsThere, f = 0) :
    exec (.deviceReset fn) s = .next (s.to (((s.dev.mbxJournaled fn 0x0700 fn).updBoot fun b =>
      { b with warmDue := some (b.warmDue.getD 3) }).mbxRespond fn 0 [])) := by
  have hclear : ¬ (!bit (leAt (s.dev.mbxRequest fn) 1 1) 0 && s.dev.facetsThere.any (fun f => decide (f ≠ 0))) = true := by
    rw [Bool.and_eq_true, Bool.not_eq_true', List.any_eq_true]
    rintro ⟨h0, f, hf, hne⟩
    rcases h with h | h
    · exact absurd (h.symm.trans h0) Bool.false_ne_true.symm
    · exact of_decide_eq_true hne (h f hf)
  exact congrArg (fun e => Host.Outcome.next (s.to e)) (Dev.mbxRun_done (subject := ofSender fn) hs rfl
    (fun x => x.updBoot fun b => { b with warmDue := some (b.warmDue.getD 3) }) (fun _ => []) fun _ => if_neg hclear)

theorem deviceReset_refused {f : Nat} (hf : f ∈ s.dev.facetsThere) (hne : f ≠ 0) (hs : Served s.dev fn 0x0700)
    (h : (leAt (s.dev.mbxRequest fn) 1 1).testBit 0 = false) : exec (.deviceReset fn) s = .next (s.to (s.dev.mbxRefuse fn 0x805 [])) := by
  have hblocked : (!bit (leAt (s.dev.mbxRequest fn) 1 1) 0 && s.dev.facetsThere.any (fun f => decide (f ≠ 0))) = true := by
    rw [Bool.and_eq_true, Bool.not_eq_true', List.any_eq_true]
    exact ⟨h, f, hf, decide_eq_true hne⟩
  exact congrArg (fun e => Host.Outcome.next (s.to e)) (Dev.mbxRun_refuse hs (if_pos hblocked))

section dieReset

variable (hs : Served s.dev fn 0x0701)
include hs

theorem dieReset_eq (hdie : leAt (s.dev.mbxRequest fn) 1 1 % 16 ≤ 11) (hfree : s.dev.boot.dieReset = none) : exec (.dieReset fn) s =
    .next (s.to (((s.dev.mbxJournaled fn 0x0701 fn).startDieReset (leAt (s.dev.mbxRequest fn) 1 1 % 16) (some fn)).mbxAccept fn)) := by
  have hnone : ¬ s.dev.boot.dieReset.isSome = true := by
    rw [hfree]
    exact Bool.false_ne_true
  refine congrArg (fun e => Host.Outcome.next (s.to e)) (Dev.mbxRun_waits (subject := ofSender fn) hs rfl
    (fun x => x.startDieReset (leAt (s.dev.mbxRequest fn) 1 1 % 16) (some fn)) fun y => ?_)
  simp only [bits_zero, Nat.reducePow]
  exact (if_neg (Nat.not_lt.mpr hdie)).trans (if_neg hnone)

theorem dieReset_noDie (hdie : 11 < leAt (s.dev.mbxRequest fn) 1 1 % 16) : exec (.dieReset fn) s = .next (s.to (s.dev.mbxRefuse fn 0x3 [])) := by
  refine congrArg (fun e => Host.Outcome.next (s.to e)) (Dev.mbxRun_refuse hs ?_)
  simp only [bits_zero, Nat.reducePow]
  exact if_pos hdie

theorem dieReset_busy (hdie : leAt (s.dev.mbxRequest fn) 1 1 % 16 ≤ 11) (hbusy : s.dev.boot.dieReset.isSome = true) :
    exec (.dieReset fn) s = .next (s.to (s.dev.mbxRefuse fn 0x710 [])) := by
  refine congrArg (fun e => Host.Outcome.next (s.to e)) (Dev.mbxRun_refuse hs ?_)
  simp only [bits_zero, Nat.reducePow]
  exact (if_neg (Nat.not_lt.mpr hdie)).trans (if_pos hbusy)

end dieReset

/-- The die reset that runs takes its next step (R485). -/
theorem exec_dieResetStepDone {r : DieReset} (h : s.dev.boot.dieReset = some r) (unread : List (Nat × Nat)) (answers : Bool) :
    exec (.dieResetStepDone unread answers) s = .next (s.to (s.dev.dieResetStep r unread answers)) := by
  refine congrArg (fun e => Host.Outcome.next (s.to e)) ?_
  simp only [h]

section dieResetStep

variable {r : DieReset} {unread : List (Nat × Nat)} {answers : Bool}

/-- The die reset that runs is at a step. -/
def Dev.resetAt (d : Dev) (k : Nat) : Dev := d.updDieReset fun r => { r with step := k }

theorem dieResetStep_clear (h : r.step = 2) :
    d.dieResetStep r unread answers = ((d.clearDie r.die unread).holdSlices (dieBase r.die) true).resetAt 3 := by
  simp only [Dev.dieResetStep, h]
  rfl

theorem dieResetStep_modes (h : r.step = 3) (hin : d.slicesIn (dieBase r.die) true = true) : d.dieResetStep r unread answers = d.resetAt 4 := by
  simp only [Dev.dieResetStep, h, hin, if_true]
  rfl

theorem dieResetStep_flush (h : r.step = 4) : d.dieResetStep r unread answers =
    ((((d.flushDie r.die answers).dieState r.die .transition).updDie r.die fun k => { k with entering := true, wanted := none }).requestRail r.die 0).resetAt 5 := by
  simp only [Dev.dieResetStep, h]
  rfl

theorem dieResetStep_power (h : r.step = 6) (hfault : (d.rail r.die).fault = false) (hrail : (d.rail r.die).outstanding = some 650) :
    d.dieResetStep r unread answers =
      ((((d.railAcked r.die).freshDie r.die).dieComesOn r.die).holdSlices (dieBase r.die) ((d.railAcked r.die).portsDown (dieBase r.die))).resetAt 7 := by
  have hready : ¬ (!d.railReady r.die 650) = true := by
    rw [Dev.railReady, hrail, decide_eq_true rfl, Bool.or_true]
    decide
  simp only [Dev.dieResetStep, h, if_neg hready, hfault, Bool.false_eq_true, if_false]
  rfl

theorem dieResetStep_end (h : r.step = 7) (hin : d.slicesIn (dieBase r.die) (d.portsDown (dieBase r.die)) = true) :
    d.dieResetStep r unread answers = d.endDieReset r := by
  simp only [Dev.dieResetStep, h, hin, if_true]

end dieResetStep

theorem exec_vpHandshakeTimeout {die : Nat} (hdie : die < 12) (hruns : s.dev.dieRuns die = true) (hresets : s.dev.dieResets die = false)
    (hserves : s.dev.gafferServes = true) :
    (s.dev.boot.dieReset.isSome = true →
      exec (.vpHandshakeTimeout die) s = .next (s.to (s.dev.updBoot fun b => { b with dieResetQ := b.dieResetQ ++ [die] }))) ∧
    (s.dev.boot.dieReset = none → exec (.vpHandshakeTimeout die) s = .next (s.to (s.dev.startDieReset die none))) := by
  have hserved : ¬ (12 ≤ die ∨ (!s.dev.dieRuns die) = true ∨ s.dev.dieResets die = true ∨ (!s.dev.gafferServes) = true) := by
    rintro (h | h | h | h)
    · exact Nat.not_le.mpr hdie h
    · exact not_not_true hruns h
    · exact absurd (h.symm.trans hresets) Bool.false_ne_true.symm
    · exact not_not_true hserves h
  refine ⟨fun hbusy => congrArg (fun e => Host.Outcome.next (s.to e)) ((if_neg hserved).trans (if_pos hbusy)), fun hfree => ?_⟩
  have hnone : ¬ s.dev.boot.dieReset.isSome = true := by
    rw [hfree]
    exact Bool.false_ne_true
  exact congrArg (fun e => Host.Outcome.next (s.to e)) ((if_neg hserved).trans (if_neg hnone))

/-- Settles O56. -/
theorem resetAndBoot : Obligations.ResetAndBoot := by
  unfold Obligations.ResetAndBoot
  intro s
  have run {x y : Dev} (h : x = y) : (Host.Outcome.next (s.to x) : Out) = .next (s.to y) := congrArg (fun e => Host.Outcome.next (s.to e)) h
  refine ⟨fun slot hoff => run (if_neg (Bool.eq_false_iff.mp hoff)), fun slot hon => run (if_pos hon), fun hon => ⟨run (if_pos hon), run (if_pos hon)⟩,
    fun us hshort => run (if_pos hshort), fun us hlong hup => run ((if_neg (Nat.not_lt.mpr hlong)).trans (warmTrigger_eq hup 1)),
    fun cause hdue hup => exec_warmReset hdue hup,
    fun hhigh => ⟨fun hwarm hup => exec_perstAssert_warm hhigh hwarm hup, fun hport => exec_perstAssert_port hhigh hport⟩, rfl,
    fun hlow hhigh => exec_bootWatchdog hlow hhigh, fun h => run (if_pos h), keptBy_reset, fun cause => ⟨rfl, rfl, rfl, rfl⟩, fun r => ?_, fun fn => ?_,
    fun r unread answers hr => ?_, fun die hdie hruns hresets hserves => exec_vpHandshakeTimeout hdie hruns hresets hserves⟩
  · obtain ⟨h1, h2, h3, h4, h5, h6, h7, h8⟩ := exec_bootStep r s
    refine ⟨h1, h2, fun h => ⟨fun hfirst => ?_, fun hfirst hother => ?_, fun hfirst hother => ?_⟩, fun h hlen => ⟨fun hready => ?_, fun hdead => ?_⟩,
      fun h hlen => h5 h, fun h hlen => ⟨_, h6 h, bootStacks_parts hlen⟩, fun h => ⟨_, h7 h, bootDies_parts s.dev⟩, fun h hdown => ?_,
      fun h hup => ⟨_, h8 h, bootReady_parts hup⟩⟩
    · exact (h3 h).trans (run (bootBank_first hfirst))
    · exact (h3 h).trans (run (bootBank_other hfirst hother))
    · exact ⟨_, (h3 h).trans (run (bootBank_none hfirst hother)), rfl, rfl⟩
    · exact (h4 h).trans (run (bootServitors_ready hready))
    · exact ⟨_, (h4 h).trans (run (bootServitors_dead hlen hdead)), rfl, rfl, rfl, fun b hb => dead_iff hb⟩
    · have hlink : (!s.dev.host.linkUp) = true := by
        rw [hdown]
        rfl
      exact (h8 h).trans (run (if_pos hlink))
  · exact ⟨fun hs h => deviceReset_eq hs h, fun f hf hne hs h => deviceReset_refused hf hne hs h, fun hs hdie hfree => dieReset_eq hs hdie hfree,
      fun hs hdie => dieReset_noDie hs hdie, fun hs hdie hbusy => dieReset_busy hs hdie hbusy⟩
  · have hstep := exec_dieResetStepDone hr unread answers
    exact ⟨fun h => hstep.trans (run (dieResetStep_clear h)), fun h hin => hstep.trans (run (dieResetStep_modes h hin)),
      fun h => hstep.trans (run (dieResetStep_flush h)), fun h hin => hstep.trans (run (dieResetStep_end h hin)),
      fun h hfault hrail => hstep.trans (run (dieResetStep_power h hfault hrail))⟩

end Sys2Proof.Machine
end

section
/-! The checks that every mailbox command passes first (R307, R460), and what a refusal leaves as it was. -/

namespace Sys2Proof.Machine

variable {s : State} {d : Dev} {fn code : Nat} {subject : Dev → List Byte → Nat} {body : Dev → List Byte → MbxResult} {st : Code}

/-- A command of the mailbox: its effect is its function's request of this code, served by the command's own rule. -/
def MailboxCommand (s : State) (fn code : Nat) (i : Instr) : Prop :=
  ∃ subject body, exec i s = .next (s.to (s.dev.mbxRun fn code subject body))

theorem mailboxCommand_host {fn : Nat} {path : Bool} {c : Nat × Instr} (s : State)
    (hc : c ∈ [(0x0001, Instr.hello fn), (0x0002, .ringSet fn), (0x0003, .ringClear fn), (0x0100, .sessionOpen fn), (0x0101, .sessionClose fn),
       (0x0102, .sessionStatus fn), (0x0200, .modelRegister fn), (0x0201, .modelDeregister fn), (0x0202, .modelPin fn), (0x0203, .modelUnpin fn),
       (0x0204, .modelStatus fn), (0x0300, .corpusRegister fn), (0x0301, .corpusAppend fn), (0x0303, .corpusDeregister fn), (0x0304, .lehrStart fn),
       (0x0305, .lehrStop fn), (0x0306, .lehrStatus fn), (0x0400, .powerSetCap fn), (0x0401, .powerSetMode fn), (0x0402, .powerStatus fn),
       (0x0403, .powerLagReport fn), (0x0500, .facetCreate fn), (0x0501, .facetDestroy fn), (0x0502, .facetResize fn), (0x0503, .facetQuiesce fn),
       (0x0504, .facetResume fn), (0x0505, .facetReset fn), (0x0506, .facetSave fn), (0x0507, .facetRestore fn path), (0x0508, .facetDirtyLog fn),
       (0x0509, .facetQuery fn)]) : MailboxCommand s fn c.1 c.2 := by
  simp only [List.mem_cons, List.not_mem_nil, or_false] at hc
  rcases hc with rfl | rfl | rfl | rfl | rfl | rfl | rfl | rfl | rfl | rfl | rfl | rfl | rfl | rfl | rfl | rfl | rfl | rfl | rfl | rfl | rfl | rfl | rfl |
    rfl | rfl | rfl | rfl | rfl | rfl | rfl | rfl <;> exact ⟨_, _, rfl⟩

theorem mailboxCommand_device {fn va off mva : Nat} {open' : Bool} {found : FarDevice} {c : Nat × Instr} {s : State} (hfree : s.dev.boot.dieReset = none)
    (hc : c ∈ [(0x0600, Instr.memAlloc fn mva), (0x0601, .memFree fn), (0x0602, .memSetClass fn), (0x0603, .farRescan fn found), (0x0610, .busMap fn va open'),
       (0x0611, .busUnmap fn), (0x0612, .apertureMap fn off), (0x0613, .apertureUnmap fn), (0x0620, .redGroupOpen fn), (0x0621, .redGroupClose fn),
       (0x0700, .deviceReset fn), (0x0701, .dieReset fn), (0x0800, .attestReport fn), (0x0801, .identityChain fn), (0x0802, .fwStage fn),
       (0x0803, .fwActivate fn), (0x0804, .fwCommitSvn fn), (0x0805, .ownerInstall fn), (0x0806, .ownerRelease fn), (0x0807, .returnChallenge fn),
       (0x0808, .lifecycleReturn fn), (0x0809, .debugSet fn), (0x080A, .debugConsent fn), (0x080B, .debugBeam fn), (0x080C, .debugTrace fn),
       (0x080D, .auditRead fn), (0x080E, .auditAck fn), (0x080F, .auditCheckpoint fn), (0x0810, .ideKeySet fn), (0x0811, .debugDump fn),
       (0x0812, .debugScan fn), (0x0813, .debugTest fn)]) : MailboxCommand s fn c.1 c.2 := by
  have hscan : MailboxCommand s fn 0x0812 (.debugScan fn) := by
    obtain ⟨rule, hexec, -⟩ := debugScan_rule fn s hfree
    exact ⟨_, rule, hexec⟩
  simp only [List.mem_cons, List.not_mem_nil, or_false] at hc
  rcases hc with rfl | rfl | rfl | rfl | rfl | rfl | rfl | rfl | rfl | rfl | rfl | rfl | rfl | rfl | rfl | rfl | rfl | rfl | rfl | rfl | rfl | rfl | rfl |
    rfl | rfl | rfl | rfl | rfl | rfl | rfl | rfl | rfl
  pick_goal 31
  · exact hscan
  all_goals exact ⟨_, _, rfl⟩

/-! ## The checks -/

/-- A mailbox command has no request of its own: none waits, one is accepted already, or it is another command's. -/
theorem mbxRun_other (h : (d.facet fn).mailbox.go = false ∨ (d.facet fn).mailbox.accepted = true ∨
    ((d.facet fn).mailbox.command ≠ code ∧ requestLengths (d.facet fn).mailbox.command ≠ [])) : d.mbxRun fn code subject body = d := by
  refine if_pos ?_
  rcases h with h | h | ⟨hcode, hknown⟩
  · rw [h]
    rfl
  · rw [h, Bool.or_true]
    rfl
  · have hother : (decide ((d.facet fn).mailbox.command ≠ code) && !(requestLengths (d.facet fn).mailbox.command).isEmpty) = true := by
      rw [decide_eq_true hcode, Bool.true_and, Bool.not_eq_true', List.isEmpty_eq_false_iff]
      exact hknown
    rw [hother, Bool.or_true, Bool.true_or]

section request

variable (hgo : (d.facet fn).mailbox.go = true) (haccepted : (d.facet fn).mailbox.accepted = false) (hup : d.gafferUp = true)
include hgo haccepted hup

/-- A request that the gaffer takes up in a command's step: the command's own, or one with a code that no firmware implements. -/
theorem request_taken (h : (d.facet fn).mailbox.command = code ∨ requestLengths (d.facet fn).mailbox.command = []) :
    ¬ (!(d.facet fn).mailbox.go || (d.facet fn).mailbox.accepted ||
      (decide ((d.facet fn).mailbox.command ≠ code) && !(requestLengths (d.facet fn).mailbox.command).isEmpty) || !d.gafferUp) = true := by
  have hnot : (decide ((d.facet fn).mailbox.command ≠ code) && !(requestLengths (d.facet fn).mailbox.command).isEmpty) = false := by
    rcases h with h | h
    · rw [decide_eq_false (not_not.mpr h), Bool.false_and]
    · rw [h, List.isEmpty_nil, Bool.not_true, Bool.and_false]
  rw [hgo, haccepted, hnot, hup]
  decide

theorem mbxRun_fatal (hcode : (d.facet fn).mailbox.command = code) (hfatal : d.errors.fatal = true) :
    d.mbxRun fn code subject body = if code = 1 then d.mbxRefuse fn 0x680 [] else d := by
  rw [← hcode]
  exact (if_neg (request_taken hgo haccepted hup (.inl rfl))).trans (if_pos hfatal)

theorem mbxRun_notNext (hcode : (d.facet fn).mailbox.command = code) (hfatal : d.errors.fatal = false) (hnext : d.mbxNext fn = false) :
    d.mbxRun fn code subject body = d := by
  have hno : (!d.mbxNext fn) = true := by
    rw [hnext]
    rfl
  exact (if_neg (request_taken hgo haccepted hup (.inl hcode))).trans ((if_neg (Bool.eq_false_iff.mp hfatal)).trans (if_pos hno))

section taken

variable (hcode : (d.facet fn).mailbox.command = code ∨ requestLengths (d.facet fn).mailbox.command = []) (hfatal : d.errors.fatal = false)
  (hnext : d.mbxNext fn = true)
include hcode hfatal hnext

theorem mbxRun_checked (hcheck : d.mbxCheck fn = some st) : d.mbxRun fn code subject body = d.mbxRefuse fn st [] := by
  refine (if_neg (request_taken hgo haccepted hup hcode)).trans ((if_neg (Bool.eq_false_iff.mp hfatal)).trans ((if_neg (not_not_true hnext)).trans ?_))
  simp only [hcheck]

end taken

section own

variable (hcode : (d.facet fn).mailbox.command = code) (hfatal : d.errors.fatal = false) (hnext : d.mbxNext fn = true) (hcheck : d.mbxCheck fn = none)
include hcode hfatal hnext hcheck

theorem mbxRun_version (hversion : leAt (d.facet fn).mailbox.payload 0 1 ≠ 1) :
    d.mbxRun fn code subject body = d.mbxRefuse fn (badVersion code) [] := by
  refine (if_neg (request_taken hgo haccepted hup (.inl hcode))).trans ((if_neg (Bool.eq_false_iff.mp hfatal)).trans ((if_neg (not_not_true hnext)).trans ?_))
  simp only [hcheck]
  exact (if_neg (by exact ne_true_of_eq_false (decide_eq_false (not_not.mpr hcode)))).trans (if_pos (decide_eq_true hversion))

theorem mbxRun_nearFull (hversion : leAt (d.facet fn).mailbox.payload 0 1 = 1) (hfull : d.security.nearFull = true) (hchange : readOnlyCommand code = false)
    (hlimit : auditExempt code = false) : d.mbxRun fn code subject body = d.mbxRefuse fn 0x809 [] := by
  have hrefused : (d.security.nearFull && !readOnlyCommand code && !auditExempt code) = true := by
    rw [hfull, hchange, hlimit]
    rfl
  refine (if_neg (request_taken hgo haccepted hup (.inl hcode))).trans ((if_neg (Bool.eq_false_iff.mp hfatal)).trans ((if_neg (not_not_true hnext)).trans ?_))
  simp only [hcheck]
  exact (if_neg (by exact ne_true_of_eq_false (decide_eq_false (not_not.mpr hcode)))).trans
    ((if_neg (by exact ne_true_of_eq_false (decide_eq_false (not_not.mpr hversion)))).trans (if_pos hrefused))

end own

end request

/-! ## The checks of R307 in their order -/

theorem mbxCheck_absent (h : (d.facet fn).state = .absent) : d.mbxCheck fn = some 0x5 := if_pos (decide_eq_true h)

theorem hello_done (hhello : (d.facet fn).hello = true) : ¬ (decide ((d.facet fn).mailbox.command ≠ 1) && !(d.facet fn).hello) = true := by
  rw [hhello, Bool.not_true, Bool.and_false]
  exact Bool.false_ne_true

section check

variable (hthere : (d.facet fn).state ≠ .absent)
include hthere

theorem mbxCheck_version (h : (d.facet fn).mailbox.version ≠ 1) : d.mbxCheck fn = some 0x2 :=
  (if_neg (by exact ne_true_of_eq_false (decide_eq_false hthere))).trans (if_pos (decide_eq_true h))

variable (hversion : (d.facet fn).mailbox.version = 1) (hrecovery : d.boot.recovery = false)
include hversion hrecovery

/-- Past the version's and the recovery mode's checks. -/
theorem mbxCheck_state : d.mbxCheck fn =
    if (d.facet fn).state.quiet then some 0x514
    else if decide ((d.facet fn).mailbox.command ≠ 1) && !(d.facet fn).hello then some 0x100
    else if (requestLengths (d.facet fn).mailbox.command).isEmpty then some 0x1
    else if managerOnly (d.facet fn).mailbox.command && decide (fn ≠ 0) then some 0x5
    else if !(requestLengths (d.facet fn).mailbox.command).contains (d.facet fn).mailbox.length then some 0x4
    else if decide ((d.facet fn).mailbox.command = 0x0200) && decide ((d.facet fn).mailbox.length ≠ 64 + 16 * bits (leAt (d.facet fn).mailbox.payload 1 1) 0 2) then
      some 0x4
    else none := by
  have hserves : ¬ (d.boot.recovery && !recoveryCommand (d.facet fn).mailbox.command) = true := by
    rw [hrecovery]
    exact Bool.false_ne_true
  exact (if_neg (by exact ne_true_of_eq_false (decide_eq_false hthere))).trans
    ((if_neg (by exact ne_true_of_eq_false (decide_eq_false (not_not.mpr hversion)))).trans (if_neg hserves))

theorem mbxCheck_quiet (hquiet : (d.facet fn).state.quiet = true) : d.mbxCheck fn = some 0x514 :=
  (mbxCheck_state hthere hversion hrecovery).trans (if_pos hquiet)

variable (hopen : (d.facet fn).state.quiet = false)
include hopen

theorem mbxCheck_noHello (hcommand : (d.facet fn).mailbox.command ≠ 1) (hhello : (d.facet fn).hello = false) : d.mbxCheck fn = some 0x100 := by
  have hno : (decide ((d.facet fn).mailbox.command ≠ 1) && !(d.facet fn).hello) = true := by
    rw [decide_eq_true hcommand, hhello]
    rfl
  exact (mbxCheck_state hthere hversion hrecovery).trans ((if_neg (Bool.eq_false_iff.mp hopen)).trans (if_pos hno))

variable (hhello : (d.facet fn).hello = true)
include hhello

theorem mbxCheck_unknown (hcode : requestLengths (d.facet fn).mailbox.command = []) : d.mbxCheck fn = some 0x1 :=
  (mbxCheck_state hthere hversion hrecovery).trans ((if_neg (Bool.eq_false_iff.mp hopen)).trans
    ((if_neg (hello_done hhello)).trans (if_pos (List.isEmpty_iff.mpr hcode))))

theorem mbxCheck_managerOnly (hcode : requestLengths (d.facet fn).mailbox.command ≠ []) (hmanager : managerOnly (d.facet fn).mailbox.command = true)
    (hfn : fn ≠ 0) : d.mbxCheck fn = some 0x5 := by
  have hno : (managerOnly (d.facet fn).mailbox.command && decide (fn ≠ 0)) = true := by
    rw [hmanager, decide_eq_true hfn]
    rfl
  exact (mbxCheck_state hthere hversion hrecovery).trans ((if_neg (Bool.eq_false_iff.mp hopen)).trans
    ((if_neg (hello_done hhello)).trans ((if_neg fun h => hcode (List.isEmpty_iff.mp h)).trans (if_pos hno))))

end check

/-! ## What a refusal leaves -/

theorem msix_frame (d : Dev) (f vector : Nat) {g : Nat} (hg : g ≠ f) :
    (d.msix f vector).facet g = d.facet g ∧ (d.msix f vector).mem = d.mem ∧ (d.msix f vector).blocks = d.blocks := by
  unfold Dev.msix
  split
  · exact ⟨rfl, rfl, rfl⟩
  · split
    · exact ⟨Dev.facet_updFacet_ne d hg _, rfl, rfl⟩
    · exact ⟨rfl, rfl, rfl⟩

theorem mbxRespond_frame (d : Dev) (f : Nat) (st : Code) (payload : List Byte) {g : Nat} (hg : g ≠ f) :
    (d.mbxRespond f st payload).facet g = d.facet g ∧ (d.mbxRespond f st payload).mem = d.mem ∧ (d.mbxRespond f st payload).blocks = d.blocks := by
  change (d.mbxAnswer f st payload).facet g = d.facet g ∧ (d.mbxAnswer f st payload).mem = d.mem ∧ (d.mbxAnswer f st payload).blocks = d.blocks
  unfold Dev.mbxAnswer
  dsimp only
  split
  · exact ⟨Dev.facet_updFacet_ne d hg _, rfl, rfl⟩
  · split
    · obtain ⟨hfacet, hmem, hblocks⟩ := msix_frame (d.updFacet f _) f (d.facet f).mailbox.vector.toNat hg
      exact ⟨hfacet.trans (Dev.facet_updFacet_ne d hg _), hmem, hblocks⟩
    · exact ⟨Dev.facet_updFacet_ne d hg _, rfl, rfl⟩

/-- A refusal below the journal's limit changes the journal and the refused function alone. -/
theorem mbxRefuse_frame (h : d.security.unacked + 1 < auditNearLimit) (st : Code) (payload : List Byte) {g : Nat} (hg : g ≠ fn) :
    (d.mbxRefuse fn st payload).facet g = d.facet g ∧ (d.mbxRefuse fn st payload).mem = d.mem ∧ (d.mbxRefuse fn st payload).blocks = d.blocks := by
  unfold Dev.mbxRefuse
  dsimp only
  split
  · rw [Dev.audit_eq_withJournal h]
    exact mbxRespond_frame _ fn st payload hg
  · exact mbxRespond_frame d fn st payload hg

/-- Settles O57: each command's step is a run of its rule behind the checks. -/
theorem mailboxChecks : Obligations.MailboxChecks := by
  unfold Obligations.MailboxChecks
  intro s fn va off mva path open' found d out x m hfree
  have run {x y : Dev} (h : x = y) : (Host.Outcome.next (s.to x) : Out) = .next (s.to y) := congrArg (fun e => Host.Outcome.next (s.to e)) h
  refine ⟨fun c hc => ?_, mbxCheck_absent, mbxCheck_version, fun hthere hversion hrecovery => ⟨mbxCheck_quiet hthere hversion hrecovery,
    mbxCheck_noHello hthere hversion hrecovery, mbxCheck_unknown hthere hversion hrecovery, mbxCheck_managerOnly hthere hversion hrecovery⟩,
    fun st p g hroom hg => mbxRefuse_frame hroom st p hg⟩
  obtain ⟨subject, body, hexec⟩ : MailboxCommand s fn c.1 c.2 :=
    (List.mem_append.mp hc).elim (mailboxCommand_host s) (mailboxCommand_device hfree)
  rw [hexec]
  refine ⟨fun h => run (mbxRun_other h), fun hgo hacc hcode hup hfatal hnext st hcheck => run (mbxRun_checked hgo hacc hup (.inr hcode) hfatal hnext hcheck),
    fun hgo hacc hcode hup => ⟨fun hfatal => ?_, fun hfatal hnext => run (mbxRun_notNext hgo hacc hup hcode hfatal hnext), fun hfatal hnext =>
      ⟨fun st hcheck => run (mbxRun_checked hgo hacc hup (.inl hcode) hfatal hnext hcheck),
       fun hcheck hversion => run (mbxRun_version hgo hacc hup hcode hfatal hnext hcheck hversion),
       fun hcheck hversion hfull hchange hlimit => run (mbxRun_nearFull hgo hacc hup hcode hfatal hnext hcheck hversion hfull hchange hlimit)⟩⟩⟩
  rw [mbxRun_fatal hgo hacc hup hcode hfatal]
  split <;> rfl

end Sys2Proof.Machine
end

section
/-! The frame of the scalar instructions (R54): of the block one register and the pc of the beam that issues. -/

namespace Sys2Proof

/-- A search for what neither holds of the changed element nor of its change finds what it found. -/
theorem find?_updFirst_other {α : Type} {p q : α → Bool} {f : α → α} (hp : ∀ x, p x = true → q x = false) (hf : ∀ x, p x = true → q (f x) = false)
    (l : List α) : (updFirst p f l).find? q = l.find? q := by
  induction l with
  | nil => rfl
  | cons x xs ih =>
    unfold updFirst
    by_cases hx : p x = true
    · rw [if_pos hx, List.find?_cons_of_neg (by rw [hf x hx]; exact Bool.false_ne_true), List.find?_cons_of_neg (by rw [hp x hx]; exact Bool.false_ne_true)]
    · rw [if_neg hx, List.find?_cons, List.find?_cons, ih]

end Sys2Proof

namespace Sys2Proof.Machine

variable {s : State} {d : Dev} {b o : BeamRef} {f : KFields} {c : Ctx}

/-! ## Other beams -/

theorem map_beam_ctx? : (d.ctx? o).map Ctx.beam =
    (d.launch? o.launch).bind fun _ => (d.block? o.launch o.block).bind fun k => k.beams[o.beam]? := by
  unfold Dev.ctx?
  cases d.launch? o.launch with
  | none => rfl
  | some l =>
    cases d.block? o.launch o.block with
    | none => rfl
    | some k =>
      dsimp only [Option.bind_some]
      cases k.beams[o.beam]? with
      | none => rfl
      | some m => rfl

theorem block?_updBlock_other {l i l' i' : Nat} (h : ¬ (l' = l ∧ i' = i)) {g : Block → Block} (hl : ∀ x, (g x).launch = x.launch)
    (hi : ∀ x, (g x).index = x.index) : (d.updBlock l i g).block? l' i' = d.block? l' i' := by
  have hother (x : Block) (hx : (decide (x.launch = l) && decide (x.index = i)) = true) : (decide (x.launch = l') && decide (x.index = i')) = false := by
    rw [Bool.and_eq_true, decide_eq_true_eq, decide_eq_true_eq] at hx
    obtain ⟨rfl, rfl⟩ := hx
    rw [Bool.and_eq_false_iff, decide_eq_false_iff_not, decide_eq_false_iff_not]
    by_cases hlaunch : x.launch = l'
    · exact .inr fun hindex => h ⟨hlaunch.symm, hindex.symm⟩
    · exact .inl hlaunch
  refine find?_updFirst_other hother (fun x hx => ?_) d.blocks
  rw [hl, hi]
  exact hother x hx

/-- A block's update that keeps a beam keeps it whatever block it stands in. -/
theorem map_beam_updBlock {l i : Nat} {g : Block → Block} (hl : ∀ x, (g x).launch = x.launch) (hi : ∀ x, (g x).index = x.index)
    (hbeam : o.launch = l → o.block = i → ∀ x : Block, (g x).beams[o.beam]? = x.beams[o.beam]?) :
    ((d.updBlock l i g).ctx? o).map Ctx.beam = (d.ctx? o).map Ctx.beam := by
  rw [map_beam_ctx?, map_beam_ctx?]
  refine congrArg (Option.bind (d.launch? o.launch)) (funext fun _ => ?_)
  by_cases h : o.launch = l ∧ o.block = i
  · obtain ⟨rfl, rfl⟩ := h
    rw [Dev.block?_updBlock _ _ _ hl hi]
    cases d.block? o.launch o.block with
    | none => rfl
    | some k => exact hbeam rfl rfl k
  · rw [block?_updBlock_other h hl hi]

theorem map_beam_updBeam (h : o ≠ b) (g : Beam → Beam) : ((d.updBeam b g).ctx? o).map Ctx.beam = (d.ctx? o).map Ctx.beam := by
  refine map_beam_updBlock (fun _ => rfl) (fun _ => rfl) fun hlaunch hblock x => getElem?_updAt_of_ne (fun hbeam => h ?_) x.beams
  cases o
  cases b
  simp_all only

theorem map_beam_noteIssue : ((d.noteIssue c).ctx? o).map Ctx.beam = (d.ctx? o).map Ctx.beam := by
  unfold Dev.noteIssue
  split
  · exact map_beam_updBlock (fun _ => rfl) (fun _ => rfl) fun _ _ _ => rfl
  · rfl

/-! ## The registers of the beam -/

theorem sWrite_scalars (m : Beam) (spec : Nat) (v : BitVec 64) : m.sWrite spec v = { m with s := (m.sWrite spec v).s } := by
  unfold Beam.sWrite
  split <;> rfl

theorem sGet_sWrite_other (m : Beam) {spec n : Nat} (h : 0xC0 + n ≠ spec) (v : BitVec 64) : (m.sWrite spec v).sGet n = m.sGet n := by
  unfold Beam.sWrite
  split
  · exact Tab.get_set_other 0 m.s (by omega) v
  · rfl

/-! ## The scalar instructions -/

theorem sDstBad_of_scalarDest {spec : BitVec 8} (h : ScalarDest spec) : sDstBad spec.toNat = false := by
  obtain ⟨hlow, hhigh⟩ := h
  rw [sDstBad, decide_eq_false (by omega), decide_eq_false (by omega)]
  rfl

theorem abTraps_nil (ha : ScalarSource f.a) (hb : f.mod.getLsbD 0 = false → ScalarSource f.b) (hd : ScalarDest f.dst) : abTraps f = [] := by
  have hsource : (!f.mod.getLsbD 0 && sSrcBad f.b.toNat) = false := by
    cases hmod : f.mod.getLsbD 0 with
    | true => rfl
    | false => rw [sSrcBad_of_scalarSource (hb hmod)]; rfl
  rw [abTraps, sSrcBad_of_scalarSource ha, hsource, sDstBad_of_scalarDest hd]
  rfl

/-- A scalar instruction that passes its checks writes DST and goes on. -/
def WritesScalar (s : State) (b : BeamRef) (f : KFields) (c : Ctx) (i : Instr) : Prop :=
  ∃ v, exec i s = .next (s.to ((s.dev.noteIssue c).updBeam b fun m => { m.sWrite f.dst.toNat v with pc := m.pc + 1 }))

theorem scalarOp_writes (h : Issues s.dev b c) (hchecks : abTraps f = []) (op : BitVec 64 → BitVec 64 → BitVec 64) :
    ∃ v, (Host.Outcome.next (s.to (s.dev.scalarOp b f op)) : Out) =
      .next (s.to ((s.dev.noteIssue c).updBeam b fun m => { m.sWrite f.dst.toNat v with pc := m.pc + 1 })) := by
  refine ⟨op ((c.noted s.dev).sVal f.a.toNat) ((c.noted s.dev).scalarB f), ?_⟩
  unfold Dev.scalarOp
  rw [Dev.issueScalar_of_issues h]
  refine issued_done h ?_
  rw [checked_ok hchecks, Dev.scalarResult, Ctx.noted_ref, ctx?_ref h.1]

theorem scalarMove_writes (h : Issues s.dev b c) (hchecks : dTraps f = []) (v : Ctx → BitVec 64) :
    ∃ v', (Host.Outcome.next (s.to (s.dev.issueScalar b fun d c => checked (dTraps f) (.done (d.scalarResult c f (v c))))) : Out) =
      .next (s.to ((s.dev.noteIssue c).updBeam b fun m => { m.sWrite f.dst.toNat v' with pc := m.pc + 1 })) := by
  refine ⟨v (c.noted s.dev), ?_⟩
  rw [Dev.issueScalar_of_issues h]
  refine issued_done h ?_
  rw [checked_ok hchecks, Dev.scalarResult, Ctx.noted_ref, ctx?_ref h.1]

theorem scalar_writes {i : Instr} (h : Issues s.dev b c) (ha : ScalarSource f.a) (hb : f.mod.getLsbD 0 = false → ScalarSource f.b) (hd : ScalarDest f.dst)
    (hi : i ∈ [.add b f, .sub b f, .mul b f, .mulhu b f, .divu b f, .remu b f, .andS b f, .orS b f, .xorS b f, .shl b f, .shr b f, .sra b f, .minS b f,
      .maxS b f, .slt b f, .sltu b f, .seq b f, .movi b f, .shor b f]) : WritesScalar s b f c i := by
  have hop := scalarOp_writes h (abTraps_nil ha hb hd)
  have hdest : dTraps f = [] := by
    rw [dTraps, sDstBad_of_scalarDest hd]
    rfl
  have hmove := scalarMove_writes h hdest
  simp only [List.mem_cons, List.not_mem_nil, or_false] at hi
  rcases hi with rfl | rfl | rfl | rfl | rfl | rfl | rfl | rfl | rfl | rfl | rfl | rfl | rfl | rfl | rfl | rfl | rfl | rfl | rfl
  pick_goal 18
  · exact hmove fun _ => imm64 f
  pick_goal 18
  · exact hmove fun c => (c.sVal f.dst.toNat <<< (20 : Nat)) ||| f.imm.setWidth 64
  all_goals exact hop _

/-- Settles O58: the instruction is one write of a scalar register and the step of the pc, on the counted issue. -/
theorem scalarFrame : Obligations.ScalarFrame := by
  unfold Obligations.ScalarFrame
  intro s b f c i h ha hb hd hi
  obtain ⟨v, hexec⟩ := scalar_writes h ha hb hd hi
  obtain ⟨hctx, -, -, -⟩ := h
  refine ⟨_, _, hexec, ?_, ctx?_updBeam_same (ctx?_noteIssue hctx) _, fun n _ hn => ?_, ?_, ?_, fun o ho => ?_⟩
  · exact congrArg (fun d : Dev => { d with blocks := ((s.dev.noteIssue c).updBeam b fun m => { m.sWrite f.dst.toNat v with pc := m.pc + 1 }).blocks })
      Dev.noteIssue_eq
  · rw [Ctx.noted_beam]
    exact sGet_sWrite_other c.beam hn v
  · rw [Ctx.noted_beam, sWrite_scalars]
  · rw [Ctx.noted_beam]
  · exact (map_beam_updBeam ho _).trans map_beam_noteIssue

end Sys2Proof.Machine
end

section
/-! What a cold reset leaves (R24, R161, R358, R483). -/

namespace Sys2Proof.Machine

theorem reset_word : ∀ e ∈ [(0x200000, 0x648), (0x205000, 0x1), (0x206000, 0x3E8081), (0x300000, 0x21), (0x300004, 0xC8), (0x400000, 0x1), (0x400004, 0),
    (0x40, 0x11111111), (0x44, 0x1), (0x100008, 0x400000)], State.reset.dev.word 0 e.1 = e.2 := by
  decide

theorem reset_slices : ∀ n, n < 96 → State.reset.dev.word 0 (0x201000 + 0x40 * n) % 16 = 5 := by
  decide

theorem reset_ports : ∀ n, n < 6 → State.reset.dev.word 0 (0x204000 + 4 * n) = 0x240003 := by
  decide

theorem reset_stacks : ∀ n, n < 12 → State.reset.dev.word 0 (0x205100 + 4 * n) % 2 ^ 17 = 3 := by
  decide

/-- Settles O60. -/
theorem resetState : Obligations.ResetState :=
  ⟨rfl, rfl, rfl, by decide, rfl, rfl, rfl, rfl, rfl, reset_word, reset_slices, reset_ports, reset_stacks, fun _ => rfl⟩

end Sys2Proof.Machine
end

section
/-! No message, no home transaction and no write of memory touches the lehr: one rule per operation of the fabric, the homes and the reductions,
in the order of their definitions. -/

namespace Sys2Proof.Machine

variable {d : Dev}

/-- A choice between blocks with one lehr has that lehr. -/
theorem lehr_ite {P : Prop} [Decidable P] {x y : Dev} {l : Lehr} (hx : x.lehr = l) (hy : y.lehr = l) : (if P then x else y).lehr = l := by
  split
  · exact hx
  · exact hy

theorem lehr_forEach {α : Type} {l : List α} {F : Dev → α → Dev} (h : ∀ e a, (F e a).lehr = e.lehr) (d : Dev) : (Dev.forEach l F d).lehr = d.lehr :=
  forEach_field Dev.lehr l F h d

/-- The same of a run that also gathers answers. -/
theorem lehr_foldl {α β : Type} {F : β × Dev → α → β × Dev} (h : ∀ p a, (F p a).2.lehr = p.2.lehr) (l : List α) (p : β × Dev) :
    (l.foldl F p).2.lehr = p.2.lehr := by
  induction l generalizing p with
  | nil => rfl
  | cons a l ih => exact (ih (F p a)).trans (h p a)

/-- The block of a pair that an operation answers. -/
theorem lehr_of_pair {α : Type} {p : α × Dev} {a : α} {e : Dev} {l : Lehr} (heq : p = (a, e)) (h : p.2.lehr = l) : e.lehr = l := by
  subst heq
  exact h

/-! ## Parts of the block -/

@[simp] theorem lehr_count (off n : Nat) : (d.count off n).lehr = d.lehr := rfl
@[simp] theorem lehr_countF (f off n : Nat) : (d.countF f off n).lehr = d.lehr := rfl
@[simp] theorem lehr_updPort (n : Nat) (g : PairPort → PairPort) : (d.updPort n g).lehr = d.lehr := rfl
@[simp] theorem lehr_updTag (t : TagRef) (g : Tag → Tag) : (d.updTag t g).lehr = d.lehr := rfl
@[simp] theorem lehr_setTag (r : Request) (t : TagRef) : (d.setTag r t).lehr = d.lehr := rfl
@[simp] theorem lehr_updSlice (n : Nat) (g : Slice → Slice) : (d.updSlice n g).lehr = d.lehr := rfl
@[simp] theorem lehr_setSlice (n : Nat) (x : Slice) : (d.setSlice n x).lehr = d.lehr := rfl
@[simp] theorem lehr_updHome (line : Nat) (g : Slice → Slice) : (d.updHome line g).lehr = d.lehr := rfl
@[simp] theorem lehr_updStack (n : Nat) (g : Stack → Stack) : (d.updStack n g).lehr = d.lehr := rfl
@[simp] theorem lehr_updFarPort (n : Nat) (g : FarPort → FarPort) : (d.updFarPort n g).lehr = d.lehr := rfl
@[simp] theorem lehr_updCore (n : Nat) (g : Core → Core) : (d.updCore n g).lehr = d.lehr := rfl
@[simp] theorem lehr_updErrors (g : Errors → Errors) : (d.updErrors g).lehr = d.lehr := rfl
@[simp] theorem lehr_updGroup (n : Nat) (g : RedGroup → RedGroup) : (d.updGroup n g).lehr = d.lehr := rfl
@[simp] theorem lehr_send (m : Sent) : (d.send m).lehr = d.lehr := rfl
@[simp] theorem lehr_corrected : d.corrected.lehr = d.lehr := rfl
@[simp] theorem lehr_dropRead (line : Nat) : (d.dropRead line).lehr = d.lehr := rfl
@[simp] theorem lehr_markFrames (p : Nat) (frames : List Nat) : (d.markFrames p frames).lehr = d.lehr := rfl
@[simp] theorem lehr_hbmTouch (line : Nat) (w : Bool) : (d.hbmTouch line w).lehr = d.lehr := rfl
@[simp] theorem lehr_glint (f typ a b c : Nat) : (d.glint f typ a b c).lehr = d.lehr := by
  rw [show d.glint f typ a b c = _ from Dev.posts_glintTo d f typ _]
@[simp] theorem lehr_hostWrite (f bus : Nat) (bs : List Byte) (poison : Bool) : (d.hostWrite f bus bs poison).lehr = d.lehr := by
  rw [show d.hostWrite f bus bs poison = _ from Dev.posts_hostWrite d f bus bs poison]

/-! ## The fabric -/

@[simp] theorem lehr_reply (m : Msg) : (d.reply m).lehr = d.lehr := rfl
@[simp] theorem lehr_cleanFlit (n : Nat) (ab : Bool) : (d.cleanFlit n ab).lehr = d.lehr := rfl
@[simp] theorem lehr_dropMsg (id : Nat) : (d.dropMsg id).lehr = d.lehr := rfl
@[simp] theorem lehr_turn (node out : Nat) (m : Msg) : (d.turn node out m).lehr = d.lehr := rfl
@[simp] theorem lehr_post (m : Msg) : (d.post m).lehr = d.lehr := rfl
@[simp] theorem lehr_postReq (r : Request) : (d.postReq r).lehr = d.lehr := rfl
@[simp] theorem lehr_complete (kind : MsgKind) (r : Request) (data : List Byte) (x : Bool) (st : Code) : (d.complete kind r data x st).lehr = d.lehr := rfl

@[simp] theorem lehr_routerReply (agent line : Nat) (wantsData : Bool) : (d.routerReply agent line wantsData).lehr = d.lehr := by
  cases wantsData <;> rfl

@[simp] theorem lehr_abandonTag (t : Option TagRef) : (d.abandonTag t).lehr = d.lehr := by
  cases t with
  | none => rfl
  | some t => exact lehr_ite rfl rfl

@[simp] theorem lehr_endMsg (m : Msg) : (d.endMsg m).lehr = d.lehr := by
  unfold Dev.endMsg
  split
  · rfl
  · exact lehr_ite rfl (by simp)

@[simp] theorem lehr_countDetour (m : Msg) (base far : Nat) : (d.countDetour m base far).lehr = d.lehr := by
  unfold Dev.countDetour
  refine lehr_ite rfl ?_
  split
  · exact lehr_ite rfl rfl
  · rfl

@[simp] theorem lehr_acceptTag (t : Option TagRef) : (d.acceptTag t).2.lehr = d.lehr := by
  unfold Dev.acceptTag
  split
  · rfl
  · split <;> rfl

@[simp] theorem lehr_tagMsg (m : Msg) : (d.tagMsg m).2.lehr = d.lehr := by
  unfold Dev.tagMsg
  split
  · rfl
  · split
    · rfl
    · split <;> rfl

@[simp] theorem lehr_land1 (m : Msg) (e : Nat × Option TagRef) : (d.land1 m e).lehr = d.lehr := by
  unfold Dev.land1
  dsimp only
  refine lehr_ite rfl ?_
  split
  · exact lehr_endMsg _
  · rename_i t _
    generalize hpath : (if t = _ then _ else _ : Dev) = x
    have hx : x.lehr = d.lehr := by
      rw [← hpath]
      exact lehr_ite (by simp) (by simp)
    exact lehr_ite (lehr_ite ((lehr_acceptTag _).trans hx) ((lehr_acceptTag _).trans hx)) ((lehr_tagMsg _).trans hx)

@[simp] theorem lehr_land (line : Nat) : (d.land line).lehr = d.lehr :=
  lehr_forEach (fun _ _ => (lehr_forEach (fun _ _ => lehr_land1 _ _) _).trans (lehr_dropMsg _)) d

@[simp] theorem lehr_strand (node : Nat) : (d.strand node).lehr = d.lehr := by
  unfold Dev.strand
  refine lehr_ite rfl (lehr_forEach (fun e m => ?_) d)
  refine lehr_ite rfl ((lehr_endMsg m).trans ?_)
  split <;> rfl

@[simp] theorem lehr_depart (m : Msg) (out : Nat) : (d.depart m out).2.lehr = d.lehr := by
  unfold Dev.depart
  dsimp only
  split <;> rfl

@[simp] theorem lehr_acceptAll (l : List (Nat × Option TagRef)) : (d.acceptAll l).2.lehr = d.lehr := by
  unfold Dev.acceptAll
  refine (lehr_foldl (fun p e => ?_) l _).trans rfl
  exact lehr_acceptTag _

@[simp] theorem lehr_receive (m : Msg) : (d.receive m).lehr = d.lehr := by
  unfold Dev.receive
  split
  rename_i dests e heq
  have he : e.lehr = d.lehr := by
    refine lehr_of_pair heq ?_
    split
    · exact lehr_acceptAll _
    · rfl
  split
  · exact he
  · exact he

/-- A router's grant moves a message. -/
theorem lehr_grantOut {node out : Nat} {e : Dev} (h : d.grantOut node out = some e) : e.lehr = d.lehr := by
  unfold Dev.grantOut at h
  split at h
  · cases h
  · rename_i m _
    split at h
    · rename_i x heq
      obtain rfl := Option.some.inj h
      exact lehr_of_pair heq (lehr_depart _ _)
    · rename_i c x heq
      have hx : x.lehr = d.lehr := lehr_of_pair heq (lehr_depart _ _)
      split at h
      · obtain rfl := Option.some.inj h
        exact hx
      · split at h
        · dsimp only at h
          obtain rfl := Option.some.inj h
          rw [lehr_receive, lehr_cleanFlit, lehr_countDetour, lehr_tagMsg, hx]
        · obtain rfl := Option.some.inj h
          exact hx

@[simp] theorem lehr_travel (kind : MsgKind) (agent line fuel : Nat) (d : Dev) : (Dev.travel kind agent line fuel d).lehr = d.lehr := by
  induction fuel generalizing d with
  | zero => rfl
  | succ fuel ih =>
    unfold Dev.travel
    split
    · rfl
    · refine lehr_ite rfl ?_
      dsimp only
      split
      · exact lehr_strand _
      · split
        · exact lehr_strand _
        · split
          · exact lehr_strand _
          · rename_i e he
            exact (ih e).trans ((lehr_grantOut he).trans (lehr_strand _))

@[simp] theorem lehr_takeMsg (kind : MsgKind) (agent line : Nat) : (d.takeMsg kind agent line).2.lehr = d.lehr := by
  unfold Dev.takeMsg
  dsimp only
  split
  · exact lehr_travel _ _ _ _ _
  · split
    · exact lehr_travel _ _ _ _ _
    · exact lehr_travel _ _ _ _ _

/-! ## Memory and the home's ways -/

@[simp] theorem lehr_drainBatch (stack p : Nat) : (d.drainBatch stack p).lehr = d.lehr := by
  unfold Dev.drainBatch
  refine lehr_forEach (fun e a => ?_) d
  rw [lehr_updStack, lehr_hbmTouch]

@[simp] theorem lehr_queueWrite (line : Nat) : (d.queueWrite line).lehr = d.lehr := by
  unfold Dev.queueWrite
  exact lehr_ite (lehr_drainBatch _ _) rfl

@[simp] theorem lehr_memWriteLine (line : Nat) (bs : List Byte) (poison : Bool) : (d.memWriteLine line bs poison).lehr = d.lehr := by
  unfold Dev.memWriteLine
  exact lehr_ite rfl (lehr_ite rfl (lehr_queueWrite _))

@[simp] theorem lehr_writeThrough (agent line : Nat) (tag : Option TagRef) (data : List Byte) (poison : Bool) :
    (d.writeThrough agent line tag data poison).lehr = d.lehr := by
  unfold Dev.writeThrough
  exact lehr_ite (lehr_memWriteLine _ _ _) (lehr_memWriteLine _ _ _)

@[simp] theorem lehr_grantOwner (line c : Nat) : (d.grantOwner line c).lehr = d.lehr := rfl
@[simp] theorem lehr_grantSharer (line c : Nat) : (d.grantSharer line c).lehr = d.lehr := rfl

@[simp] theorem lehr_evictWay (line : Nat) : (d.evictWay line).lehr = d.lehr := by
  unfold Dev.evictWay
  split
  · rfl
  · exact lehr_ite (lehr_memWriteLine _ _ _) rfl

@[simp] theorem lehr_allocWay (line : Nat) (data : List Byte) (dirty : Bool) : (d.allocWay line data dirty).lehr = d.lehr := by
  unfold Dev.allocWay
  split
  · rfl
  · dsimp only
    rw [lehr_updHome]
    split
    · exact lehr_evictWay _
    · rfl

@[simp] theorem lehr_moveWay (line : Nat) (retain : Bool) : (d.moveWay line retain).lehr = d.lehr := by
  unfold Dev.moveWay
  dsimp only
  split
  · rfl
  · refine lehr_ite (lehr_ite rfl ?_) (lehr_ite rfl ?_)
    · rw [lehr_updHome]
      split
      · exact lehr_ite (lehr_evictWay _) rfl
      · rfl
    · rw [lehr_updHome]
      split
      · exact lehr_evictWay _
      · rfl

@[simp] theorem lehr_pinWay (line : Nat) (data : List Byte) (retain : Bool) : (d.pinWay line data retain).lehr = d.lehr := by
  unfold Dev.pinWay
  refine lehr_ite (lehr_moveWay _ _) ?_
  dsimp only
  rw [lehr_updHome]
  split
  · exact lehr_evictWay _
  · rfl

@[simp] theorem lehr_pinLine (r : Request) (cap : Nat) (data : List Byte) : (d.pinLine r cap data).1.lehr = d.lehr := by
  unfold Dev.pinLine
  dsimp only
  split
  · rfl
  · split
    · rfl
    · exact lehr_pinWay _ _ _

@[simp] theorem lehr_unpinLine (line facet : Nat) : (d.unpinLine line facet).1.lehr = d.lehr := by
  unfold Dev.unpinLine
  split
  · rfl
  · split <;> rfl

/-! ## What a home performs -/

@[simp] theorem lehr_countHit (r : Request) : (d.countHit r).lehr = d.lehr := lehr_ite rfl rfl

@[simp] theorem lehr_countMiss (r : Request) : (d.countMiss r).lehr = d.lehr := by
  unfold Dev.countMiss
  exact lehr_ite (lehr_ite rfl rfl) (lehr_ite rfl rfl)

@[simp] theorem lehr_countOutcome (r : Request) (hit filled : Bool) : (d.countOutcome r hit filled).lehr = d.lehr := by
  unfold Dev.countOutcome
  exact lehr_ite rfl (lehr_ite (lehr_countHit r) (lehr_countMiss r))

@[simp] theorem lehr_performPoisonWrite (r : Request) (data : List Byte) : (d.performPoisonWrite r data).lehr = d.lehr :=
  lehr_writeThrough _ _ _ _ _

@[simp] theorem lehr_performPoisoned (r : Request) : (d.performPoisoned r).lehr = d.lehr := by
  unfold Dev.performPoisoned
  cases r.kind with
  | wrNc => exact lehr_writeThrough _ _ _ _ _
  | cctl =>
    dsimp only
    split
    · rfl
    · rfl
    · exact lehr_unpinLine _ _
    · rfl
  | _ => rfl

@[simp] theorem lehr_perform (r : Request) (cap : Nat) (data : List Byte) : (d.perform r cap data).lehr = d.lehr := by
  unfold Dev.perform
  cases r.kind with
  | rdS => exact lehr_ite rfl rfl
  | wrNc => exact lehr_ite (lehr_writeThrough _ _ _ _ _) (lehr_allocWay _ _ _)
  | atom => exact lehr_allocWay _ _ _
  | cctl =>
    dsimp only
    split
    · exact lehr_ite rfl (lehr_ite rfl rfl)
    · exact lehr_pinLine _ _ _
    · exact lehr_pinLine _ _ _
    · exact lehr_unpinLine _ _
    · split
      · exact lehr_ite (lehr_writeThrough _ _ _ _ _) rfl
      · rfl
    · rfl
  | _ => rfl

/-! ## Home transactions -/

@[simp] theorem lehr_proceed (r : Request) (cap : Nat) (filled : Bool) : (d.proceed r cap filled).1.lehr = d.lehr := by
  unfold Dev.proceed
  dsimp only
  split
  · rw [lehr_performPoisoned, lehr_countOutcome]
  · split
    · rw [lehr_performPoisonWrite, lehr_countOutcome]
    · split
      · rw [lehr_perform]
        exact lehr_ite (lehr_countOutcome _ _ _) (lehr_countOutcome _ _ _)
      · split
        · rw [lehr_perform]
          exact lehr_ite rfl (lehr_allocWay _ _ _)
        · split
          · rw [lehr_perform, lehr_countOutcome]
          · rfl

@[simp] theorem lehr_advance (line : Nat) : (d.advance line).1.lehr = d.lehr := by
  unfold Dev.advance
  split
  · rfl
  · rename_i t _
    have hgoes := lehr_proceed (d := d) t.req t.cap false
    split
    · rfl
    · generalize d.proceed t.req t.cap false = p at hgoes
      obtain ⟨x, done⟩ := p
      cases done with
      | true => exact hgoes
      | false =>
        dsimp only at hgoes ⊢
        split
        · exact hgoes
        · exact (lehr_countMiss _).trans hgoes

@[simp] theorem lehr_sendSnoops (line : Nat) : (d.sendSnoops line).lehr = d.lehr := by
  unfold Dev.sendSnoops
  split
  · rfl
  · exact lehr_ite rfl (lehr_ite rfl (lehr_forEach (fun _ _ => lehr_post _) _))

@[simp] theorem lehr_launchTxn (line : Nat) : (d.launchTxn line).2.lehr = d.lehr := by
  have hgoes : ((d.sendSnoops line).advance line).1.lehr = d.lehr := (lehr_advance line).trans (lehr_sendSnoops line)
  unfold Dev.launchTxn
  generalize (d.sendSnoops line).advance line = p at hgoes
  obtain ⟨x, done⟩ := p
  cases done with
  | true => exact hgoes
  | false => exact hgoes

@[simp] theorem lehr_startTxn (line : Nat) : (d.startTxn line).2.lehr = d.lehr := by
  unfold Dev.startTxn
  split
  · rfl
  · split
    · dsimp only
      split
      · exact lehr_launchTxn _
      · split
        · rfl
        · exact lehr_launchTxn _
    · exact lehr_launchTxn _

@[simp] theorem lehr_cullRead (line : Nat) : (d.cullRead line).lehr = d.lehr := lehr_ite rfl rfl

@[simp] theorem lehr_countAccess (r : Request) : (d.countAccess r).lehr = d.lehr := by
  unfold Dev.countAccess
  dsimp only
  generalize hx : (if (Dev.linePin _ r.line).isSome = true then _ else _ : Dev) = x
  have hcount : x.lehr = d.lehr := by
    rw [← hx]
    exact lehr_ite rfl rfl
  generalize hy : (if r.kind.isRead = true then _ else _ : Dev) = y
  have hcull : y.lehr = d.lehr := by
    rw [← hy]
    exact lehr_ite ((lehr_cullRead _).trans hcount) hcount
  exact lehr_ite hcull hcull

@[simp] theorem lehr_poisonOrigin (src : Nat) (isCore : Bool) (place facet : Nat) : (d.poisonOrigin src isCore place facet).lehr = d.lehr := by
  unfold Dev.poisonOrigin
  dsimp only
  generalize hx : (if d.errors.logValid = true then d else _ : Dev) = x
  have hlog : x.lehr = d.lehr := by
    rw [← hx]
    exact lehr_ite rfl rfl
  have htold : ({ x with origins := x.origins ++ [(src, if isCore = true then 2 * place + 1 else 2 * (place / pageBytes))] } : Dev).lehr = d.lehr := hlog
  refine lehr_ite hlog ?_
  refine lehr_ite ?_ ?_
  · exact lehr_ite ((lehr_glint _ _ _ _ _).trans htold) ((lehr_glint _ _ _ _ _).trans ((lehr_glint _ _ _ _ _).trans htold))
  · exact lehr_ite ((lehr_glint _ _ _ _ _).trans htold) ((lehr_glint _ _ _ _ _).trans ((lehr_glint _ _ _ _ _).trans htold))

@[simp] theorem lehr_poisonLine (line : Nat) : (d.poisonLine line).lehr = d.lehr := by
  unfold Dev.poisonLine
  exact lehr_memWriteLine _ _ _

@[simp] theorem lehr_homeParity (line : Nat) : (d.homeParity line).lehr = d.lehr := by
  unfold Dev.homeParity
  dsimp only
  generalize hx : (if (!NSet.has d.strikes.slice line) = true then d else _ : Dev) = x
  have hways : x.lehr = d.lehr := by
    rw [← hx]
    refine lehr_ite rfl ?_
    split
    · rfl
    · refine lehr_ite ?_ rfl
      rw [lehr_poisonOrigin, lehr_count, lehr_poisonLine]
  refine lehr_ite hways ?_
  rw [lehr_corrected, lehr_count, lehr_updHome]
  refine (lehr_forEach (fun e a => ?_) _).trans hways
  split
  · rfl
  · exact lehr_ite (lehr_allocWay _ _ _) rfl

@[simp] theorem lehr_openTxn (r : Request) : (d.openTxn r).2.lehr = d.lehr := by
  unfold Dev.openTxn
  exact (lehr_startTxn _).trans ((lehr_countAccess _).trans (lehr_homeParity _))

@[simp] theorem lehr_serve (n fuel : Nat) (ended : List Nat) (d : Dev) : (Dev.serve n fuel ended d).lehr = d.lehr := by
  induction fuel generalizing ended d with
  | zero => rfl
  | succ fuel ih =>
    cases ended with
    | cons line ended =>
      unfold Dev.serve
      dsimp only
      split
      · rw [ih]
        rfl
      · rw [ih, lehr_startTxn]
        rfl
    | nil =>
      unfold Dev.serve
      dsimp only
      split
      · rename_i t _
        have hgoes := lehr_advance (d := d) t.req.line
        generalize d.advance t.req.line = p at hgoes
        obtain ⟨x, done⟩ := p
        cases done with
        | true => exact (ih _ _).trans hgoes
        | false => exact (ih _ _).trans hgoes
      · split
        · rfl
        · split
          · rw [ih, lehr_openTxn]
            rfl
          · rw [ih, lehr_updHome, lehr_countMiss, lehr_countAccess]
            rfl
          · rw [ih]
            rfl
          · rfl

@[simp] theorem lehr_arriveHome (r : Request) : (d.arriveHome r).lehr = d.lehr := lehr_serve _ _ _ _

@[simp] theorem lehr_takeReq (agent line : Nat) : (d.takeReq agent line).lehr = d.lehr := by
  have htaken := lehr_takeMsg (d := d) .request agent line
  unfold Dev.takeReq
  generalize d.takeMsg .request agent line = p at htaken
  obtain ⟨m, x⟩ := p
  cases m with
  | none => exact htaken
  | some m =>
    dsimp only at htaken ⊢
    split
    · exact (lehr_arriveHome _).trans htaken
    · exact htaken

@[simp] theorem lehr_answerSnoop (kind : MsgKind) (c line : Nat) : (d.answerSnoop kind c line).lehr = d.lehr := by
  unfold Dev.answerSnoop
  split
  · rfl
  · dsimp only
    rw [lehr_post]
    exact lehr_ite rfl rfl

@[simp] theorem lehr_snoop (kind : MsgKind) (c line : Nat) : (d.snoop kind c line).lehr = d.lehr := by
  have htaken := lehr_takeMsg (d := d) kind c line
  unfold Dev.snoop
  generalize d.takeMsg kind c line = p at htaken
  obtain ⟨m, x⟩ := p
  cases m with
  | none => exact htaken
  | some m => exact lehr_ite htaken ((lehr_answerSnoop _ _ _).trans htaken)

@[simp] theorem lehr_answered (t : Txn) (c line : Nat) : (d.answered t c line).lehr = d.lehr := by
  unfold Dev.answered
  exact lehr_ite rfl rfl

@[simp] theorem lehr_closeTxn (line : Nat) : (d.closeTxn line).lehr = d.lehr := lehr_serve _ _ _ _

@[simp] theorem lehr_snoopsDone (line : Nat) : (d.snoopsDone line).lehr = d.lehr := by
  have hgoes := lehr_advance (d := d) line
  unfold Dev.snoopsDone
  generalize d.advance line = p at hgoes
  obtain ⟨x, done⟩ := p
  cases done with
  | true => exact (lehr_closeTxn _).trans hgoes
  | false => exact hgoes

@[simp] theorem lehr_snoopAnswered (t : Txn) (c line : Nat) : (d.snoopAnswered t c line).lehr = d.lehr := by
  unfold Dev.snoopAnswered
  rw [lehr_snoopsDone, lehr_updHome, lehr_answered]

@[simp] theorem lehr_rspAckArrives (c line : Nat) : (d.rspAckArrives c line).lehr = d.lehr := by
  have htaken := lehr_takeMsg (d := d) .rspAck c line
  unfold Dev.rspAckArrives
  generalize d.takeMsg .rspAck c line = p at htaken
  obtain ⟨m, x⟩ := p
  cases m with
  | none => exact htaken
  | some m =>
    dsimp only at htaken ⊢
    split
    · exact htaken
    · exact lehr_ite htaken (lehr_ite ((lehr_snoopAnswered _ _ _).trans htaken) (lehr_ite htaken ((lehr_snoopAnswered _ _ _).trans htaken)))

@[simp] theorem lehr_rspDataArrives (c line : Nat) : (d.rspDataArrives c line).lehr = d.lehr := by
  have htaken := lehr_takeMsg (d := d) .rspData c line
  unfold Dev.rspDataArrives
  generalize d.takeMsg .rspData c line = p at htaken
  obtain ⟨m, x⟩ := p
  cases m with
  | none => exact htaken
  | some m =>
    dsimp only at htaken ⊢
    split
    · exact htaken
    · refine lehr_ite htaken ((lehr_snoopAnswered _ _ _).trans ?_)
      exact lehr_ite ((lehr_poisonLine _).trans htaken) (lehr_ite htaken ((lehr_allocWay _ _ _).trans htaken))

@[simp] theorem lehr_ownCame (line : Nat) : (d.ownCame line).lehr = d.lehr := by
  unfold Dev.ownCame
  exact (lehr_serve _ _ _ _).trans (lehr_launchTxn _)

/-- The data of a write-back as the home takes it. -/
theorem lehr_mergeData (line : Nat) (m : Msg) (d : Dev) :
    (if m.poison then d.poisonLine line else if NSet.has d.memPoison line then d else d.allocWay line m.data true).lehr = d.lehr :=
  lehr_ite (lehr_poisonLine _) (lehr_ite rfl (lehr_allocWay _ _ _))

@[simp] theorem lehr_wbArrives (c line : Nat) : (d.wbArrives c line).lehr = d.lehr := by
  have htaken := lehr_takeMsg (d := d) .wb c line
  unfold Dev.wbArrives
  generalize d.takeMsg .wb c line = p at htaken
  obtain ⟨m, x⟩ := p
  cases m with
  | none => exact htaken
  | some m =>
    dsimp only at htaken ⊢
    split
    · exact lehr_ite ((lehr_writeThrough _ _ _ _ _).trans htaken) ((lehr_mergeData line m _).trans htaken)
    · refine lehr_ite ((lehr_mergeData line m _).trans htaken) (lehr_ite ((lehr_ownCame _).trans ((lehr_mergeData line m _).trans htaken)) (lehr_ite ?_ ?_))
      · exact (lehr_snoopAnswered _ _ _).trans ((lehr_mergeData line m _).trans htaken)
      · exact (lehr_mergeData line m _).trans htaken

@[simp] theorem lehr_evcArrives (c line : Nat) : (d.evcArrives c line).lehr = d.lehr := by
  have htaken := lehr_takeMsg (d := d) .evc c line
  unfold Dev.evcArrives
  generalize d.takeMsg .evc c line = p at htaken
  obtain ⟨m, x⟩ := p
  cases m with
  | none => exact htaken
  | some m =>
    dsimp only at htaken ⊢
    split
    · exact lehr_ite ((lehr_ownCame _).trans htaken) htaken
    · exact htaken

@[simp] theorem lehr_l1Evict (c line : Nat) : (d.l1Evict c line).lehr = d.lehr := by
  unfold Dev.l1Evict
  refine lehr_ite rfl (lehr_ite rfl ?_)
  split
  · rfl
  · exact lehr_ite rfl rfl

@[simp] theorem lehr_requestOver (c line : Nat) : (d.requestOver c line).lehr = d.lehr := by
  unfold Dev.requestOver
  exact (lehr_forEach (fun _ _ => lehr_answerSnoop _ _ _) _).trans rfl

@[simp] theorem lehr_grantArrives (kind : MsgKind) (c line : Nat) : (d.grantArrives kind c line).lehr = d.lehr := by
  have htaken := lehr_takeMsg (d := d) kind c line
  unfold Dev.grantArrives
  generalize d.takeMsg kind c line = p at htaken
  obtain ⟨m, x⟩ := p
  cases m with
  | none => exact htaken
  | some m =>
    dsimp only at htaken ⊢
    rw [lehr_requestOver, lehr_updCore]
    exact lehr_ite htaken ((lehr_l1Evict _ _).trans htaken)

@[simp] theorem lehr_ackArrives (kind : MsgKind) (agent line : Nat) : (d.ackArrives kind agent line).lehr = d.lehr := by
  have htaken := lehr_takeMsg (d := d) kind agent line
  unfold Dev.ackArrives
  generalize d.takeMsg kind agent line = p at htaken
  obtain ⟨m, x⟩ := p
  cases m with
  | none => exact htaken
  | some m => exact lehr_ite htaken (lehr_ite htaken ((lehr_requestOver _ _).trans htaken))

@[simp] theorem lehr_deliver (m : Msg) : (d.deliver m).lehr = d.lehr := by
  unfold Dev.deliver
  cases m.kind with
  | request => exact lehr_takeReq _ _
  | snpInv => exact lehr_snoop _ _ _
  | snpDown => exact lehr_snoop _ _ _
  | snpDrop => exact lehr_snoop _ _ _
  | rspAck => exact lehr_rspAckArrives _ _
  | rspData => exact lehr_rspDataArrives _ _
  | wb => exact lehr_wbArrives _ _
  | evc => exact lehr_evcArrives _ _
  | cmpS => exact lehr_grantArrives _ _ _
  | cmpE => exact lehr_grantArrives _ _ _
  | cmpM => exact lehr_grantArrives _ _ _
  | cmpOwn => exact lehr_grantArrives _ _ _
  | cmpNc => exact lehr_ackArrives _ _ _
  | cmpAck => exact lehr_ackArrives _ _ _

/-! ## Fills, time-outs and the run to an answer -/

@[simp] theorem lehr_countRead (line : Nat) : (d.countRead line).lehr = d.lehr := by
  unfold Dev.countRead
  exact lehr_ite rfl (lehr_hbmTouch _ _)

@[simp] theorem lehr_farChecked (line : Nat) (answer : FarAnswer) : (d.farChecked line answer).lehr = d.lehr := by
  unfold Dev.farChecked
  refine lehr_ite rfl (lehr_ite ?_ (lehr_ite rfl rfl))
  rw [lehr_poisonOrigin, lehr_count, lehr_poisonLine]
  rfl

@[simp] theorem lehr_hbmChecked (line : Nat) (first second : ReadCheck) : (d.hbmChecked line first second).lehr = d.lehr := by
  unfold Dev.hbmChecked
  refine lehr_ite rfl (lehr_ite (lehr_ite rfl rfl) (lehr_ite (lehr_ite rfl rfl) ?_))
  rw [lehr_poisonOrigin, lehr_count, lehr_poisonLine]
  rfl

@[simp] theorem lehr_memChecked (line : Nat) : (d.memChecked line).lehr = d.lehr := by
  unfold Dev.memChecked
  exact lehr_ite rfl (lehr_ite (lehr_farChecked _ _) (lehr_hbmChecked _ _ _))

@[simp] theorem lehr_fillDone (line : Nat) : (d.fillDone line).lehr = d.lehr := by
  unfold Dev.fillDone
  split
  · rfl
  · refine lehr_ite rfl ?_
    dsimp only
    rw [lehr_closeTxn]
    generalize hx : Dev.forEach _ _ _ = x
    have hfilled : x.lehr = d.lehr := by
      rw [← hx]
      refine (lehr_forEach (fun e r => ?_) _).trans ((lehr_countRead _).trans (lehr_memChecked _))
      refine lehr_ite ?_ (lehr_proceed _ _ _)
      exact lehr_ite rfl (lehr_allocWay _ _ _)
    exact lehr_ite hfilled hfilled

@[simp] theorem lehr_pump (keep : Option Nat) (line fuel : Nat) (d : Dev) : (Dev.pump keep line fuel d).lehr = d.lehr := by
  induction fuel generalizing d with
  | zero => rfl
  | succ fuel ih =>
    unfold Dev.pump
    dsimp only
    have hlanded := lehr_forEach (fun e line => lehr_land (d := e) line) (l := line :: (d.roomOf line).toList) d
    split
    · rw [ih, lehr_deliver, hlanded]
    · split
      · rw [ih, lehr_fillDone, hlanded]
      · exact hlanded

@[simp] theorem lehr_endHold (n : Nat) : (d.endHold n).lehr = d.lehr := by
  unfold Dev.endHold
  exact lehr_ite (lehr_serve _ _ _ _) rfl

@[simp] theorem lehr_settle (line : Nat) : (d.settle line).lehr = d.lehr := by
  rw [Dev.settle, lehr_pump, lehr_endHold, lehr_pump]

@[simp] theorem lehr_timeoutReply (r : Request) : (d.timeoutReply r).lehr = d.lehr := by
  unfold Dev.timeoutReply
  cases r.kind <;> exact lehr_abandonTag _

@[simp] theorem lehr_homeTimeout (line : Nat) : (d.homeTimeout line).lehr = d.lehr := by
  unfold Dev.homeTimeout
  split
  · rfl
  · rename_i t _
    dsimp only
    rw [lehr_closeTxn]
    generalize hx : Dev.forEach _ _ _ = x
    have hreplied : x.lehr = d.lehr := by
      rw [← hx]
      refine (lehr_forEach (fun _ _ => lehr_timeoutReply _) _).trans ?_
      split
      · rw [lehr_updSlice, lehr_count, lehr_poisonLine]
      · rw [lehr_count, lehr_poisonLine]
    exact lehr_ite ((lehr_glint _ _ _ _ _).trans hreplied) ((lehr_glint _ _ _ _ _).trans ((lehr_glint _ _ _ _ _).trans hreplied))

@[simp] theorem lehr_freeSlice (n fuel : Nat) (d : Dev) : (Dev.freeSlice n fuel d).lehr = d.lehr := by
  induction fuel generalizing d with
  | zero => rfl
  | succ fuel ih =>
    unfold Dev.freeSlice
    refine lehr_ite rfl ?_
    dsimp only
    rw [ih, lehr_endHold]
    refine lehr_forEach (fun e l => ?_) d
    exact lehr_ite ((lehr_settle _).trans ((lehr_homeTimeout _).trans (lehr_settle _))) (lehr_settle _)

@[simp] theorem lehr_farWriteDone (line : Nat) : (d.farWriteDone line).lehr = d.lehr := by
  unfold Dev.farWriteDone
  refine lehr_ite rfl ?_
  dsimp only
  split <;> rfl

@[simp] theorem lehr_await (agent line fuel : Nat) (d : Dev) : (Dev.await agent line fuel d).lehr = d.lehr := by
  induction fuel generalizing d with
  | zero => rfl
  | succ fuel ih =>
    have hpumped : (Dev.pump (some agent) line pumpFuel ((Dev.pump (some agent) line pumpFuel d).farWriteDone line)).lehr = d.lehr := by
      rw [lehr_pump, lehr_farWriteDone, lehr_pump]
    unfold Dev.await
    exact lehr_ite hpumped ((ih _).trans ((lehr_homeTimeout _).trans hpumped))

@[simp] theorem lehr_access (r : Request) : (d.access r).2.lehr = d.lehr := by
  have hawaited (x : Dev) (h : x.lehr = d.lehr) : (Dev.await r.agent r.line 4 (x.postReq r)).lehr = d.lehr := by
    rw [lehr_await, lehr_postReq, h]
  have hfreed : (Dev.freeSlice (d.homeSlice r.line) 64 (d.settle r.line)).lehr = d.lehr := by
    rw [lehr_freeSlice, lehr_settle]
  unfold Dev.access
  dsimp only
  generalize Dev.freeSlice (d.homeSlice r.line) 64 (d.settle r.line) = x at hfreed
  have hx := hawaited x hfreed
  generalize Dev.await r.agent r.line 4 (x.postReq r) = y at hx
  generalize hz : (if ((y.answer? r.agent r.line).isSome || decide (r.kind = .pref)) = true then y else _ : Dev) = z
  have hanswered : z.lehr = d.lehr := by
    rw [← hz]
    refine lehr_ite hx ?_
    rw [lehr_routerReply]
    split
    · exact (lehr_abandonTag _).trans hx
    · exact hx
  split
  · exact hanswered
  · exact hanswered

/-! ## Writes of memory -/

@[simp] theorem lehr_writeHome (agent f cls : Nat) (stream : Bool) (pa : Nat) (bs : List Byte) (poison : Bool) :
    (d.writeHome agent f cls stream pa bs poison).2.lehr = d.lehr := by
  unfold Dev.writeHome
  dsimp only
  exact lehr_access _

@[simp] theorem lehr_vwriteChunk (agent f : Nat) (stream : Bool) (cls : Option Nat) (va : Nat) (bs : List Byte) (poison : Bool) :
    (d.vwriteChunk agent f stream cls va bs poison).2.lehr = d.lehr := by
  unfold Dev.vwriteChunk
  split
  · split
    · rfl
    · dsimp only
      exact lehr_writeHome _ _ _ _ _ _ _
  · split
    · rfl
    · dsimp only
      exact lehr_ite rfl (lehr_hostWrite _ _ _ _)
  · rfl

@[simp] theorem lehr_vwrite (agent f : Nat) (stream : Bool) (cls : Option Nat) (va : Nat) (bs : List Byte) (poison : Bool) :
    (d.vwrite agent f stream cls va bs poison).2.lehr = d.lehr := by
  unfold Dev.vwrite
  refine (lehr_foldl (fun p c => ?_) _ _).trans rfl
  exact lehr_vwriteChunk _ _ _ _ _ _ _

/-! ## Reductions -/

@[simp] theorem lehr_roundComplete (num : Nat) : (d.roundComplete num).lehr = d.lehr := by
  unfold Dev.roundComplete
  split
  · rfl
  · exact lehr_ite rfl ((lehr_forEach (fun _ _ => lehr_vwrite _ _ _ _ _ _ _) _).trans rfl)

@[simp] theorem lehr_redCross (g : RedGroup) (place : Nat) : (d.redCross g place).2.lehr = d.lehr := by
  unfold Dev.redCross
  dsimp only
  split
  · rfl
  · split
    · rfl
    · exact lehr_ite (lehr_cleanFlit _ _) ((lehr_count _ _).trans ((lehr_cleanFlit _ _).trans (lehr_cleanFlit _ _)))

@[simp] theorem lehr_redArrive (num fuel : Nat) (v : RedNode) (d : Dev) : (Dev.redArrive num fuel v d).lehr = d.lehr := by
  induction fuel generalizing v d with
  | zero => rfl
  | succ fuel ih =>
    unfold Dev.redArrive
    dsimp only
    split
    · rfl
    · rename_i g _
      split
      · rfl
      · rename_i w _
        have hcrossed := lehr_redCross (d := (d.updGroup num fun g => g.arrive v).updGroup num fun g =>
          { g with nodes := eraseFirst (fun u => decide (u = w)) g.nodes }) g v.place
        generalize Dev.redCross _ g v.place = p at hcrossed
        obtain ⟨goes, x⟩ := p
        cases goes with
        | true => exact (ih _ _).trans hcrossed
        | false => exact hcrossed

@[simp] theorem lehr_contribute (num rank line : Nat) (data : List Byte) (poison : Bool) (agent : Nat) :
    (d.contribute num rank line data poison agent).lehr = d.lehr := by
  unfold Dev.contribute
  split
  · rfl
  · exact lehr_ite rfl (lehr_ite rfl ((lehr_roundComplete _).trans (lehr_redArrive _ _ _ _)))

@[simp] theorem lehr_redForward (g : RedGroup) (v : RedNode) : (d.redForward g v).lehr = d.lehr := by
  have hcrossed := lehr_redCross (d := d.updGroup g.num fun g => { g with nodes := eraseFirst (fun w => decide (w = v)) g.nodes }) g v.place
  unfold Dev.redForward
  generalize Dev.redCross _ g v.place = p at hcrossed
  obtain ⟨goes, x⟩ := p
  cases goes with
  | true => exact (lehr_roundComplete _).trans ((lehr_redArrive _ _ _ _).trans hcrossed)
  | false => exact hcrossed

@[simp] theorem lehr_redFlush (num fuel : Nat) (d : Dev) : (Dev.redFlush num fuel d).lehr = d.lehr := by
  induction fuel generalizing d with
  | zero => rfl
  | succ fuel ih =>
    unfold Dev.redFlush
    split
    · rfl
    · split
      · rfl
      · exact (ih _).trans (lehr_redForward _ _)

@[simp] theorem lehr_forceRound (num : Nat) : (d.forceRound num).lehr = d.lehr := by
  unfold Dev.forceRound
  split
  · rfl
  · refine lehr_ite rfl ?_
    dsimp only
    rw [lehr_updGroup]
    refine lehr_forEach (fun e l => ?_) d
    exact (lehr_vwrite _ _ _ _ _ _ _).trans rfl

@[simp] theorem lehr_mergeLists (r : Rider) (num : Nat) : (d.mergeLists r num).2.lehr = d.lehr := by
  unfold Dev.mergeLists
  dsimp only
  rw [lehr_count]
  generalize hx : Dev.redFlush num 64 _ = x
  have hflushed : x.lehr = d.lehr := by
    rw [← hx, lehr_redFlush]
    exact lehr_forEach (fun _ _ => lehr_forEach (fun _ _ => lehr_contribute _ _ _ _ _ _) _) d
  exact lehr_ite hflushed ((lehr_forceRound _).trans hflushed)

end Sys2Proof.Machine
end

section
/-! Keys, predicates and lists of the lehr (R234, R237, R251). -/

namespace Sys2Proof.Machine

/-! ## The key of a binary code -/

theorem popcount_eq_zero_iff (x : Byte) : popcount x.toNat 8 = 0 ↔ x = 0 := by
  rw [popcount, countIf, List.length_eq_zero_iff, List.filter_eq_nil_iff]
  constructor
  · intro h
    refine BitVec.eq_of_getLsbD_eq fun i hi => ?_
    rw [← BitVec.testBit_toNat, Bool.eq_false_iff.mpr (h i (List.mem_range.mpr hi))]
    exact (BitVec.getLsbD_zero (w := 8)).symm
  · rintro rfl i _
    simp

theorem popcount_le (v w : Nat) : popcount v w ≤ w := by
  simpa [popcount, countIf] using List.length_filter_le (fun i => v.testBit i) (List.range w)

theorem lehrKey_cons (a b : Byte) (code query : List Byte) :
    lehrKey false (a :: code) (b :: query) = popcount (a ^^^ b).toNat 8 + lehrKey false code query := by
  simp [lehrKey]

theorem lehrKey_eq_zero_iff (code query : List Byte) (h : code.length = query.length) : lehrKey false code query = 0 ↔ code = query := by
  induction code generalizing query with
  | nil =>
    rw [List.length_eq_zero_iff.mp h.symm]
    exact iff_of_true rfl rfl
  | cons a code ih =>
    cases query with
    | nil => cases h
    | cons b query =>
      rw [lehrKey_cons, Nat.add_eq_zero_iff, popcount_eq_zero_iff, ih query (Nat.succ.inj h), List.cons.injEq]
      exact and_congr_left fun _ => BitVec.xor_eq_zero_iff

theorem lehrKey_le (code query : List Byte) (h : code.length = query.length) : lehrKey false code query ≤ 8 * code.length := by
  induction code generalizing query with
  | nil => exact Nat.zero_le _
  | cons a code ih =>
    cases query with
    | nil => cases h
    | cons b query =>
      have hrest := ih query (Nat.succ.inj h)
      have hfirst := popcount_le (a ^^^ b).toNat 8
      rw [lehrKey_cons, List.length_cons]
      omega

theorem lehrKey_comm (code query : List Byte) (h : code.length = query.length) : lehrKey false code query = lehrKey false query code := by
  induction code generalizing query with
  | nil => rw [List.length_eq_zero_iff.mp h.symm]
  | cons a code ih =>
    cases query with
    | nil => cases h
    | cons b query => rw [lehrKey_cons, lehrKey_cons, ih query (Nat.succ.inj h), BitVec.xor_comm]

/-! ## The key of an integer code -/

theorem signed_bounds (x : Byte) : -128 ≤ signed x.toNat 8 ∧ signed x.toNat 8 < 128 := by
  have hx : x.toNat % 2 ^ 8 < 256 := Nat.mod_lt _ (by decide)
  unfold signed
  split
  · exact ⟨by omega, by omega⟩
  · exact ⟨by omega, by omega⟩

theorem signed_mul_le (x y : Byte) : signed x.toNat 8 * signed y.toNat 8 ≤ 16384 := by
  obtain ⟨hx, hx'⟩ := signed_bounds x
  obtain ⟨hy, hy'⟩ := signed_bounds y
  nlinarith

/-- The dot product of two lists of signed bytes. -/
def dot (code query : List Byte) : Int := ((code.zip query).map fun e => signed e.1.toNat 8 * signed e.2.toNat 8).sum

theorem dot_le (code query : List Byte) : dot code query ≤ 16384 * code.length := by
  induction code generalizing query with
  | nil => exact Int.le_refl 0
  | cons a code ih =>
    cases query with
    | nil => exact Int.mul_nonneg (by decide) (Int.natCast_nonneg _)
    | cons b query =>
      have hrest := ih query
      have hfirst := signed_mul_le a b
      have hsum : dot (a :: code) (b :: query) = signed a.toNat 8 * signed b.toNat 8 + dot code query := by
        simp [dot]
      rw [hsum, List.length_cons, Nat.cast_succ]
      linarith

theorem lehrKey_dot {code query : List Byte} (h : code.length = 256) : (lehrKey true code query : Int) = 0x400000 - dot code query := by
  have hle := dot_le code query
  rw [h] at hle
  exact Int.toNat_of_nonneg (by change 0 ≤ 0x400000 - dot code query; omega)

/-! ## Predicates and lists -/

theorem passes_deleted (r : Rider) {w : Nat} (h : w.testBit 63 = true) : r.passes w = false := by
  simp only [Rider.passes, bit, h, Bool.not_true, Bool.false_and]

theorem passes_parts (r : Rider) {w : Nat} (h : r.passes w = true) : r.kindMask.getLsbD (w / 2 ^ 20 % 16) = true ∧
    (r.cutoff ≠ 0xFFFFF → w % 2 ^ 20 ≠ 0xFFFFF ∧ (if r.dateIncl then w % 2 ^ 20 ≤ r.cutoff.toNat else w % 2 ^ 20 < r.cutoff.toNat)) ∧
    (r.classAny ≠ 0 → BitVec.ofNat 32 (w / 2 ^ 24 % 2 ^ 32) &&& r.classAny ≠ 0) ∧ BitVec.ofNat 32 (w / 2 ^ 24 % 2 ^ 32) &&& r.classNone = 0 := by
  simp only [Rider.passes, bits_zero] at h
  simp only [bits, Bool.and_eq_true, Bool.or_eq_true] at h
  obtain ⟨⟨⟨⟨-, hdate⟩, hkind⟩, hany⟩, hnone⟩ := h
  refine ⟨hkind, fun hcut => ?_, fun hclass => of_decide_eq_true (hany.resolve_left fun h0 => hclass (of_decide_eq_true h0)),
    of_decide_eq_true hnone⟩
  obtain ⟨hknown, hin⟩ := hdate.resolve_left fun h0 => hcut (of_decide_eq_true h0)
  refine ⟨of_decide_eq_true hknown, ?_⟩
  cases hincl : r.dateIncl with
  | true =>
    rw [hincl] at hin
    exact of_decide_eq_true hin
  | false =>
    rw [hincl] at hin
    exact of_decide_eq_true hin

end Sys2Proof.Machine
end

section
/-! A ride from its record to its result (R247 to R262). -/

namespace Sys2Proof.Machine

variable {s : State} {d : Dev} {f : Nat} {c : Cmd} {r : Rider}

theorem startRide_boards {bs : List Byte} {x : Corpus} (hrun : d.lehr.running = true) (hstop : d.lehr.stopping = none) (hcopied : c.copied = some bs)
    (hver : leAt bs 0 1 = 1) (hx : d.lehr.corpus? (leAt bs 1 1 % 16) = some x) (haccess : x.access.getLsbD f = true)
    (hlen : 64 + codeBytes x.i8 ≤ bs.length) :
    let rider := riderOf f c d.lehr.nextRider d.nextAccept (d.facet f).quota.maxClass (bs.take 64) ((bs.drop 64).take (codeBytes x.i8))
    d.riderOk rider = true → d.ridersOf f < (d.facet f).quota.riders → countIf Rider.isWaiting d.lehr.riders < 4096 →
    startRide d f c = .running (Dev.updLehr { d with nextAccept := d.nextAccept + 1 } fun l =>
      { l with riders := l.riders ++ [rider], nextRider := l.nextRider + 1 }) := by
  intro rider hok hquota hqueue
  have hx' : d.lehr.corpus? (bits (leAt bs 1 1) 0 4) = some x := by
    rw [bits_zero]
    exact hx
  have hfields : ¬ (bs.length < 64 + codeBytes x.i8 ∨ d.riderOk rider = false) := by
    rintro (h | h)
    · exact absurd hlen (Nat.not_le.mpr h)
    · exact Bool.false_ne_true (h.symm.trans hok)
  simp only [startRide, hrun, hstop, Option.isSome_none, Bool.not_true, Bool.or_self, Bool.false_eq_true, if_false, hcopied, hver, ne_eq,
    not_true_eq_false, hx', haccess]
  exact (if_neg hfields).trans ((if_neg (Nat.not_le.mpr hquota)).trans (if_neg (Nat.not_le.mpr hqueue)))

section cancel
variable {o : Cmd} (ho : (d.facet f).target c 4 = some o)
  (hr : (d.lehr.riders.find? fun r => r.present && decide (r.facet = f) && decide (r.serial = o.serial)) = some r)
include ho hr

theorem startRideCancel_waiting (h : r.state = .waiting) : startRideCancel d f c = .ended (d.endRider r 0x305 0) 0 0 := by
  have hw : r.isWaiting = true := decide_eq_true h
  simp only [startRideCancel, ho, hr, hw, if_true]

theorem startRideCancel_aboard (h : r.state = .aboard) : startRideCancel d f c =
    .running (d.updRider r.id fun r => { r with ending := some (r.ending.getD 0x305), cancels := r.cancels ++ [c.serial] }) := by
  have hw : r.isWaiting = false := by
    rw [Rider.isWaiting, h]
    rfl
  simp only [startRideCancel, ho, hr, hw, Bool.false_eq_true, if_false]

end cancel

/-! ## Boundaries -/

section boundary
variable (hrun : s.dev.lehr.running = true)
include hrun

theorem blockBoundary_none {e : Dev} (h : s.dev.boundary = (none, e)) : exec .blockBoundary s = .next (s.to e) := by
  refine congrArg (fun e => Host.Outcome.next (s.to e)) ((if_neg (not_not_true hrun)).trans ?_)
  simp only [h]

theorem blockBoundary_starts {c : Nat} {b : CorpusBlock} {e : Dev} (h : s.dev.boundary = (some (c, b), e))
    (hstaged : b.far = true → e.lehr.isStaged c b.number = true) : exec .blockBoundary s = .next (s.to (e.startBlock c b)) := by
  have hgo : ¬ (b.far && !e.lehr.isStaged c b.number) = true := by
    simpa using hstaged
  refine congrArg (fun e => Host.Outcome.next (s.to e)) ((if_neg (not_not_true hrun)).trans ?_)
  simp only [h]
  exact if_neg hgo

theorem blockBoundary_waits {c : Nat} {b : CorpusBlock} {e : Dev} (h : s.dev.boundary = (some (c, b), e)) (hfar : b.far = true)
    (hstaged : e.lehr.isStaged c b.number = false) : exec .blockBoundary s = .next s := by
  refine congrArg (fun e => Host.Outcome.next (s.to e)) (a₂ := s.dev) ((if_neg (not_not_true hrun)).trans ?_)
  simp only [h, hfar, hstaged, Bool.not_false, Bool.and_self, if_true]

theorem farBlockStaged_eq {c : Nat} {b : CorpusBlock} {x : Corpus} (h : s.dev.stageNext = some (c, b)) (hx : s.dev.lehr.corpus? c = some x) :
    let r := s.dev.readCodes x.i8 b
    exec .farBlockStaged s = .next (s.to (r.2.updLehr fun l => { l with staged := l.staged ++ [⟨c, b.number, r.1.1, r.1.2⟩] })) := by
  refine congrArg (fun e => Host.Outcome.next (s.to e)) ((if_neg (not_not_true hrun)).trans ?_)
  simp only [h, hx]

end boundary

theorem candidateMerge_eq {seat die : Nat} {e : Nat × Nat × Nat} (hr : (s.dev.lehr.riders.find? fun r => r.isAboard && decide (r.seat = seat)) = some r)
    (he : (s.dev.lehr.cands.find? fun e => decide (e.1 = r.id) && decide (e.2.1 = die)) = some e) :
    exec (.candidateMerge seat die) s = .next (s.to (s.dev.takeCandidate e)) := by
  refine congrArg (fun e => Host.Outcome.next (s.to e)) ?_
  simp only [hr, he]

/-! ## Results -/

/-- The block once a rider's list is written, or its group's root has written it (R258). -/
def Dev.listMerged (d : Dev) (rider : Nat) (r : Rider) : Dev :=
  let mapped := d.deviceRange r.facet r.resultVa (128 + 8 * r.kPrime) true
  match r.group with
  | none => if mapped = true then
      (d.vwrite agentLehr r.facet true (some 3) (r.resultVa + 128) (entryBytes r.kPrime r.result) r.poisoned).2 else d
  | some g =>
    let m := if mapped = true then d.mergeLists r g else (r.poisoned, d)
    (m.2.updRider rider fun r => { r with group := none, poisoned := m.1 }).passGroup g

section merged
variable {rider : Nat} (hr : s.dev.lehr.rider? rider = some r) (hstate : r.state = .merging) (hwait : rider ∉ s.dev.lehr.mergeWait)
include hr hstate hwait

theorem riderResultMerged_eq : exec (.riderResultMerged rider) s = .next (s.to
    (let merged := s.dev.listMerged rider r
     if !s.dev.deviceRange r.facet r.resultVa (128 + 8 * r.kPrime) true then merged.endRider r 0x30B 0
     else
       let q := (merged.lehr.rider? rider).getD r
       let e := merged.gwrite q.facet q.resultVa q.header
       if q.rerank then e.updRider rider fun r => { r with state := .gathering } else e.endRider q q.status q.count)) := by
  have hgo : ¬ (r.state ≠ .merging ∨ s.dev.lehr.mergeWait.contains rider = true) := by
    rintro (h | h)
    · exact h hstate
    · exact hwait (List.contains_iff_mem.mp h)
  refine congrArg (fun e => Host.Outcome.next (s.to e)) ?_
  beta_reduce
  rw [hr]
  refine (if_neg hgo).trans ?_
  unfold Dev.listMerged
  generalize s.dev.deviceRange r.facet r.resultVa (128 + 8 * r.kPrime) true = mapped
  cases r.group with
  | none => rfl
  | some g =>
    generalize hm : s.dev.mergeLists r g = m
    cases mapped with
    | false => rfl
    | true => rfl

end merged

/-- A block's riders write their results where the same riders of another block do (R258). -/
def Dev.SameAims (d e : Dev) : Prop :=
  ∀ n q, e.lehr.rider? n = some q → ∃ r, d.lehr.rider? n = some r ∧ q.facet = r.facet ∧ q.resultVa = r.resultVa

theorem Dev.SameAims.of_lehr {d e : Dev} (h : e.lehr = d.lehr) : d.SameAims e := fun _ q hq => ⟨q, h ▸ hq, rfl, rfl⟩

theorem Dev.SameAims.trans {d e x : Dev} (h : d.SameAims e) (h' : e.SameAims x) : d.SameAims x := fun n q hq => by
  obtain ⟨r, hr, hfacet, hva⟩ := h' n q hq
  obtain ⟨r', hr', hfacet', hva'⟩ := h n r hr
  exact ⟨r', hr', hfacet.trans hfacet', hva.trans hva'⟩

theorem find?_updFirst_of_keeps {α : Type} {p q : α → Bool} {g : α → α} (hg : ∀ x, q (g x) = q x) {l : List α} {y : α}
    (h : (updFirst p g l).find? q = some y) : ∃ x, l.find? q = some x ∧ (y = x ∨ y = g x) := by
  induction l with
  | nil => cases h
  | cons x xs ih =>
    unfold updFirst at h
    by_cases hp : p x = true
    · rw [if_pos hp, List.find?_cons, hg] at h
      rw [List.find?_cons]
      cases hq : q x with
      | true =>
        rw [hq] at h
        exact ⟨x, rfl, .inr (Option.some.inj h).symm⟩
      | false =>
        rw [hq] at h
        exact ⟨y, h, .inl rfl⟩
    · rw [if_neg hp, List.find?_cons] at h
      rw [List.find?_cons]
      cases hq : q x with
      | true =>
        rw [hq] at h
        exact ⟨x, rfl, .inl (Option.some.inj h).symm⟩
      | false =>
        rw [hq] at h
        exact ih h

/-- A rider's update that keeps its number, its facet and its address keeps every rider's aim. -/
theorem Dev.sameAims_updRider (d : Dev) (id : Nat) {g : Rider → Rider} (hid : ∀ r, (g r).id = r.id) (hfacet : ∀ r, (g r).facet = r.facet)
    (hva : ∀ r, (g r).resultVa = r.resultVa) : d.SameAims (d.updRider id g) := fun n q hq => by
  obtain ⟨r, hr, rfl | rfl⟩ := find?_updFirst_of_keeps (g := g) (fun x => by rw [hid]) hq
  · exact ⟨_, hr, rfl, rfl⟩
  · exact ⟨r, hr, hfacet r, hva r⟩

theorem Dev.sameAims_openMerge (d : Dev) (r : Rider) (num : Nat) : d.SameAims (d.openMerge r num) :=
  (Dev.SameAims.of_lehr (e := { d with groups := (d.openMerge r num).groups }) rfl).trans
    (Dev.sameAims_updRider _ r.id (fun _ => rfl) (fun _ => rfl) fun _ => rfl)

theorem Dev.sameAims_passGroup (d : Dev) (num : Nat) : d.SameAims (d.passGroup num) := by
  unfold Dev.passGroup
  dsimp only
  split
  · exact .of_lehr rfl
  · exact (Dev.SameAims.of_lehr (e := d.closeGroup num) rfl).trans (Dev.sameAims_openMerge _ _ _)

/-- Writing a rider's list, or merging its group's, moves no rider's result. -/
theorem Dev.sameAims_listMerged (d : Dev) (rider : Nat) (r : Rider) : d.SameAims (d.listMerged rider r) := by
  unfold Dev.listMerged
  dsimp only
  cases r.group with
  | none => exact .of_lehr (lehr_ite (lehr_vwrite _ _ _ _ _ _ _) rfl)
  | some g =>
    refine Dev.SameAims.trans ?_ (Dev.sameAims_passGroup _ g)
    refine Dev.SameAims.trans (Dev.SameAims.of_lehr ?_) (Dev.sameAims_updRider _ rider (fun _ => rfl) (fun _ => rfl) fun _ => rfl)
    split
    · exact lehr_mergeLists r g
    · rfl

theorem Dev.rider_listMerged {d : Dev} {rider : Nat} (hr : d.lehr.rider? rider = some r) :
    (((d.listMerged rider r).lehr.rider? rider).getD r).facet = r.facet ∧ (((d.listMerged rider r).lehr.rider? rider).getD r).resultVa = r.resultVa := by
  cases hq : (d.listMerged rider r).lehr.rider? rider with
  | none => exact ⟨rfl, rfl⟩
  | some q =>
    obtain ⟨r', hr', hfacet, hva⟩ := d.sameAims_listMerged rider r rider q hq
    obtain rfl : r = r' := Option.some.inj (hr.symm.trans hr')
    exact ⟨hfacet, hva⟩

/-- The rider after its list is written, whose header follows it. -/
def Dev.mergedRider (d : Dev) (rider : Nat) (r : Rider) : Rider := ((d.listMerged rider r).lehr.rider? rider).getD r

/-- The block once a rider's list and header are written (R258). -/
def Dev.resultMerged (d : Dev) (rider : Nat) (r : Rider) : Dev := (d.listMerged rider r).gwrite r.facet r.resultVa (d.mergedRider rider r).header

section mergedCases
variable {rider : Nat} (hr : s.dev.lehr.rider? rider = some r) (hstate : r.state = .merging) (hwait : rider ∉ s.dev.lehr.mergeWait)
include hr hstate hwait

theorem riderResultMerged_unmapped (hm : s.dev.deviceRange r.facet r.resultVa (128 + 8 * r.kPrime) true = false) :
    exec (.riderResultMerged rider) s = .next (s.to ((s.dev.listMerged rider r).endRider r 0x30B 0)) :=
  (riderResultMerged_eq hr hstate hwait).trans (congrArg (fun e => Host.Outcome.next (s.to e)) (if_pos (by rw [hm]; rfl)))

section mapped
variable (hm : s.dev.deviceRange r.facet r.resultVa (128 + 8 * r.kPrime) true = true)
include hm

theorem riderResultMerged_mapped : exec (.riderResultMerged rider) s = .next (s.to
    (if (s.dev.mergedRider rider r).rerank then (s.dev.resultMerged rider r).updRider rider fun r => { r with state := .gathering }
     else (s.dev.resultMerged rider r).endRider (s.dev.mergedRider rider r) (s.dev.mergedRider rider r).status (s.dev.mergedRider rider r).count)) := by
  refine (riderResultMerged_eq hr hstate hwait).trans (congrArg (fun e => Host.Outcome.next (s.to e)) ((if_neg (not_not_true hm)).trans ?_))
  obtain ⟨hfacet, hva⟩ := Dev.rider_listMerged hr
  unfold Dev.resultMerged
  rw [← hfacet, ← hva]
  rfl

theorem riderResultMerged_gathers (hre : (s.dev.mergedRider rider r).rerank = true) : exec (.riderResultMerged rider) s = .next (s.to
    ((s.dev.resultMerged rider r).updRider rider fun r => { r with state := .gathering })) :=
  (riderResultMerged_mapped hr hstate hwait hm).trans (congrArg (fun e => Host.Outcome.next (s.to e)) (if_pos hre))

theorem riderResultMerged_ends (hre : (s.dev.mergedRider rider r).rerank = false) : exec (.riderResultMerged rider) s = .next (s.to
    ((s.dev.resultMerged rider r).endRider (s.dev.mergedRider rider r) (s.dev.mergedRider rider r).status (s.dev.mergedRider rider r).count)) :=
  (riderResultMerged_mapped hr hstate hwait hm).trans (congrArg (fun e => Host.Outcome.next (s.to e)) (if_neg (Bool.eq_false_iff.mp hre)))

end mapped
end mergedCases

/-! ## The gather -/

/-- The records of a rider's gather: the entries with their dot products, read one after the other (R260). -/
def Dev.gatherRecords (d : Dev) (r : Rider) : List (Nat × Option Int) × Dev :=
  let v := d.vread agentLehr r.facet true (some 3) r.fullqVa 1024
  let query := if v.1.ok = true ∧ v.1.poison = false then some v.1.bytes else none
  (r.result.take r.count).foldl (fun (acc : List (Nat × Option Int) × Dev) e =>
    (acc.1 ++ [(acc.2.gatherEntry r query e).1], (acc.2.gatherEntry r query e).2)) ([], v.2)

/-- The block once the records of a gather are written. -/
def Dev.gathered (d : Dev) (r : Rider) : Dev :=
  let recs := d.gatherRecords r
  let list := sortBy gatherBefore (recs.1.filter fun e => e.2.isSome) ++ recs.1.filter fun e => e.2.isNone
  let head := [1, 0] ++ leBytes 2 recs.1.length ++ leBytes 2 (recs.1.filter fun e => e.2.isNone).length ++ leBytes 122 0
  (recs.2.vwrite agentLehr r.facet true (some 3) r.rerankVa (head ++ (list.map gatherRecord).flatten) false).2.count 0x604038 1

theorem rerankGatherDone_eq {rider : Nat} (hr : s.dev.lehr.rider? rider = some r) (hstate : r.state = .gathering) :
    exec (.rerankGatherDone rider) s = .next (s.to
      (if !r.handoff then (s.dev.gathered r).endRider r r.status r.count
       else match (s.dev.gathered r).handOff r with
        | some e => e.endRider r r.status r.count
        | none => (s.dev.gathered r).endRider r 0x307 r.count)) := by
  refine congrArg (fun e => Host.Outcome.next (s.to e)) ?_
  simp only [hr]
  refine (if_neg (not_not_intro hstate)).trans ?_
  have hquery (v : ReadResult) : (if v.ok && !v.poison then some v.bytes else none) =
      if v.ok = true ∧ v.poison = false then some v.bytes else none := by
    simp only [Bool.and_eq_true, Bool.not_eq_true']
  simp only [hquery]
  rfl

section gathers
variable {rider : Nat} (hr : s.dev.lehr.rider? rider = some r) (hstate : r.state = .gathering)
include hr hstate

theorem rerankGatherDone_ends (hh : r.handoff = false) : exec (.rerankGatherDone rider) s = .next (s.to ((s.dev.gathered r).endRider r r.status r.count)) :=
  (rerankGatherDone_eq hr hstate).trans (congrArg (fun e => Host.Outcome.next (s.to e)) (if_pos (by rw [hh]; rfl)))

theorem rerankGatherDone_handsOff {t : Dev} (hh : r.handoff = true) (ht : (s.dev.gathered r).handOff r = some t) :
    exec (.rerankGatherDone rider) s = .next (s.to (t.endRider r r.status r.count)) := by
  refine (rerankGatherDone_eq hr hstate).trans (congrArg (fun e => Host.Outcome.next (s.to e)) ((if_neg (not_not_true hh)).trans ?_))
  rw [ht]

theorem rerankGatherDone_refused (hh : r.handoff = true) (ht : (s.dev.gathered r).handOff r = none) :
    exec (.rerankGatherDone rider) s = .next (s.to ((s.dev.gathered r).endRider r 0x307 r.count)) := by
  refine (rerankGatherDone_eq hr hstate).trans (congrArg (fun e => Host.Outcome.next (s.to e)) ((if_neg (not_not_true hh)).trans ?_))
  rw [ht]

end gathers

/-- Settles O42. -/
theorem lehrQueries : Obligations.LehrQueries := by
  unfold Obligations.LehrQueries
  refine ⟨fun s => ?_, fun _ _ => rfl, lehrKey_eq_zero_iff, lehrKey_le, lehrKey_comm, fun code query h _ => lehrKey_dot h,
    fun r w h => passes_deleted r h, fun r w h => passes_parts r h⟩
  have run {x y : Dev} (h : x = y) : (Host.Outcome.next (s.to x) : Out) = .next (s.to y) := congrArg (fun e => Host.Outcome.next (s.to e)) h
  refine ⟨?_, ?_, ?_, ?_, ?_, ?_⟩
  · intro f w c h t bs x hrun hstop hcopied hver hx haccess hlen rider hok hquota hqueue
    subst rider
    subst t
    have hstart := startRide_boards (d := s.dev.recordTaken f w c) (c := { c with state := .running }) hrun hstop hcopied hver hx haccess hlen
      hok hquota hqueue
    exact run (takeRecord_running h rfl hstart)
  · intro f w c h t o r ho hr
    subst t
    exact ⟨fun hstate => run (takeRecord_ended h rfl (startRideCancel_waiting ho hr hstate)),
      fun hstate => run (takeRecord_running h rfl (startRideCancel_aboard ho hr hstate))⟩
  · intro hrun
    exact run (if_pos (by rw [hrun]; rfl))
  · intro hrun
    exact ⟨fun e h => blockBoundary_none hrun h, fun c b e h hs => blockBoundary_starts hrun h hs,
      fun c b e h hfar hs => blockBoundary_waits hrun h hfar hs, fun c b x h hx => farBlockStaged_eq hrun h hx⟩
  · intro seat die r e hr he
    exact candidateMerge_eq hr he
  · intro rider r hr
    refine ⟨fun hstate hwait => ⟨fun hm => ?_, fun hm => ⟨fun hre => ?_, fun hre => ?_⟩⟩, fun hstate => ⟨fun hh => ?_, fun hh t ht => ?_, fun hh ht => ?_⟩⟩
    · exact riderResultMerged_unmapped hr hstate hwait hm
    · exact riderResultMerged_gathers hr hstate hwait hm hre
    · exact riderResultMerged_ends hr hstate hwait hm hre
    · exact rerankGatherDone_ends hr hstate hh
    · exact rerankGatherDone_handsOff hr hstate hh ht
    · exact rerankGatherDone_refused hr hstate hh ht

end Sys2Proof.Machine
end
